-- ==== Sys2Proof/Word.lean ====
section
/-! DEFINITION. The word types of the block: bytes, byte strings, 256-bit keys, and sparse tables. -/

namespace Sys2Proof

/-- One byte. -/
abbrev Byte := BitVec 8

/-- A byte string, first byte first. -/
abbrev Bytes := List Byte

/-- A counter or other 64-bit quantity. -/
abbrev W64 := BitVec 64

/-- A sparse table: keys strictly rising, an unlisted key holds the table's default. -/
abbrev Map (α : Type) := List (Nat × α)

end Sys2Proof
end

