-- ==== Sys2Proof/Syntax.lean ====
section
/-! DEFINITION. The commands of the block: one constructor per row of spec/opcode_table.json, with its operands. -/

namespace Sys2Proof

/-- A transport endpoint of the dictionary (Table 12.3): a CAN FD client node, the mailbox of a physical or virtual
function (port, partition), or Kwaxel management on a link. -/
inductive Endpoint where
  | can (node : Nat)
  | pf (port : Nat)
  | vf (port part : Nat)
  | mgmt (link : Nat)
  deriving DecidableEq, Repr

/-- A ZDP request's sender and TAG (Table 12.4); `short`: its LENGTH disagrees with its carrier (R403, R404, R510). -/
structure Zdp where
  ep : Endpoint
  tag : Nat
  short : Bool := false
  deriving DecidableEq, Repr

/-- A queue register of Table 8.3 that a write names. -/
inductive QReg where
  | sqBase | cjBase | cfg | moderation | intEnable
  deriving DecidableEq, Repr

/-- Where a PCIe error response or poisoned data arose (R285). -/
inductive PcieErr where
  | ringFetch (q : Nat)
  | operand (tag : Nat)
  | journal (q : Nat)
  deriving DecidableEq, Repr

/-- Outcome of a die read (R174): pages corrected at hard decision, after `n` retry levels, by soft decoding, or not; `mismatch`: decoded, but
the record fails its CRC (R133). -/
inductive ReadOutcome where
  | hard (heavy : Bool)
  | retry (levels : Nat)
  | soft
  | uncorrectable
  | mismatch
  deriving DecidableEq, Repr

/-- One end of a Kwaxel link: the module's link n, or link k of the UL1-PX block (17). -/
inductive LinkEnd where
  | module (n : Nat)
  | block (k : Nat)
  deriving DecidableEq, Repr

/-- A unit that a self-test or a training found bad: KIND, FIELD, UNIT and REASON of Table 13.10. -/
structure Found where
  kind : Nat
  field : Nat := 0
  unit : Nat
  reason : Nat := 1
  deriving DecidableEq, Repr

/-- A structure or row that a fault makes unreadable beyond correction (Table 15.8). -/
inductive Lost where
  | seqRecord (seq : Nat)
  | leafTable (seq group : Nat)
  | directory (seq : Nat)
  | header (fid : Nat)
  | dirEntry (fid : Nat)
  | pip (id : Nat)
  | eventRing
  | snapshot (id : Nat)
  | mapPage (page : Nat)
  deriving DecidableEq, Repr

/-- A REQ frame's fields after KIND (Table 16.8) with its link, virtual lane and payload. -/
structure Req where
  link : Nat
  vl : Nat
  colour : Nat := 0
  part : Nat := 0
  queue : Nat := 0
  select : Nat := 0
  rtag : Nat := 0
  value : Nat := 0
  first : Nat := 0
  count : Nat := 0
  addr : Nat := 0
  payload : Bytes := []
  deriving DecidableEq, Repr

/-- One sensor's sample (R558): its code of Table 18.7, the reading in the unit of Table 18.9 (none: the sensor has failed),
and the hottest of its neighbours, which R560 takes for the trip of a failed one. -/
structure Sample where
  code : Nat
  value : Option Int
  near : Int := 0
  deriving DecidableEq, Repr

/-- An event on the TAP's pins (R550). -/
inductive TapEv where
  | rise (tms tdi : Bool)
  | fall
  | trst
  deriving DecidableEq, Repr

/-- The commands. `tag` is the OTT tag of a fetched operation, `q` a queue number Q (R259), `z` the sender of a ZDP
request, `v` a value as carried, `p` a partition, `x` a port or link as its row says. -/
inductive Instr where
  | descriptorFetch
  | ottStallResume
  | copy (tag : Nat)
  | sliceWrite (tag : Nat)
  | sliceRead (tag : Nat)
  | stage (tag : Nat)
  | seqOpen (tag : Nat)
  | seqFork (tag : Nat)
  | seqTruncate (tag : Nat)
  | seqDiscard (tag : Nat)
  | chainSearchProbe (tag : Nat)
  | chainSearchAttach (tag : Nat)
  | maskedSearch (tag : Nat)
  | purgePrivate (tag : Nat)
  | inspectSeq (tag : Nat)
  | inspectFrame (tag : Nat)
  | pipInspect (tag : Nat)
  | indexQuery (tag : Nat)
  | attendForward (tag : Nat)
  | attendBackward (tag : Nat)
  | attendDispatch
  | saveDiscard (tag : Nat)
  | saveExpiry (p id : Nat)
  | gather (tag : Nat)
  | reduce (tag : Nat)
  | collect (tag : Nat)
  | collectTimeout (tag : Nat)
  | nop (tag : Nat)
  | list (q : Nat)
  | sqTailDoorbell (port fn q idx : Nat)
  | cjHeadDoorbell (port fn q idx : Nat)
  | queueEnable (q : Nat)
  | queueDisable (q : Nat)
  | queueFlush (q : Nat)
  | queueRegisterWrite (q : Nat) (r : QReg) (v : W64)
  | journalFullRecordWrite (q : Nat)
  | moderationTimeTrigger (q : Nat)
  | msixUnmask (port fn vec : Nat)
  | pcieErrorResponse (e : PcieErr)
  | ottHwmRead (z : Zdp) (p : Nat)
  | ottReserveWrite (z : Zdp) (p : Nat) (v : Bytes)
  | ottCapWrite (z : Zdp) (p : Nat) (v : Bytes)
  | camPlace (fid : Nat)
  | mapCacheWaitResume (tag : Nat)
  | suspendHoldoffExpiry (die : Nat)
  | pageReadDone (die : Nat) (o : ReadOutcome)
  | punnetFlushTimer (key : Option Nat)
  | punnetProgramDone (die : Nat) (pass : Bool)
  | superblockEraseDone (die : Nat) (pass : Bool)
  | retentionRefresh (die sb hotSteps : Nat)
  | rootCheckpoint
  | mediaSync (z : Zdp)
  | shutdownPrepare (z : Zdp)
  | ageTick
  | freeCommitStep2 (fid : Nat) (layer : Option Nat)
  | writebackDelayExpiry (fid layer : Nat)
  | writebackComplete (fid layer : Nat)
  | allocWaitResume (tag : Nat)
  | allocWaitTimeout (tag : Nat)
  | deferredRelease (seq block : Nat)
  | referenceRecount
  | frameRecountDone (fid : Nat)
  | camScrub (bank : Nat) (rows : List Nat)
  | camBankRefill (bank : Nat)
  | domainPurge (z : Zdp) (v : Bytes)
  | shareDomainWrite (z : Zdp) (d sub : Nat) (v : Bytes)
  | profileBindingWrite (z : Zdp) (p slot : Nat) (v : Bytes)
  | upprojWrite (z : Zdp) (n : Nat) (v : Bytes)
  | projWrite (z : Zdp) (n : Nat) (v : Bytes)
  | indexGeometryWrite (z : Zdp) (n sub : Nat) (v : Bytes)
  | planWrite (z : Zdp) (p n : Nat) (v : Bytes)
  | markStepBegin (link p n : Nat)
  | markStart (link p n i : Nat)
  | pushBegin (p n : Nat)
  | pushComplete (p n : Nat)
  | pipComputeDone (seq : Nat) (span : Bool) (item group : Nat)
  | pipProgramBatchDone (array : Nat) (codes : List (List (List Int)))
  | arrayCalibration (array : Nat)
  | arrayReprogramStart (array : Nat)
  | arrayReprogramDone (array : Nat)
  | pipRefresh (array col : Nat)
  | portServeUnit (x dir : Nat)
  | waitingUnitEnqueue (x dir s c : Nat)
  | queueSample
  | leafStatsRead (z : Zdp) (p c x : Nat)
  | leafCfgWrite (z : Zdp) (p c x : Nat) (v : Bytes)
  | nodeCfgWrite (z : Zdp) (c x : Nat) (v : Bytes)
  | meterCfgWrite (z : Zdp) (p c : Nat) (v : Bytes)
  | derateWrite (z : Zdp) (kind : Nat) (v : Bytes)
  | histReset (z : Zdp)
  | faultFence (kind field unit reason : Nat) (touched : List Nat) (lost : List Lost)
  | snapshotRequest (z : Zdp) (v : Bytes)
  | jobResume (z : Zdp) (p : Nat) (v : Bytes)
  | partitionReset (z : Zdp) (p : Nat) (v : Bytes)
  | functionLevelReset (port fn : Nat)
  | partitionDisable (z : Zdp) (p : Nat) (v : Bytes)
  | resetGraceExpiry (queue : Bool) (n : Nat)
  | portReset (port cause : Nat)
  | protectionWrite (z : Zdp) (p sub : Nat) (v : Bytes)
  | protectionBatch (z : Zdp) (v : Bytes)
  | frameQuotaWrite (z : Zdp) (p : Nat) (v : Bytes)
  | zdpOpen (z : Zdp) (role part : Nat)
  | zdpClose (z : Zdp)
  | describe (z : Zdp) (ix sub : Nat)
  | read (z : Zdp) (ix sub : Nat)
  | write (z : Zdp) (ix sub : Nat) (v : Bytes)
  | segReadInit (z : Zdp) (ix sub : Nat)
  | segWriteInit (z : Zdp) (ix sub total : Nat)
  | segData (z : Zdp) (ix sub offset : Nat) (data : Bytes)
  | segEnd (z : Zdp) (ix sub check : Nat)
  | segAbort (z : Zdp) (ix sub : Nat)
  | watch (z : Zdp) (ix sub : Nat)
  | unwatch (z : Zdp) (ix sub : Nat)
  | notify (ep : Endpoint) (ix sub : Nat)
  | notifyAck (port fn : Nat)
  | segmentTimeout (ep : Endpoint)
  | sessionIdle (node : Nat)
  | kxlOwnerLinksWrite (z : Zdp) (sub : Nat) (v : Bytes)
  | canFrameIgnored
  | canBusOff (millis : Nat)
  | powerOnReset (straps nor ctl : Nat)
  | startPhaseComplete (found : List Found) (reason detail : Nat)
  | startPhaseBudgetExpiry
  | startFailRestart
  | startSettle
  | norRetry (nor ctl : Nat)
  | restart (z : Zdp) (v : Bytes)
  | startFailClear (z : Zdp) (v : Bytes)
  | firmwareUpdate (z : Zdp) (v : Bytes)
  | firmwareActivate (z : Zdp) (v : Bytes)
  | defectAdd (z : Zdp) (v : Bytes)
  | factoryToken (z : Zdp) (v : Bytes)
  | forensicRead (z : Zdp) (v : Bytes) (o : ReadOutcome)
  | bistCoreTest (rind : Bool) (field core : Nat) (pass : Bool)
  | refEdgesPresent (k : Nat)
  | refQualifyTimer (k : Nat)
  | refLoss (k : Nat)
  | refAbsentTimer (k : Nat)
  | meshPullInDone
  | holdover24h
  | refSelect (z : Zdp) (v : Bytes)
  | timeSet (z : Zdp) (v : Bytes)
  | positionsDecoupled (field : Nat)
  | clockFault
  | submit (r : Req)
  | tail (r : Req)
  | cjHead (r : Req)
  | pull (r : Req)
  | windowWrite (r : Req)
  | windowRead (r : Req)
  | leaseRead (r : Req)
  | reqHeldApply (link : Nat)
  | dataResponse (link vl rtag status addr : Nat) (last : Bool) (data : Bytes)
  | leaseWrite (link vl lease addr : Nat) (data : Bytes)
  | sinkFrameReject (link vl addr : Nat) (data : Bytes)
  | credit (e : LinkEnd) (limits : List Nat)
  | creditPeriod (e : LinkEnd)
  | ack (e : LinkEnd) (fseq : Nat)
  | ackDelayExpiry (e : LinkEnd)
  | nak (e : LinkEnd) (fseq : Nat)
  | frameDiscarded (e : LinkEnd) (cause : Nat)
  | replayTimeout (e : LinkEnd)
  | collFrame (link vl set member kind : Nat) (fp32 : Bool) (part round offset total : Nat) (data : Bytes)
  | collSetsWrite (z : Zdp) (v : Bytes)
  | offer (link bytes : Nat)
  | lendOfferPeriod
  | request (link bytes : Nat)
  | grant (link id term notice bytes : Nat)
  | deny (link id : Nat)
  | renew (link id : Nat)
  | revoke (link id notice : Nat)
  | released (link id : Nat)
  | leaseRenewTimer (slot : Nat)
  | leaseTermEnd (slot : Nat)
  | leaseNoticeEnd (lent : Bool) (k : Nat)
  | lendEnable (z : Zdp) (v : Bytes)
  | lendBytes (z : Zdp) (v : Bytes)
  | borrowBytes (z : Zdp) (v : Bytes)
  | linkEnable (z : Zdp) (n : Nat) (v : Bytes)
  | equalisationDone (e : LinkEnd) (lanes : List Nat)
  | trainingBlock (e : LinkEnd) (role lanes rates id : Nat) (limits : List Nat)
  | trainingAttemptTimeout (e : LinkEnd)
  | retrainInterval (e : LinkEnd)
  | lossOfLock (e : LinkEnd)
  | pxReset (level : Bool)
  | pxRequest (kind len beats : Nat) (r : Req)
  | pxMarker (k event part plan pos : Nat)
  | pxFrameAccept (k typ vl : Nat) (hdr payload : Bytes)
  | pxDeliveryBeat
  | pxLinkEnable (k v : Nat)
  | pxLinkDisable (k v : Nat)
  | pxIrqClear (v : Nat)
  | pxRegisterWrite (off v : Nat)
  | pxLinkDown (k reason : Nat)
  | powerFail (millivolts : Nat)
  | powerReturn
  | porstAssert
  | perstRelease (port : Nat)
  | sensorSample (rs : List Sample)
  | inputFallsBelow40V
  | protocolFrame (e : LinkEnd)
  | pcieRenegotiation (port lanes gts : Nat)
  | tapController (ev : TapEv)
  | operandWindowAccess (port fn off n : Nat) (data : Option Bytes)
  | equaliseTimeout (e : LinkEnd)
  deriving DecidableEq, Repr

end Sys2Proof
end

