-- ==== Sys2Proof/Decode.lean ====
section
/-! DEFINITION. Words of the command table. The rows of spec/opcode_table.json give no bits: their commands arrive as fields of
descriptors, frames, doorbells and dictionary requests, so no word spells one. -/

namespace Sys2Proof

/-- The command that a word of the table spells: none, since the table gives no row bits. -/
def decodeTableWord (nbits w : Nat) : Option Instr :=
  match nbits, w with
  | _, _ => none

end Sys2Proof
end

