-- ==== Sys2Proof/Config.lean ====
section
/-! DEFINITION. Free values: constants without a body. Each stands for a value the spec leaves open; nothing in Lean can
evaluate one, so a statement about the machine holds for every choice. The log entry of each stands in its docstring. -/

namespace Sys2Proof.Config

/-- The n-th free choice of a sequence handle (R302 says only "a free SEQ"; log 1). -/
opaque seqHint : Nat → Nat
/-- The n-th free choice of a FID (R39; log 1). -/
opaque fidHint : Nat → Nat
/-- The n-th free choice of an OTT tag (R276 says only that tags name entries; log 1). -/
opaque tagHint : Nat → Nat
/-- The internal handle shown for structure `n` of kind `k` (R307: no meaning outside; log 1). -/
opaque handle : Nat → Nat → BitVec 32
/-- Where in a lease the borrower places its n-th TN copy (R512 leaves it open; log 1). -/
opaque leaseOff : Nat → Nat
/-- The n-th RTAG the module chooses (R507; log 1). -/
opaque rtagHint : Nat → Nat
/-- The HBM stack a slice copy lies on (R25; log 12). -/
opaque stackOf : Nat → Nat → Nat
/-- The HBM pseudo-channel of its stack a slice copy lies on (R25; log 12). -/
opaque chanOf : Nat → Nat → Nat
/-- The pith core (field · 3072 + core) whose SRAM a T0 copy lies on (R25; log 12). -/
opaque coreOf : Nat → Nat → Nat
/-- The i-th bank a bank-map slot falls to (R86, R103; log 12). -/
opaque bankMap : Nat → Nat → Nat
/-- Coded payload bytes of a LOSSLESS or LOSSY_FP8 record of a valid-row image (R130: internal bitstream; log 14). -/
opaque codedBytes : Bytes → Nat
/-- Size in 16 B units of the coded form of a metadata record of KIND k (R159; log 14). -/
opaque metaUnits : Nat → Nat
/-- Salt of a domain derived at the n-th format (R80, R182; log 15). -/
opaque salt : Nat → Nat → BitVec 64
/-- Identity of the module: SERIAL, MANUFACTURE_DATE, STEPPING (R420; log 11). -/
opaque serial : List (BitVec 8)
opaque manufactureDate : BitVec 32
opaque stepping : BitVec 16
/-- VERSION of the recovery image, written in the factory (R435; log 11). -/
opaque recoveryVersion : BitVec 32
/-- Whether a signature is good (R436, R442: the keys are not in the spec; log 11). -/
opaque signatureGood : List (BitVec 8) → Bool
/-- Which of the values within the bound of R240 exp and log give for a binary32 argument (log 16). -/
opaque expF : BitVec 32 → BitVec 32
opaque logF : BitVec 32 → BitVec 32
/-- NumVFs of a port, the n-th time the host sets VF Enable (R355; log 9). -/
opaque numVfs : Nat → Nat
/-- Contents of bytes the spec leaves unspecified (R311, R511; log 1). -/
opaque freeByte : Nat → BitVec 8
/-- What the root keeps of an offset that two members wrote (R250; log 1), for the state's counter and uptime, the set, the
round and the offset. -/
opaque gatherByte : Nat → Nat → Nat → Nat → Nat → BitVec 8
/-- Raw page read for forensics: bytes of a page no record of the model describes (R433; log 17). -/
opaque rawPage : Nat → Nat → BitVec 8
/-- Analog conversion code of an array for a query and stored codes (R203; log 12). -/
opaque analogCode : Nat → List Int → List Int → Int
/-- The code of an index element whose quotient is not a number (R195, R201 state none; log 12). -/
opaque oddCode : BitVec 32 → BitVec 32 → Int
/-- The fixed pattern of a column group's reference column (R200; log 12). -/
opaque refPattern : Nat → List Int
/-- Whether the fit of an array's n-th calibration has an RMS above 2 codes (R219; log 12). -/
opaque fitBad : Nat → Nat → Bool
/-- Gain and offset refitted at the n-th calibration of a column group (R214; log 12). -/
opaque gainOf : Nat → Nat → BitVec 32
opaque offsetOf : Nat → Nat → BitVec 32
/-- MODULE_ID (0x1A00:01): how it follows from SERIAL is not stated (log 11). -/
opaque moduleId : BitVec 64
/-- REF_OFFSET of input `k` at `t` ns, as the 32 bits of an I32 (R464: a measurement; log 9). -/
opaque refOffset : Nat → Nat → BitVec 32
/-- Whether a factory token is good for this serial number and GENERATION, and whether it names an entry: the token's layout is
not in the spec (R442; log 11). -/
opaque tokenGood : List (BitVec 8) → Nat → Bool
opaque tokenNames : List (BitVec 8) → List (BitVec 8) → Bool
/-- The KIND that STRUCTURE_LOST names for the event ring: Table 5.4 gives it none (R488; log 34). -/
opaque ringKind : BitVec 32
/-- Whether the UL1-PX block was built with two links (R524; log 18). -/
opaque twoLinks : Bool

/-- Cells of the boundary-scan chain and what the n-th edge finds on their pins (R550 gives neither number nor order; log 10). -/
opaque boundaryLen : Nat
opaque boundary : Nat → Nat → Bool

/-- References of frame `fid` that its recount has counted by time `up`, before it ends (R74). -/
opaque countSoFar (fid up : Nat) : Nat

end Sys2Proof.Config
end

