-- ==== Sys2Proof/Machine/Bits.lean ====
section
/-! DEFINITION. Bit fields, little-endian byte strings, CRC-32C and the 64-bit mixing steps of the chain-hash key. -/

namespace Sys2Proof.Machine

/-- Bits [lo + n - 1 : lo] of `v`. -/
def bits (v lo n : Nat) : Nat := v / 2 ^ lo % 2 ^ n

/-- Bit `i` of `v`. -/
def bit (v i : Nat) : Bool := v / 2 ^ i % 2 == 1

/-- 1 for true, 0 for false. -/
def b2n (b : Bool) : Nat := if b then 1 else 0

/-- `v` in `n` bytes, least significant first (R12). -/
def leBytes : Nat → Nat → Bytes
  | 0, _ => []
  | n + 1, v => BitVec.ofNat 8 v :: leBytes n (v / 256)

/-- The number a little-endian byte string spells (R12). -/
def leNat : Bytes → Nat
  | [] => 0
  | b :: bs => b.toNat + 256 * leNat bs

/-- `n` bytes of `bs` from offset `off`; bytes beyond the end read 0. -/
def slice (bs : Bytes) (off n : Nat) : Bytes :=
  let t := (bs.drop off).take n
  t ++ List.replicate (n - t.length) 0

/-- The little-endian field of `n` bytes at offset `off`. -/
def fld (bs : Bytes) (off n : Nat) : Nat := leNat (slice bs off n)

/-- `bs` filled with zeros to `n` bytes. -/
def padTo (bs : Bytes) (n : Nat) : Bytes := bs ++ List.replicate (n - bs.length) 0

/-- `n` rounded up to a multiple of `k`. -/
def roundUp (n k : Nat) : Nat := (n + k - 1) / k * k

/-- True when every byte is zero. -/
def allZero (bs : Bytes) : Bool := bs.all (· == 0)

/-- The two's-complement reading of the low `n` bits of `v`. -/
def signed (n v : Nat) : Int :=
  if v % 2 ^ n < 2 ^ (n - 1) then (v % 2 ^ n : Nat) else ((v % 2 ^ n : Nat) : Int) - (2 ^ n : Nat)

/-- One bit step of the CRC-32C (Castagnoli) register, reflected. -/
def crcBit (c : BitVec 32) : BitVec 32 :=
  if c.getLsbD 0 then (c >>> 1) ^^^ 0x82F63B78#32 else c >>> 1

/-- One byte step of the CRC-32C register. -/
def crcByte (c : BitVec 32) (b : Byte) : BitVec 32 :=
  let c := c ^^^ (b.setWidth 32)
  crcBit (crcBit (crcBit (crcBit (crcBit (crcBit (crcBit (crcBit c)))))))

/-- CRC-32C of a byte string. -/
def crc32c (bs : Bytes) : Nat :=
  ((bs.foldl crcByte 0xFFFFFFFF#32) ^^^ 0xFFFFFFFF#32).toNat

/-- The four 64-bit words of the hash state of sch256 (R79). -/
structure Mix where
  a : W64
  b : W64
  c : W64
  d : W64
  deriving DecidableEq, Repr

/-- `round4` of sch256 (R79). -/
def round4 (s : Mix) : Mix :=
  let a := s.a + s.b
  let b := s.b.rotateLeft 11 ^^^ a
  let a := a.rotateLeft 29
  let c := s.c + s.d
  let d := s.d.rotateLeft 19 ^^^ c
  let a := a + d
  let d := d.rotateLeft 41 ^^^ a
  let c := c + b
  let b := b.rotateLeft 23 ^^^ c
  let c := c.rotateLeft 37
  ⟨a, b, c, d⟩

/-- The initial hash state of sch256 (R79). -/
def mixInit : Mix :=
  ⟨0x537061657268616E#64, 0x556C7261642D4B56#64, 0x436861696E4B6579#64, 0x4D6568726F7A696E#64⟩

/-- One word absorbed by sch256 (R79). -/
def absorb (s : Mix) (w : W64) : Mix :=
  let s := round4 (round4 { s with d := s.d ^^^ w })
  { s with a := s.a ^^^ w }

/-- The final rounds of sch256 (R79). -/
def mixEnd (s : Mix) : Mix :=
  round4 (round4 (round4 (round4 (round4 (round4 { s with c := s.c ^^^ 0xA5#64 })))))

/-- Words 6 to 13 of sch256: token IDs in pairs. -/
def tokWords : List Nat → List W64
  | x :: y :: r => BitVec.ofNat 64 (x % 2 ^ 32 + 2 ^ 32 * (y % 2 ^ 32)) :: tokWords r
  | _ => []

/-- R79: the chain-hash key of one token block, as a 256-bit number with key[0] in bits [63:0]. -/
def sch256 (parent tag salt : Nat) (tok : List Nat) : Nat :=
  let w (i : Nat) : W64 := BitVec.ofNat 64 (parent / 2 ^ (64 * i))
  let ws := [w 0, w 1, w 2, w 3, BitVec.ofNat 64 (tag % 2 ^ 32 + 2 ^ 32 * 16), BitVec.ofNat 64 salt]
    ++ tokWords tok
  let s := mixEnd (ws.foldl absorb mixInit)
  s.a.toNat + 2 ^ 64 * s.b.toNat + 2 ^ 128 * s.c.toNat + 2 ^ 192 * s.d.toNat

end Sys2Proof.Machine
end

