-- ==== Sys2Proof/Machine/Float.lean ====
section
/-! DEFINITION. The number formats of R15, R43 and R44: BF16, binary32, E4M3 and E5M2 as bit patterns, with exact
arithmetic rounded to nearest even. -/

namespace Sys2Proof.Machine

/-- A decoded number: a finite dyadic (-1)^neg · m · 2^e, an infinity or a NaN. -/
inductive Fl where
  | fin (neg : Bool) (m : Nat) (e : Int)
  | inf (neg : Bool)
  | nan (neg : Bool)
  deriving DecidableEq, Repr

/-- `m · 2^sh` (sh may be negative: rounded to nearest even, `st` telling that a non-zero rest lies below). -/
def shiftRne (m : Nat) (sh : Int) (st : Bool) : Nat :=
  match sh with
  | .ofNat k => m * 2 ^ k
  | .negSucc k =>
    let d := 2 ^ (k + 1)
    let q := m / d
    let r := 2 * (m % d)
    if r > d || (r == d && (st || q % 2 == 1)) then q + 1 else q

/-- The pattern with `mb` mantissa bits under an 8-bit exponent (binary32: 23, BF16: 7) nearest to the dyadic. -/
def packF (mb : Nat) (neg : Bool) (m : Nat) (e : Int) (st : Bool) : Nat :=
  let s := b2n neg * 2 ^ (mb + 8)
  if m = 0 then s else
  let q : Int := max ((Nat.log2 m : Int) + e - mb) (-126 - (mb : Int))
  let r := shiftRne m (e - q) st
  let (r, q) := if r ≥ 2 ^ (mb + 1) then (r / 2, q + 1) else (r, q)
  if r < 2 ^ mb then s + r else
  let f := (q + mb + 127).toNat
  if f ≥ 255 then s + 255 * 2 ^ mb else s + f * 2 ^ mb + (r - 2 ^ mb)

/-- The number a pattern with `mb` mantissa bits under an 8-bit exponent denotes. -/
def unpackF (mb : Nat) (v : Nat) : Fl :=
  let neg := bit v (mb + 8)
  let f := bits v mb 8
  let m := v % 2 ^ mb
  if f = 255 then (if m = 0 then .inf neg else .nan neg)
  else if f = 0 then .fin neg m (-126 - (mb : Int))
  else .fin neg (m + 2 ^ mb) ((f : Int) - 127 - mb)

/-- Rounds a number to a pattern with `mb` mantissa bits; a NaN becomes the quiet NaN of its sign (log 47, DESIGN CHOICE). -/
def encF (mb : Nat) : Fl → Nat
  | .fin n m e => packF mb n m e false
  | .inf n => b2n n * 2 ^ (mb + 8) + 255 * 2 ^ mb
  | .nan n => b2n n * 2 ^ (mb + 8) + 255 * 2 ^ mb + 2 ^ (mb - 1)

/-- The signed integer of a finite dyadic scaled to exponent `e0`, which is at most its own. -/
def scaled (n : Bool) (m : Nat) (e e0 : Int) : Int :=
  let v : Int := (m * 2 ^ (e - e0).toNat : Nat)
  if n then -v else v

/-- Exact sum; a NaN operand gives the NaN of the first one's sign, and ∞ − ∞ a positive NaN (log 47, DESIGN CHOICE). -/
def addFl : Fl → Fl → Fl
  | .nan n, _ => .nan n
  | _, .nan n => .nan n
  | .inf a, .inf b => if a = b then .inf a else .nan false
  | .inf a, _ => .inf a
  | _, .inf b => .inf b
  | .fin n1 m1 e1, .fin n2 m2 e2 =>
    let e := min e1 e2
    let t := scaled n1 m1 e1 e + scaled n2 m2 e2 e
    if t = 0 then .fin (n1 && n2) 0 0 else .fin (t < 0) t.natAbs e

/-- Exact product. -/
def mulFl : Fl → Fl → Fl
  | .nan n, _ => .nan n
  | _, .nan n => .nan n
  | .inf a, .inf b => .inf (a != b)
  | .inf a, .fin n m _ => if m = 0 then .nan false else .inf (a != n)
  | .fin n m _, .inf b => if m = 0 then .nan false else .inf (n != b)
  | .fin n1 m1 e1, .fin n2 m2 e2 => .fin (n1 != n2) (m1 * m2) (e1 + e2)

/-- The opposite number. -/
def negFl : Fl → Fl
  | .fin n m e => .fin (!n) m e
  | .inf n => .inf (!n)
  | .nan n => .nan n

/-- Binary32 of a number. -/
def f32 (x : Fl) : Nat := encF 23 x

/-- Binary32 addition, rounded to nearest even. -/
def fadd (a b : Nat) : Nat := f32 (addFl (unpackF 23 a) (unpackF 23 b))

/-- Binary32 subtraction. -/
def fsub (a b : Nat) : Nat := f32 (addFl (unpackF 23 a) (negFl (unpackF 23 b)))

/-- Binary32 multiplication. -/
def fmul (a b : Nat) : Nat := f32 (mulFl (unpackF 23 a) (unpackF 23 b))

/-- Binary32 division, rounded to nearest even. -/
def fdiv (a b : Nat) : Nat :=
  match unpackF 23 a, unpackF 23 b with
  | .nan n, _ => f32 (.nan n)
  | _, .nan n => f32 (.nan n)
  | .inf _, .inf _ => f32 (.nan false)
  | .inf x, .fin n _ _ => f32 (.inf (x != n))
  | .fin n _ _, .inf y => f32 (.fin (n != y) 0 0)
  | .fin n1 m1 e1, .fin n2 m2 e2 =>
    if m2 = 0 then (if m1 = 0 then f32 (.nan false) else f32 (.inf (n1 != n2)))
    else packF 23 (n1 != n2) (m1 * 2 ^ 80 / m2) (e1 - 80 - e2) (m1 * 2 ^ 80 % m2 != 0)

/-- The sign of a − b for finite or infinite numbers: negative, zero, positive. -/
def cmpFl (a b : Fl) : Ordering :=
  match a, b with
  | .inf x, .inf y => if x = y then .eq else if x then .lt else .gt
  | .inf x, _ => if x then .lt else .gt
  | _, .inf y => if y then .gt else .lt
  | .fin n1 m1 e1, .fin n2 m2 e2 =>
    let e := min e1 e2
    compare (scaled n1 m1 e1 e) (scaled n2 m2 e2 e)
  | _, _ => .eq

/-- True when the pattern is a binary32 NaN. -/
def isNaN32 (a : Nat) : Bool := bits a 23 8 == 255 && a % 2 ^ 23 != 0

/-- Binary32 a < b (false on NaN). -/
def flt (a b : Nat) : Bool :=
  !isNaN32 a && !isNaN32 b && cmpFl (unpackF 23 a) (unpackF 23 b) == .lt

/-- The greater of two binary32 numbers. -/
def fmax (a b : Nat) : Nat := if flt a b then b else a

/-- +0, 1 and −∞ in binary32. -/
def fZero : Nat := 0
def fOne : Nat := 0x3F800000
def fNegInf : Nat := 0xFF800000

/-- BF16 widened to binary32. -/
def bf32 (b : Nat) : Nat := b * 65536

/-- Binary32 rounded to BF16. -/
def toBf (a : Nat) : Nat := encF 7 (unpackF 23 a)

/-- The integer `n` in binary32. -/
def fOfNat (n : Nat) : Nat := packF 23 false n 0 false

/-- The integer square root of `v`, found from bit `k` down. -/
def isqrtFrom (v : Nat) : Nat → Nat → Nat
  | 0, r => if (r + 1) * (r + 1) ≤ v then r + 1 else r
  | k + 1, r => isqrtFrom v k (if (r + 2 ^ (k + 1)) * (r + 2 ^ (k + 1)) ≤ v then r + 2 ^ (k + 1) else r)

/-- The square root of a finite non-negative binary32 number. -/
def fsqrt (a : Nat) : Nat :=
  match unpackF 23 a with
  | .fin n m e =>
    if m = 0 then a else if n then f32 (.nan false) else
    let e' := e - 80 - (e % 2)
    let v := m * 2 ^ (e - e').toNat
    let r := isqrtFrom v (Nat.log2 v / 2 + 1) 0
    packF 23 false r (e' / 2) (r * r != v)
  | .inf n => if n then f32 (.nan false) else a
  | .nan n => f32 (.nan n)

/-! ### exp and log (R240) -/

/-- The fixed-point place of the values below: 2^-400. -/
def fixBits : Nat := 400

/-- Σ_{i<n} y^i ÷ i! in fixed point, from the term `t` of index `i` on. -/
def expSum (y : Nat) : Nat → Nat → Nat → Nat
  | 0, _, _ => 0
  | n + 1, i, t => t + expSum y n (i + 1) (t * y / 2 ^ fixBits / (i + 1))

/-- `x` squared `n` times in fixed point. -/
def squared : Nat → Nat → Nat
  | 0, x => x
  | n + 1, x => squared n (x * x / 2 ^ fixBits)

/-- exp of a non-negative fixed-point number below 128: the series at 1/1,024 of it, squared ten times. -/
def expFix (x : Nat) : Nat := squared 10 (expSum (x / 1024) 64 0 (2 ^ fixBits))

/-- Σ z^(2i+1) ÷ (2i+1), twice it being ln((1+z) ÷ (1−z)), in fixed point. -/
def atanhSum (zz : Nat) : Nat → Nat → Nat → Nat
  | 0, _, _ => 0
  | n + 1, i, t => t / (2 * i + 1) + atanhSum zz n (i + 1) (t * zz / 2 ^ fixBits)

/-- 2 · atanh(a ÷ b) in fixed point, for a ÷ b up to 1/3. -/
def twoAtanh (a b : Nat) : Nat :=
  let z := a * 2 ^ fixBits / b
  2 * atanhSum (z * z / 2 ^ fixBits) 130 0 z

/-- ln of m · 2^e in fixed point, for m > 0. -/
def lnFix (m : Nat) (e : Int) : Int :=
  let k := Nat.log2 m
  twoAtanh (m - 2 ^ k) (m + 2 ^ k) + (e + k) * twoAtanh 1 3

/-- The largest binary32 pattern whose value is at most the fixed-point number `q`. -/
def floorF (q : Nat) : Nat :=
  let p := max (Nat.log2 q) (fixBits - 126)
  let r := q / 2 ^ (p - 23)
  if q = 0 then 0
  else if r < 2 ^ 23 then r
  else min 0x7F800000 ((p + 127 - fixBits) * 2 ^ 23 + (r - 2 ^ 23))

/-- A binary32 magnitude within 2 units in the last place of the fixed-point number `q`, chosen by `free`. -/
def nearF (q free : Nat) : Nat :=
  let u := 2 ^ (max (Nat.log2 q) (fixBits - 126) - 22)
  let lo := if q ≤ u then 0 else min 0x7F800000 (floorF (q - u - 1) + 1)
  lo + free % (floorF (q + u) + 1 - lo)

/-- binary32 exp: within 2 units in the last place of the exact result (R240), the same for the same argument (log 16). -/
def fexp (a : Nat) : Nat :=
  let free := (Config.expF (BitVec.ofNat 32 a)).toNat
  match unpackF 23 a with
  | .nan n => f32 (.nan n)
  | .inf n => if n then 0 else a
  | .fin n m e =>
    let x := if e ≥ -(fixBits : Int) then m * 2 ^ (e + fixBits).toNat else 0
    if x < 2 ^ (fixBits + 7) then nearF (if n then 2 ^ (2 * fixBits) / expFix x else expFix x) free
    else if n then nearF 0 free else f32 (.inf false)

/-- binary32 log, as exp; the logarithm of ±0 is −∞, of a negative number a NaN. -/
def flog (a : Nat) : Nat :=
  let free := (Config.logF (BitVec.ofNat 32 a)).toNat
  match unpackF 23 a with
  | .nan n => f32 (.nan n)
  | .inf n => if n then f32 (.nan false) else a
  | .fin n m e =>
    if m = 0 then f32 (.inf true)
    else if n then f32 (.nan false)
    else
      let v := lnFix m e
      let neg := if v = 0 then bit free 2 else v < 0
      b2n neg * 2 ^ 31 + nearF v.natAbs free

/-- The number an OCP E4M3 byte denotes. -/
def e4m3 (b : Nat) : Fl :=
  let neg := bit b 7
  let e := bits b 3 4
  let m := b % 8
  if b % 128 = 127 then .nan neg
  else if e = 0 then .fin neg m (-9)
  else .fin neg (m + 8) ((e : Int) - 10)

/-- A finite dyadic in E4M3, rounded to nearest even and limited to ±448 (R43). -/
def toE4m3 (neg : Bool) (m : Nat) (e : Int) : Nat :=
  let s := b2n neg * 128
  if m = 0 then s else
  let q : Int := max ((Nat.log2 m : Int) + e - 3) (-9)
  let r := shiftRne m (e - q) false
  let (r, q) := if r ≥ 16 then (r / 2, q + 1) else (r, q)
  if r < 8 then s + r else
  let f := (q + 10).toNat
  if f > 15 || (f == 15 && r == 15) then s + 126 else s + f * 8 + (r - 8)

/-- The number an OCP E5M2 byte denotes. -/
def e5m2 (b : Nat) : Fl :=
  let neg := bit b 7
  let e := bits b 2 5
  let m := b % 4
  if e = 31 then (if m = 0 then .inf neg else .nan neg)
  else if e = 0 then .fin neg m (-16)
  else .fin neg (m + 4) ((e : Int) - 17)

/-- A number in E5M2, rounded to nearest even; beyond the range it becomes infinity. -/
def toE5m2 : Fl → Nat
  | .nan n => b2n n * 128 + 127
  | .inf n => b2n n * 128 + 124
  | .fin neg m e =>
    let s := b2n neg * 128
    if m = 0 then s else
    let q : Int := max ((Nat.log2 m : Int) + e - 2) (-16)
    let r := shiftRne m (e - q) false
    let (r, q) := if r ≥ 8 then (r / 2, q + 1) else (r, q)
    if r < 4 then s + r else
    let f := (q + 17).toNat
    if f ≥ 31 then s + 124 else s + f * 4 + (r - 4)

/-- The scale 2^(e − 127) of a scale byte (R43). -/
def scaleFl (e : Nat) : Fl := .fin false 1 ((e : Int) - 127)

/-- R43: the scale byte of a row and group given its largest finite magnitude m · 2^x. -/
def scaleOf (m : Nat) (x : Int) : Nat :=
  if m = 0 then 127 else
  let t : Int := (Nat.log2 m : Int) + x - 8 + 127
  let e := if 4 * m ≤ 7 * 2 ^ Nat.log2 m then t else t + 1
  (max 3 (min 246 e)).toNat

/-- The greater of two magnitudes given as dyadics. -/
def maxMag (a b : Nat × Int) : Nat × Int :=
  if cmpFl (.fin false a.1 a.2) (.fin false b.1 b.2) == .lt then b else a

/-- The largest magnitude among the finite elements of a list of BF16 values (R43). -/
def largest (xs : List Nat) : Nat × Int :=
  xs.foldl (fun a x => match unpackF 7 x with
    | .fin _ m e => maxMag a (m, e)
    | _ => a) (0, 0)

/-- R43: one BF16 element under scale byte `e` as an E4M3 byte. -/
def quant (e x : Nat) : Nat :=
  match unpackF 7 x with
  | .fin n m k => toE4m3 n m (k + 127 - e)
  | .inf n => b2n n * 128 + 127
  | .nan n => b2n n * 128 + 127

/-- R44: one E4M3 byte under scale byte `e` widened to BF16. -/
def widen (e b : Nat) : Nat :=
  match e4m3 b with
  | .fin n m k => packF 7 n m (k + e - 127) false
  | .inf n => encF 7 (.inf n)
  | .nan n => encF 7 (.nan n)

/-- R43 on one row and group: the E4M3 bytes and the scale byte. -/
def compressGroup (xs : List Nat) : List Nat × Nat :=
  let l := largest xs
  let e := scaleOf l.1 l.2
  (xs.map (quant e), e)

end Sys2Proof.Machine
end

