-- ==== Sys2Proof/Machine/Maps.lean ====
section
/-! DEFINITION. Operations on sparse tables (`Map`), all keeping the keys strictly rising. -/

namespace Sys2Proof.Machine

/-- The entry of key `k`. -/
def mget? {α : Type} : Map α → Nat → Option α
  | [], _ => none
  | (k', v) :: m, k => if k = k' then some v else mget? m k

/-- The entry of key `k`, or the table's default `d`. -/
def mget {α : Type} (m : Map α) (k : Nat) (d : α) : α := (mget? m k).getD d

/-- The table with `v` at key `k`. -/
def mset {α : Type} : Map α → Nat → α → Map α
  | [], k, v => [(k, v)]
  | (k', v') :: m, k, v =>
    if k < k' then (k, v) :: (k', v') :: m
    else if k = k' then (k, v) :: m
    else (k', v') :: mset m k v

/-- The table without key `k`. -/
def merase {α : Type} (m : Map α) (k : Nat) : Map α := m.filter fun e => e.1 != k

/-- The table with the entry of `k` changed by `f`, if there is one. -/
def mmod {α : Type} (m : Map α) (k : Nat) (f : α → α) : Map α :=
  m.map fun e => if e.1 = k then (e.1, f e.2) else e

/-- The table with the entry of `k`, or the default `d`, changed by `f`. -/
def mupd {α : Type} (m : Map α) (k : Nat) (d : α) (f : α → α) : Map α :=
  mset m k (f (mget m k d))

/-- True when the table lists key `k`. -/
def mhas {α : Type} (m : Map α) (k : Nat) : Bool := (mget? m k).isSome

/-- The lowest key at or above `lo` and below `lo + n` that the table does not list. -/
def mfree {α : Type} (m : Map α) (lo : Nat) : Nat → Option Nat
  | 0 => none
  | n + 1 => if mhas m lo then mfree m (lo + 1) n else some lo

/-- The keys rise strictly. -/
def mwf {α : Type} : Map α → Bool
  | [] => true
  | [_] => true
  | (a, _) :: (b, v) :: m => a < b && mwf ((b, v) :: m)

end Sys2Proof.Machine
end

