-- ==== Sys2Proof/Machine/State.lean ====
section
/-! DEFINITION. The state of the block as plain data, the reasons a step can stop, and the state after reset.
Every structure names the rule of spec/ that gives it; default values are the reset values (INVENTORY.md). -/

namespace Sys2Proof.Machine

/-! ### Stored key-value data (02) -/

/-- One row of a slice copy: W stored elements (BF16 patterns, or E4M3 bytes with one scale byte per group; R41, R42). -/
structure Row where
  elems : List Nat
  scales : List Nat := []
  deriving DecidableEq, Repr

/-- The valid rows of one copy of a slice, row 0 first (R46, R59). -/
abbrev SliceData := List Row

/-- SLICE_STATE of Table 2.5. -/
inductive SliceSt where
  | notWritten | present | absent
  deriving DecidableEq, Repr

/-- One slice: the slice map byte (Table 2.5) and the residency record (Table 4.2) with the bytes of its copies.
`held0`, `held1`, `heldN` tell the space kept in a tier while the valid bit may be clear (R114, R123). -/
structure Slice where
  fill : Nat := 0
  st : SliceSt := .notWritten
  t0 : Option SliceData := none
  t1 : Option SliceData := none
  tn : Option SliceData := none
  inT0 : Bool := false
  inT1 : Bool := false
  inT2 : Bool := false
  inTN : Bool := false
  lender : Nat := 0
  dirtyT1 : Bool := false
  dirtyLow : Bool := false
  lossy : Bool := false
  durableDone : Bool := false
  condemned : Bool := false
  condTier : Nat := 0
  version : BitVec 16 := 0
  lastUse : Nat := 0
  condEpoch : Nat := 0
  held0 : Bool := false
  held1 : Bool := false
  heldN : Bool := false
  refillAt : Option Nat := none
  tnOff : Nat := 0
  lastWrite : Nat := 0
  deriving DecidableEq, Repr

/-- STATE of a frame header (Table 2.5); a FREE frame is not listed. -/
inductive FrameSt where
  | opened | sealed | condemned
  deriving DecidableEq, Repr

/-- A frame: its header (Table 2.5), its slot in the frame table (R165) and its slices by layer. `keyed` tells KEY ≠ 0. -/
structure Frame where
  refs : Nat := 0
  st : FrameSt := .opened
  profile : Nat := 0
  layers : Nat := 0
  flags : Nat := 0
  creator : Nat := 0
  domain : Nat := 0
  condEpoch : Nat := 0
  keyed : Bool := false
  source : Nat := 0
  slot : Nat := 0
  pinned : Bool := false
  pinBytes : Nat := 0
  underRecount : Bool := false
  stamp : Nat := 0
  slices : Map Slice := []
  deriving DecidableEq, Repr

/-- STATE of a leaf entry (Table 2.4); an EMPTY entry is not listed. -/
inductive LeafSt where
  | opened | sealed | absent
  deriving DecidableEq, Repr

/-- A leaf entry (Table 2.4). -/
structure Leaf where
  st : LeafSt
  fid : Nat := 0
  shared : Bool := false
  deriving DecidableEq, Repr

/-- A pending key (R568). -/
structure PendKey where
  key : Nat
  parent : Nat
  toks : List Nat
  deriving DecidableEq, Repr

/-- A sequence record with its page table and pending keys (Tables 2.2-2.4). -/
structure Seq where
  part : Nat
  slot : Nat
  releasing : Bool := false
  length : Nat := 0
  domain : Nat := 0
  leaves : Map Leaf := []
  pend : Map PendKey := []
  deriving DecidableEq, Repr

/-- A release of a reference that earlier operations still read through (R57); `lost` while the reference's holder is lost and no
reference recount has released it (R567). (log 39, DEDUCED) -/
structure Release where
  seq : Nat
  block : Nat
  fid : Nat
  part : Nat
  waits : List Nat := []
  lost : Bool := false
  deriving DecidableEq, Repr

/-- Pages, frames and sequences (02_pages.md). -/
structure Pages where
  seqs : Map Seq := []
  frames : Map Frame := []
  releases : List Release := []
  deriving DecidableEq, Repr

/-! ### Prefix store (03) -/

/-- STATE of a directory entry (Table 3.1); a FREE entry is not listed. -/
inductive DirSt where
  | inserting | valid | invalid
  deriving DecidableEq, Repr

/-- A prefix directory entry (Table 3.1), listed under its FID; IN_CAM and its position are read off the CAM. -/
structure DirEnt where
  key : Nat
  parent : Nat
  toks : List Nat
  domain : Nat
  depth : Nat
  profile : Nat
  st : DirSt := .valid
  lastUse : Nat := 0
  hits : Nat := 0
  deriving DecidableEq, Repr

/-- A valid CAM position: the key units written (R87) and the FID of its associated word. -/
structure CamEnt where
  fid : Nat
  key : Nat
  domain : Nat
  depth : Nat
  deriving DecidableEq, Repr

/-- Prefix store (03_prefix_store.md). `cam` is keyed bank · 2^14 + position; `refill` lists the frames whose
keys a new bank still lacks (R103, R106); `tickIv` is the AGE_TICK in force until the next tick. -/
structure Prefix where
  dir : Map DirEnt := []
  cam : Map CamEnt := []
  rowErrs : Map Nat := []
  refill : List Nat := []
  placing : List Nat := []
  widths : List Nat := [2, 2, 2, 2, 2, 2, 2, 2]
  hole : Nat := 32
  epoch : Nat := 1
  tickAt : Nat := 0
  tickIv : Nat := 10
  commits : List Nat := []
  deriving DecidableEq, Repr

/-! ### Tiers and layer plans (04) -/

/-- A write-back under way (R126, R127): its source, the version and epoch it reads, and its destination. -/
structure WriteBack where
  fid : Nat
  layer : Nat
  version : BitVec 16
  toT1 : Bool := false
  toTN : Option Nat := none
  demote : Bool := false
  waitSpace : Bool := false
  deriving DecidableEq, Repr

/-- A position of a plan queued for push (R139) or pulled (R140): the plan as it stood, its class, its step, the blocks from `first` on,
the colour of each block's slice once metered (3: dropped as red), the OTT tag, and, once begun, the links used and the
slices not delivered. -/
structure PlanJob where
  no : Nat
  pos : Nat
  plan : Bytes
  cls : Nat
  pull : Bool := false
  step : Nat := 0
  pre : Nat := 0
  first : Nat := 0
  count : Nat := 0
  colours : List Nat := []
  tag : Option Nat := none
  begun : Bool := false
  late : Bool := false
  absent : List Nat := []
  other : List Nat := []
  links : List Nat := []
  deriving DecidableEq, Repr

/-- The run state of plan n of partition p (key 8·p + n): the object in force, PLAN_STATE, PLAN_POSITION, steps begun, jobs in order, the
positions pushed and staged in this step, and slices whose staging waits for a map page. -/
structure Plan where
  inForce : Bytes := []
  st : Nat := 0
  pos : Nat := 0
  next : Nat := 0
  step : Nat := 0
  jobs : List PlanJob := []
  pushed : List Nat := []
  staged : List Nat := []
  stages : List (Nat × Nat) := []
  deriving DecidableEq, Repr

/-- Tiers (04_tiers.md). -/
structure Tiers where
  pressure0 : Bool := false
  pressure1 : Bool := false
  pressure2 : Bool := false
  wb : List WriteBack := []
  plans : Map Plan := []
  deriving DecidableEq, Repr

/-! ### Flash media (05) -/

/-- An event record (Table 15.2). -/
structure Event where
  seqNo : Nat
  time : Nat
  start : Nat
  kind : Nat
  sev : Nat
  holdover : Bool := false
  restored : Bool := false
  cls : Nat
  part : Nat := 0xFF
  port : Nat := 0xFFFF
  unitKind : Nat := 0
  field : Nat := 0xFF
  unit : Nat := 0
  params : List Nat := []
  deriving DecidableEq, Repr

/-- A pip (Table 6.1) with its source frames; `level` true for a span pip; `cols` its columns as (array, column), one for each
part, empty while it has none; `passed` the parts programmed; `v` the vector before quantisation (binary32). -/
structure Pip where
  last : Nat
  check : Nat
  profile : Nat
  level : Bool
  m : Nat
  group : Nat
  st : Nat := 1
  owner : Option Nat := none
  cols : List (Nat × Nat) := []
  passed : List Nat := []
  progAt : Nat := 0
  lastUse : Nat := 0
  scales : List Nat := []
  codes : List (List Int) := []
  sources : List Nat := []
  v : List Nat := []
  home : Nat × Nat := (0, 0)
  again : List Nat := []
  deriving DecidableEq, Repr

/-- Which metadata structure a METADATA record holds (Table 5.4, KIND 1-7), and an event record (R469). -/
inductive MetaKey where
  | seq (s : Nat)
  | leaf (s b : Nat)
  | header (fid : Nat)
  | dir (fid : Nat)
  | mapPage (n : Nat)
  | discards
  | badBlocks
  | event (n : Nat)
  | config (key : Nat)
  deriving DecidableEq, Repr

/-- What a committed metadata record holds; a frame header comes with the public pips of its block (R199), the bad-block table lists
(die, superblock). -/
inductive MetaVal where
  | seq (s : Seq)
  | leaf (es : Map Leaf)
  | header (f : Frame) (ps : List Pip)
  | dir (d : DirEnt)
  | event (e : Event)
  | config (v : List Byte)
  | badBlocks (bs : List (Nat × Nat))
  | gone
  | other
  deriving DecidableEq, Repr

/-- A record: a compressed slice record (Table 4.5, with PAYLOAD_BYTES and CRC) or a metadata record, with what it restores. `stamp` is the
creation stamp of the frame whose slice it holds, `src` the place it was relocated from; `bad` tells that a mount found it to fail its CRC. -/
structure Rec where
  key : Option MetaKey := none
  fid : Nat := 0
  layer : Nat := 0
  version : BitVec 16 := 0
  format : Nat := 0
  fill : Nat := 0
  profile : Nat := 0
  epoch : Nat := 0
  data : SliceData := []
  durable : Bool := false
  seqNo : Nat := 0
  val : MetaVal := .gone
  off : Nat := 0
  len : Nat := 3
  src : Option Nat := none
  payload : Nat := 0
  crc : Nat := 0
  stamp : Nat := 0
  bad : Bool := false
  deriving DecidableEq, Repr

/-- A programmed punnet (Tables 5.2-5.4), keyed by its punnet number (R154); `at_` is the change number `metaNo` at its commit, `erases`
ERASE_COUNT, `prev` the superblock of PREV_SUPERBLOCK; `bad` tells that its trailer cannot be trusted (R158). -/
structure Punnet where
  stream : Nat
  progSeq : Nat
  recs : List Rec
  at_ : Nat := 0
  erases : Nat := 0
  prev : Option Nat := none
  bad : Bool := false
  deriving DecidableEq, Repr

/-- A root checkpoint (R167): its area's die, the superblock of the pair it stands in, the PROGRAM_SEQ and time at which it was taken, the open
superblocks as (stream, die · 4096 + superblock), and the location (punnet number) of each map page. -/
structure RootCp where
  area : Nat
  sb : Nat
  progSeq : Nat
  at_ : Nat
  opened : List (Nat × Nat) := []
  pages : List (Nat × Nat) := []
  deriving DecidableEq, Repr

/-- A die operation (R160): read (0), program (1) or erase (2), and whom it serves. A read is of one page type; `last` tells the last one of its
record, `page` a read of a map page for the cache, `second` that page's other copy, `move` a read of a relocation. `root` is a root
checkpoint that a program writes. -/
structure DieOp where
  kind : Nat
  cls : Nat
  punnet : Nat
  off : Nat := 0
  pages : Nat := 1
  tag : Option Nat := none
  fid : Nat := 0
  layer : Nat := 0
  recs : List Rec := []
  stream : Nat := 0
  sub : Nat := 64
  progSeq : Nat := 0
  suspends : Nat := 0
  resumedAt : Option Nat := none
  deferred : Bool := false
  last : Bool := true
  page : Option Nat := none
  second : Bool := false
  move : Bool := false
  root : Option RootCp := none
  deriving DecidableEq, Repr

/-- A superblock that is not free: 1 open, 2 closed, 3 retired, 4 of a root area; its stream, next wordline, reads and times, the erase count
with which it was opened, the stream's previous open superblock on its die, and whether its reads have had it relocated. -/
structure SuperB where
  st : Nat
  stream : Nat := 0
  next : Nat := 0
  reads : Nat := 0
  progAt : Nat := 0
  softAt : List Nat := []
  erases : Nat := 0
  prev : Option Nat := none
  moved : Bool := false
  deriving DecidableEq, Repr

/-- One die: the erase counts that differ from `formatted`, the formats that erased it; superblocks in use, and each stream's last one
opened; the operation in progress and its queue (R168, R169). -/
structure Die where
  erases : Map Nat := []
  formatted : Nat := 0
  sbs : Map SuperB := []
  lastSb : Map Nat := []
  run : Option DieOp := none
  susp : Option DieOp := none
  queue : List DieOp := []
  deriving DecidableEq, Repr

/-- An open punnet: its T1 write buffer (R161), keyed 128 · stream + channel; `cls` and `sub` say who its program serves; when its oldest
DURABLE record and its oldest metadata record joined it. -/
structure OpenP where
  recs : List Rec := []
  used : Nat := 0
  cls : Nat := 4
  sub : Nat := 64
  oldestDurable : Option Nat := none
  oldestMeta : Option Nat := none
  deriving DecidableEq, Repr

/-- A map entry (Table 5.6), keyed 256 · slot + layer. -/
structure MapEnt where
  punnet : Nat
  off : Nat
  len : Nat
  format : Nat
  deriving DecidableEq, Repr

/-- A slot of the map cache (R166); `load` is 1 while its page is read from flash, 2 until the lookup that missed has used it. -/
structure CacheSlot where
  page : Nat
  ref : Bool := true
  load : Nat := 0
  deriving DecidableEq, Repr

/-- The durable image of a metadata structure: the newest committed record and the change number it holds. -/
structure DurMeta where
  key : MetaKey
  seqNo : Nat
  val : MetaVal
  deriving DecidableEq, Repr

/-- What a response waits for (R188, R392, R438): `kind` 1 MEDIA_SYNC, 2 SHUTDOWN_PREPARE, 3 a persistent write, 4 the sync of a trip (R561),
which has no response, or 5 a FIRMWARE_UPDATE. Stage 0 writes dirty slices back, 1 waits for the metadata changes `marks`, 2 for the root
checkpoint; 3 is over; at 4 NOR device 0 is being programmed and at 5 device 1. -/
structure SyncWait where
  kind : Nat
  ep : Option Endpoint := none
  msg : List Byte := []
  stage : Nat := 1
  marks : List (MetaKey × Nat) := []
  deriving DecidableEq, Repr

/-- One entry of a restore list (Table 5.10). -/
structure RestoreEnt where
  part : Nat
  seq : Nat
  slot : Nat
  length : Nat
  firstAbsent : Nat
  absentBlocks : Nat
  deriving DecidableEq, Repr

/-- Flash media (05_flash_media.md). `discards` lists the places (punnet · 16384 + offset) of discarded records (R176) with the change
number of the discard list, 0 for a relocation copy that was invalid at once (R171); `recWait` the records of DURABLE writes that wait
for T2 space, with class and partition (R571); `loadWait` staging reads that wait for a map page, with page and colour; `spoiled` records of
which a page read failed, as (tag, place); `redo` programs that found no die; `metaSince` when each pending change came; `cfgSet` the values
of persistent objects as written; `syncAsk` the kind of wait a write being answered asks for; `roots` the root checkpoints in flash, newest
first. -/
structure Media where
  dies : Map Die := []
  punnets : Map Punnet := []
  openP : Map OpenP := []
  recWait : List (Nat × Nat × Rec) := []
  map : Map MapEnt := []
  cache : Map CacheSlot := []
  hand : Nat := 0
  loadWait : List (Nat × Nat × DieOp) := []
  spoiled : List (Option Nat × Nat) := []
  redo : List DieOp := []
  progSeq : Nat := 0
  rotate : Nat := 0
  roots : List RootCp := []
  rootAt : Nat := 0
  metaNo : Nat := 0
  metaPend : List (MetaKey × Nat) := []
  metaSince : List (MetaKey × Nat) := []
  dur : List DurMeta := []
  cfgSet : Map Bytes := []
  syncAsk : Nat := 0
  syncs : List SyncWait := []
  discards : List (Nat × Nat) := []
  state : Nat := 0
  quiesced : Bool := false
  lastShutdown : Nat := 0
  restored : List Nat := []
  restoreList : List RestoreEnt := []
  bound : Map Nat := []
  deriving DecidableEq, Repr

/-! ### Queues and operations (08, 09) -/

/-- STATE of a queue (Table 8.5). -/
inductive QState where
  | disabled | enabled | stopping | error
  deriving DecidableEq, Repr

/-- A command list being fetched (R269). -/
structure ListRun where
  addr : Nat
  count : Nat
  pos : Nat
  ring : Nat
  deriving DecidableEq, Repr

/-- One queue (Table 8.3), listed under Q = 64·p + q; `unsig`, `unsigAt` and `urgent` tell the records written since its vector's last
message, the time of the oldest, and whether one of them asks for a message at once (R282). -/
structure Queue where
  sqBase : W64 := 0
  cjBase : W64 := 0
  sqLog2 : Nat := 4
  cjLog2 : Nat := 4
  defClass : Nat := 2
  binding : Nat := 0
  link : Nat := 0
  intEnable : Bool := false
  count : Nat := 1
  time : Nat := 0
  st : QState := .disabled
  ottStall : Bool := false
  journalFull : Bool := false
  lastError : Nat := 0
  sqHead : Nat := 0
  tail : Nat := 0
  cjTail : Nat := 0
  phase : Bool := true
  cjHead : Nat := 0
  list : Option ListRun := none
  unsig : Nat := 0
  unsigAt : Option Nat := none
  urgent : Bool := false
  waiting : List Nat := []
  dead : Bool := false
  flushAt : Option Nat := none
  held : Bool := false
  deriving DecidableEq, Repr

/-- Kind of an OTT entry (R276). -/
inductive OttKind where
  | class0 | reserve | shared
  deriving DecidableEq, Repr

/-- Where an operation stands between its commands. -/
inductive OpSt where
  | ready | allocWait (deadline : Nat) | reading | mapWait | queued | mapped | finishing | posted (deadline : Option Nat)
  | recordWait
  deriving DecidableEq, Repr

/-- What fetched an operation: a queue's descriptor, a plan push (plan, position) or a REQ on a link. -/
inductive OpSrc where
  | queue | push (plan pos : Nat) | req (link : Nat)
  deriving DecidableEq, Repr

/-- A slice a DURABLE write awaits (R163): its frame's creation stamp, its version and the change numbers of its metadata records. -/
structure DurWait where
  fid : Nat
  layer : Nat
  stamp : Nat := 0
  version : BitVec 16
  marks : List (MetaKey × Nat) := []
  deriving DecidableEq, Repr

/-- A slice read under way for an operation: reads still out, and the status they bring (0, or Table 8.8). -/
structure Ask where
  fid : Nat
  layer : Nat
  left : Nat
  bad : Nat := 0
  deriving DecidableEq, Repr

/-- A mask record (R231): BLOCKS, row masks, DEFAULT, and the codes of each row mask with the detail word of each MIXED one. -/
structure Mask where
  blocks : Nat
  deflt : Bool
  rows : List (List (Nat × Nat))
  deriving DecidableEq, Repr

/-- An entry of an ATTEND once begun: LENGTH as read (R254), its status (0xFF: not yet decided), whether it is a retrieval entry
with its attended set, whether the search widened, its mask, and the leaf entries of the blocks it reads, each walked once. -/
structure AttEnt where
  len : Nat := 0
  st : Nat := 0xFF
  retr : Bool := false
  blocks : List Nat := []
  low : Bool := false
  mask : Option Mask := none
  leaves : Map Leaf := []
  deriving DecidableEq, Repr

/-- One OTT entry (R276) with its operation. `arg` is an ATTEND's argument block and `params` its partition's index parameters,
both as read at fetch (R253, R254); `ents` its entries once begun. `asks` are slice reads under way, `got` those that ended: FID, layer, status
(0 when the data came) and data; `pins` are slices it holds while it waits (R115), `allocAt` the deadline of its first wait for space (R147).
A push or pull has its plan in `arg` and its blocks in `pos` and `aux`. `frames` counts the frames a finishing operation placed, `units` how many of them it had placed when each unit of its
PROGRESS was wholly out; `endedAt` and `heldOver` are its TIMESTAMP and TS_HOLDOVER once it has ended. `pos`, `aux` and `todo` are the progress of SLICE_WRITE, STAGE and ATTEND. -/
structure Op where
  part : Nat
  queue : Nat
  src : OpSrc := .queue
  desc : Bytes := []
  cls : Nat := 2
  kind : OttKind := .shared
  ring : Nat := 0
  list : Nat := 0x1FFF
  utag : Nat := 0
  gen : Nat := 1
  fetchNo : Nat := 0
  fence : Bool := false
  quiet : Bool := false
  irq : Bool := false
  st : OpSt := .ready
  status : Nat := 0
  detail : Nat := 0
  progress : Nat := 0
  durable : Nat := 0
  acks : Nat := 0
  frames : Nat := 0
  units : List Nat := []
  slices : List DurWait := []
  asks : List Ask := []
  got : List (Nat × Nat × Nat × SliceData) := []
  pos : Nat := 0
  aux : Nat := 0
  todo : List (Nat × Nat) := []
  touched : Bool := false
  arg : Bytes := []
  params : List Nat := []
  pins : List (Nat × Nat) := []
  allocAt : Option Nat := none
  ents : List AttEnt := []
  endedAt : W64 := 0
  heldOver : Bool := false
  deriving DecidableEq, Repr

/-- Queues and the operation tracking table (08_queues.md). MSI-X functions are keyed 65·port + function, vectors
within a function 128·function key + vector. -/
structure Queues where
  queues : Map Queue := []
  rrPart : Nat := 0
  rrQueue : Map Nat := []
  ott : Map Op := []
  fetchNo : Nat := 0
  msixOn : List Nat := []
  msixOpen : List Nat := []
  msixPend : List Nat := []
  doneHeld : List Nat := []
  fetchStopped : Bool := false
  deriving DecidableEq, Repr

/-- Memories outside the module's own structures: host memory behind each port, operand windows by partition, BARs. -/
structure Mem where
  host0 : List Host.Cell := []
  host1 : List Host.Cell := []
  windows : Map (List Host.Cell) := []
  bars : List (Nat × Nat × Nat) := []
  deriving DecidableEq, Repr

/-! ### Traffic manager (10) -/

/-- A link frame: TYPE, virtual lane, the header fields after the common ones, and the payload (16). -/
structure LFrame where
  typ : Nat
  vl : Nat
  hdr : Bytes := []
  payload : Bytes := []
  deriving DecidableEq, Repr

/-- A unit in a leaf queue (R322): its length, colour (0 ACCEPT, 1 EXCESS_ONLY, 2 DEMOTE), the operation it serves,
the frame or die operation it carries, the time it entered the queue, and whether its wait at the head has been counted. -/
structure TUnit where
  len : Nat
  colour : Nat := 0
  tag : Option Nat := none
  frame : Option LFrame := none
  dieOp : Option (Nat × DieOp) := none
  at_ : Nat := 0
  held : Bool := false
  deriving DecidableEq, Repr

/-- A unit of rind-core work (R29): an expansion, compression or reduction of `len` bytes for subscriber `sub` in class `cls`, with the
unit, if any, that goes to a scheduler once it is done. -/
structure RindWork where
  cls : Nat
  sub : Nat
  len : Nat
  unit : Option (Nat × TUnit) := none
  deriving DecidableEq, Repr

/-- The rind cores of a segment (R29): the work they have started, the work that waits in arrival order, and the deficits of classes
1-6 with the class whose visit goes on. -/
structure RindSeg where
  run : Option RindWork := none
  q : List RindWork := []
  defs : Map Nat := []
  turn : Nat := 6
  deriving DecidableEq, Repr

/-- A token bucket (R330): its tokens, in 1/8,000 byte or 10^-9 commands, and the time they were brought up to. -/
structure Bucket where
  tok : Int := 0
  at_ : Nat := 0
  deriving DecidableEq, Repr

/-- A leaf or service-node record (Table 10.10). -/
structure LeafCfg where
  cir : Nat := 0
  cbs : Nat := 0
  eir : Nat := 0xFFFFFFFF
  ebs : Nat := 0
  weight : Nat := 1
  xweight : Nat := 1
  limit : Nat := 0
  overflow : Nat := 0
  onChange : Nat := 0
  deriving DecidableEq, Repr

/-- Statistics of a leaf (Table 10.11). -/
structure LeafStat where
  served : Nat := 0
  servedLen : Nat := 0
  excessLen : Nat := 0
  dropOverflow : Nat := 0
  dropReset : Nat := 0
  dropOther : Nat := 0
  backpressure : Nat := 0
  depthHwm : Nat := 0
  delayHwm : Nat := 0
  depthHist : Map Nat := []
  delayHist : Map Nat := []
  deriving DecidableEq, Repr

/-- One scheduler queue of a leaf. -/
structure LeafQ where
  cfg : Option LeafCfg := none
  q : List TUnit := []
  wait : List TUnit := []
  com : Bucket := {}
  exc : Bucket := {}
  deriving DecidableEq, Repr

/-- Scheduling state of one service node. -/
structure Node where
  com : Bucket := {}
  exc : Bucket := {}
  deriving DecidableEq, Repr

/-- A meter record (R353) with its buckets. -/
structure Meter where
  mode : Nat := 0
  ops : Bool := false
  onChange : Nat := 0
  cir : Nat := 0
  cbs : Nat := 1
  pir : Nat := 0
  pbs : Nat := 1
  tc : Bucket := {}
  tp : Bucket := {}
  deriving DecidableEq, Repr

/-- Traffic manager (10_traffic_manager.md). Leaf keys are (x · 65 + s) · 8 + c with direction 178, 179 for the PCIe
read schedulers of ports 176, 177; node keys 8·x + c; meter keys 8·p + c. `samples` counts the samples since HIST_RESET; the
histograms list bins 1 to 15, bin 0 is the rest; `rind` is keyed by segment. -/
structure Traffic where
  leafCfg : Map LeafCfg := []
  leaves : Map LeafQ := []
  stats : Map LeafStat := []
  nodeCfg : Map LeafCfg := []
  nodes : Map Node := []
  meters : Map Meter := []
  rr : Map Nat := []
  lanes : Map Nat := []
  gts : Map Nat := []
  ratio : Map Nat := []
  samples : Nat := 0
  rind : Map RindSeg := []
  deriving DecidableEq, Repr

/-! ### Partitions and protection (11) -/

/-- The protection record of one partition (Table 11.4). -/
structure Prot where
  enabled : Bool := false
  queues : Nat := 0xFFFFFFFFFFFFFFFF
  links : Nat := 0
  ports : Nat := 3
  quota : Nat := 0
  profiles : Nat := 0xFFFFFFFF
  deriving DecidableEq, Repr

/-- A share-domain entry (R80); `salt` none stands for the salt derived at format. -/
structure Domain where
  enabled : Bool := false
  members : Nat := 0
  salt : Option Nat := none
  deriving DecidableEq, Repr

/-- The whole protection setup of one generation (R359). -/
structure Setup where
  prots : Map Prot := []
  domains : Map Domain := []
  deriving DecidableEq, Repr

/-- Run state of one partition (Table 11.9): 0 DISABLED, 1 ENABLED, 2 RESETTING; the reset's trigger time, cause and
functions, its RESET_RECORD (`fresh`: to be replaced at the next record), and the job groups held. -/
structure Part where
  st : Nat := 0
  resetAt : Nat := 0
  cause : Nat := 0
  record : List Bytes := []
  fresh : Bool := false
  held : List Nat := []
  deriving DecidableEq, Repr

/-- One SR-IOV port: NumVFs, and functions under function-level reset. -/
structure Port where
  vfs : Nat := 0
  inReset : List Nat := []
  deriving DecidableEq, Repr

/-- Partitions (11_partitions.md). -/
structure Parts where
  setup : Setup := {}
  gen : Nat := 1
  hist : Map Setup := []
  parts : Map Part := []
  ports : Map Port := []
  deriving DecidableEq, Repr

/-! ### Faults, events, snapshots (15) -/

/-- A queue entry of a snapshot (Table 15.5). -/
structure SnapQ where
  q : Nat
  st : Nat
  head : Nat
  tail : Nat
  listRing : Nat
  listNext : Nat
  cjTail : Nat
  deriving DecidableEq, Repr

/-- An operation entry of a snapshot (Table 15.6). -/
structure SnapOp where
  tag : Nat
  q : Nat
  part : Nat
  utag : Nat
  ring : Nat
  list : Nat
  stAt : Nat
  final : Nat := 0xFF
  touched : Bool := false
  written : Bool := false
  inReset : Bool := false
  quiet : Bool := false
  progress : Nat
  finalProgress : Nat := 0
  finalDurable : Nat := 0
  gen : Nat
  waits : Bool := false
  deriving DecidableEq, Repr

/-- A held fault snapshot (Table 15.4). -/
structure Snap where
  id : Nat
  trigger : Nat
  complete : Bool := false
  trigQueue : Nat := 0xFFFF
  time : Nat
  eventSeq : Nat
  gen : Nat
  queues : List SnapQ
  ops : List SnapOp
  deriving DecidableEq, Repr

/-- Events and snapshots (15_faults_and_accounting.md), newest first. -/
structure Events where
  log : List Event := []
  next : Nat := 1
  snaps : List Snap := []
  nextSnap : Nat := 1
  deriving DecidableEq, Repr

/-! ### Object dictionary (12) -/

/-- A watch (R400, R401): object, its value when last looked at, triggers since the last NOTIFY, time of the last NOTIFY. -/
structure Watch where
  index : Nat
  sub : Nat
  seen : Bytes := []
  changes : Nat := 0
  lastAt : Option Nat := none
  deriving DecidableEq, Repr

/-- An open segmented transfer (R397-R399). -/
structure Xfer where
  index : Nat
  sub : Nat
  write : Bool
  total : Nat
  data : Bytes := []
  done : Nat := 0
  prev : Option Nat := none
  last : Bool := false
  at_ : Nat := 0
  deriving DecidableEq, Repr

/-- A session (R386). Role 0 OWNER, 1 ADMIN, 2 OBSERVER. `aborted` is the transfer a SEG_ABORT ended, until a late segment of it
or the next transfer (0x0E06). -/
structure Session where
  ep : Endpoint
  role : Nat
  part : Nat := 0
  num : Nat := 0
  lastAt : Nat := 0
  watches : List Watch := []
  xfer : Option Xfer := none
  aborted : Option (Nat × Nat) := none
  deriving DecidableEq, Repr

/-- The mailbox of a PCIe function (R404, R405), keyed as its MSI-X function: the response and the notifications. -/
structure Mailbox where
  ready : Bool := false
  response : Bytes := []
  slot : Option Bytes := none
  queue : List Bytes := []
  deriving DecidableEq, Repr

/-- Dictionary sessions and mailboxes (12_dictionary.md). -/
structure Dict where
  sessions : List Session := []
  boxes : Map Mailbox := []
  deriving DecidableEq, Repr

/-! ### Relevance index (06) -/

/-- What the reads of an array's window gave (Table 6.4): their number, codes at ±127, ideal codes at ±127, and of each column group the
distinct codes and the distinct ideal codes. -/
structure ReadWin where
  reads : Nat := 0
  sat : Nat := 0
  satIdeal : Nat := 0
  groups : Map (List Int × List Int) := []
  deriving DecidableEq, Repr

/-- An analog array out of its reset state (Tables 6.2, 6.5): 0 IN_SERVICE, 1 SUSPECT, 2 REPROGRAMMING, 3 FENCED. `calAt` is the time of its
last calibration, where one has run since the start; `batch` the columns of the running batch (pip, part, column); `refs` when the reference column of
each group was last programmed, in s, `refRun` and `refWait` those in the running batch and those that wait for one; `fails` the failures of each column. -/
structure AnArray where
  st : Nat := 0
  cal : Nat := 0
  calAt : Option Nat := none
  suspects : List Nat := []
  residuals : List Int := []
  win : ReadWin := {}
  batch : List (Nat × Nat × Nat) := []
  reprogrammed : Bool := false
  fails : Map Nat := []
  refs : Map Nat := []
  refRun : List Nat := []
  refWait : List Nat := []
  deriving DecidableEq, Repr

/-- What keys a pip (R197): profile, level (`span`), layer group, last frame, source check. -/
structure PipKey where
  profile : Nat
  span : Bool
  group : Nat
  last : Nat
  check : Nat
  deriving DecidableEq, Repr

/-- A pip computation in flight (R218): the sequence and item it was begun for, its key and source frames, and the slices
still to be read. -/
structure PipJob where
  part : Nat
  seq : Nat
  item : Nat
  key : PipKey
  fids : List Nat
  todo : List (Nat × Nat) := []
  deriving DecidableEq, Repr

/-- Relevance index (06_relevance_index.md). `jobs` are the computations in flight, `looks` the lookups made whose keys still stand (sequence,
item, key), `calAt` the time of the calibration at the start (R222). -/
structure Index where
  pips : Map Pip := []
  arrays : Map AnArray := []
  nextId : Nat := 0
  audits : Map Nat := []
  jobs : List PipJob := []
  looks : List (Nat × Nat × PipKey) := []
  calAt : Nat := 0
  deriving DecidableEq, Repr

/-! ### Attention (07) -/

/-- What a save holds of one entry (R245): attended blocks with their FIDs, row statistics (M, LSE) of each row and head, and
in STORE mode the BF16 probabilities, 16 for each row, head and attended block. -/
structure SaveEnt where
  seq : Nat
  qrows : Nat
  held : Bool := true
  blocks : List (Nat × Nat) := []
  stats : List (Nat × Nat) := []
  probs : Option (List (List Nat)) := none
  deriving DecidableEq, Repr

/-- A save (R245, R246): the tag of its forward, the header as that gave it, entries, creation epoch and bytes of SAVE_BYTES; the dispatched backwards
that read it, and whether it is no longer live and stays only for them. -/
structure Save where
  part : Nat
  id : Nat
  maker : Nat
  hdr : Bytes
  entries : List SaveEnt
  epoch : Nat
  bytes : Nat
  readers : List Nat := []
  gone : Bool := false
  deriving DecidableEq, Repr

/-- Attention (07_attention.md): live saves, and the dispatcher's deficits and turn (R242). -/
structure Attend where
  saves : List Save := []
  deficits : Map Nat := []
  turn : Nat := 0
  deriving DecidableEq, Repr

/-! ### Start (13): see also the defect map, Table 13.10 -/

/-- A defect-map entry (Table 13.10). -/
structure Defect where
  kind : Nat
  origin : Nat
  field : Nat := 0
  reason : Nat := 1
  unit : Nat := 0
  powerOns : Nat := 0
  uptime : Nat := 0
  deriving DecidableEq, Repr

/-- An entry of ATTEMPTS (Table 13.14). Outcomes: 0 IN_PROGRESS, 1 READY, 2 SETTLED, 3 FAILED. -/
structure Attempt where
  no : Nat
  powerOns : Nat
  outcome : Nat := 0
  phase : Nat := 1
  reason : Nat := 0
  image : Nat := 0
  trial : Bool := false
  stone : Bool := false
  alternate : Bool := false
  format : Bool := false
  version : Nat := 0
  elapsed : Nat := 0
  detail : Nat := 0
  deriving DecidableEq, Repr

/-- A firmware slot (Tables 13.6, 13.7): SLOT_STATE (0 EMPTY, 1 INVALID, 2 VALID, 3 TRIAL, 4 COMMITTED, 5 REJECTED), and the image
in each NOR device. -/
structure Slot where
  st : Nat := 0
  copies : List Bytes := [[], []]
  deriving DecidableEq, Repr

/-- Start, NOR and defect map (13_start_and_stone_mode.md). `phase` is 0 while power-on reset is asserted, the code of Table 13.2
after; `nor` and `ctl` tell the NOR devices that can be read and the start controllers that pass self-test, bit 0 the one of S0;
`failed` is set from a failed start to its restart, `waiting` while no NOR
device or no start controller lets a start begin (R446); `trials` counts the TRIAL attempts in a row that ended READY; `times` are the
phase times by code in ms; `mapSeq` counts the writes of a defect-map header; `restartReq` is a RESTART written and not yet answered; `update` the slot and image that a FIRMWARE_UPDATE is programming (R438).
(log 44, DESIGN CHOICE) -/
structure Boot where
  partCount : Nat := 1
  stone : Bool := false
  phase : Nat := 0
  ready : Bool := false
  frameEntries : Nat := 33554432
  t0Reserve : Nat := 16
  starts : Nat := 0
  powerOns : Nat := 0
  defects : List Defect := []
  heldFences : List Defect := []
  mapSeq : Nat := 0
  restartReq : Nat := 0
  formats : Nat := 0
  straps : Nat := 0
  pins : Nat := 0
  fmtDone : Bool := false
  formatReq : Bool := false
  formatting : Bool := false
  threshold : Nat := 3
  fails : Nat := 0
  attempts : List Attempt := []
  stoneCause : Nat := 0
  stoneNext : Bool := false
  slots : Map Slot := []
  running : Nat := 2
  minEpoch : Nat := 0
  trials : Nat := 0
  generation : Nat := 0
  nor : Nat := 3
  ctl : Nat := 3
  startAt : Nat := 0
  phaseAt : Nat := 0
  readyAt : Nat := 0
  times : Map Nat := []
  failed : Bool := false
  waiting : Bool := false
  update : Option (Nat × Bytes) := none
  deriving DecidableEq, Repr

/-! ### Clocks (14) -/

/-- State of the oscillator mesh (R460). -/
inductive Mesh where
  | freeRun | locked | holdover
  deriving DecidableEq, Repr

/-- State of a REFCLK input (Table 14.4). -/
inductive RefSt where
  | absent | pending | qualified | lost
  deriving DecidableEq, Repr

/-- Clocks (14_clocks.md). `refs` holds the inputs REFCLK0-3 out of ABSENT with the time of their last change; `pull` is the input
a pull-in goes on to; `lostRef` the input lost last while active; `since` the time from which the mesh is outside LOCKED, with
`outside` and `bound` the ns counted before it. -/
structure Clock where
  mesh : Mesh := .freeRun
  freq : Nat := 1500
  refs : Map (RefSt × Nat) := []
  active : Option Nat := none
  pull : Option Nat := none
  lostRef : Option Nat := none
  since : Option Nat := some 0
  boundSince : Nat := 0
  outside : Nat := 0
  bound : Nat := 0
  holdAt : Nat := 0
  dayTold : Bool := false
  crystal : Bool := true
  deriving DecidableEq, Repr

/-! ### Kwaxel links (16) -/

/-- STATE of a link (Table 16.18). -/
inductive LinkSt where
  | disabled | equalise | exchange | up | down | fenced
  deriving DecidableEq, Repr

/-- A reliable frame in the replay buffer (R503): its FSEQ, LENGTH, operation and time of last sending. -/
structure TxFrame where
  fseq : Nat
  f : LFrame
  tag : Option Nat := none
  sentAt : Nat := 0
  deriving DecidableEq, Repr

/-- One Kwaxel link: training (R520) with the RATE and RATE_FALLBACK it began with, credits (R498), reliability (R503-R505), frames held back (R502). -/
structure Link where
  st : LinkSt := .disabled
  attempt : Nat := 0
  rate : Nat := 400
  fallback : Bool := true
  since : Nat := 0
  eqLanes : List Nat := []
  role : Nat := 0
  partner : Nat := 0
  trained : Nat := 0
  lanes : Nat := 0
  reason : Nat := 0
  laneFails : Map Nat := []
  txLimit : Map Nat := []
  txUsed : Map Nat := []
  rxLimit : Map Nat := []
  rxUsed : Map Nat := []
  rxShare : Map Nat := []
  nextFseq : Nat := 0
  expected : Nat := 0
  replaying : Bool := false
  replayCount : Nat := 0
  replay : List TxFrame := []
  nakAt : Option Nat := none
  spoiled : Bool := false
  acked : Nat := 0
  ackDue : Option Nat := none
  held : List Instr := []
  deriving DecidableEq, Repr

/-- A lease at the borrower (Table 16.12), keyed by lender slot: `revoking` or ACTIVE; times in ns of uptime. -/
structure Lease where
  id : Nat
  partner : Nat
  bytes : Nat
  revoking : Bool := false
  termAt : Nat := 0
  termEnd : Nat
  notice : Nat
  noticeEnd : Nat := 0
  asked : Bool := false
  deriving DecidableEq, Repr

/-- A lease this module has lent (R511), keyed by its LEASE_ID, with the bytes the borrower wrote. -/
structure Lent where
  partner : Nat
  bytes : Nat
  revoking : Bool := false
  termEnd : Nat
  notice : Nat
  noticeEnd : Nat := 0
  order : Nat := 0
  mem : Map Byte := []
  deriving DecidableEq, Repr

/-- A contribution held or assembled at the root (R310, R515). -/
structure Contrib where
  set : Nat
  member : Nat
  round : Nat
  kind : Nat
  fp32 : Bool
  total : Nat
  parts : List (Nat × Bytes) := []
  links : List Nat := []
  deriving DecidableEq, Repr

/-- A read of a TN copy under way at the borrower (R508, R512), keyed by its RTAG. -/
structure LeaseRd where
  tag : Option Nat
  fid : Nat
  layer : Nat
  version : BitVec 16
  slot : Nat
  off : Nat
  total : Nat
  data : Bytes := []
  link : Nat := 0
  done : Bool := false
  bad : Nat := 0
  deriving DecidableEq, Repr

/-- Links (16_kwaxel_link.md). `rounds` counts, for set 2·SET_ID, the COLLECTs posted, and for 2·SET_ID + 1, this
module's own contributions; `spoiled` lists rounds in which a contribution was discarded; `offerAt` is the time of the last
OFFER period. -/
structure Links where
  links : Map Link := []
  leases : Map Lease := []
  lent : Map Lent := []
  offers : Map Nat := []
  asked : Option Nat := none
  reads : Map LeaseRd := []
  contribs : List Contrib := []
  rounds : Map Nat := []
  spoiled : List (Nat × Nat) := []
  lentNo : Nat := 0
  offerAt : Nat := 0
  deriving DecidableEq, Repr

/-! ### The UL1-PX block (17) -/

/-- A beat of the delivery stream (R530, R535, R537). A sink beat enables the bytes of `data` from byte `first` on. -/
inductive PxBeat where
  | sink (link addr first : Nat) (data : Bytes) (eof : Bool)
  | resp (link rtag status offset : Nat) (data : Bytes) (last : Bool)
  | layerEnd (link part plan pos undelivered : Nat)
  deriving DecidableEq, Repr

/-- An accepted frame in the delivery stream: the beats left, and the credits to return after the last. -/
structure PxItem where
  link : Nat
  vl : Nat
  credits : Nat
  beats : List PxBeat
  deriving DecidableEq, Repr

/-- A link of the block: LINK_CTRL, the link's training and reliability state, its registers, and the frames in its request and
marker FIFOs in transfer order. -/
structure PxLink where
  enable : Bool := false
  rate200 : Bool := false
  fallback : Bool := true
  txMax : Nat := 2048
  retrain : Nat := 1000
  rx : List Nat := [512, 64, 64, 64, 64, 64, 64, 64]
  lk : Link := {}
  fifo : List LFrame := []
  crcDiscards : Nat := 0
  naks : Nat := 0
  replayed : Nat := 0
  downs : Nat := 0
  rejected : Nat := 0
  discarded : Nat := 0
  deriving DecidableEq, Repr

/-- The UL1-PX page endpoint block (17_page_endpoint.md). `low` tells that px_rst_n is 0. -/
structure PxBlock where
  low : Bool := false
  id : Nat := 0
  irqStatus : Nat := 0
  irqEnable : Nat := 0
  link0 : PxLink := {}
  link1 : PxLink := {}
  stream : List PxItem := []
  watches : Map (Nat × Nat) := []
  deriving DecidableEq, Repr

/-! ### Power, sensors, pins and the TAP (18) -/

/-- TAP controller states of IEEE 1149.1 (R550). -/
inductive TapSt where
  | reset | idle | selDr | capDr | shDr | ex1Dr | pauDr | ex2Dr | upDr | selIr | capIr | shIr | ex1Ir | pauIr | ex2Ir | upIr
  deriving DecidableEq, Repr

/-- The TAP: state, instruction in force, the instruction and data shift registers, the boundary outputs, and TDO. -/
structure Tap where
  st : TapSt := .reset
  ir : Nat := 0x01
  irShift : List Bool := []
  dr : List Bool := []
  update : List Bool := []
  tdo : Bool := false
  deriving DecidableEq, Repr

/-- Power, sensors and pins (18_module_interface.md). `rails` are on from the first POWER_ON_RESET; `fail` tells a power-fail since
`failAt`; `tripped` that a trip keeps the rails off, `tripAt` its time until it has switched them off; `readings` are the sensors' last samples in two's complement of 32 bits,
`states` 1 WARNING or 2 CRITICAL, `broken` the failed sensors; `millijoules` is the input energy since the start, `sampleAt` the time of the last sample; `perst` lists
the ports whose PERSTk_N is high. (log 9, DESIGN CHOICE) -/
structure Power where
  rails : Bool := false
  fail : Bool := false
  failAt : Nat := 0
  tripped : Bool := false
  tripAt : Option Nat := none
  readings : Map Nat := []
  states : Map Nat := []
  broken : List Nat := []
  millijoules : Nat := 0
  sampleAt : Nat := 0
  perst : List Nat := []
  tap : Tap := {}
  deriving DecidableEq, Repr

/-- What left the module, oldest first: the model's record of its outputs. MSI-X messages name port, function and
vector; ZDP messages the endpoint; frames the link and FSEQ; control frames and training blocks their kind; `px` what the UL1-PX block sends. -/
inductive Out where
  | msix (port fn vec : Nat)
  | zdp (ep : Endpoint) (msg : Bytes)
  | frame (link : Nat) (fseq : Nat) (f : LFrame)
  | control (link : Nat) (typ : Nat) (body : Bytes)
  | block (link : Nat) (typ : Nat) (body : Bytes)
  | beat (b : PxBeat)
  | px (k fseq : Nat) (f : LFrame)
  | pxControl (k typ : Nat) (body : Bytes)
  | tdo (b : Bool)
  | read (port fn : Nat) (data : Bytes)
  deriving DecidableEq, Repr

/-! ### The whole -/

/-- The state of the block. `cfg` holds scalar objects at index · 256 + subindex, an unlisted one holds its default;
`ctr` the counters; `blob` the BYTES, STRING and DOMAIN objects. -/
structure State where
  pending : List Instr := []
  free : Nat := 0
  out : List Out := []
  up : Nat := 0
  now : W64 := 0
  cfg : Map Nat := []
  ctr : Map W64 := []
  blob : Map Bytes := []
  pg : Pages := {}
  px : Prefix := {}
  tier : Tiers := {}
  media : Media := {}
  q : Queues := {}
  mem : Mem := {}
  tm : Traffic := {}
  part : Parts := {}
  ev : Events := {}
  dict : Dict := {}
  boot : Boot := {}
  clk : Clock := {}
  lk : Links := {}
  ix : Index := {}
  att : Attend := {}
  pxb : PxBlock := {}
  pwr : Power := {}
  deriving DecidableEq, Repr

/-- Why the block stops with a fault. -/
inductive Fault where
  /-- Raised by a doorbell that moves a journal head beyond CJ_TAIL: the host broke R283, and R20 leaves the results
  unspecified. Safe: the block stops where nothing is promised. -/
  | hostViolation
  deriving DecidableEq, Repr

/-- Why the block refuses a command. -/
inductive Refusal where
  /-- Raised only by the dispatch of a command without a meaning. Safe. -/
  | notModelled (mnemonic : String)
  deriving DecidableEq, Repr

/-- The state after reset. (log 44, DESIGN CHOICE) -/
def State.reset : State := {}

end Sys2Proof.Machine
end

