-- ==== Sys2Proof/Machine/Memory.lean ====
section
/-! DEFINITION. Byte memories (host memory, operand windows): lists of (address, byte) with strictly rising addresses and no
zero byte listed; an unlisted address reads 0 (log 2). -/

namespace Sys2Proof.Machine

/-- What an unlisted address reads as (log 2). -/
def memDefault : Byte := 0

/-- Every listed address lies above `lo` and no listed byte is the default. -/
def wfFrom : Nat → List Host.Cell → Bool
  | _, [] => true
  | lo, (a, b) :: m => lo ≤ a && b != memDefault && wfFrom (a + 1) m

/-- The canonical form of a memory. (log 2, DESIGN CHOICE) -/
def Memory.wf (m : List Host.Cell) : Bool := wfFrom 0 m

/-- The byte at address `a`. (log 2, DESIGN CHOICE) -/
def rd : List Host.Cell → Nat → Byte
  | [], _ => memDefault
  | (a', b) :: m, a => if a = a' then b else rd m a

/-- The memory with byte `b` at address `a`. (log 2, DESIGN CHOICE) -/
def wr : List Host.Cell → Nat → Byte → List Host.Cell
  | [], a, b => if b = memDefault then [] else [(a, b)]
  | (a', b') :: m, a, b =>
    if a < a' then (if b = memDefault then (a', b') :: m else (a, b) :: (a', b') :: m)
    else if a = a' then (if b = memDefault then m else (a, b) :: m)
    else (a', b') :: wr m a b

/-- `n` bytes from address `a`. -/
def rdN (m : List Host.Cell) (a : Nat) : Nat → Bytes
  | 0 => []
  | n + 1 => rd m a :: rdN m (a + 1) n

/-- The memory with the bytes `bs` from address `a`, written in ascending order. -/
def wrN (m : List Host.Cell) (a : Nat) : Bytes → List Host.Cell
  | [] => m
  | b :: bs => wrN (wr m a b) (a + 1) bs

/-- Host memory behind port `k`. -/
def State.host (s : State) (k : Nat) : List Host.Cell := if k = 0 then s.mem.host0 else s.mem.host1
/-- The operand window of partition `p` (R261). -/
def State.window (s : State) (p : Nat) : List Host.Cell := mget s.mem.windows p []

/-- Writes bytes into host memory behind port `k`. -/
def State.hostWrite (s : State) (k a : Nat) (bs : Bytes) : State :=
  if k = 0 then { s with mem := { s.mem with host0 := wrN s.mem.host0 a bs } }
  else { s with mem := { s.mem with host1 := wrN s.mem.host1 a bs } }

/-- Writes bytes into partition `p`'s operand window. (log 28, DEDUCED) -/
def State.windowWrite (s : State) (p a : Nat) (bs : Bytes) : State :=
  { s with mem := { s.mem with windows := mset s.mem.windows p (wrN (s.window p) a bs) } }

end Sys2Proof.Machine
end

