-- ==== Sys2Proof/Machine/Objects.lean ====
section
/-! DEFINITION. The object dictionary's entries: type, access, default, range and rights of every object, as the object
tables of the chapters give them (R380-R392, R416-R419). Values.lean reads and Writes.lean writes their values. -/

namespace Sys2Proof.Machine

/-- Data types (Table 12.1). -/
inductive Ty where
  | bool | u8 | u16 | u32 | u64 | i32 | f32 | enum | bytes (n : Nat) | string (n : Nat) | domain
  deriving DecidableEq, Repr

/-- Access codes (Table 12.2). -/
inductive Acc where
  | ro | rw | wo | rws | const
  deriving DecidableEq, Repr

/-- Targets of rws objects (R384). -/
inductive Target where
  | none | profile | queues | start
  deriving DecidableEq, Repr

/-- Who may write besides OWNER (R389): nobody, ADMIN of the partition. -/
inductive Who where
  | owner | admin
  deriving DecidableEq, Repr

/-- One entry of an object table. `vals` lists the admitted values where a range does not say them; `src` is the
default's source (0 constant, 1 strap, 2 derived); `ctr` tells a counter or gauge; `ownRead` "readable by OWNER only". -/
structure ObjRow where
  sub : Nat
  ty : Ty
  acc : Acc
  d : Nat := 0
  lo : Nat := 0
  hi : Nat := 2 ^ 64 - 1
  vals : List Nat := []
  src : Nat := 0
  target : Target := .none
  who : Who := .admin
  ctr : Bool := false
  ownRead : Bool := false
  clears : Bool := false
  deriving DecidableEq, Repr

/-- A writable scalar with its range. -/
def rw (sub : Nat) (ty : Ty) (d lo hi : Nat) : ObjRow := { sub, ty, acc := .rw, d, lo, hi }
/-- A scalar that only OWNER writes. -/
def rwO (sub : Nat) (ty : Ty) (d lo hi : Nat) : ObjRow := { sub, ty, acc := .rw, d, lo, hi, who := .owner }
/-- A write-only object. -/
def wo (sub : Nat) (ty : Ty) (who : Who) : ObjRow := { sub, ty, acc := .wo, who }
/-- An rws object of a target. -/
def rws (sub : Nat) (ty : Ty) (d lo hi : Nat) (t : Target) : ObjRow := { sub, ty, acc := .rws, d, lo, hi, target := t }
/-- A derived read-only object. -/
def ro (sub : Nat) (ty : Ty) : ObjRow := { sub, ty, acc := .ro, src := 2 }
/-- A strap-derived read-only object. -/
def roS (sub : Nat) (ty : Ty) : ObjRow := { sub, ty, acc := .ro, src := 1 }
/-- A read-only object with a constant default. -/
def roC (sub : Nat) (ty : Ty) (d : Nat) : ObjRow := { sub, ty, acc := .ro, d }
/-- A constant. -/
def cst (sub : Nat) (ty : Ty) (d : Nat) : ObjRow := { sub, ty, acc := .const, d }
/-- A 64-bit counter. -/
def cnt (sub : Nat) : ObjRow := { sub, ty := .u64, acc := .ro, ctr := true }
/-- Counters :01 to :n. -/
def cnts (n : Nat) : List ObjRow := (List.range n).map fun i => cnt (i + 1)
/-- The same entry at subindices lo+1 to lo+n. -/
def rep (n : Nat) (r : ObjRow) : List ObjRow := (List.range n).map fun i => { r with sub := i + 1 }

/-- Table 12.14. -/
def rowsIdentity : List ObjRow :=
  [cst 1 (.string 16) 0, cst 2 (.string 32) 0, cst 3 (.string 16) 0, ro 4 (.string 16), ro 5 .u32, ro 6 .u16, ro 7 .u32,
   cst 8 .u16 0x100, cst 9 .u8 1]
def rowsControl : List ObjRow := [{ wo 1 .enum .owner with vals := [1, 2] }, ro 2 .u32]
def rowsDict : List ObjRow :=
  [roS 1 .u8, { rws 2 .enum 1 0 1 .start with vals := [0, 1] }, roS 3 .bool, rwO 4 .u64 0 0 (2 ^ 64 - 1), rwO 5 .bool 1 0 1,
   rwO 6 .u64 0 0 (2 ^ 64 - 1), rwO 7 .u64 0 0 (2 ^ 64 - 1), rwO 8 .u16 1000 10 60000, rwO 9 .u32 1000 100 1000000,
   rwO 10 .u16 300 0 3600, ro 11 .u16]
/-- Table 4.6. -/
def rowsTier : List ObjRow :=
  [rw 1 .u16 10 1 1000, { rws 2 .u8 16 8 40 .start with vals := [8, 16, 24, 32, 40] }, rw 3 .u8 90 0 100, rw 4 .u8 80 0 100,
   rw 5 .u8 95 0 100, rw 6 .u8 90 0 100, rw 7 .u8 97 0 100, rw 8 .u8 95 0 100, rw 9 .u16 50 1 65535, rw 10 .u16 100 1 65535,
   rw 11 .u16 10 1 1000, ro 12 .u64, ro 13 .u64, ro 14 .u64, ro 15 .u64, ro 16 .u64]
/-- Table 5.11. -/
def rowsMedia : List ObjRow :=
  [rw 1 .u16 100 10 10000, rw 2 .u16 100 10 1000, rw 3 .u16 60 10 600, rw 4 .u8 12 8 64, rw 5 .u8 4 2 63, rw 6 .u16 200 50 1000,
   rw 7 .u16 90 7 365, rw 8 .u32 100000 10000 1000000, rw 9 .u8 4 0 16, cst 10 .u64 4294967296, wo 11 .bool .owner,
   wo 12 .bool .owner, ro 13 .enum, cst 14 .u16 3000, ro 15 .u8, ro 16 .u32]
def rowsRestore : List ObjRow :=
  [ro 1 .enum, ro 2 .u32, ro 3 .u32, ro 4 .u64, ro 5 .u64, ro 6 .u32, ro 7 .u64]
/-- Table 2.7. -/
def rowsProfile : List ObjRow :=
  [rws 1 (.string 16) 0 0 0 .profile, rws 2 .u32 0 0 (2 ^ 32 - 1) .profile,
   { rws 3 .enum 0 0 1 .profile with vals := [0, 1] }, rws 4 .u16 64 0 65535 .profile, rws 5 .u16 512 0 65535 .profile,
   rws 6 .u16 64 0 65535 .profile, rws 7 .u16 1 0 65535 .profile, rws 8 .u16 1 0 65535 .profile, rws 9 .u16 128 0 65535 .profile,
   rws 10 .u16 128 0 65535 .profile, { rws 11 .enum 0 0 1 .profile with vals := [0, 1] }, rws 12 .u16 128 0 65535 .profile,
   rws 13 .u16 128 0 65535 .profile, rws 14 .u16 128 0 65535 .profile, rws 15 .domain 0 0 0 .profile, ro 16 .u16, ro 17 .u32,
   ro 18 .u32, ro 19 .u8, ro 20 .u32]
def rowsFrameTable : List ObjRow := [rws 1 .u32 33554432 (2 ^ 20) (2 ^ 27) .start, ro 2 .u32, ro 3 .u32]
/-- Table 3.6. -/
def rowsPrefix : List ObjRow :=
  [{ rws 1 .u8 32 16 64 .start with vals := [16, 32, 64] }, rw 2 .u32 6000 1 (2 ^ 31), rw 3 .u16 10 1 600, wo 4 .u16 .owner,
   ro 5 .u32, ro 6 .u32, ro 7 .u32, roC 8 .u32 1]
def rowsBankWidth : List ObjRow := rep 8 { rws 1 .u8 2 1 4 .start with vals := [1, 2, 4] }
def rowsShare : List ObjRow :=
  [rwO 1 .bool 0 0 1, rwO 2 .u64 0 0 (2 ^ 64 - 1), { rwO 3 .u64 0 0 (2 ^ 64 - 1) with src := 2, ownRead := true }]
/-- Table 8.10. -/
def rowsOtt : List ObjRow := [cst 1 .u32 131072, cst 2 .u16 1024, ro 3 .u32, ro 4 .u32, rw 5 .u8 8 1 64]
/-- Table 11.9, module part. -/
def rowsProtection : List ObjRow :=
  [roC 1 .u32 1, roS 2 .u8, wo 3 .domain .owner, rwO 4 .u16 10 1 50, cnt 5]
/-- The partition template (Table 12.13). -/
def rowsPart (off : Nat) : Option (List ObjRow) :=
  match off with
  | 0x00 => some [ro 1 .enum, wo 2 .bool .admin, cnt 3, { roC 4 .enum 0 with vals := [0, 1, 2, 3, 4] }, roC 5 .domain 0,
      roC 6 .u32 0, cnt 7]
  | 0x01 => some [{ rwO 1 .bool 1 0 1 with src := 2 }, rwO 2 .u64 (2 ^ 64 - 1) 0 (2 ^ 64 - 1),
      { rwO 3 .u64 0 0 (2 ^ 64 - 1) with src := 2 }, { rwO 4 .u64 0 0 (2 ^ 64 - 1) with src := 2 }, rwO 5 .u8 3 0 3,
      { rwO 6 .u32 0 0 (2 ^ 32 - 1) with src := 2 }, rwO 7 .u32 (2 ^ 32 - 1) 0 (2 ^ 32 - 1), ro 8 .u32]
  | 0x02 => some [{ rwO 1 .enum 1 0 1 with vals := [0, 1] }, rw 2 (.bytes 64) 0 0 0, roC 3 .u16 0,
      { wo 4 .u8 .admin with hi := 15 }, cnt 5, cnt 6]
  | 0x04 => some (rep 8 (rw 1 .u8 0xFF 0 0xFF))
  | 0x08 => some [rwO 1 .bool 1 0 1, rwO 2 .bool 1 0 1, rwO 3 .u64 0 0 (2 ^ 64 - 1), cnt 4]
  | 0x0C => some [ro 1 .domain, ro 2 .u32]
  | 0x18 => some [rw 1 .u32 32768 16384 1048576, rw 2 .u32 16384 0 1048576, rw 3 .u8 4 0 64, rw 4 .u16 16 1 256, rw 5 .u16 32 1 1024,
      rw 6 .u8 64 0 255, rw 7 .u8 32 0 255, { rw 8 .u8 2 1 8 with vals := [1, 2, 4, 8] }, rw 9 .u8 11 9 15, cnt 10, cnt 11, cnt 12, cnt 13]
  | 0x1C => some ([rwO 1 .u8 16 1 255, rwO 2 .u64 0 0 (2 ^ 64 - 1), rw 3 .u32 6000 1 (2 ^ 31)]
      ++ (rep 4 { rw 0 .enum 0 0 1 with vals := [0, 1] }).map (fun (r : ObjRow) => { r with sub := r.sub + 3 })
      ++ (rep 4 (rw 0 .u32 8192 16 262144)).map (fun (r : ObjRow) => { r with sub := r.sub + 7 })
      ++ [ro 12 .u16, ro 13 .u64, cnt 14])
  | 0x24 => some (cnts 11)
  | 0x25 => some (cnts 7)
  | 0x26 => some (cnts 5)
  | 0x27 => some [ro 1 (.bytes 192)]
  | 0x20 => some (rep 64 { rw 1 (.bytes 64) 0 0 0 with src := 2 })
  | 0x21 => some ([{ rwO 1 .u32 0 0 (2 ^ 32 - 1) with src := 2 }, rwO 2 .u32 130048 0 130048, ro 3 .u32,
      { roC 4 .u32 0 with ctr := true, clears := true }, { rws 5 .u32 0 0 0xFFFF0000 .queues with who := .owner }]
      ++ (cnts 12).drop 5)
  | _ => if 0x10 ≤ off ∧ off ≤ 0x17 then some [rw 1 .domain 0 0 0, { roC 2 .enum 0 with vals := [0, 1, 2] }, roC 3 .u16 0]
         else none

/-- Tables 1.9, 13.7. -/
def rowsInventory : List ObjRow :=
  [ro 1 .u32, ro 2 .u8, ro 3 .u16, ro 4 .u32, ro 5 .u16, ro 6 .u8, ro 7 .u64, ro 8 .u16, ro 9 .u64, ro 10 .u8, ro 11 .u64]
def rowsStart (ix : Nat) : Option (List ObjRow) :=
  match ix with
  | 0x0800 => some [roS 1 .u32, ro 2 .u32, roC 3 .bool 0, rwO 4 .bool 0 0 1]
  | 0x0810 => some [rwO 1 .u8 3 1 7, wo 2 .bool .owner]
  | 0x0820 => some [ro 1 .u8, ro 2 .enum, ro 3 .u16, ro 4 (.bytes 256), ro 5 .u32, ro 6 .u32]
  | 0x0830 => some [ro 1 .bool, ro 2 .enum, cnt 3]
  | 0x0840 => some [ro 1 .enum, ro 2 .enum, ro 3 .enum, ro 4 .enum, ro 5 .u32, ro 6 .u32, ro 7 .u32, wo 8 .domain .owner,
      wo 9 .u8 .owner, ro 10 .enum, ro 11 .u32]
  | 0x0850 => some (ro 1 .enum :: (rep 7 (ro 0 .u32)).map fun (r : ObjRow) => { r with sub := r.sub + 1 })
  | 0x7200 => some [ro 1 .domain, ro 2 .u32, ro 3 .u32, ro 4 .u32, ro 5 .u8, wo 6 (.bytes 16) .owner, wo 7 .domain .owner, cnt 8]
  | 0xE000 => some [rwO 1 .u8 24 0 168, cnt 2, cnt 3]
  | 0xE010 => some [rwO 1 (.bytes 16) 0 0 0, { roC 2 .domain 0 with ownRead := true }, { roC 3 .enum 0 with ownRead := true }]
  | _ => none
/-- Tables 14.x (R464) and 18.11. -/
def rowsClock (ix : Nat) : Option (List ObjRow) :=
  match ix with
  | 0x1900 => some [rws 1 .u16 1500 750 1650 .start, { rwO 2 .enum 0 0 4 with vals := [0, 1, 2, 3, 4] }]
  | 0x1901 => some [ro 1 .enum, ro 2 .enum, ro 3 .enum, ro 4 .enum, ro 5 .enum, ro 6 .enum, ro 7 .i32, ro 8 .i32, ro 9 .i32,
      ro 10 .i32, cnt 11]
  | 0x1902 => some [ro 1 .u64, ro 2 .enum, roC 3 .u64 0, wo 4 .u64 .owner]
  | 0x1903 => some (cnts 5)
  | 0x1B00 => some [ro 1 .u32, ro 2 .u32, ro 3 .u32, ro 4 .i32, ro 5 .i32, ro 6 .u32, ro 7 .i32, ro 8 .i32, ro 9 .i32, ro 10 .i32, ro 11 .enum]
  | 0x1B01 => some (cnts 4)
  | _ => none
/-- Table 16.20 and the lease records of R523. -/
def rowsKxl (ix : Nat) : Option (List ObjRow) :=
  match ix with
  | 0x1A00 => some [ro 1 .u64, cst 2 .u16 500, cst 3 .u16 4, cst 4 .u8 8, rwO 5 .u16 1000 100 60000, ro 6 .u8]
  | 0x1A01 => some [rwO 1 .domain 0 0 0, rwO 2 .u64 67108864 0 (2 ^ 36)]
  | 0x1A10 => some [rwO 1 .bool 0 0 1, rwO 2 .u64 0 0 (2 ^ 64 - 1), rwO 3 .u32 60000 1000 3600000, rwO 4 .u16 20 5 1000, ro 5 .u64,
      rwO 6 .u64 0 0 (2 ^ 64 - 1), ro 7 .u64]
  | _ => if 0x1A20 ≤ ix ∧ ix < 0x1A40 then some [ro 1 (.bytes 32), ro 2 (.bytes 16)] else none
/-- Table 16.21. -/
def rowsLink (off : Nat) : Option (List ObjRow) :=
  match off with
  | 0 => some [rwO 1 .bool 1 0 1, { rwO 2 .enum 0 0 1 with vals := [0, 1], src := 1 }, rwO 3 .bool 1 0 1, rwO 4 (.bytes 16) 0 0 0]
  | 1 => some [ro 1 .enum, ro 2 .u16, ro 3 .u8, ro 4 .enum, ro 5 .u64, roC 6 .enum 0, ro 7 (.bytes 16), ro 8 .u32]
  | 2 => some (cnts 22)
  | _ => none
/-- Tables 10.8 and 10.12 and the records of R351-R353. -/
def rowsTm (ix : Nat) : Option (List ObjRow) :=
  let each := fun (r : ObjRow) => some (rep 178 r)
  if ix = 0x3000 then some [cst 1 .u16 4096, wo 2 .bool .owner]
  else if ix = 0x3001 then some [rwO 1 .u8 90 50 100, rwO 2 .u8 85 50 100, rwO 3 .u8 97 50 100, rwO 4 .u8 90 50 100]
  else if ix = 0x3002 then some [rwO 1 .u8 0 0 255, rwO 3 .u8 24 0 255, rwO 4 .u8 24 0 255]
  else if ix = 0x3003 then some [cst 1 .u16 4352, cst 2 .u16 1, cst 3 .u16 9472, cst 4 .u16 4352]
  else if ix = 0x3010 then each (ro 0 .u16)
  else if ix = 0x3011 ∨ ix = 0x3012 then each (ro 0 .u32)
  else if ix = 0x3020 then some (rep 8 { rwO 0 .enum 1 0 3 with vals := [0, 1, 2, 3] })
  else if ix = 0x3021 then some ((rep 8 { rwO 0 .enum 2 0 3 with vals := [0, 1, 2, 3] }).map fun (r : ObjRow) =>
    if r.sub = 4 then { r with d := 3 } else r)
  else if 0x3080 ≤ ix ∧ ix < 0x3088 ∨ 0x3800 ≤ ix ∧ ix < 0x3A00 then each (rwO 0 (.bytes 32) 0 0 0)
  else if 0x3088 ≤ ix ∧ ix < 0x3090 ∨ 0x3A00 ≤ ix ∧ ix < 0x3C00 then each { roC 0 (.bytes 64) 0 with clears := true }
  else if 0x3090 ≤ ix ∧ ix < 0x3098 ∨ 0x3C00 ≤ ix ∧ ix < 0x3E00 then each (roC 0 (.bytes 128) 0)
  else if 0x3100 ≤ ix ∧ ix < 0x31B2 then some (ro 1 .enum :: (cnts 5).drop 1)
  else if 0x3200 ≤ ix ∧ ix < 0x3790 then some [rwO 1 (.bytes 32) 0 0 0]
  else if 0x3E00 ≤ ix ∧ ix < 0x4000 then some (rwO 1 (.bytes 32) 0 0 0 :: (cnts 6).drop 1)
  else none
/-- Tables 15.15 and 1.9. -/
def rowsEvents (ix : Nat) : Option (List ObjRow) :=
  match ix with
  | 0x7000 => some [ro 1 .domain, ro 2 .domain, ro 3 .u64, ro 4 .u64]
  | 0x7110 => some [wo 1 .bool .owner]
  | _ => if 0x7100 ≤ ix ∧ ix < 0x7104 then some [roC 1 .domain 0, roC 2 .u32 0, { roC 3 .enum 0 with vals := [0, 1, 2] }, roC 4 .u32 0]
         else none
/-- The counter blocks (Tables 2.9, 3.6, 4.8, 5.12, 5.13, 6.7, 7.7, 8.10, 9.14, 12.14, 15.15). -/
def rowsCounters (ix : Nat) : Option (List ObjRow) :=
  match ix with
  | 0x6000 => some (cnts 11)
  | 0x6001 => some (cnts 7)
  | 0x6002 => some [ro 1 (.bytes 192)]
  | 0x6020 => some (cnts 3)
  | 0x6030 => some (cnts 15)
  | 0x6040 => some (cnts 15)
  | 0x6050 => some (cnts 24)
  | 0x6060 => some (cnts 24)
  | 0x6070 => some (cnts 14)
  | 0x6080 => some (cnts 7)
  | 0x6090 => some (cnts 8)
  | 0x60A0 => some (cnts 6)
  | 0x60B0 => some (cnts 7)
  | _ => if 0x6100 ≤ ix ∧ ix < 0x6120 then some (cnts 6 ++ [{ ro 7 .u32 with ctr := true }, { ro 8 .u32 with ctr := true }]) else none

/-- The object table of an index (Tables 12.11-12.13); none: not assigned. -/
def rowsOf (ix : Nat) : Option (List ObjRow) :=
  if ix < 0x1000 then
    match ix with
    | 0x0100 => some rowsIdentity
    | 0x0130 => some rowsInventory
    | 0x0131 => some (rep 32 (ro 0 .enum))
    | _ => rowsStart ix
  else if ix < 0x2000 then
    match ix with
    | 0x1000 => some rowsControl
    | 0x1010 => some rowsDict
    | 0x1100 => some rowsTier
    | 0x1200 => some rowsMedia
    | 0x1201 => some rowsRestore
    | 0x1320 => some rowsFrameTable
    | 0x1400 => some rowsPrefix
    | 0x1410 => some rowsBankWidth
    | 0x1620 => some [cst 1 .u16 20, cst 2 .u16 72, rwO 3 .u8 6 2 32, rwO 4 .u16 1024 0 65535, ro 5 .u32, ro 6 .u32, ro 7 .u16, ro 8 .u32]
    | 0x1700 => some rowsOtt
    | 0x1800 => some rowsProtection
    | _ =>
      if 0x1300 ≤ ix ∧ ix < 0x1320 then some rowsProfile
      else if 0x1500 ≤ ix ∧ ix < 0x1600 then some rowsShare
      else if 0x1600 ≤ ix ∧ ix < 0x1620 then
        some [{ rws 1 .u8 1 1 4 .profile with vals := [1, 2, 4] }, { rws 2 .u8 4 1 16 .profile with vals := [1, 2, 4, 8, 16] },
          rws 3 .domain 0 0 0 .profile, ro 4 .u32]
      else if ix < 0x1900 then none
      else if 0x1A00 ≤ ix ∧ ix < 0x1B00 then rowsKxl ix
      else rowsClock ix
  else if ix < 0x3000 then rowsPart (ix % 0x40)
  else if ix < 0x4000 then rowsTm ix
  else if ix < 0x5000 then rowsLink (ix % 0x20)
  else if ix < 0x7000 then rowsCounters ix
  else if ix < 0x7200 then rowsEvents ix
  else rowsStart ix

/-- Highest subindex of a table (R380). -/
def topSub (rs : List ObjRow) : Nat := (rs.map (·.sub)).foldl max 0

/-- The object index:sub, or the abort code that refuses it (R380, R416). -/
def findObj (ix sub : Nat) : Except Nat ObjRow :=
  if ix ≥ 0xF000 then .error 0x0103
  else match rowsOf ix with
    | none => .error 0x0101
    | some rs =>
      if sub = 0 then .ok (cst 0 .u8 (topSub rs))
      else match rs.find? fun r => r.sub == sub with
        | some r => .ok r
        | none => .error 0x0102

/-- Bytes of a type; 0 for a DOMAIN (Table 12.1). -/
def Ty.size : Ty → Nat
  | .bool => 1 | .u8 => 1 | .u16 => 2 | .u32 => 4 | .u64 => 8 | .i32 => 4 | .f32 => 4 | .enum => 1
  | .bytes n => n | .string n => n | .domain => 0
/-- Type code (Table 12.1). -/
def Ty.code : Ty → Nat
  | .bool => 1 | .u8 => 2 | .u16 => 3 | .u32 => 4 | .u64 => 5 | .i32 => 6 | .f32 => 7 | .enum => 8
  | .bytes _ => 9 | .string _ => 10 | .domain => 11
/-- The value is held as a number. -/
def Ty.scalar : Ty → Bool
  | .bytes _ => false | .string _ => false | .domain => false | _ => true
/-- Access code (Table 12.2). -/
def Acc.code : Acc → Nat
  | .ro => 0 | .rw => 1 | .wo => 2 | .rws => 3 | .const => 4

/-- The partition an object belongs to: a partition object, or a leaf or meter record (R350, R388). -/
def ownerPart (ix : Nat) : Option Nat :=
  if 0x2000 ≤ ix ∧ ix < 0x3000 then some ((ix - 0x2000) / 0x40)
  else if 0x3800 ≤ ix ∧ ix < 0x4000 then some (ix % 0x200 / 8)
  else none
/-- The link an object belongs to. -/
def ownerLink (ix : Nat) : Option Nat := if 0x4000 ≤ ix ∧ ix < 0x5000 then some ((ix - 0x4000) / 0x20) else none

/-- The object may be written. -/
def ObjRow.writable (r : ObjRow) : Bool := r.acc == .rw || r.acc == .wo || r.acc == .rws
/-- ADMIN of its partition may write the object (R389). -/
def adminWrites (ix : Nat) (r : ObjRow) : Bool :=
  0x2000 ≤ ix && ix < 0x3000 && r.who == .admin && (r.acc == .rw || r.acc == .wo)

/-- The persistent set (R392). -/
def persistent (ix : Nat) (r : ObjRow) : Bool :=
  (r.acc == .rw || r.acc == .rws) &&
  ((0x1000 ≤ ix && ix < 0x1800) || (0x1900 ≤ ix && ix < 0x1C00) ||
   (0x2000 ≤ ix && ix < 0x3000 &&
    (let o := ix % 0x40; o == 4 || o == 8 || (0x10 ≤ o && o ≤ 0x18) || o == 0x1C)))

/-- Objects writable in stone mode (R432, Table 13.7). (log 33, DEDUCED) -/
def stoneWritable (ix sub : Nat) : Bool :=
  [(0x1000, 1), (0x0800, 4), (0x0810, 1), (0x0810, 2), (0x0840, 8), (0x0840, 9), (0x7200, 6), (0x7200, 7), (0xE010, 1)].contains (ix, sub)

end Sys2Proof.Machine
end

