-- ==== Sys2Proof/Machine/Resources.lean ====
section
/-! DEFINITION. The wafer's resources and what the defect map leaves of them (R21-R37, R443, Tables 1.1-1.3, 1.9). -/

namespace Sys2Proof.Machine

/-- R21: the positions of Table 1.1. -/
def isRind (x y : Nat) : Bool :=
  ((y == 0 || y == 11) && (x ≤ 3 || (8 ≤ x && x ≤ 11))) ||
  ((x == 0 || x == 11) && ((1 ≤ y && y ≤ 3) || (8 ≤ y && y ≤ 10))) ||
  ((x == 1 || x == 10) && (y == 1 || y == 10))

/-- The pith fields in ascending y, then x, as FIELD bytes (x in [7:4]). The order numbers CAM banks and arrays (log 12). -/
def pithFields : List Nat :=
  (List.range 144).filterMap fun i => if isRind (i % 12) (i / 12) then none else some (16 * (i % 12) + i / 12)

/-- FIELD byte of pith field number `f` (0-111). -/
def pithField (f : Nat) : Nat := pithFields.getD f 0xFF

/-- The class A segment of each HBM stack (Table 1.2). -/
def stackSegs : List Nat := [2, 3, 4, 5, 9, 10, 11, 12, 16, 17, 18, 19, 23, 24, 25, 26]
/-- The class B segments in order of their flash channel groups, two each (Table 1.2). -/
def flashSegs : List Nat := [0, 1, 6, 7, 8, 13, 14, 15, 20, 21, 22, 27, 28, 29, 30, 31]

/-- Every fence in force: the map's entries and those held while the map is full (R444). -/
def State.fences (s : State) : List Defect := s.boot.defects ++ s.boot.heldFences

/-- A fence of kind `k` names unit `u`. -/
def State.fencedUnit (s : State) (k u : Nat) : Bool := s.fences.any fun d => d.kind == k && d.unit == u
/-- A fence of kind `k` names unit `u` of field `f`. -/
def State.fencedIn (s : State) (k f u : Nat) : Bool :=
  s.fences.any fun d => d.kind == k && d.field == f && d.unit == u
/-- Pith field number `f` is fenced whole. -/
def State.fieldFenced (s : State) (f : Nat) : Bool := s.fences.any fun d => d.kind == 1 && d.field == pithField f
/-- FIELD byte of rind segments S0-S31 (Table 1.2). -/
def segFields : List Nat :=
  [0x00, 0x10, 0x20, 0x30, 0x80, 0x90, 0xA0, 0xB0, 0xB1,
   0xB2, 0xB3, 0xB8, 0xB9, 0xBA, 0xBB, 0xAB, 0x9B, 0x8B, 0x3B, 0x2B, 0x1B, 0x0B, 0x0A, 0x09, 0x08, 0x03, 0x02, 0x01, 0x11, 0xA1, 0xAA, 0x1A]
/-- Rind segment `g` is fenced whole: an entry of kind 0x01 names its position (R462; log 12). -/
def State.segGone (s : State) (g : Nat) : Bool := s.fences.any fun d => d.kind == 1 && d.field == segFields.getD g 0xFF
/-- Part `k` of segment `g`'s controller is fenced (kind 0x0F), or the segment whole. -/
def State.segFenced (s : State) (g k : Nat) : Bool := s.fencedUnit 0x0F (g + 256 * k) || s.segGone g

/-- Good pith cores in service. -/
def State.pithCores (s : State) : Nat :=
  ((List.range 112).map fun f => if s.fieldFenced f then 0 else
    3072 - (s.fences.filter fun d => d.kind == 2 && d.field == pithField f).length).sum
/-- Stack `h` and its controller are not fenced. (log 12, DESIGN CHOICE) -/
def State.stackGood (s : State) (h : Nat) : Bool :=
  h < 16 && !s.fencedUnit 9 h && !s.segFenced (stackSegs.getD h 0) 0
/-- HBM stacks in service; in stone mode the lowest-numbered alone (R36). -/
def State.stacks (s : State) : List Nat :=
  let g := (List.range 16).filter fun h => s.stackGood h
  if s.boot.stone then g.take 1 else g
/-- Pseudo-channels of stack `h` in service. -/
def State.pseudo (s : State) (h : Nat) : Nat :=
  if s.stackGood h then (((List.range 32).filter fun c => !s.fencedUnit 8 (32 * h + c))).length else 0
/-- T1_BYTES: 36 GiB a stack, 1/32 of it for each pseudo-channel. -/
def State.t1Bytes (s : State) : Nat := ((s.stacks.map s.pseudo).sum) * 1207959552
/-- Flash channel group `g` is in service. -/
def State.groupGood (s : State) (g : Nat) : Bool :=
  g < 32 && !s.fencedUnit 0x0B g && !s.segFenced (flashSegs.getD (g / 2) 0) (2 + g % 2)
/-- Die `d` is in service. -/
def State.dieGood (s : State) (d : Nat) : Bool := s.groupGood (d / 32) && !s.fencedUnit 0x0A d
/-- Dies in service. -/
def State.diesIn (s : State) : List Nat := (List.range 1024).filter fun d => s.dieGood d
/-- Superblocks of a die retired since the format (R155, R175). -/
def Die.retired (d : Die) : Nat := (d.sbs.filter fun e => e.2.st == 3).length
/-- Free superblocks of a die: those of its 3,577, fewer once retirements have used up its 64 spares, that are not in use (R155, R175). -/
def Die.freeCount (d : Die) : Nat := min 3577 (3641 - d.retired) - (d.sbs.length - d.retired)
/-- T2_USER_BYTES: 192 GiB a die, less 72 MiB for each retirement beyond the spares (R155, R175). -/
def State.t2UserBytes (s : State) : Nat :=
  (s.diesIn.map fun d => 206158430208 - 75497472 * ((mget s.media.dies d {}).retired - 64)).sum
/-- Link `n` is not fenced. -/
def State.linkGood (s : State) (n : Nat) : Bool :=
  n < 128 && !s.fencedUnit 0x0D n && !s.segFenced (stackSegs.getD (n / 8) 0) 1
/-- T0_SLICE_BYTES (R26): each core's SRAM less the attention working reserve. -/
def State.t0Bytes (s : State) : Nat := s.pithCores * ((48 - s.boot.t0Reserve) * 1024)

/-! ### Rind segments (R23, R32, R35, R36) -/

/-- The segment whose controller serves traffic-manager port `x` (Table 1.2). -/
def portSeg (x : Nat) : Nat :=
  if x < 16 then stackSegs.getD x 0 else if x < 48 then flashSegs.getD ((x - 16) / 2) 0
  else if x < 176 then stackSegs.getD ((x - 48) / 8) 0 else if x = 176 then 28 else 30
/-- Rind cores of segment `g` (R23). -/
def rindCount (g : Nat) : Nat := if stackSegs.contains g then 1024 else 256
/-- Segment `g` is held idle: in stone mode only the management segment, S28 and the one stack's segment serve (R36). -/
def State.segIdle (s : State) (g : Nat) : Bool :=
  s.boot.stone && !(g == (if s.segGone 0 then 14 else 0) || g == 28 || (s.stacks.map fun h => stackSegs.getD h 0).contains g)
/-- Good rind cores of segment `g` in service. -/
def State.rindCores (s : State) (g : Nat) : Nat :=
  if g ≥ 32 ∨ s.segGone g then 0
  else rindCount g - (s.fences.filter fun d => d.kind == 3 && d.field == segFields.getD g 0xFF).length
/-- Page-mover channels in service of the field or segment at position `f` (Table 1.3, R23): none once the position is fenced. -/
def State.pmChannels (s : State) (f : Nat) : Nat :=
  if s.fences.any fun d => d.kind == 1 && d.field == f then 0
  else 4 - (s.fences.filter fun d => d.kind == 7 && d.field == f).length
/-- Port `k`'s PCIe controller is in service: not fenced (R32) and, in stone mode, on a segment that is not held idle (R36). -/
def State.pcieGood (s : State) (k : Nat) : Bool :=
  let g := if k = 0 then 28 else 30
  !s.segFenced g 4 && !s.segIdle g
/-- Port `x` is on a segment held idle, or has only its stack in service there (R36). -/
def State.portIdle (s : State) (x : Nat) : Bool :=
  if x < 16 then !s.stacks.contains x else s.segIdle (portSeg x) || (s.boot.stone && 48 ≤ x && x < 176)

/-! ### Places (R25, R34) -/

/-- The first of `n` places from `h` on, cyclically, that `ok` accepts, or `h` itself where none is left. -/
def firstGood (n h : Nat) (ok : Nat → Bool) : Nat :=
  if ok h then h else (((List.range n).map fun i => (h + i) % n).find? ok).getD h
/-- The HBM stack in service a slice copy is placed on. (log 12, DESIGN CHOICE) -/
def State.stackFor (s : State) (fid layer : Nat) : Nat :=
  firstGood 16 (Config.stackOf fid layer % 16) fun h => s.stacks.contains h && s.pseudo h > 0
/-- The pseudo-channel in service of its stack a slice copy is placed on. (log 12, DESIGN CHOICE) -/
def State.chanFor (s : State) (fid layer : Nat) : Nat :=
  firstGood 32 (Config.chanOf fid layer % 32) fun c => !s.fencedUnit 8 (32 * s.stackFor fid layer + c)
/-- The good pith core whose SRAM a T0 copy is placed on. (log 12, DESIGN CHOICE) -/
def State.coreFor (s : State) (fid layer : Nat) : Nat :=
  firstGood 344064 (Config.coreOf fid layer % 344064) fun c =>
    !s.fieldFenced (c / 3072) && !s.fencedIn 2 (pithField (c / 3072)) (c % 3072)

/-- CAM bank `b` lies in field b ÷ 8. A bank without a good row is out of service (R443). -/
def State.bankGood (s : State) (b : Nat) : Bool :=
  b < 896 && !s.fieldFenced (b / 8) &&
  (s.fences.filter fun d => d.kind == 4 && d.unit / 16384 == b).length < 16384
/-- CAM banks in service. -/
def State.banks (s : State) : List Nat := (List.range 896).filter fun b => s.bankGood b
/-- Analog array `a` (0-3583) lies in field a ÷ 32; it is in service unless fenced or in a fenced field. -/
def State.arrayGood (s : State) (a : Nat) : Bool :=
  a < 3584 && !s.fieldFenced (a / 32) && !s.fencedIn 6 (pithField (a / 32)) (a % 32) &&
  (s.fences.filter fun d => d.kind == 5 && d.field == pithField (a / 32) && bits d.unit 16 5 == a % 32
    && d.unit % 65536 < 4096).length < 4096
/-- Arrays in service. -/
def State.arraysIn (s : State) : List Nat := (List.range 3584).filter fun a => s.arrayGood a
/-- A data column of array `a` is good. -/
def State.columnGood (s : State) (a c : Nat) : Bool :=
  s.arrayGood a && !s.fencedIn 5 (pithField (a / 32)) (65536 * (a % 32) + c)

end Sys2Proof.Machine
end

