-- ==== Sys2Proof/Machine/Ops.lean ====
section
/-! DEFINITION. The named operations every family shares: counters, scalar objects, free values, time, events and MSI-X
messages. -/

namespace Sys2Proof.Machine

/-- The outcome of a command that runs. -/
abbrev Res := Host.Outcome State Fault Refusal

/-! ### Counters and scalar objects -/

/-- The key of object index:sub in the stores. -/
def okey (ix sub : Nat) : Nat := ix * 256 + sub

/-- Adds `n` to counter index:sub (64 bits, wraps; R478). -/
def State.bump (s : State) (ix sub : Nat) (n : Nat := 1) : State :=
  { s with ctr := mset s.ctr (okey ix sub) (mget s.ctr (okey ix sub) 0 + BitVec.ofNat 64 n) }

/-- The counter index:sub. -/
def State.count (s : State) (ix sub : Nat) : W64 := mget s.ctr (okey ix sub) 0

/-- The index of offset `off` of partition `p` (R418). -/
def pIx (p off : Nat) : Nat := 0x2000 + 0x40 * p + off
/-- The index of offset `off` of link `n` (R419). -/
def lIx (n off : Nat) : Nat := 0x4000 + 0x20 * n + off

/-- The scalar object index:sub, or its default `d`. -/
def State.obj (s : State) (ix sub d : Nat) : Nat := mget s.cfg (okey ix sub) d
/-- Stores a scalar object. -/
def State.setObj (s : State) (ix sub v : Nat) : State := { s with cfg := mset s.cfg (okey ix sub) v }
/-- The BYTES, STRING or DOMAIN object index:sub; empty by default. -/
def State.blobOf (s : State) (ix sub : Nat) : Bytes := mget s.blob (okey ix sub) []
/-- Stores a BYTES, STRING or DOMAIN object. -/
def State.setBlob (s : State) (ix sub : Nat) (v : Bytes) : State := { s with blob := mset s.blob (okey ix sub) v }

/-- R354. -/
def State.partCount (s : State) : Nat := s.boot.partCount

/-! ### Free values (log 1) -/

/-- Takes one free value: the counter's reading, and the state with the counter advanced. (log 1, DESIGN CHOICE) -/
def State.takeFree (s : State) : Nat × State := (s.free, { s with free := s.free + 1 })

/-! ### Time (R420, R455; log 3) -/

/-- Moves time up to `t` ns of uptime if it stands before it. (log 3, DESIGN CHOICE; log 4, DESIGN CHOICE) -/
def State.timeTo (s : State) (t : Nat) : State :=
  { s with up := max s.up t, now := s.now + BitVec.ofNat 64 (t - s.up) }

/-- Microseconds and milliseconds in ns. -/
def us (n : Nat) : Nat := n * 1000
def ms (n : Nat) : Nat := n * 1000000
def sec (n : Nat) : Nat := n * 1000000000

/-! ### MSI-X (R280, R282, R357, R370) -/

/-- The key of function `fn` (0 the PF, v a VF) of port `k`. -/
def fnKey (k fn : Nat) : Nat := 65 * k + fn
/-- The key of a vector of a function. -/
def vecKey (k fn vec : Nat) : Nat := 128 * fnKey k fn + vec

/-- True while a reset of `p` suppresses its vectors (Table 11.7). -/
def State.suppressed (s : State) (p : Nat) : Bool := (mget s.part.parts p {}).st == 2

/-- Sends a message of a vector, counted in MESSAGES of a virtual function's partition (Table 8.10), or sets its pending bit while the
vector is masked or MSI-X is off. A cause that finds the message pending adds none. A port whose controller is out of service sends none (R32, R36). (log 10, PRESUMED; log 5, DESIGN CHOICE) -/
def State.msix (s : State) (k fn vec : Nat) : State :=
  let v := vecKey k fn vec
  if !s.pcieGood k then s
  else if s.q.msixOn.contains (fnKey k fn) && s.q.msixOpen.contains v then
    let s := { s with out := s.out ++ [.msix k fn vec] }
    if fn = 0 then s else s.bump (pIx (fn - 1) 0x21) 0x0B
  else if s.q.msixPend.contains v then s
  else { s with q := { s.q with msixPend := s.q.msixPend ++ [v] } }

/-- R355: partition `p` has a virtual function on port `k`. -/
def State.hasVf (s : State) (k p : Nat) : Bool := p < (mget s.part.ports k {}).vfs

/-- Sends a function vector of partition `p` on each of its functions (R280); suppressed during its reset. -/
def State.partVec (s : State) (p vec : Nat) : State :=
  if s.suppressed p then s else
  let f := fun (s : State) k => if s.hasVf k p then s.msix k (p + 1) vec else s
  f (f s 0) 1

/-- Sends a PF vector on both ports (Table 11.3). -/
def State.pfVec (s : State) (vec : Nat) : State := (s.msix 0 0 vec).msix 1 0 vec

/-! ### Metadata of the page tables (R159) -/

/-- Notes that a metadata structure changed: its record joins the METADATA stream (R159, R161). -/
def State.touch (s : State) (k : MetaKey) : State :=
  { s with media := { s.media with
      metaPend := (s.media.metaPend.filter fun e => e.1 != k) ++ [(k, s.media.metaNo)]
      metaNo := s.media.metaNo + 1
      metaSince := if s.media.metaPend.any fun e => e.1 == k then s.media.metaSince else s.media.metaSince ++ [(k, s.up)] } }

/-! ### Events (R466, R467) -/

/-- What an event names (Table 15.2). -/
structure EvArg where
  part : Option Nat := none
  port : Nat := 0xFFFF
  unitKind : Nat := 0
  field : Nat := 0
  unit : Nat := 0
  params : List Nat := []

/-- Severity, class and vector of an event kind (Table 15.3): a partition vector, or a PF vector when none is named. -/
def evKind (kind : Nat) : Nat × Nat × Nat × Nat :=
  match kind with
  | 0x0001 => (3, 5, 65, 1)
  | 0x0002 => (3, 5, 65, 1)
  | 0x0003 => (1, 6, 64, 3)
  | 0x0004 => (1, 6, 64, 3)
  | 0x0010 => (3, 4, 65, 0)
  | 0x0011 => (0, 4, 64, 0)
  | 0x0012 => (1, 6, 67, 4)
  | 0x0013 => (0, 5, 64, 0)
  | 0x0020 => (2, 8, 64, 5)
  | 0x0030 => (2, 7, 64, 0)
  | 0x0031 => (0, 7, 64, 0)
  | 0x0032 => (1, 7, 64, 0)
  | 0x0040 => (2, 5, 64, 0)
  | 0x0041 => (2, 5, 64, 0)
  | 0x0042 => (3, 5, 64, 0)
  | 0x0050 => (2, 9, 64, 6)
  | 0x0051 => (1, 9, 64, 6)
  | 0x0052 => (2, 9, 64, 0)
  | 0x0053 => (3, 9, 64, 0)
  | 0x0060 => (2, 10, 64, 0)
  | 0x0061 => (3, 5, 64, 0)
  | 0x0062 => (3, 5, 64, 0)
  | _ => (2, 9, 64, 0)

/-- TS_QUALITY is not LOCKED (R456). -/
def State.holdover (s : State) : Bool := s.clk.mesh != .locked

/-- Records the event log holds (R466, R486). -/
def State.ringSize (s : State) : Nat := if s.boot.stone && s.stacks.isEmpty then 256 else 65536

/-- Appends an event record (newest first); when the ring is full the oldest is replaced. (log 13, DESIGN CHOICE) -/
def State.logEvent (s : State) (kind sev cls : Nat) (a : EvArg) : State :=
  let e : Event := {
    seqNo := s.ev.next, time := s.now.toNat, start := s.boot.starts, kind := kind, sev := sev, cls := cls
    holdover := s.holdover, part := a.part.getD 0xFF, port := a.port, unitKind := a.unitKind, field := a.field
    unit := a.unit, params := a.params }
  let full := s.ev.log.length ≥ s.ringSize
  let s := { s with ev := { s.ev with log := (e :: s.ev.log).take s.ringSize, next := s.ev.next + 1 } }
  let s := if sev ≥ 3 then s.touch (.event e.seqNo) else s
  (if full then s.bump 0x60B0 2 else s).bump 0x60B0 1

/-- Records an event of Table 15.3 in class `cls` and sends its vector. -/
def State.eventAs (s : State) (kind cls : Nat) (a : EvArg) : State :=
  let (sev, _, pv, fv) := evKind kind
  let s := s.logEvent kind sev cls a
  match a.part with
  | some p => if kind = 0x0012 then s else s.partVec p pv
  | none => s.pfVec fv

/-- Records an event of Table 15.3 in its own class and sends its vector. -/
def State.event (s : State) (kind : Nat) (a : EvArg) : State := s.eventAs kind (evKind kind).2.1 a

end Sys2Proof.Machine
end

