-- ==== Sys2Proof/Machine/Layout.lean ====
section
/-! DEFINITION. Profiles, slice and tile layouts, the byte images of stored rows (R38-R49, R64-R67, R130), and the fields of a plan
object (R136). -/

namespace Sys2Proof.Machine

/-! ### Profiles -/

/-- Entry `sub` of profile `n` (Table 2.7). -/
def State.prof (s : State) (n sub : Nat) : Nat :=
  s.obj (0x1300 + n) sub (match sub with
    | 4 => 64 | 5 => 512 | 6 => 64 | 7 => 1 | 8 => 1 | 9 => 128 | 10 => 128 | 12 => 128 | 13 => 128 | 14 => 128 | _ => 0)

/-- The geometry of a profile. -/
structure Geo where
  latent : Bool
  layers : Nat
  segs : List Nat
  fp8 : Bool
  latentW : Nat
  rotaryW : Nat
  heads : Nat
  kW : Nat
  vW : Nat
  tag : Nat
  deriving DecidableEq, Repr

/-- Geometry of profile `n`: the segments in storage order (R39 f.), heads and widths of expansion or of the stored heads. -/
def State.geo (s : State) (n : Nat) : Geo :=
  let p := s.prof n
  if p 3 = 0 then
    { latent := true, layers := p 4, segs := [p 5, p 6].filter (· > 0), fp8 := p 11 = 1, latentW := p 5, rotaryW := p 6
      heads := p 12, kW := p 13, vW := p 14, tag := p 2 }
  else
    { latent := false, layers := p 4, segs := List.replicate (p 8) (p 9) ++ List.replicate (p 8) (p 10), fp8 := p 11 = 1
      latentW := 0, rotaryW := 0, heads := p 8, kW := p 9, vW := p 10, tag := p 2 }

/-- The groups of one segment of width `w` (R40): full groups of 128, then a short one. -/
def segGroups (w : Nat) : List Nat :=
  List.replicate (w / 128) 128 ++ (if w % 128 = 0 then [] else [w % 128])
/-- R40: group widths in storage order. -/
def Geo.groups (g : Geo) : List Nat := g.segs.flatMap segGroups
/-- Row width W. -/
def Geo.w (g : Geo) : Nat := g.segs.sum
/-- W_k (R194). -/
def Geo.wk (g : Geo) : Nat := if g.latent then g.latentW else g.kW
/-- R41, R42: bytes of a slice in T1 form. -/
def Geo.sliceBytes (g : Geo) : Nat := if g.fp8 then roundUp (16 * g.w + 16 * g.groups.length) 64 else 32 * g.w
/-- FRAME_BYTES. -/
def Geo.frameBytes (g : Geo) : Nat := g.sliceBytes * g.layers
/-- UPPROJ_BYTES (R65). -/
def Geo.upprojBytes (g : Geo) : Nat := if g.latent then 2 * g.layers * g.heads * (g.kW + g.vW) * g.latentW else 0
/-- D of R137: the delivery size of one slice, as stored or expanded over `n` heads. -/
def Geo.delivery (g : Geo) (expand : Bool) (n : Nat) : Nat :=
  if expand then 32 * n * (g.kW + g.rotaryW + g.vW) else 32 * g.w

/-- The profile bound to slot `sl` of partition `p` (R67); none when empty. -/
def State.bound (s : State) (p sl : Nat) : Option Nat :=
  let v := s.obj (pIx p 4) (sl + 1) 0xFF
  if v = 0xFF then none else some v
/-- BINDINGS: partitions that bind profile `n`. -/
def State.bindings (s : State) (n : Nat) : Nat :=
  ((List.range 64).filter fun p => (List.range 8).any fun sl => s.bound p sl == some n).length

/-! ### Rows -/

/-- A list cut into pieces of the given widths. -/
def cut {α : Type} : List Nat → List α → List (List α)
  | [], _ => []
  | w :: ws, xs => xs.take w :: cut ws (xs.drop w)

/-- A row of BF16 values stored as the profile stores it (R43, R298). -/
def storeRow (g : Geo) (xs : List Nat) : Row :=
  if g.fp8 then
    let r := (cut g.groups xs).map compressGroup
    { elems := r.flatMap (·.1), scales := r.map (·.2) }
  else { elems := xs }

/-- A stored row in BF16 (R44). -/
def bfRow (g : Geo) (r : Row) : List Nat :=
  if g.fp8 then ((cut g.groups r.elems).zip r.scales).flatMap fun p => p.1.map (widen p.2) else r.elems

/-- The quantised FP8 form of a BF16 row widened again: what a LOSSY_FP8 record restores (R130, R132). -/
def lossyRow (g : Geo) (r : Row) : Row :=
  let q := storeRow { g with fp8 := true } r.elems
  { elems := bfRow { g with fp8 := true } q }

/-- Little-endian BF16 bytes. -/
def bfBytes (xs : List Nat) : Bytes := xs.flatMap fun x => leBytes 2 x
/-- BF16 values of little-endian bytes. -/
def bfOfBytes : Bytes → List Nat
  | a :: b :: r => (a.toNat + 256 * b.toNat) :: bfOfBytes r
  | _ => []

/-- 16 rows of the slice in BF16, rows at or above the fill zero (R46). -/
def rows16 (g : Geo) (d : SliceData) : List (List Nat) :=
  let rs := d.map (bfRow g)
  rs ++ List.replicate (16 - rs.length) (List.replicate g.w 0)

/-- R45: the tiles of BF16 rows cut into the given groups, group by group, row by row. -/
def tilesOf (groups : List Nat) (rows : List (List Nat)) : List Bytes :=
  let cs := rows.map (cut groups)
  (List.range groups.length).map fun j => cs.flatMap fun c => bfBytes (c.getD j [])

/-- The tiles of a slice as stored. -/
def tilesStored (g : Geo) (d : SliceData) : List Bytes := tilesOf g.groups (rows16 g d)

/-- The dot product of R47 in binary32, ascending, from +0. -/
def dot32 (acc : Nat) : List Nat → List Nat → Nat
  | a :: as, b :: bs => dot32 (fadd acc (fmul (bf32 a) (bf32 b))) as bs
  | _, _ => acc

/-- Row-major BF16 matrix `m` of `rows` rows and `cols` columns at byte offset `off` of UPPROJ. -/
def matRows (up : Bytes) (off rows cols : Nat) : List (List Nat) :=
  (List.range rows).map fun i => bfOfBytes (slice up (off + 2 * cols * i) (2 * cols))

/-- Byte offset of U_K,h (v = 0) or U_V,h (v = 1) of a layer in UPPROJ (R65). -/
def upOff (g : Geo) (layer h v : Nat) : Nat :=
  2 * g.latentW * (layer * g.heads * (g.kW + g.vW) + (if v = 0 then h * g.kW else g.heads * g.kW + h * g.vW))

/-- R47: the tiles of an expanded read of heads h0 to h0 + n − 1. -/
def tilesExpanded (g : Geo) (up : Bytes) (layer h0 n : Nat) (d : SliceData) : List Bytes :=
  let rows := d.map (bfRow g)
  let proj := fun (off r : Nat) (x : List Nat) =>
    (matRows up off r g.latentW).map fun m => toBf (dot32 0 m (x.take g.latentW))
  let kseg := fun h => (rows.map fun x => proj (upOff g layer h 0) g.kW x ++ x.drop g.latentW)
  let vseg := fun h => (rows.map fun x => proj (upOff g layer h 1) g.vW x)
  let pad := fun (w : Nat) (rs : List (List Nat)) => rs ++ List.replicate (16 - rs.length) (List.replicate w 0)
  let hs := (List.range n).map (· + h0)
  hs.flatMap (fun h => tilesOf (segGroups (g.kW + g.rotaryW)) (pad (g.kW + g.rotaryW) (kseg h)))
    ++ hs.flatMap (fun h => tilesOf (segGroups g.vW) (pad g.vW (vseg h)))

/-- R130: the valid-row image of a slice. -/
def validImage (g : Geo) (d : SliceData) : Bytes :=
  let cs := d.map fun r => cut g.groups r.elems
  let el := (List.range g.groups.length).flatMap fun j => cs.flatMap fun c =>
    (c.getD j []).flatMap fun x => leBytes (if g.fp8 then 1 else 2) x
  let sc := if g.fp8 then (List.range g.groups.length).flatMap fun j => d.map fun r => BitVec.ofNat 8 (r.scales.getD j 0)
    else []
  el ++ sc

/-- R41, R42: the T1-form bytes of a slice; rows at or above the fill are zero. -/
def t1Image (g : Geo) (d : SliceData) : Bytes :=
  let rows := d ++ List.replicate (16 - d.length) { elems := List.replicate g.w 0, scales := g.groups.map fun _ => 0 }
  let cs := rows.map fun r => cut g.groups r.elems
  let el := (List.range g.groups.length).flatMap fun j => cs.flatMap fun c =>
    (c.getD j []).flatMap fun x => leBytes (if g.fp8 then 1 else 2) x
  let sc := if g.fp8 then (List.range g.groups.length).flatMap fun j => rows.map fun r => BitVec.ofNat 8 (r.scales.getD j 0)
    else []
  padTo (el ++ sc) g.sliceBytes

/-- Little-endian numbers of `n` bytes each. -/
def numsOf (n : Nat) : Nat → Bytes → List Nat
  | 0, _ => []
  | k + 1, bs => leNat (bs.take n) :: numsOf n k (bs.drop n)

/-- The first `fill` rows of the slice that T1-form bytes hold. -/
def ofImage (g : Geo) (fill : Nat) (bs : Bytes) : SliceData :=
  let es := if g.fp8 then 1 else 2
  let starts := (List.range g.groups.length).map fun j => 16 * es * (g.groups.take j).sum
  (List.range fill).map fun r =>
    { elems := (g.groups.zip starts).flatMap fun p => numsOf es p.1 (bs.drop (p.2 + r * p.1 * es))
      scales := if g.fp8 then (List.range g.groups.length).map fun j => fld bs (16 * g.w + 16 * j + r) 1 else [] }

/-! ### The plan object (Tables 4.9, 4.10) -/

/-- Fields of a plan's header. -/
def pMode (b : Bytes) : Nat := fld b 0 1 % 4
def pLead (b : Bytes) : Nat := fld b 1 1 % 16
def pStageLead (b : Bytes) : Nat := fld b 2 1
def pDeliver (b : Bytes) : Bool := bit (fld b 3 1) 0
def pExpand (b : Bytes) : Bool := bit (fld b 3 1) 1
def pPushClass (b : Bytes) : Nat := fld b 4 1 % 8
def pStageClass (b : Bytes) : Nat := bits (fld b 4 1) 4 3
def pQueue (b : Bytes) : Nat := fld b 5 1 % 64
def pLinks (b : Bytes) : List Nat := ((List.range 8).map fun i => fld b (8 + i) 1).filter (· != 0xFF)
def pOrderLen (b : Bytes) : Nat := fld b 30 2
def pOrder (b : Bytes) (i : Nat) : Nat := fld b (64 + i) 1
def pBatchLen (b : Bytes) : Nat := fld b 32 2
/-- Byte offset of batch entry `j`. -/
def pBatchAt (b : Bytes) (j : Nat) : Nat := 64 + roundUp (pOrderLen b) 64 + 16 * j
/-- The batch: sequence, first block, blocks. -/
def pBatch (b : Bytes) : List (Nat × Nat × Nat) :=
  (List.range (pBatchLen b)).map fun j => (fld b (pBatchAt b j) 3, fld b (pBatchAt b j + 4) 2, fld b (pBatchAt b j + 8) 4)
/-- Block `k` of the batch, counted in order: its sequence and token block. -/
def batchBlock : List (Nat × Nat × Nat) → Nat → Option (Nat × Nat)
  | [], _ => none
  | (q, f, c) :: r, k => if k < c then some (q, f + k) else batchBlock r (k - c)
/-- B: the blocks of a batch. -/
def pBlocks (b : Bytes) : Nat := ((pBatch b).map fun e => e.2.2).sum

/-- The sink address of the ring slot of position `i` (R138). -/
def pBase (b : Bytes) (i : Nat) : Nat := fld b 16 6 + i % fld b 28 1 * fld b 24 4
/-- D of R137 for a plan of partition `p`: the delivery size of a slice. -/
def State.pSize (s : State) (p : Nat) (b : Bytes) : Nat :=
  (s.geo ((s.bound p (fld b 34 1 % 8)).getD 0)).delivery (pExpand b) (fld b 29 1)

end Sys2Proof.Machine
end

