-- ==== Sys2Proof/Machine/Traffic.lean ====
section
/-! DEFINITION. The traffic manager (10_traffic_manager.md): ports, shapers, meters, leaf queues, the choice of the next
unit, the overcommit check and the degradation ratio. -/

namespace Sys2Proof.Machine

/-! ### Ports and capacity (R321-R323) -/

/-- Kind of port `x`: 0 HBM, 1 flash, 2 link, 3 PCIe (Table 10.1). -/
def portKind (x : Nat) : Nat := if x < 16 then 0 else if x < 48 then 1 else if x < 176 then 2 else 3
/-- NOMINAL of Table 10.1. -/
def nominal (x : Nat) : Nat :=
  match portKind x with
  | 0 => 9600000
  | 1 => 219726
  | 2 => 400000
  | _ => 1024000
/-- DERATE of a port kind (0x3001). -/
def State.derate (s : State) (k : Nat) : Nat :=
  s.obj 0x3001 (k + 1) (match k with | 0 => 90 | 1 => 85 | 2 => 97 | _ => 90)
/-- RATE of link `n` in Gb/s (0x00:02); the strap's default is stored at start. -/
def State.rateSel (s : State) (n : Nat) : Nat := if s.obj (lIx n 0) 2 0 = 1 then 200 else 400
/-- F of R323 as a fraction (numerator, denominator); a port held idle has none in service (R36). -/
def State.portF (s : State) (x : Nat) : Nat × Nat :=
  if s.portIdle x then (0, 1) else
  match portKind x with
  | 0 => (s.pseudo x, 32)
  | 1 => (((List.range 32).filter fun i => s.dieGood (32 * (x - 16) + i)).length, 32)
  | 2 => if s.linkGood (x - 48) then
      (let t := (mget s.lk.links (x - 48) {}).trained
       (if t = 0 then s.rateSel (x - 48) else t), 400) else (0, 400)
  | _ => if !s.pcieGood (x - 176) then (0, 1024) else (mget s.tm.lanes (x - 176) 16 * mget s.tm.gts (x - 176) 64, 1024)
/-- CAPACITY(x) (R323). -/
def State.capacity (s : State) (x : Nat) : Nat :=
  let (n, d) := s.portF x
  nominal x * n * s.derate (portKind x) / (d * 100)

/-! ### Records -/

/-- The schedulers: port `x`, with 178 and 179 for the read direction of the PCIe ports (R322). -/
def sched (x dir : Nat) : Nat := if portKind x = 3 ∧ dir = 1 then x + 2 else x
/-- The port a scheduler belongs to. -/
def schedPort (sc : Nat) : Nat := if sc ≥ 178 then sc - 2 else sc
/-- Key of leaf (s, c) of scheduler or port `x`. -/
def leafKey (x s c : Nat) : Nat := (x * 65 + s) * 8 + c

/-- The defaults of Table 10.10 for a leaf of port `x`. -/
def leafDefault (x : Nat) : LeafCfg :=
  if portKind x = 1 then { cbs := 8, ebs := 8, limit := 64 } else { cbs := 65536, ebs := 65536, limit := 4194304 }
/-- The defaults of R351 for node `c` of port `x`. -/
def nodeDefault (x c : Nat) : LeafCfg :=
  let w := [1, 32, 16, 8, 8, 4, 4, 1].getD c 1
  if portKind x ≤ 1 then { weight := w, xweight := w, eir := 0 }
  else { leafDefault x with weight := w, xweight := w, limit := 0 }
/-- Leaf (s, c, x)'s record. -/
def State.leafCfg (s : State) (x sub c : Nat) : LeafCfg := mget s.tm.leafCfg (leafKey x sub c) (leafDefault x)
/-- Node c of port x's record. -/
def State.nodeCfg (s : State) (x c : Nat) : LeafCfg := mget s.tm.nodeCfg (8 * x + c) (nodeDefault x c)
/-! ### Shapers (R329-R331) -/

/-- Token scale: a byte is 8,000 and a command 10^9, so that one ns adds the rate field itself. (log 41, DEDUCED) -/
def tokScale (commands : Bool) : Nat := if commands then 1000000000 else 8000
/-- A full bucket at time `t`. -/
def fullBucket (scale burst t : Nat) : Bucket := { tok := (burst * scale : Nat), at_ := t }
/-- The bucket brought up to time `t` at `rate`, capped at `burst`. -/
def refill (b : Bucket) (scale rate burst t : Nat) : Bucket :=
  { tok := min ((burst * scale : Nat) : Int) (b.tok + ((rate * (t - b.at_) : Nat) : Int)), at_ := t }
/-- A bucket is eligible while its tokens are above 0; rate 0 never, 0xFFFF_FFFF always (R329, R330). -/
def eligible (b : Bucket) (rate : Nat) : Bool :=
  if rate = 0 then false else if rate = 0xFFFFFFFF then true else b.tok > 0
/-- The bucket with `len` taken; an unlimited one holds no tokens. -/
def charge (b : Bucket) (scale rate len : Nat) : Bucket :=
  if rate = 0xFFFFFFFF then b else { b with tok := b.tok - ((len * scale : Nat) : Int) }
/-- R331: the bucket after its record is written. -/
def onChange (b : Bucket) (mode scale burst t : Nat) : Bucket :=
  match mode with
  | 0 => fullBucket scale burst t
  | 1 => { tok := 0, at_ := t }
  | _ => { tok := min ((burst * scale : Nat) : Int) b.tok, at_ := t }
/-- R344: the committed rate in force of a class-c bucket on port x. -/
def State.scaledCir (s : State) (x c cir : Nat) : Nat :=
  if c = 0 ∨ c = 7 ∨ cir = 0 ∨ cir = 0xFFFFFFFF then cir else cir * mget s.tm.ratio x 32768 / 32768

/-! ### Meters (R332-R335) -/

/-- The default meter of R353, its buckets full at time `t` (R348). -/
def meterDefault (t : Nat) : Meter :=
  { cbs := 65536, pir := 0xFFFFFFFF, pbs := 65536, tc := fullBucket 8000 65536 t, tp := fullBucket 8000 65536 t }
/-- The meter of partition p and class c. -/
def State.meter (s : State) (p c : Nat) : Meter := mget s.tm.meters (8 * p + c) (meterDefault s.up)

/-- RFC 2698 colouring of one item (R333): 0 green, 1 yellow, 2 red. `pre` is the pre-colour. -/
def meterColour (m : Meter) (t len pre : Nat) : Nat × Meter :=
  if m.mode = 0 then (0, m) else
  let sc := tokScale m.ops
  let len := if m.ops then 1 else min len m.pbs
  let tc := if m.cir = 0xFFFFFFFF then fullBucket sc (2 ^ 32) t else refill m.tc sc m.cir m.cbs t
  let tp := if m.pir = 0xFFFFFFFF then fullBucket sc (2 ^ 32) t else refill m.tp sc m.pir m.pbs t
  let m := { m with tc := tc, tp := tp }
  let need : Int := (len * sc : Nat)
  let aware := m.mode = 2
  if aware ∧ pre = 2 then (2, m)
  else if tp.tok < need then (2, m)
  else if (aware ∧ pre = 1) ∨ tc.tok < need then (1, { m with tp := charge tp sc m.pir len })
  else (0, { m with tp := charge tp sc m.pir len, tc := charge tc sc m.cir len })

/-- The action of a colour for class `c` (R334): 0 ACCEPT, 1 EXCESS_ONLY, 2 DEMOTE, 3 DROP. `plain` items of class 3
are demoted where a staging item would be dropped. -/
def State.action (s : State) (c colour : Nat) (staging : Bool) : Nat :=
  let a := match colour with
    | 0 => 0
    | 1 => s.obj 0x3020 (c + 1) 1
    | _ => s.obj 0x3021 (c + 1) (if c = 3 then 3 else 2)
  if a = 3 ∧ (c ≠ 3 ∨ !staging) then 2 else a

/-- Index of partition p's meter of class c. -/
def mIx (p c : Nat) : Nat := 0x3E00 + 8 * p + c

/-- Meters one item of `len` bytes (R332): its action, and the state with the meter and counters moved. A partition in
reset is not metered: its items take YELLOW_ACTION (Table 11.7). (log 41, DEDUCED) -/
def State.meterItem (s : State) (p c len pre : Nat) (staging : Bool) : Nat × State :=
  if s.suppressed p then (s.action c 1 staging, s) else
  let (col, m) := meterColour (s.meter p c) s.up len pre
  let s := { s with tm := { s.tm with meters := mset s.tm.meters (8 * p + c) m } }
  let s := (s.bump (mIx p c) (2 + col)).bump (pIx p 0x25) 6
  let a := s.action c col staging
  let s := if a = 3 then
      ((((s.bump (mIx p c) 5).bump (mIx p c) 6 (if m.ops then 1 else len)).bump 0x6040 0x0F).bump (pIx p 0x25) 7).bump
        0x6001 7
    else s
  (a, s)

/-! ### Leaf queues (R336, R346) -/

/-- The queue of a leaf. -/
def State.leafQ (s : State) (sc sub c : Nat) : LeafQ :=
  mget s.tm.leaves (leafKey sc sub c)
    (let d := s.leafCfg (schedPort sc) sub c
     let k := tokScale (portKind (schedPort sc) == 1)
     { com := fullBucket k d.cbs s.up, exc := fullBucket k d.ebs s.up })
/-- Stores the queue of a leaf. -/
def State.setLeafQ (s : State) (sc sub c : Nat) (l : LeafQ) : State :=
  { s with tm := { s.tm with leaves := mset s.tm.leaves (leafKey sc sub c) l } }
/-- Changes a leaf's statistics. -/
def State.leafStat (s : State) (x sub c : Nat) (f : LeafStat → LeafStat) : State :=
  { s with tm := { s.tm with stats := mupd s.tm.stats (leafKey x sub c) {} f } }
/-- Queued length of a leaf. -/
def qLen (us : List TUnit) : Nat := (us.map (·.len)).sum

/-- Counts a dropped unit of subscriber `sub` under transfer-loss subindex `n` (0x25, 0x6001). -/
def State.lossUnit (s : State) (sub n : Nat) : State :=
  let s := s.bump 0x6001 n
  if sub < 64 then s.bump (pIx sub 0x25) n else s

/-- R346: a port is closed to units: 1 fenced or held idle, 2 link down, 0 open. -/
def State.portShut (s : State) (x : Nat) : Nat :=
  if s.portIdle x then 1 else
  match portKind x with
  | 0 => if s.stackGood x then 0 else 1
  | 1 => if s.groupGood (x - 16) then 0 else 1
  | 2 => if !s.linkGood (x - 48) then 1 else if (mget s.lk.links (x - 48) {}).st == .up then 0 else 2
  | _ => if mget s.tm.lanes (x - 176) 16 = 0 ∨ !s.pcieGood (x - 176) then 1 else 0

/-- The length of a unit on port `x` (Table 10.2) carrying `n` bytes. -/
def State.unitLen (s : State) (x n : Nat) : Nat :=
  match portKind x with
  | 0 => roundUp n 64 + s.obj 0x3002 1 0
  | 1 => 1
  | 2 => n + s.obj 0x3002 3 24
  | _ => n + s.obj 0x3002 4 24

/-- Queues a unit in leaf (sub, c) of scheduler `sc`, or leaves it waiting at QUEUE_LIMIT (R336). -/
def State.queueUnit (s : State) (sc sub c : Nat) (u : TUnit) : State :=
  let x := schedPort sc
  let l := s.leafQ sc sub c
  let u := { u with at_ := s.up }
  if l.wait.isEmpty ∧ qLen l.q + u.len ≤ (s.leafCfg x sub c).limit then
    let l := { l with q := l.q ++ [u] }
    (s.setLeafQ sc sub c l).leafStat x sub c fun t =>
      { t with depthHwm := min (2 ^ 32 - 1) (max t.depthHwm (qLen l.q)) }
  else
    (s.setLeafQ sc sub c { l with wait := l.wait ++ [u] }).leafStat x sub c fun t =>
      { t with backpressure := t.backpressure + 1 }

/-- Why leaf (sub, c) of scheduler `sc` takes no unit of `len` now, as its transfer-loss subindex: 4 or 5 on a shut port (R346), 2 over
QUEUE_LIMIT with OVERFLOW_ACTION DROP (R336). -/
def State.refusesUnit (s : State) (sc sub c len : Nat) : Option Nat :=
  let x := schedPort sc
  let l := s.leafQ sc sub c
  let cfg := s.leafCfg x sub c
  if s.portShut x = 1 then some 4
  else if s.portShut x ≠ 0 then some 5
  else if cfg.overflow = 1 ∧ c = 3 ∧ !(l.wait.isEmpty && qLen l.q + len ≤ cfg.limit) then some 2 else none

/-- Counts a unit of leaf (sub, c) of port `x` dropped under transfer-loss subindex `n`. -/
def State.countDrop (s : State) (x sub c n : Nat) : State :=
  (s.leafStat x sub c fun t => if n = 2 then { t with dropOverflow := t.dropOverflow + 1 }
    else if n = 3 then { t with dropReset := t.dropReset + 1 } else { t with dropOther := t.dropOther + 1 }).lossUnit sub n

/-- Places a unit in leaf (sub, c) of scheduler `sc`. The answer tells whether the unit is on its way. -/
def State.place (s : State) (sc sub c : Nat) (u : TUnit) : Bool × State :=
  match s.refusesUnit sc sub c u.len with
  | some n => (false, s.countDrop (schedPort sc) sub c n)
  | none => (true, s.queueUnit sc sub c u)

/-- Places HBM units of up to 4 KiB for `n` bytes of slice (fid, layer) (R322). -/
def State.hbmUnits (s : State) (fid layer sub c colour n : Nat) : State :=
  let x := s.stackFor fid layer
  (List.range ((n + 4095) / 4096)).foldl (fun s i =>
    (s.place x sub c { len := s.unitLen x (min 4096 (n - 4096 * i)), colour }).2) s

/-- R336: moves the waiting units of a leaf into its queue at time `t` in arrival order while they fit. -/
def letIn (limit t : Nat) : List TUnit → List TUnit → List TUnit × List TUnit
  | q, [] => (q, [])
  | q, u :: us => if qLen q + u.len ≤ limit then letIn limit t (q ++ [{ u with at_ := t }]) us else (q, u :: us)

/-- Lets waiting units enter the queue of a leaf; an entry moves DEPTH_HWM (R339). -/
def State.admitLeaf (s : State) (sc sub c : Nat) : State :=
  let l := s.leafQ sc sub c
  let r := letIn (s.leafCfg (schedPort sc) sub c).limit s.up l.q l.wait
  if r.2.length = l.wait.length then s else
  (s.setLeafQ sc sub c { l with q := r.1, wait := r.2 }).leafStat (schedPort sc) sub c fun t =>
    { t with depthHwm := min (2 ^ 32 - 1) (max t.depthHwm (qLen r.1)) }

/-! ### Choosing the next unit (R326-R328) -/

/-- A link frame's LENGTH (R496): common and type headers, payload, CRC. -/
def LFrame.len (f : LFrame) : Nat := 36 + f.payload.length
/-- Credits a frame needs (R498). -/
def LFrame.credits (f : LFrame) : Nat := (f.len + 255) / 256
/-- Credits available on VL v of a link (R498). -/
def Link.avail (l : Link) (v : Nat) : Nat := (mget l.txLimit v 0 + 65536 - mget l.txUsed v 0) % 65536
/-- Bytes of the replay buffer in use (R503). -/
def Link.replayUsed (l : Link) : Nat := (l.replay.map fun t => t.f.len).sum

/-- The queue entries a die operation of class `c` may use (R168): 8, one of them for class 0 reads only. A queued class 0 read counts
against the shared entries first (log 47, DESIGN CHOICE). -/
def dieRoom (d : Die) (op : DieOp) : Bool :=
  d.queue.length < (if op.kind = 0 ∧ op.cls = 0 then 8 else 7)

/-- R501, R569: the medium can take the head unit now. -/
def State.mediumReady (s : State) (x : Nat) (u : TUnit) : Bool :=
  match portKind x with
  | 1 => match u.dieOp with
    | some (d, op) => dieRoom (mget s.media.dies d {}) op
    | none => true
  | 2 => match u.frame with
    | some f =>
      let l := mget s.lk.links (x - 48) {}
      f.credits ≤ l.avail f.vl && !l.replaying && l.replayUsed + f.len ≤ 524288
    | none => true
  | _ => true

/-- Eligibility of leaf (sub, c) and its node at time now: committed and excess of each (R326). -/
structure Elig where
  lc : Bool
  lx : Bool
  nc : Bool
  nx : Bool

/-- The buckets of a leaf and its node brought up to now. -/
def State.elig (s : State) (sc sub c : Nat) : Elig :=
  let x := schedPort sc
  let k := tokScale (portKind x == 1)
  let cfg := s.leafCfg x sub c
  let l := s.leafQ sc sub c
  let cir := s.scaledCir x c cfg.cir
  let lc := eligible (refill l.com k cir cfg.cbs s.up) cir
  let lx := eligible (refill l.exc k cfg.eir cfg.ebs s.up) cfg.eir
  if portKind x ≤ 1 then ⟨lc, lx, true, true⟩ else
  let nc := s.nodeCfg x c
  let nd := mget s.tm.nodes (8 * sc + c) { com := fullBucket k nc.cbs s.up, exc := fullBucket k nc.ebs s.up }
  let ncir := s.scaledCir x c nc.cir
  ⟨lc, lx, eligible (refill nd.com k ncir nc.cbs s.up) ncir, eligible (refill nd.exc k nc.eir nc.ebs s.up) nc.eir⟩

/-- Whether a leaf takes part in a stage, and then whether committed buckets pay (Table 10.3). -/
def takesPart (stage c colour : Nat) (e : Elig) : Option Bool :=
  match stage with
  | 3 => if 1 ≤ c ∧ c ≤ 6 ∧ colour = 0 ∧ e.lc ∧ e.nc then some true else none
  | 4 => if e.lx ∧ e.nx ∧ ((c ≠ 0 ∧ c ≠ 7) ∨ colour = 2) then some false else none
  | _ =>
    if c ≠ (if stage = 1 then 0 else 7) then none
    else if colour = 0 ∧ e.lc ∧ e.nc then some true
    else if colour ≤ 1 ∧ e.lx ∧ e.nx then some false
    else none

/-- The classes of a stage in visiting order. -/
def stageClasses (stage : Nat) : List Nat :=
  match stage with
  | 1 => [0]
  | 2 => [7]
  | 3 => [1, 2, 3, 4, 5, 6]
  | _ => [0, 1, 2, 3, 4, 5, 6, 7]

/-- The head of leaf (sub, c) in a stage: its unit and whether committed buckets pay. -/
def State.headIn (s : State) (sc stage sub c : Nat) : Option (TUnit × Bool) :=
  match (s.leafQ sc sub c).q with
  | [] => none
  | u :: _ => if !s.mediumReady (schedPort sc) u then none
    else (takesPart stage c u.colour (s.elig sc sub c)).map fun b => (u, b)

/-- One deficit round-robin choice (R327): the first member that is eligible and whose head fits its deficit after its quantum is
added. `ms` lists (member, head length or none, quantum, queue empty) in cyclic order from the member whose visit goes on, `go`: it
takes no new quantum, and where its head no longer fits, its visit is over. -/
def dwrr (ms : List (Nat × Option Nat × Nat × Bool)) (go : Option Nat) (defs : Map Nat) : Nat → Option (Nat × Map Nat)
  | 0 => none
  | fuel + 1 =>
    let step := fun (acc : Option Nat × Map Nat) (m : Nat × Option Nat × Nat × Bool) =>
      match acc.1 with
      | some _ => acc
      | none =>
        match m.2.1 with
        | none => (none, if m.2.2.2 then merase acc.2 m.1 else acc.2)
        | some len =>
          let d := mget acc.2 m.1 0 + (if go = some m.1 then 0 else m.2.2.1)
          if len ≤ d then (some m.1, mset acc.2 m.1 (d - len)) else (none, mset acc.2 m.1 d)
    match ms.foldl step (none, defs) with
    | (some i, ds) => some (i, ds)
    | (none, ds) => dwrr ms none ds fuel

/-- A cyclic list beginning at member `k`. -/
def rotateTo {α : Type} (key : α → Nat) (k : Nat) (ms : List α) : List α :=
  ms.filter (fun m => key m ≥ k) ++ ms.filter (fun m => key m < k)

/-- The key of a scheduler's DWRR table: stage, and node class or 8 for the nodes themselves. -/
def rrKey (sc stage c m : Nat) : Nat := ((sc * 5 + stage) * 9 + c) * 66 + m
/-- A DWRR table of a scheduler read out of the map of deficits. -/
def State.defsOf (s : State) (sc stage c n : Nat) : Map Nat :=
  (List.range n).filterMap fun i => (mget? s.tm.rr (rrKey sc stage c i)).map fun d => (i, d)
/-- Stores a DWRR table back, with the member to begin from at slot 65. -/
def State.setDefs (s : State) (sc stage c n at_ : Nat) (ds : Map Nat) : State :=
  let rr := (List.range n).foldl (fun rr i => match mget? ds i with
    | some d => mset rr (rrKey sc stage c i) d
    | none => merase rr (rrKey sc stage c i)) s.tm.rr
  { s with tm := { s.tm with rr := mset rr (rrKey sc stage c 65) at_ } }

/-- QUANTUM_UNIT (0x3003). -/
def quantumUnit (x : Nat) : Nat := match portKind x with | 0 => 4352 | 1 => 1 | 2 => 9472 | _ => 4352

/-- The choice among the leaves of class `c` in a stage: subscriber, unit, bucket kind, new deficits. -/
def State.chooseLeaf (s : State) (sc stage c : Nat) : Option (Nat × TUnit × Bool × Map Nat) :=
  let subs := List.range 65
  let ms := subs.map fun i =>
    let cfg := s.leafCfg (schedPort sc) i c
    (i, (s.headIn sc stage i c).map (·.1.len), (if stage = 4 then cfg.xweight else cfg.weight) * quantumUnit (schedPort sc),
      (s.leafQ sc i c).q.isEmpty)
  let k := mget s.tm.rr (rrKey sc stage c 65) 64
  match dwrr (rotateTo (·.1) k ms) (some k) (s.defsOf sc stage c 65) (if ms.any (·.2.1.isSome) then 16384 else 1) with
  | none => none
  | some (i, ds) => (s.headIn sc stage i c).map fun h => (i, h.1, h.2, ds)

/-- The choice of one stage (Table 10.3): class, subscriber, unit, bucket kind, and the state with deficits moved. -/
def State.chooseStage (s : State) (sc stage : Nat) : Option (Nat × Nat × TUnit × Bool × State) :=
  let x := schedPort sc
  let cand := (stageClasses stage).filterMap fun c => (s.chooseLeaf sc stage c).map fun r => (c, r)
  let pick := if stage ≤ 2 then cand.head?.map (·.1) else
    let ms := (stageClasses stage).map fun c =>
      (c, (cand.find? (·.1 == c)).map fun r => r.2.2.1.len,
        (if stage = 4 then (s.nodeCfg x c).xweight else (s.nodeCfg x c).weight) * quantumUnit x,
        (List.range 65).all fun i => (s.leafQ sc i c).q.isEmpty)
    let k := mget s.tm.rr (rrKey sc stage 8 65) 7
    (dwrr (rotateTo (·.1) k ms) (some k) (s.defsOf sc stage 8 8) (if cand.isEmpty then 1 else 16384)).map (·.1)
  match pick with
  | none => none
  | some c =>
    match cand.find? (·.1 == c) with
    | none => none
    | some (_, i, u, b, ds) =>
      let s1 := s.setDefs sc stage c 65 i ds
      let s1 := if stage ≤ 2 then s1 else
        let ms := (stageClasses stage).map fun c' =>
          (c', (cand.find? (·.1 == c')).map fun r => r.2.2.1.len,
            (if stage = 4 then (s.nodeCfg x c').xweight else (s.nodeCfg x c').weight) * quantumUnit x, false)
        let k := mget s.tm.rr (rrKey sc stage 8 65) 7
        match dwrr (rotateTo (·.1) k ms) (some k) (s.defsOf sc stage 8 8) 16384 with
        | some (_, nds) => s1.setDefs sc stage 8 8 c nds
        | none => s1
      some (c, i, u, b, s1)

/-- Takes tokens of `len` from the committed (`b`) or excess buckets of a leaf and its node (R326). -/
def State.chargeLeaf (s : State) (sc sub c len : Nat) (b : Bool) : State :=
  let x := schedPort sc
  let k := tokScale (portKind x == 1)
  let cfg := s.leafCfg x sub c
  let l := s.leafQ sc sub c
  let cir := s.scaledCir x c cfg.cir
  let com := refill l.com k cir cfg.cbs s.up
  let exc := refill l.exc k cfg.eir cfg.ebs s.up
  let l := { l with com := if b then charge com k cir len else com, exc := if b then exc else charge exc k cfg.eir len }
  let s := s.setLeafQ sc sub c l
  if portKind x ≤ 1 then s else
  let nc := s.nodeCfg x c
  let nd := mget s.tm.nodes (8 * sc + c) { com := fullBucket k nc.cbs s.up, exc := fullBucket k nc.ebs s.up }
  let ncir := s.scaledCir x c nc.cir
  let ncom := refill nd.com k ncir nc.cbs s.up
  let nexc := refill nd.exc k nc.eir nc.ebs s.up
  let nd := { nd with com := if b then charge ncom k ncir len else ncom, exc := if b then nexc else charge nexc k nc.eir len }
  { s with tm := { s.tm with nodes := mset s.tm.nodes (8 * sc + c) nd } }

/-- Sends a reliable frame on link `n` (R498, R503): credits, FSEQ, replay buffer. (log 5, DESIGN CHOICE) -/
def State.sendFrame (s : State) (n : Nat) (f : LFrame) (tag : Option Nat) : State :=
  let l := mget s.lk.links n {}
  let l := { l with
    txUsed := mset l.txUsed f.vl ((mget l.txUsed f.vl 0 + f.credits) % 65536)
    replay := l.replay ++ [TxFrame.mk l.nextFseq f tag s.up]
    nextFseq := (l.nextFseq + 1) % 2 ^ 24 }
  let s := { s with lk := { s.lk with links := mset s.lk.links n l }, out := s.out ++ [Out.frame n ((l.nextFseq + 2 ^ 24 - 1) % 2 ^ 24) f] }
  (s.bump (lIx n 2) 1).bump (lIx n 2) 3 f.len

/-- Inserts a RELOCATION program before the first HOST program behind the last read of a queue (Table 5.8, urgent collection). -/
def urgentQueue (q : List DieOp) (op : DieOp) : List DieOp :=
  let k := ((q.reverse.findIdx? fun o => o.kind == 0).map fun i => q.length - i).getD 0
  let rest := q.drop k
  match rest.findIdx? fun o => o.kind == 1 && o.stream == 0 with
  | some i => q.take k ++ rest.take i ++ [op] ++ rest.drop i
  | none => q ++ [op]

/-- Hands a die operation to its die's queue (R569); class 0 reads stand before all others (R168). `urgent` is GC_URGENT: on a die with
no more free superblocks, the programs of collection go ahead of HOST programs, but not ahead of a read (R173; log 19, DEDUCED). -/
def enqueueDie (urgent : Nat) (d : Die) (op : DieOp) : Die :=
  if op.kind = 0 ∧ op.cls = 0 then
    { d with queue := d.queue.filter (fun o => o.kind == 0 && o.cls == 0) ++ [op]
        ++ d.queue.filter (fun o => !(o.kind == 0 && o.cls == 0)) }
  else if op.kind = 1 ∧ op.stream = 1 ∧ d.freeCount ≤ urgent then { d with queue := urgentQueue d.queue op }
  else { d with queue := d.queue ++ [op] }

/-- R326: the unit a stage yields is served whole (R328): tokens, statistics, and the frame or die operation it carries.
(log 41, DEDUCED) -/
def State.serve (s : State) (sc stage c sub : Nat) (u : TUnit) (b : Bool) : State :=
  let x := schedPort sc
  let s := s.chargeLeaf sc sub c u.len b
  let l := s.leafQ sc sub c
  let s := s.setLeafQ sc sub c { l with q := l.q.tail }
  let s := s.leafStat x sub c fun t => { t with
    served := t.served + 1, servedLen := t.servedLen + u.len
    excessLen := t.excessLen + (if b then 0 else u.len)
    delayHwm := min (2 ^ 32 - 1) (max t.delayHwm (s.up - u.at_)) }
  let s := s.bump (0x3100 + x) (if stage ≤ 2 then 2 else if stage = 3 then 3 else 4) u.len
  let s := (s.bump 0x6001 1)
  let s := if sub < 64 then s.bump (pIx sub 0x25) 1 else s
  let s := match u.frame with
    | some f => s.sendFrame (x - 48) f u.tag
    | none => s
  match u.dieOp with
  | some (d, op) => { s with media := { s.media with dies := mset s.media.dies d (enqueueDie (s.obj 0x1200 5 4) (mget s.media.dies d {}) op) } }
  | none => s

/-- The first stage that yields a unit (R326). -/
def State.chooseUnit (s : State) (sc : Nat) : Option (Nat × Nat × Nat × TUnit × Bool × State) :=
  [1, 2, 3, 4].findSome? fun st => (s.chooseStage sc st).map fun r => (st, r)

/-- The leaves of scheduler `sc` whose head is held back by credits or by a die queue and not yet counted. -/
def State.newWaits (s : State) (sc : Nat) : List (Nat × Nat) :=
  ((List.range 520).map fun i => (i / 8, i % 8)).filter fun l =>
    match (s.leafQ sc l.1 l.2).q with
    | u :: _ => !u.held && !s.mediumReady (schedPort sc) u
    | [] => false

/-- Leaf heads held back by credits or by a die queue are counted, each once (R501, R569). -/
def State.countWaits (s : State) (sc : Nat) : State :=
  let x := schedPort sc
  let ls := s.newWaits sc
  let mark := fun (s : State) (l : Nat × Nat) =>
    let q := s.leafQ sc l.1 l.2
    s.setLeafQ sc l.1 l.2 { q with q := q.q.take 1 |>.map (fun u => { u with held := true }) |>.append (q.q.drop 1) }
  if ls.isEmpty then s else
  let s := ls.foldl mark s
  match portKind x with
  | 1 => s.bump 0x6050 0x16 ls.length
  | 2 => s.bump (lIx (x - 48) 2) 0x0F ls.length
  | _ => s

/-! ### Rind cores (R29) -/

/-- The rind cores of segment `g`. -/
def State.rindSeg (s : State) (g : Nat) : RindSeg := mget s.tm.rind g {}
/-- Stores the rind cores of a segment. -/
def State.setRind (s : State) (g : Nat) (r : RindSeg) : State := { s with tm := { s.tm with rind := mset s.tm.rind g r } }

/-- Takes the first waiting work of class `c` out of the queue. -/
def RindSeg.take (r : RindSeg) (c : Nat) : Option (RindWork × RindSeg) :=
  (r.q.find? (·.cls == c)).map fun w => (w, { r with q := r.q.eraseP (·.cls == c) })

/-- The work the cores start next: class 0, then class 7, then the deficit round-robin of classes 1-6 with the default weights of
R351 and the HBM QUANTUM_UNIT. (log 45, DESIGN CHOICE) -/
def RindSeg.next (r : RindSeg) : Option (RindWork × RindSeg) :=
  let heads := [1, 2, 3, 4, 5, 6].map fun c =>
    (c, (r.q.find? (·.cls == c)).map (·.len), (nodeDefault 0 c).weight * quantumUnit 0, !r.q.any (·.cls == c))
  let group := match dwrr (rotateTo (·.1) r.turn heads) (some r.turn) r.defs (if r.q.isEmpty then 1 else 16384) with
    | some (c, ds) => { r with defs := ds, turn := c }.take c
    | none => none
  ((r.take 0).orElse fun _ => r.take 7).orElse fun _ => group

/-- Rind-core work joins its segment's queue, and starts at once while the cores have none. -/
def State.rindPut (s : State) (g : Nat) (w : RindWork) : State :=
  let r := s.rindSeg g
  if r.run.isNone then s.setRind g { r with run := some w } else s.setRind g { r with q := r.q ++ [w] }

/-- The work the cores of segment `g` have started ends, its unit going to its scheduler, and the next starts: started work is never
pre-empted. (log 45, DESIGN CHOICE) -/
def State.rindStep (s : State) (g : Nat) : State :=
  let r := s.rindSeg g
  match r.run with
  | none => s
  | some w =>
    let s := match ({ r with run := none } : RindSeg).next with
      | some (n, r) => s.setRind g { r with run := some n }
      | none => s.setRind g { r with run := none }
    match w.unit with
    | some (sc, u) => s.queueUnit sc w.sub w.cls u
    | none => s

/-- Sends a unit of `sub` and class `c` to scheduler `sc`: placed at once, or, with `via`, behind the expansion that the rind cores of
the port's segment do first (Table 1.8). The answer tells whether the unit is on its way. -/
def State.send (s : State) (via : Bool) (sc sub c : Nat) (u : TUnit) : Bool × State :=
  if !via then s.place sc sub c u
  else match s.refusesUnit sc sub c u.len with
    | some n => (false, s.countDrop (schedPort sc) sub c n)
    | none => (true, s.rindPut (portSeg (schedPort sc)) { cls := c, sub := sub, len := u.len, unit := some (sc, u) })

/-! ### The overcommit check and the degradation ratio (R337, R344, R345) -/

/-- A committed rate as the sums count it. -/
def finiteCir (cir : Nat) : Nat := if cir = 0xFFFFFFFF then 0 else cir
/-- Sum of leaf CIR under node c of port x. -/
def State.leafSum (s : State) (x c : Nat) : Nat :=
  ((List.range 65).map fun sub => finiteCir (s.leafCfg x sub c).cir).sum
/-- Committed rate of class c on port x: over leaves on HBM and flash ports, over the node elsewhere. -/
def State.classSum (s : State) (x c : Nat) : Nat :=
  if portKind x ≤ 1 then s.leafSum x c
  else let n := (s.nodeCfg x c).cir; if n = 0xFFFFFFFF then s.leafSum x c else n
/-- The port-level sum of R337 (COMMITTED_SUM). -/
def State.portSum (s : State) (x : Nat) : Nat := ((List.range 8).map fun c => s.classSum x c).sum
/-- The conditions of R337 on port x as (sum, bound) pairs. -/
def State.conditions (s : State) (x : Nat) : List (Nat × Nat) :=
  (s.portSum x, s.capacity x) ::
  (if portKind x ≤ 1 then [] else (List.range 8).map fun c =>
    (s.leafSum x c, let n := (s.nodeCfg x c).cir; if n = 0xFFFFFFFF then 2 ^ 64 else n))
/-- R337: going from `a` to `b`, some condition of port x fails whose sum rose or whose bound fell. -/
def overcommits (a b : State) (x : Nat) : Bool :=
  ((a.conditions x).zip (b.conditions x)).any fun p => p.2.1 > p.2.2 && (p.2.1 > p.1.1 || p.2.2 < p.1.2)

/-- RATIO of R344. -/
def State.ratioOf (s : State) (x : Nat) : Nat :=
  let st := s.classSum x 0 + s.classSum x 7
  let w := s.portSum x - st
  let c := s.capacity x
  if s.portShut x = 1 then 0
  else if s.portSum x ≤ c ∨ w = 0 then 32768 else if c ≤ st then 0 else 32768 * (c - st) / w

/-- The buckets of port x brought up to now at the rates in force, before RATIO changes them (R344). -/
def State.settleTokens (s : State) (x : Nat) : State :=
  let k := tokScale (portKind x == 1)
  { s with tm := { s.tm with
      leaves := s.tm.leaves.map fun e =>
        if schedPort (e.1 / 520) = x then
          let r := s.leafCfg x (e.1 / 8 % 65) (e.1 % 8)
          (e.1, { e.2 with com := refill e.2.com k (s.scaledCir x (e.1 % 8) r.cir) r.cbs s.up })
        else e
      nodes := s.tm.nodes.map fun e =>
        if schedPort (e.1 / 8) = x then
          let r := s.nodeCfg x (e.1 % 8)
          (e.1, { e.2 with com := refill e.2.com k (s.scaledCir x (e.1 % 8) r.cir) r.cbs s.up })
        else e } }

/-- R345: recomputes port x's RATIO, which dictionary-ready derives first (R348); a change is recorded and sent to each partition with a committed leaf there. -/
def State.reRatio (s : State) (x : Nat) : State :=
  let old := mget s.tm.ratio x 32768
  let new := s.ratioOf x
  if old = new ∨ !s.boot.ready then s else
  let s := s.settleTokens x
  let s := { s with tm := { s.tm with ratio := mset s.tm.ratio x new } }
  let ps := (List.range 64).filter fun p => (List.range 6).any fun c => (s.leafCfg x p (c + 1)).cir > 0
  let s := ps.foldl (fun s p => s.event 0x0020 { part := some p, port := x, params := [old, new] }) s
  (s.event 0x0020 { port := x, params := [old, new] }).bump (0x3100 + x) 5

end Sys2Proof.Machine
end

