-- ==== Sys2Proof/Machine/Operands.lean ====
section
/-! DEFINITION. Operand addresses (R261, R262), the fields of every descriptor and the checks made at decode
(R268, R290-R293, R314). -/

namespace Sys2Proof.Machine

/-! ### Status and detail codes (Tables 8.8, 9.13) -/

def stDone := 0x00
def stPartial := 0x01
def stNotStarted := 0x02
def stAborted := 0x03
def stRestart := 0x04
def stReexec := 0x05
def stAbsent := 0x10
def stStaged := 0x11
def stAlias := 0x20
def stBad := 0x21
def stProt := 0x22
def stProfile := 0x23
def stLow := 0x30
def stMedia := 0x40
def stLinkDown := 0x41
def stLease := 0x42

/-- A success status (R275). -/
def isSuccess (st : Nat) : Bool := st == stDone || st == stReexec || st == stStaged || st == stLow

/-! ### Operation lookups -/

/-- The queue numbered `q`. -/
def State.queue (s : State) (q : Nat) : Queue := mget s.q.queues q {}
/-- Stores a queue. -/
def State.setQueue (s : State) (q : Nat) (v : Queue) : State := { s with q := { s.q with queues := mset s.q.queues q v } }
/-- The operation under OTT tag `t`. -/
def State.op? (s : State) (t : Nat) : Option Op := mget? s.q.ott t
/-- Stores an operation. -/
def State.setOp (s : State) (t : Nat) (o : Op) : State := { s with q := { s.q with ott := mset s.q.ott t o } }
/-- The protection setup of generation `g` (R362). -/
def State.setupOf (s : State) (g : Nat) : Setup := if g = s.part.gen then s.part.setup else mget s.part.hist g s.part.setup
/-- The protection record of partition `p` in a setup. -/
def Setup.prot (u : Setup) (p : Nat) : Prot := mget u.prots p {}
/-- R259, R364: the setup gives queue `q` of `p`. -/
def Setup.hasQueue (u : Setup) (p q : Nat) : Bool := (u.prot p).enabled && bit (u.prot p).queues q
/-- The setup gives link `n` to `p`. -/
def Setup.hasLink (u : Setup) (p n : Nat) : Bool := bit (u.prot p).links n

/-- OPERAND_WINDOW_BYTES of partition `p`. -/
def State.windowBytes (s : State) (p : Nat) : Nat := s.obj (pIx p 0x21) 5 0

/-! ### Operand addresses (R261, R262) -/

/-- The space of an operand address: 0 HOST, 1 WINDOW, 2 SINK, 3 reserved. -/
def spaceOf (a : Nat) : Nat := bits a 62 2
/-- The offset within the space. -/
def offOf (a : Nat) : Nat :=
  match spaceOf a with
  | 0 => a % 2 ^ 62
  | 1 => a % 2 ^ 40
  | _ => a % 2 ^ 48
/-- The link of a SINK address. -/
def linkOf (a : Nat) : Nat := bits a 48 7

/-- R262: what is wrong with an operand of `n` bytes at `a`, for an operation of `p` bound as `binding` (2: a link), under
`setup`; `write` tells a write. Status and DETAIL, or none. (log 10, PRESUMED) -/
def State.badOperand (s : State) (setup : Setup) (p binding : Nat) (a n : Nat) (write : Bool) : Option (Nat × Nat) :=
  match spaceOf a with
  | 0 =>
    if binding = 2 then some (stBad, 0)
    else if s.mem.bars.any (fun b => b.1 == binding && b.2.1 < offOf a + n && offOf a < b.2.1 + b.2.2)
      then some (stBad, 4)
    else none
  | 1 =>
    if bits a 40 22 ≠ 0 then some (stBad, 0)
    else if offOf a + n > s.windowBytes p then some (stProt, 2) else none
  | 2 =>
    if !write ∨ bits a 55 7 ≠ 0 then some (stBad, 0)
    else if !setup.hasLink p (linkOf a) then some (stProt, 3) else none
  | _ => some (stBad, 0)

/-- Reads `n` bytes at an operand address of HOST or WINDOW space, for partition `p` on port `k`. -/
def State.readAt (s : State) (p k a n : Nat) : Bytes :=
  match spaceOf a with
  | 0 => rdN (s.host k) (offOf a) n
  | _ => rdN (s.window p) (offOf a) n

/-- Cuts bytes into pieces of at most `k` bytes. -/
def chunks (k : Nat) : Nat → Bytes → List Bytes
  | 0, _ => []
  | fuel + 1, bs => if bs.isEmpty then [] else bs.take k :: chunks k fuel (bs.drop k)

/-- The type header of a DATA frame (Table 16.3). -/
def dataHdr (space last status rtag lease addr : Nat) : Bytes :=
  leBytes 1 (space + 4 * last) ++ leBytes 1 status ++ leBytes 2 rtag ++ leBytes 1 lease ++ leBytes 3 0
    ++ leBytes 8 (addr % 2 ^ 48) ++ leBytes 8 0

/-- Writes bytes at an operand address: memory at once, or SINK frames of up to 8,192 B sent as units of the link's port (R497), with
`via` through rind cores. A port whose controller is fenced carries no HOST write (R32). Answers how many frames await acknowledgement, and whether some were discarded. -/
def State.writeVia (s : State) (via : Bool) (p k c colour : Nat) (tag : Option Nat) (a : Nat) (bs : Bytes) : Nat × Bool × State :=
  match spaceOf a with
  | 0 => (0, false, if s.pcieGood k then s.hostWrite k (offOf a) bs else s)
  | 1 => (0, false, s.windowWrite p (offOf a) bs)
  | _ =>
    let ps := chunks 8192 (bs.length / 8192 + 1) bs
    let r := ps.foldl (fun (st : Nat × Nat × Bool × State) b =>
      let f : LFrame := { typ := 1, vl := c, hdr := dataHdr 0 0 0 0 0 (offOf a + st.1), payload := b }
      let (ok, s') := st.2.2.2.send via (48 + linkOf a) p c
        { len := st.2.2.2.unitLen (48 + linkOf a) f.len, colour := colour, tag := tag, frame := some f }
      (st.1 + b.length, st.2.1 + b2n ok, st.2.2.1 || !ok, s')) (0, 0, false, s)
    (r.2.1, r.2.2.1, r.2.2.2)

/-- Writes bytes at an operand address. -/
def State.writeAt (s : State) (p k c colour : Nat) (tag : Option Nat) (a : Nat) (bs : Bytes) : Nat × Bool × State :=
  s.writeVia false p k c colour tag a bs

/-- PCIe units of a HOST access of `n` bytes: writes (dir 0) or read requests (dir 1) of up to 4 KiB each (R322), with `via` through
rind cores. -/
def State.pcieVia (s : State) (via : Bool) (p k c colour dir n : Nat) : State :=
  (List.range ((n + 4095) / 4096)).foldl (fun s i =>
    (s.send via (sched (176 + k) dir) p c { len := s.unitLen (176 + k) (min 4096 (n - 4096 * i)), colour }).2) s
/-- PCIe units of a HOST access of `n` bytes. -/
def State.pcieUnits (s : State) (p k c colour dir n : Nat) : State := s.pcieVia false p k c colour dir n

/-! ### Descriptor fields -/

/-- The commands of Table 9.1. -/
inductive Cmd where
  | copy | sliceWrite | sliceRead | stage | seqOpen | seqFork | seqTruncate | seqDiscard | chainSearch | maskedSearch
  | purgePrivate | inspectSeq | inspectFrame | indexQuery | pipInspect | attend | saveDiscard | gather | reduce | collect
  | nop | list
  deriving DecidableEq, Repr

/-- R291: the command of ENGINE:OP in byte 0. -/
def cmdOf (b : Nat) : Option Cmd :=
  match b / 32, b % 32 with
  | 0, 0 => some .copy
  | 0, 1 => some .sliceWrite
  | 0, 2 => some .sliceRead
  | 0, 3 => some .stage
  | 1, 0 => some .seqOpen
  | 1, 1 => some .seqFork
  | 1, 2 => some .seqTruncate
  | 1, 3 => some .seqDiscard
  | 1, 4 => some .chainSearch
  | 1, 5 => some .maskedSearch
  | 1, 6 => some .purgePrivate
  | 1, 7 => some .inspectSeq
  | 1, 8 => some .inspectFrame
  | 2, 0 => some .indexQuery
  | 2, 1 => some .pipInspect
  | 3, 0 => some .attend
  | 3, 1 => some .saveDiscard
  | 4, 0 => some .gather
  | 4, 1 => some .reduce
  | 4, 2 => some .collect
  | 5, 0 => some .nop
  | 5, 1 => some .list
  | _, _ => none

/-- The fields of a command's bytes 8–63 as (byte offset, bits). Bytes 28–33 and 40–47 of a COLLECT of another KIND than MERGE count as fields, so
they are not held to 0 (log 47, DESIGN CHOICE). (log 36, DEDUCED) -/
def cmdFields : Cmd → List (Nat × Nat)
  | .copy => [(8, 64), (16, 64), (24, 25), (28, 17), (32, 32), (36, 32), (40, 2)]
  | .sliceWrite => [(8, 24), (11, 7), (12, 20), (16, 17), (20, 8), (21, 9), (24, 64), (32, 32)]
  | .sliceRead => [(8, 24), (12, 16), (16, 17), (20, 8), (23, 1), (24, 16), (26, 6), (32, 64), (40, 64)]
  | .stage => [(8, 24), (12, 16), (16, 17), (20, 8), (21, 9)]
  | .seqOpen => [(16, 3), (18, 16)]
  | .seqFork => [(8, 24), (12, 21)]
  | .seqTruncate => [(8, 24), (12, 21)]
  | .seqDiscard => [(8, 24)]
  | .chainSearch => [(8, 24), (11, 2), (12, 17), (16, 64), (24, 64)]
  | .maskedSearch => [(8, 64), (16, 64), (24, 13)]
  | .purgePrivate => []
  | .inspectSeq => [(8, 24), (16, 32), (20, 13), (24, 64)]
  | .inspectFrame => [(8, 24), (16, 32), (20, 13), (24, 64)]
  | .indexQuery => [(8, 24), (11, 8), (12, 32), (16, 64), (24, 64), (32, 64)]
  | .pipInspect => [(8, 24), (11, 8), (12, 1), (16, 32), (20, 13), (24, 64)]
  | .attend => [(8, 64), (16, 32)]
  | .saveDiscard => [(8, 12)]
  | .gather => [(8, 16), (16, 64), (24, 25), (32, 64)]
  | .reduce => [(8, 16), (10, 4), (11, 1), (16, 64), (24, 25), (32, 64)]
  | .collect => [(8, 16), (10, 3), (11, 5), (12, 16), (16, 64), (24, 25), (28, 32), (32, 16), (40, 64)]
  | .nop => []
  | .list => [(8, 64), (16, 13)]

/-- The offset of the first byte at or above 8 with a reserved bit set (R13, R290). (log 36, DEDUCED) -/
def reservedByte (c : Cmd) (d : Bytes) : Option Nat :=
  let m := (cmdFields c).foldl (fun acc f => acc ||| ((2 ^ f.2 - 1) * 2 ^ (8 * f.1))) 0
  (List.range 56).findSome? fun i =>
    let o := i + 8
    if (fld d o 1) &&& (255 - (m / 2 ^ (8 * o)) % 256) = 0 then none else some o

/-- The common header's reserved bits (Table 8.6). (log 36, DEDUCED) -/
def headerReserved (d : Bytes) : Bool := bit (fld d 1 1) 7 || fld d 2 2 != 0

/-- A field-range failure: BAD_DESCRIPTOR with the field's offset (R314). (log 36, DEDUCED) -/
def badField (off : Nat) : Option (Nat × Nat) := some (stBad, 0x8000 + off)

/-- The first failure of a list of checks. (log 36, DEDUCED) -/
def firstBad (xs : List (Option (Nat × Nat))) : Option (Nat × Nat) := xs.findSome? id
/-- A check that fails with `r` when `b` holds. (log 36, DEDUCED) -/
def failIf (b : Bool) (r : Option (Nat × Nat)) : Option (Nat × Nat) := if b then r else none

/-- SEQ, and other fields common to several commands. -/
def dSeq (d : Bytes) : Nat := fld d 8 3
/-- The sequence of an operation, LIVE and of its partition (R292), or RELEASING while the operation keeps its references. -/
def State.seqOf (s : State) (p n : Nat) : Option Seq :=
  match mget? s.pg.seqs n with
  | some q => if q.part = p ∧ !q.releasing then some q else none
  | none => none
/-- R292. -/
def State.badSeq (s : State) (p n : Nat) : Option (Nat × Nat) :=
  if (s.seqOf p n).isSome then none else some (stProt, 0x0A)
/-- The geometry of the profile of sequence `n` of partition `p`, LIVE or RELEASING. -/
def State.seqGeo (s : State) (p n : Nat) : Geo :=
  s.geo ((s.bound p (((mget? s.pg.seqs n).map (·.slot)).getD 0)).getD 0)

/-- Span of `rows` rows of `len` bytes at a stride (R296). -/
def extent (rows stride len : Nat) : Nat := (rows - 1) * (if rows = 1 then 0 else stride) + len
/-- Row lengths of a COPY: source and destination (R294, R295). -/
def copyLens (conv rowBytes : Nat) : Nat × Nat :=
  let n := rowBytes / 256
  match conv with
  | 1 => (rowBytes, rowBytes / 2 + n)
  | 2 => (rowBytes / 2 + n, rowBytes)
  | _ => (rowBytes, rowBytes)

/-- Bytes of a mask record by its header (R231). -/
def maskLen (h : Bytes) : Nat := 16 + 8 * (fld h 4 2 * ((fld h 0 4 + 31) / 32)) + 2 * fld h 8 4

/-- The checks of one command at decode: reserved bits, ranges, sequence, operands; in that order (R314, R292, R262).
(log 36, DEDUCED) -/
def State.badDesc (s : State) (setup : Setup) (p binding : Nat) (c : Cmd) (d : Bytes) : Option (Nat × Nat) :=
  let opnd := fun a n w => s.badOperand setup p binding a n w
  let res := match reservedByte c d with
    | some o => badField o
    | none => failIf (headerReserved d) (some (stBad, 0))
  let f := fld d
  firstBad <| res :: match c with
  | .copy =>
    let conv := bits (f 40 1) 0 2
    let rb := f 24 4
    let rows := f 28 4
    let (ls, ld) := copyLens conv rb
    [failIf (rb == 0 || rb > 16777216) (badField 24), failIf (rows == 0 || rows > 65536) (badField 28),
     failIf (rows * rb > 2 ^ 32) (badField 28), failIf (conv == 3) (badField 40),
     failIf (conv != 0 && rb % 256 != 0) (badField 24),
     opnd (f 8 8) (extent rows (f 32 4) ls) false, opnd (f 16 8) (extent rows (f 36 4) ld) true]
  | .sliceWrite =>
    let t := f 16 4
    let lc := f 21 2
    let g := s.seqGeo p (dSeq d)
    [failIf (t == 0 || t > 65536) (badField 16), failIf (f 12 4 + t > 1048576) (badField 12),
     failIf (lc == 0 || lc > 256) (badField 21), failIf (bit (f 11 1) 2 && bit (f 11 1) 3) (badField 11),
     s.badSeq p (dSeq d), failIf (f 20 1 + lc > g.layers) (badField 20),
     failIf (f 32 4 < t * 2 * g.w) (badField 32),
     opnd (f 24 8) ((lc - 1) * f 32 4 + t * 2 * g.w) false]
  | .sliceRead =>
    let n := f 16 4
    let g := s.seqGeo p (dSeq d)
    let ex := bit (f 23 1) 0
    [failIf (n == 0 || n > 65536) (badField 16), failIf (f 12 2 + n > 65536) (badField 12),
     s.badSeq p (dSeq d), failIf (f 20 1 ≥ g.layers) (badField 20),
     failIf (ex && (f 26 1 == 0 || f 26 1 > 32)) (badField 26),
     failIf (ex && (!g.latent || (s.blobOf (0x1300 + (s.bound p (((s.seqOf p (dSeq d)).map (·.slot)).getD 0)).getD 0) 15).isEmpty))
       (some (stProfile, 0)),
     failIf (ex && f 24 2 + f 26 1 > g.heads) (badField 24),
     opnd (f 32 8) (n * g.delivery ex (f 26 1)) true,
     if f 40 8 = 0 then none else opnd (f 40 8) (roundUp ((n + 7) / 8) 8) true]
  | .stage =>
    let n := f 16 4
    let g := s.seqGeo p (dSeq d)
    [failIf (n == 0 || n > 65536) (badField 16), failIf (f 12 2 + n > 65536) (badField 12),
     failIf (f 21 2 == 0 || f 21 2 > 256) (badField 21), s.badSeq p (dSeq d),
     failIf (f 20 1 + f 21 2 > g.layers) (badField 20)]
  | .seqOpen => []
  | .seqFork =>
    [s.badSeq p (dSeq d), failIf (f 12 4 > ((s.seqOf p (dSeq d)).map (·.length)).getD 0) (badField 12)]
  | .seqTruncate =>
    [s.badSeq p (dSeq d), failIf (f 12 4 > ((s.seqOf p (dSeq d)).map (·.length)).getD 0) (badField 12)]
  | .seqDiscard => [s.badSeq p (dSeq d)]
  | .chainSearch =>
    let n := f 12 4
    [failIf (n == 0 || n > 65536) (badField 12), s.badSeq p (dSeq d), opnd (f 16 8) (64 * n) false,
     if f 24 8 = 0 then none else opnd (f 24 8) 16 true]
  | .maskedSearch =>
    [failIf (f 24 2 > 4096) (badField 24), failIf (f 16 8 == 0) (badField 16), opnd (f 8 8) 96 false,
     opnd (f 16 8) (32 + 4 * f 24 2) true]
  | .purgePrivate => []
  | .inspectSeq =>
    let n := f 20 2
    [failIf (n == 0 || n > 4096) (badField 20),
     failIf (f 24 8 == 0) (badField 24), s.badSeq p (dSeq d), opnd (f 24 8) (32 + 8 * n) true]
  | .inspectFrame =>
    let n := f 20 2
    let z := roundUp (320 + 16 * (s.seqGeo p (dSeq d)).layers) 64
    [failIf (n == 0 || n > 256) (badField 20),
     failIf (f 24 8 == 0) (badField 24), s.badSeq p (dSeq d), opnd (f 24 8) (n * z) true]
  | .indexQuery =>
    [failIf (f 16 8 == 0) (badField 16), failIf (f 32 8 == 0) (badField 32), s.badSeq p (dSeq d),
     failIf (f 11 1 ≥ (s.seqGeo p (dSeq d)).layers) (badField 11),
     opnd (f 16 8) (2 * (s.seqGeo p (dSeq d)).wk) false,
     if f 24 8 = 0 then none else opnd (f 24 8) 16 false,
     if f 24 8 = 0 then none else opnd (f 24 8) (maskLen (s.readAt p binding (f 24 8) 16)) false, opnd (f 32 8) 16 true]
  | .pipInspect =>
    let n := f 20 2
    [failIf (n == 0 || n > 4096) (badField 20), failIf (f 24 8 == 0) (badField 24), s.badSeq p (dSeq d),
     opnd (f 24 8) (8 * n) true]
  | .attend => [opnd (f 8 8) (f 16 4) false]
  | .saveDiscard => []
  | .gather =>
    [failIf (f 24 4 == 0 || f 24 4 > 16777216) (badField 24), opnd (f 16 8) (f 24 4) false]
  | .reduce =>
    let es := if bit (f 11 1) 0 then 4 else 2
    [failIf (f 24 4 == 0 || f 24 4 > 16777216 || f 24 4 % es != 0) (badField 24), opnd (f 16 8) (f 24 4) false]
  | .collect =>
    [failIf (bits (f 10 1) 0 2 == 3) (badField 10), failIf (f 11 1 == 0 || f 11 1 > 16) (badField 11),
     failIf (f 24 4 == 0 || f 24 4 > 16777216) (badField 24), opnd (f 16 8) (f 24 4) true,
     if bits (f 10 1) 0 2 = 2 ∧ f 40 8 ≠ 0 then opnd (f 40 8) (8 * f 28 4) true else none]
  | .nop => []
  | .list =>
    [failIf (f 16 2 == 0 || f 16 2 > 4096) (badField 16), failIf (f 8 8 % 64 != 0) (badField 8),
     opnd (f 8 8) (64 * f 16 2) false]

end Sys2Proof.Machine
end

