-- ==== Sys2Proof/Machine/AttendArgs.lean ====
section
/-! DEFINITION. The argument block of an ATTEND (R225-R228, R253): its header and entries, the checks at fetch, the work bound. -/

namespace Sys2Proof.Machine

/-- An ATTEND. `pos` is 0 while it waits, 1 once dispatched, 2 once its entries are begun. -/
def isAttend (o : Op) : Bool := o.src == .queue && cmdOf (fld o.desc 0 1) == some .attend

/-! ### Header (Table 7.1); `a` is the argument block -/

def hBack (a : Bytes) : Bool := bit (fld a 0 1) 0
def hTree (a : Bytes) : Bool := bit (fld a 0 1) 1
def hCausal (a : Bytes) : Bool := bit (fld a 0 1) 2
def hStats (a : Bytes) : Bool := bit (fld a 0 1) 3
def hSave (a : Bytes) : Bool := bit (fld a 0 1) 4 && !hBack a
def hFp32 (a : Bytes) : Bool := bit (fld a 0 1) 5
def hSlot (a : Bytes) : Nat := fld a 1 1 % 8
def hChan (a : Bytes) : Nat := bits (fld a 1 1) 5 2
def hLayer (a : Bytes) : Nat := fld a 2 1
def hPlan (a : Bytes) : Nat := fld a 3 1 % 16
def hKind (a : Bytes) : Nat := bits (fld a 3 1) 4 2
def hGrad (a : Bytes) : Nat := bits (fld a 3 1) 6 2
def hCount (a : Bytes) : Nat := fld a 4 2
def hHeads (a : Bytes) : Nat := fld a 6 2
def hQpk (a : Bytes) : Nat := fld a 8 2
def hSaveId (a : Bytes) : Nat := fld a 10 2
def hLinks (a : Bytes) : List Nat := ((List.range 8).map fun i => fld a (88 + i) 1).filter (· != 0xFF)
def hTotal (a : Bytes) : Nat := fld a 100 2

/-! ### Entries (Table 7.2) -/

/-- Entry `e`. -/
def aEntry (a : Bytes) (e : Nat) : Bytes := slice a (128 + 32 * e) 32
def eSeq (b : Bytes) : Nat := fld b 0 3
def eP0 (b : Bytes) : Nat := fld b 4 4 % 2 ^ 20
def eRows (b : Bytes) : Nat := fld b 8 2
def eEnd (b : Bytes) : Nat := fld b 12 4
def eParent (b : Bytes) (i : Nat) : Nat := bits (fld b 16 4) (4 * i) 4
def eMask (b : Bytes) : Nat := fld b 20 4
def eDkv (b : Bytes) : Nat := fld b 24 4

/-- S_e, and with e = SEQ_COUNT, N (R228). -/
def rowsBefore (a : Bytes) (e : Nat) : Nat := ((List.range e).map fun i => eRows (aEntry a i)).sum

/-- R233: the candidate tree of an entry keeps its rules. -/
def treeOk (b : Bytes) : Bool :=
  (List.range 8).all fun i => if i < eRows b then eParent b i == 15 || eParent b i < i else eParent b i == 0

/-- An entry's fields are in range (Table 7.2, R233, R253), but for those that need its sequence. (log 29, DEDUCED) -/
def entryOk (a b : Bytes) : Bool :=
  fld b 3 1 == 0 && fld b 4 4 < 2 ^ 20 && fld b 10 2 == 0 && fld b 28 4 == 0 && eRows b ≥ 1 &&
  (if hTree a then eRows b ≤ 8 && treeOk b else eRows b ≤ 256)

/-! ### Widths (R227) -/

def Geo.dq (g : Geo) : Nat := if g.latent then g.w else g.kW
def Geo.dv (g : Geo) : Nat := if g.latent then g.latentW else g.vW
/-- Bytes of one output value of OUT_TYPE. -/
def hZ (a : Bytes) : Nat := if hFp32 a then 4 else 2
/-- Bytes of one value of DQ (Table 7.3). -/
def hY (a : Bytes) : Nat := if hGrad a = 0 then 4 else 2

/-! ### Checks at fetch -/

/-- An argument field is out of range: BAD_DESCRIPTOR with its offset in DETAIL (R318). (log 36, DEDUCED) -/
def badArg (off : Nat) : Option (Nat × Nat) := some (stBad, 0x4000 + off)

/-- The first header field that breaks its range (R225, R247, R250, R253), under the geometry `g` of its profile.
(log 29, DEDUCED) -/
def headerBad (a : Bytes) (g : Option Geo) : Option (Nat × Nat) :=
  let layers := (g.map (·.layers)).getD 0
  let qpkOk := match g with
    | some g => if g.latent then hQpk a == 0 else 1 ≤ hQpk a && hQpk a ≤ 256 && hHeads a ≤ g.heads * hQpk a
    | none => true
  firstBad [
    failIf (fld a 0 1 ≥ 64 || (hTree a && (hCausal a || hBack a))) (badArg 0),
    failIf (bits (fld a 1 1) 3 2 != 0 || bit (fld a 1 1) 7) (badArg 1),
    failIf (hLayer a ≥ layers) (badArg 2),
    failIf ((8 ≤ hPlan a && hPlan a ≤ 14) || hGrad a == 3 || (hBack a && hKind a != 0)) (badArg 3),
    failIf (hCount a == 0 || hCount a > 256) (badArg 4),
    failIf (hHeads a == 0 || hHeads a > 256) (badArg 6),
    failIf (!qpkOk) (badArg 8),
    failIf (hSaveId a > 4095) (badArg 10),
    failIf (hKind a == 1 && fld a 46 2 != 0) (badArg 40),
    failIf (fld a 56 8 == 0) (badArg 56),
    failIf (hKind a == 1 && (hLinks a).isEmpty) (badArg 88),
    failIf (hKind a == 2 && fld a 98 2 + hHeads a > hTotal a) (badArg 98),
    failIf (hKind a == 2 && (hTotal a == 0 || hTotal a > 1024)) (badArg 100),
    failIf (fld a 102 1 ≥ 16) (badArg 102),
    failIf (!allZero (slice a 103 25)) (badArg 103)]

/-- Bytes of a gradient area of `n` blocks (R249). -/
def gradAreaLen (g : Geo) (ty n : Nat) : Nat :=
  64 + roundUp (4 * n) 64 + n * (if ty = 2 then roundUp (16 * g.w + 16 * g.groups.length) 64
    else roundUp ((if ty = 0 then 64 else 32) * g.w) 64)

/-- What is wrong with the mask record or the gradient area that entry `e` names (R262), as long as the record's header and the save, where it
is filled, make it. -/
def State.entryOperands (s : State) (setup : Setup) (p binding : Nat) (a : Bytes) (g : Geo) (e : Nat) : Option (Nat × Nat) :=
  let b := aEntry a e
  let m := fld a 32 8 + eMask b
  let masked := fld a 32 8 != 0 && eMask b != 2 ^ 32 - 1
  let n := ((s.att.saves.find? fun v => v.part == p && v.id == hSaveId a && !v.gone).bind fun v => v.entries[e]?).map fun x => x.blocks.length
  firstBad [
    failIf masked (s.badOperand setup p binding m 16 false),
    if masked then s.badOperand setup p binding m (maskLen (s.readAt p binding m 16)) false else none,
    failIf (hBack a) (s.badOperand setup p binding (fld a 72 8 + eDkv b) (gradAreaLen g (hGrad a) (n.getD 0)) true)]

/-- What is wrong with an operand named by the argument block. -/
def State.headerOperands (s : State) (setup : Setup) (p binding : Nat) (a : Bytes) (g : Geo) : Option (Nat × Nat) :=
  let n := rowsBefore a (hCount a)
  let opnd := fun off len w => s.badOperand setup p binding (fld a off 8) len w
  let q := n * hHeads a * g.dq * 2 + (if hTree a then n * g.w * 2 else 0)
  firstBad ([
    opnd 16 q false,
    failIf (fld a 24 8 != 0 && !hBack a) (opnd 24 (hCount a * (if g.latent then g.latentW else g.kW) * 2) false),
    failIf (fld a 32 8 != 0) (opnd 32 16 false),
    failIf (hKind a == 0) (opnd 40 (n * hHeads a * g.dv * hZ a) (!hBack a)),
    failIf (hKind a == 0 && !hBack a && hStats a) (opnd 48 (n * hHeads a * 8) true),
    opnd 56 (hCount a) true,
    failIf (hBack a) (opnd 64 (n * hHeads a * g.dv * 2) false),
    failIf (hBack a) (opnd 72 64 true),
    failIf (hBack a) (opnd 80 (n * hHeads a * g.dq * hY a) true)] ++
    (List.range (hCount a)).map (s.entryOperands setup p binding a g))

/-- The index parameters of partition `p` as an operation carries them from its fetch on (R254): subindices 1 to 9. -/
def State.indexParams (s : State) (p : Nat) : List Nat :=
  ([32768, 16384, 4, 16, 32, 64, 32, 2, 11].zip (List.range 9)).map fun d => s.obj (pIx p 0x18) (d.2 + 1) d.1

/-- R234: a context of `l` tokens is attended by retrieval, under the parameters of the fetch. -/
def retrieval (params : List Nat) (l : Nat) : Bool := l > min (params.getD 0 32768) 262144

/-- B_e of R242. -/
def boundBlocks (params : List Nat) (tree : Bool) (l : Nat) : Nat :=
  (if retrieval params l then 16384 else (l + 15) / 16) + b2n tree

/-- The work bound of R242, R253. -/
def State.workBound (s : State) (p : Nat) (params : List Nat) (a : Bytes) : Nat :=
  ((List.range (hCount a)).map fun e =>
    let b := aEntry a e
    let l := if eEnd b ≠ 0 then eEnd b else ((s.seqOf p (eSeq b)).map (·.length)).getD 0
    eRows b * hHeads a * boundBlocks params (hTree a) l).sum

/-- What is wrong with an ATTEND at fetch (R225, R229, R253, R257, R262): status and DETAIL. (log 29, DEDUCED) -/
def State.attendBad (s : State) (setup : Setup) (p binding len : Nat) (params : List Nat) (a : Bytes) : Option (Nat × Nat) :=
  let g := (s.bound p (hSlot a)).map s.geo
  firstBad [
    failIf s.boot.stone (some (stNotStarted, 0)),
    failIf (len < 128) (badField 16),
    headerBad a g,
    failIf (len != 128 + 32 * hCount a) (badField 16),
    failIf (s.workBound p params a > 2 ^ 26) (some (stBad, 0x0C)),
    failIf (hKind a == 1 && (hLinks a).any fun n => n ≥ 128 || !setup.hasLink p n) (some (stProt, 3)),
    g.bind fun g => s.headerOperands setup p binding a g]

end Sys2Proof.Machine
end

