-- ==== Sys2Proof/Machine/Ott.lean ====
section
/-! DEFINITION. The operation tracking table (R276-R279), the end of an operation and its completion record (R271-R275,
R282, R368, R472), and the fetching of descriptors (R268-R270). -/

namespace Sys2Proof.Machine

/-! ### Taking an entry (R276, R277) -/

/-- OTT_RESERVE of partition `p`; the default divides 65,024 among the partitions in service. -/
def State.ottReserve (s : State) (p : Nat) : Nat :=
  s.obj (pIx p 0x21) 1 (if p < s.partCount then 65024 / s.partCount else 0)
/-- OTT_CAP of partition `p`. -/
def State.ottCap (s : State) (p : Nat) : Nat := s.obj (pIx p 0x21) 2 130048
/-- Entries that `f` selects. -/
def State.ottCount (s : State) (f : Op → Bool) : Nat := (s.q.ott.filter fun e => f e.2).length
/-- Σ OTT_RESERVE. -/
def State.reserveSum (s : State) : Nat := ((List.range 64).map s.ottReserve).sum
/-- OTT_SHARED (R276). -/
def State.ottShared (s : State) : Nat := 131072 - 1024 - s.reserveSum

/-- Entries the shared pool may hold now: reserved entries in use beyond a lowered reservation still count against it (R279). -/
def State.ottPool (s : State) : Nat :=
  131072 - 1024 - ((List.range 64).map fun p =>
    max (s.ottReserve p) (s.ottCount fun o => o.part == p && o.kind == .reserve)).sum

/-- R277: the kind of entry an operation of `p` in class `c` may take now. -/
def State.ottKind (s : State) (p c : Nat) : Option OttKind :=
  if c = 0 ∧ s.ottCount (fun o => o.kind == .class0) < 1024 then some .class0
  else if s.ottCount (fun o => o.part == p && o.kind != .class0) < s.ottCap p then
    if s.ottCount (fun o => o.part == p && o.kind == .reserve) < s.ottReserve p then some .reserve
    else if s.ottCount (fun o => o.kind == .shared) < s.ottPool then some .shared
    else none
  else none

/-- Takes an entry for `o` of class `o.cls`: its tag and the state, or none. Counters of Table 8.10 and OTT_HWM follow.
(log 1, DESIGN CHOICE) -/
def State.takeEntry (s : State) (o : Op) : Option (Nat × State) :=
  match s.ottKind o.part o.cls with
  | none => none
  | some k =>
    let (n, s) := s.takeFree
    let h := Config.tagHint n % 131072
    match (mfree s.q.ott h (131072 - h)).orElse fun _ => mfree s.q.ott 0 h with
    | none => none
    | some t =>
      let o := { o with kind := k, gen := s.part.gen, fetchNo := s.q.fetchNo }
      let s := { s with q := { s.q with ott := mset s.q.ott t o, fetchNo := s.q.fetchNo + 1 } }
      let held := s.ottCount fun e => e.part == o.part
      let s := s.setObj (pIx o.part 0x21) 4 (max (s.obj (pIx o.part 0x21) 4 0) held)
      let s := if k = .class0 then s.bump 0x6080 4
        else if o.cls = 0 then s.bump 0x6080 5 else s
      some (t, s)

/-! ### Completion records (R271-R273, R282) -/

/-- The 32 B record (Table 8.7), with the time at which the operation ended. -/
def recordBytes (t : Nat) (o : Op) (phase : Bool) : Bytes :=
  leBytes 4 o.utag ++ leBytes 4 (t + 2 ^ 17 * (o.queue % 64)) ++ leBytes 2 o.ring ++ leBytes 2 o.list
    ++ leBytes 1 o.status ++ leBytes 1 (b2n phase + 2 * b2n o.heldOver) ++ leBytes 2 o.detail ++ leBytes 4 o.progress
    ++ leBytes 4 o.durable ++ leBytes 4 o.gen ++ leBytes 4 o.endedAt.toNat

/-- Free journal entries of a queue (R273). -/
def Queue.journalFree (v : Queue) : Nat := 2 ^ v.cjLog2 - 1 - (v.cjTail + 2 ^ v.cjLog2 - v.cjHead) % 2 ^ v.cjLog2

/-- R282: one of the triggers of a queue vector holds at time `t` for the records written since its last message. -/
def Queue.vecDue (v : Queue) (t : Nat) : Bool :=
  v.intEnable && v.unsig > 0 && (v.urgent || v.unsig ≥ v.count || (v.time != 0 && v.unsigAt.any fun a => a + us v.time ≤ t))

/-- The queue vector of queue `qn` sends its message, and its count and time restart (R282). -/
def State.queueMsg (s : State) (qn : Nat) : State :=
  let v := s.queue qn
  let p := qn / 64
  let s := s.setQueue qn { v with unsig := 0, unsigAt := none, urgent := false }
  if s.suppressed p ∨ !s.hasVf v.binding p then s else s.msix v.binding (p + 1) (qn % 64)

/-- R282: the queue vector is evaluated. -/
def State.queueEval (s : State) (qn : Nat) : State := if (s.queue qn).vecDue s.up then s.queueMsg qn else s

/-- R282: a record of a port-bound queue is written; `now_` tells that it triggers a message at once. -/
def State.queueVec (s : State) (qn : Nat) (now_ : Bool) : State :=
  let v := s.queue qn
  if v.binding ≥ 2 then s
  else (s.setQueue qn { v with
    unsig := v.unsig + 1, unsigAt := some (v.unsigAt.getD s.up), urgent := v.urgent || now_ }).queueEval qn

/-- R368, R519: the journal cannot be written: HOST space on a port whose function issues no requests, or SINK space on a
link that is not UP. -/
def State.journalBlocked (s : State) (qn : Nat) : Bool :=
  let v := s.queue qn
  let p := qn / 64
  let pt := mget s.part.ports v.binding {}
  (v.binding == 2 && (mget s.lk.links v.link {}).st != .up) ||
  v.binding < 2 && spaceOf v.cjBase.toNat == 0 &&
    (!s.pcieGood v.binding || !s.hasVf v.binding p || pt.inReset.contains (p + 1) || !bit (s.part.setup.prot p).ports v.binding)

/-- Writes an operation's record at CJ_TAIL and advances it (R272). (log 35, DEDUCED) -/
def State.writeRecord (s : State) (t : Nat) (o : Op) : State :=
  let v := s.queue o.queue
  let p := o.queue / 64
  let a := v.cjBase.toNat + 32 * v.cjTail
  let s := if spaceOf a = 0 then s.pcieUnits p v.binding o.cls 0 0 32 else s
  let (_, _, s) := s.writeAt p v.binding o.cls 0 none a (recordBytes t o v.phase)
  let wrap := v.cjTail + 1 = 2 ^ v.cjLog2
  let s := s.setQueue o.queue { v with cjTail := if wrap then 0 else v.cjTail + 1, phase := v.phase != wrap }
  let s := (s.bump (pIx p 0x21) 0x0A).bump 0x6080 2
  s.queueVec o.queue (o.irq || !isSuccess o.status)

/-- R472: fills the final fields of the operation's entries in the held snapshots, and tells where the record of one that had
ended went. -/
def Snap.finish (t : Nat) (o : Op) (written inReset : Bool) (n : Snap) : Snap :=
  let ops := n.ops.map fun e =>
    if e.tag ≠ t then e
    else if e.final = 0xFF then
      { e with final := o.status, finalProgress := o.progress, finalDurable := o.durable, written := written, inReset := inReset }
    else if e.waits then { e with waits := false, written := written, inReset := inReset }
    else e
  { n with ops := ops }

/-- R472, R273: the final fields of an operation that has ended while its record awaits journal space. -/
def Snap.hold (t : Nat) (o : Op) (n : Snap) : Snap :=
  let ops := n.ops.map fun e => if e.tag = t ∧ e.final = 0xFF then
    { e with final := o.status, finalProgress := o.progress, finalDurable := o.durable, waits := true } else e
  { n with ops := ops }

/-- Snapshots whose last entry has ended become COMPLETE, with an event (R472). (log 34, DEDUCED) -/
def State.completeSnaps (s : State) : State :=
  let done := s.ev.snaps.filter fun n => !n.complete && n.ops.all (·.final != 0xFF)
  let close := fun (n : Snap) => if n.ops.all (·.final != 0xFF) then { n with complete := true } else n
  let s := { s with ev := { s.ev with snaps := s.ev.snaps.map close } }
  done.foldl (fun s n => s.event 0x0004 { params := [n.id] }) s

/-- A released tag is named by no frame, unit, die operation or lease read any more. -/
def State.untag (s : State) (t : Nat) : State :=
  let clr := fun (x : Option Nat) => if x = some t then none else x
  let op := fun (o : DieOp) => { o with tag := clr o.tag }
  let die := fun (d : Die) => { d with run := d.run.map op, susp := d.susp.map op, queue := d.queue.map op }
  let unit := fun (u : TUnit) => { u with tag := clr u.tag, dieOp := u.dieOp.map fun e => (e.1, op e.2) }
  let leaf := fun (l : LeafQ) => { l with q := l.q.map unit, wait := l.wait.map unit }
  let work := fun (w : RindWork) => { w with unit := w.unit.map fun v => (v.1, unit v.2) }
  let rind := fun (r : RindSeg) => { r with run := r.run.map work, q := r.q.map work }
  let link := fun (l : Link) => { l with replay := l.replay.map fun (f : TxFrame) => { f with tag := clr f.tag } }
  { s with
    media := { s.media with dies := s.media.dies.map fun e => (e.1, die e.2) }
    tm := { s.tm with
      leaves := s.tm.leaves.map fun e => (e.1, leaf e.2)
      rind := s.tm.rind.map fun e => (e.1, rind e.2) }
    lk := { s.lk with
      links := s.lk.links.map fun e => (e.1, link e.2)
      reads := s.lk.reads.map fun e => (e.1, { e.2 with tag := clr e.2.tag }) } }

/-- Releases an OTT entry: deferred releases no longer wait for it, and a stopping queue with no entry left becomes
DISABLED (Table 8.5). -/
def State.release (s : State) (t : Nat) : State :=
  match s.op? t with
  | none => s
  | some o =>
    let s := s.untag t
    let s := { s with
      q := { s.q with ott := merase s.q.ott t }
      pg := { s.pg with releases := s.pg.releases.map fun r => { r with waits := r.waits.filter (· != t) } } }
    let v := s.queue o.queue
    if o.src = .queue ∧ v.st = .stopping ∧ s.ottCount (fun e => e.queue == o.queue && e.src == .queue) = 0 then
      s.setQueue o.queue { v with st := .disabled, flushAt := none, waiting := [], journalFull := false }
    else s

/-- Counters of an operation's end by command and status (Tables 9.14, 7.7, 15.16, 11.9); `back` tells a backward ATTEND. -/
def State.countEnd (s : State) (cmd : Option Cmd) (back : Bool) (p st : Nat) : State :=
  let s := match cmd with
    | some .copy => s.bump 0x6090 1
    | some .attend => s.bump 0x6070 (1 + b2n back)
    | _ => s
  match st with
  | 0x01 => s.bump (pIx p 0x26) 3
  | 0x03 => s.bump (pIx p 0x26) 4
  | 0x41 => s.bump (pIx p 0x26) 5
  | 0x04 => s.bump (pIx p 2) 5
  | 0x05 => s.bump (pIx p 2) 6
  | _ => s

/-- Places a record in RESET_RECORD of partition `p`; the first of an event replaces the contents (R368). (log 35, DEDUCED) -/
def State.putResetRecord (s : State) (p : Nat) (r : Bytes) : State :=
  let pt := mget s.part.parts p {}
  let pt := { pt with record := (if pt.fresh then [] else pt.record) ++ [r], fresh := false }
  { s with part := { s.part with parts := mset s.part.parts p pt } }

/-- The status an operation ends with: a touched one that ran again ends REEXEC (R317, R375). -/
def Op.final (o : Op) (status : Nat) : Nat := if o.touched && isSuccess status then stReexec else status

/-- The end of an operation (R272, R273, R276): its record is written, placed in RESET_RECORD, kept waiting for journal
space, or, for a QUIET operation that is DONE, not written at all; then its entry is released. -/
def State.endOp (s : State) (t status detail progress durable : Nat) : State :=
  match s.op? t with
  | none => s
  | some o =>
    let status := o.final status
    let o := { o with
      status := status, detail := detail, progress := progress, durable := durable, endedAt := s.now, heldOver := s.holdover
      asks := [], got := [], pins := [] }
    let s := (s.setOp t o).countEnd (if o.src = .queue then cmdOf (fld o.desc 0 1) else none) (hBack o.arg) o.part status
    let v := s.queue o.queue
    let fin := fun (s : State) w r => { s with ev := { s.ev with snaps := s.ev.snaps.map (Snap.finish t o w r) } }
    if o.quiet ∧ status = stDone then ((fin s false false).completeSnaps).release t
    else if v.dead ∨ (o.src ≠ .queue ∧ v.st ≠ .enabled ∧ v.st ≠ .stopping) then
      ((fin s false false).completeSnaps).release t
    else if s.journalBlocked o.queue ∧ (v.st ≠ .enabled ∨ s.suppressed o.part) then
      let s := s.putResetRecord o.part (recordBytes t o false)
      ((fin s false true).completeSnaps).release t
    else if v.journalFree > 0 then ((fin (s.writeRecord t o) true false).completeSnaps).release t
    else
      let s := ({ s with ev := { s.ev with snaps := s.ev.snaps.map (Snap.hold t o) } }).completeSnaps
      let s := s.setOp t { o with st := .recordWait }
      let s := s.setQueue o.queue { v with waiting := v.waiting ++ [t], journalFull := true }
      s.bump (pIx o.part 0x21) 7

/-- R274: an operation whose effects are complete but for acknowledgements or durable records is held FINISHING with its
status; otherwise it ends. -/
def State.finishOp (s : State) (t status detail progress durable acks : Nat) (slices : List DurWait) : State :=
  if acks = 0 ∧ slices.isEmpty then s.endOp t status detail progress durable
  else match s.op? t with
    | none => s
    | some o => s.setOp t { o with
        st := .finishing, status := status, detail := detail, progress := progress, durable := durable
        acks := o.acks + acks, slices := slices, asks := [], got := [], pins := [] }

/-- PROGRESS of an operation that ends early (Table 9.1): units whose frames are all acknowledged, where frames count. -/
def Op.done (o : Op) : Nat :=
  if o.st = .finishing ∧ o.frames ≠ 0 then (o.units.filter fun k => k + o.acks ≤ o.frames).length else o.progress

/-- A finishing operation ends once nothing is awaited. -/
def State.settle (s : State) (t : Nat) : State :=
  match s.op? t with
  | some o => if o.st = .finishing ∧ o.acks = 0 ∧ o.slices.isEmpty then s.endOp t o.status o.detail o.progress o.durable else s
  | none => s

/-- A frame of operation `t` is acknowledged (R252, R274). (log 20, DEDUCED) -/
def State.ackOne (s : State) (t : Nat) : State :=
  match s.op? t with
  | some o => (s.setOp t { o with acks := o.acks - 1 }).settle t
  | none => s

/-! ### Fetching (R268-R270, R278) -/

/-- The queue may fetch now: ENABLED, not held, work ready. -/
def State.fetchable (s : State) (qn : Nat) : Bool :=
  let v := s.queue qn
  v.st == .enabled && !v.held && !s.q.fetchStopped && (mget s.part.parts (qn / 64) {}).st == 1 &&
    (v.list.isSome || v.sqHead != v.tail)

/-- Queues of partition `p` in round-robin order from its pointer. -/
def State.rrOrder (s : State) (p : Nat) : List Nat :=
  let k := mget s.q.rrQueue p 0
  ((List.range 64).map fun i => 64 * p + (k + i) % 64)

/-- R270: the queue whose turn it is among those `f` selects; queues of class 0 first. -/
def State.nextQueue (s : State) (f : Nat → Bool) : Option Nat :=
  let ps := (List.range 64).map fun i => (s.q.rrPart + i) % 64
  let go := fun (z : Bool) => ps.findSome? fun p => (s.rrOrder p).find? fun q =>
    f q && (((s.queue q).defClass == 0) == z)
  (go true).orElse fun _ => go false

/-- Moves the round-robin pointers past queue `qn`. -/
def State.rrPass (s : State) (qn : Nat) : State :=
  { s with q := { s.q with rrPart := (qn / 64 + 1) % 64, rrQueue := mset s.q.rrQueue (qn / 64) ((qn % 64 + 1) % 64) } }

/-- R268: the class of a descriptor on a queue; ATTEND runs in class 1 (R226). -/
def classOf (v : Queue) (d : Bytes) : Nat :=
  if cmdOf (fld d 0 1) = some .attend then 1
  else if bit (fld d 1 1) 3 then bits (fld d 1 1) 4 3 else v.defClass

/-- The operation a descriptor becomes. -/
def opOf (qn : Nat) (v : Queue) (d : Bytes) (ring li : Nat) : Op :=
  { part := qn / 64, queue := qn, desc := d, cls := classOf v d, ring := ring, list := li, utag := fld d 4 4
    fence := bit (fld d 1 1) 0, quiet := bit (fld d 1 1) 1, irq := bit (fld d 1 1) 2 }

/-- The operation with what it carries from its fetch on: its index parameters (R254, R315) and, for an ATTEND, its argument
block and work bound (R253); and what is wrong with that block. -/
def State.withArgs (s : State) (setup : Setup) (binding : Nat) (o : Op) : Op × Option (Nat × Nat) :=
  let ps := s.indexParams o.part
  match cmdOf (fld o.desc 0 1) with
  | some .attend =>
    let n := fld o.desc 16 4
    let a := s.readAt o.part binding (fld o.desc 8 8) (min n 8320)
    ({ o with arg := a, params := ps, aux := s.workBound o.part ps a }, s.attendBad setup o.part binding n ps a)
  | some .indexQuery => ({ o with params := ps }, none)
  | _ => (o, none)

/-- The read requests of a fetch of `n` bytes at operand address `a` in class `c`: HOST space goes through the queue's port (R31). -/
def State.fetchUnits (s : State) (p k c a n : Nat) : State := if spaceOf a = 0 ∧ k < 2 then s.pcieUnits p k c 0 1 n else s

/-- Outcome of fetching one descriptor. -/
inductive Fetched where
  | stalled (s : State)
  | got (s : State)

/-- Fetches the queue's next descriptor. A LIST at the ring takes no entry: its members stand in its place (R269). Any other
takes an entry or stalls the queue (R278); one that fails its checks completes at once (R291, R314). -/
def State.fetchOne (s : State) (qn : Nat) : Fetched :=
  let v := s.queue qn
  let p := qn / 64
  let (d, ring, li, v') := match v.list with
    | some l =>
      (s.readAt p v.binding (l.addr + 64 * l.pos) 64, l.ring, l.pos,
        { v with list := if l.pos + 1 < l.count then some { l with pos := l.pos + 1 } else none })
    | none =>
      (s.readAt p v.binding (v.sqBase.toNat + 64 * v.sqHead) 64, v.sqHead, 0x1FFF,
        { v with sqHead := (v.sqHead + 1) % 2 ^ v.sqLog2 })
  let cmd := cmdOf (fld d 0 1)
  let at_ := match v.list with
    | some l => l.addr + 64 * l.pos
    | none => v.sqBase.toNat + 64 * v.sqHead
  let bad := match cmd with
    | none => some (stBad, 0)
    | some c => if c = .list ∧ v.list.isSome then some (stBad, 0)
      else s.badDesc (s.part.setup) p v.binding c d
  if cmd = some .list ∧ bad = none then
    let s := s.fetchUnits p v.binding v.defClass at_ 64
    .got ((s.setQueue qn { v' with
      list := some { addr := fld d 8 8, count := fld d 16 2, pos := 0, ring := ring }, ottStall := false }).bump 0x6080 1)
  else
    let (o, badA) := if bad = none then s.withArgs s.part.setup v.binding (opOf qn v d ring li) else (opOf qn v d ring li, none)
    let bad := bad.orElse fun _ => badA
    match s.takeEntry o with
    | none =>
      let s := if v.ottStall then s else (s.bump (pIx p 0x21) 6).bump 0x6080 3
      .stalled (s.setQueue qn { v with ottStall := true })
    | some (t, s) =>
      let s := (s.setQueue qn { v' with ottStall := false }).bump 0x6080 1
      let s := s.fetchUnits p v.binding (classOf v d) at_ 64
      let s := if o.arg.isEmpty then s else s.fetchUnits p v.binding o.cls (fld d 8 8) o.arg.length
      match bad with
      | some (st, det) => .got (s.endOp t st det 0 0)
      | none => .got s

/-- Up to `n` descriptors of a queue; the turn ends at a stall or when nothing is left. -/
def State.fetchBurst (s : State) (qn : Nat) : Nat → State
  | 0 => s
  | n + 1 => if s.fetchable qn then
      match s.fetchOne qn with
      | .stalled s => s
      | .got s => s.fetchBurst qn n
    else s

/-- An operation may run now: it is ready, and with FENCE every earlier operation of its queue has completed (R268). -/
def State.runnable (s : State) (t : Nat) : Option Op :=
  match s.op? t with
  | none => none
  | some o =>
    if o.st ≠ .ready then none
    else if o.fence ∧ (s.q.ott.any fun e => e.2.queue == o.queue && e.2.src == .queue && e.2.fetchNo < o.fetchNo
        && e.2.st != .recordWait) then none
    else some o

/-- The ready operation of tag `t` when it carries command `c`. (log 42, DESIGN CHOICE) -/
def State.runCmd (s : State) (t : Nat) (c : Cmd) : Option Op :=
  match s.runnable t with
  | some o => if o.src = .queue ∧ cmdOf (fld o.desc 0 1) = some c then some o else none
  | none => none

/-- The port of an operation's queue for operand reads. -/
def State.opPort (s : State) (o : Op) : Nat := (s.queue o.queue).binding

/-- R332: an operation that is not a data transfer is metered as one item of 64 B. (log 41, DEDUCED) -/
def State.meterOp (s : State) (o : Op) : State := (s.meterItem o.part o.cls 64 0 false).2

/-! ### Queue errors and stops (R264, R285, R474) -/

/-- Records a LAST_ERROR cause; a QUEUE_ERROR event sends the error vector (Table 8.9, Table 15.1). (log 35, DEDUCED) -/
def State.queueCause (s : State) (qn cause : Nat) : State :=
  (s.setQueue qn { s.queue qn with lastError := cause }).event 0x0010 { part := some (qn / 64), params := [qn % 64, cause] }

/-- QUEUE_STOPPED of a queue that was ENABLED (R474). -/
def State.queueStopped (s : State) (qn reason : Nat) : State :=
  let v := s.queue qn
  (s.event 0x0011 { part := some (qn / 64), params := [qn % 64, v.sqHead, v.tail, (v.list.map (·.ring)).getD 0xFFFF,
    (v.list.map (·.pos)).getD 0x1FFF, reason] }).bump 0x60B0 7

/-- FLUSH of a queue (Table 8.5): fetching stops, SQ_HEAD = tail, operations in flight run to RESET_GRACE. -/
def State.flushQueue (s : State) (qn reason : Nat) : State :=
  let v := s.queue qn
  if v.st = .enabled ∨ v.st = .stopping then
    let s := if v.st = .enabled then s.queueStopped qn reason else s
    let s := s.bump (pIx (qn / 64) 0x21) 0x0C
    let any := s.ottCount (fun e => e.queue == qn && e.src == .queue) ≠ 0
    s.setQueue qn { v with
      st := if any then .stopping else .disabled, sqHead := v.tail, list := none, ottStall := false
      flushAt := if any then some s.up else none }
  else s

end Sys2Proof.Machine
end

