-- ==== Sys2Proof/Machine/Flash.lean ====
section
/-! DEFINITION. Flash media (05_flash_media.md): die operations and suspends, the map and its cache, record assembly into
punnets, relocation, discard. -/

namespace Sys2Proof.Machine

/-! ### Numbers (R154, R155) -/

/-- Punnet number of (die, superblock, wordline). -/
def punnetNo (die sb wl : Nat) : Nat := die * 2 ^ 21 + sb * 2 ^ 9 + wl
/-- Die and superblock of a punnet number. -/
def pnDie (n : Nat) : Nat := n / 2 ^ 21
def pnSb (n : Nat) : Nat := n / 2 ^ 9 % 2 ^ 12
/-- The die numbered `d`. -/
def State.die (s : State) (d : Nat) : Die := mget s.media.dies d {}
/-- Stores a die. -/
def State.setDie (s : State) (d : Nat) (v : Die) : State := { s with media := { s.media with dies := mset s.media.dies d v } }
/-- Erase count of superblock `b`. -/
def Die.erase (d : Die) (b : Nat) : Nat := mget d.erases b d.formatted
/-- Highest and lowest erase count of a die. -/
def Die.eraseMax (d : Die) : Nat := (d.erases.map (·.2)).foldl max d.formatted
def Die.eraseMin (d : Die) : Nat :=
  match d.erases with
  | [] => d.formatted
  | e :: es => (es.map (·.2)).foldl min (if d.erases.length < 3641 then min d.formatted e.2 else e.2)
/-- The free superblock with the lowest erase count (R173), lowest number among equals; none while only spares are free (R155). -/
def Die.pickFree (d : Die) : Option Nat :=
  if d.freeCount = 0 then none else
  let free := fun (b : Nat) => !mhas d.sbs b && d.erase b == d.formatted
  let used := d.erases.filterMap fun e => if mhas d.sbs e.1 then none else some (e.1, e.2)
  let fresh := match mfree d.sbs 0 3641 with
    | some b => if free b then some b else (List.range 3641).find? free
    | none => none
  match fresh with
  | some b => some b
  | none => (used.foldl (fun (acc : Option (Nat × Nat)) e => match acc with
      | some a => if e.2 < a.2 then some e else acc
      | none => some e) none).map (·.1)
/-- The dies that hold the root areas (R167). -/
def rootDies : List Nat := [0, 512]

/-! ### Die operations and suspends (R168, R169) -/

/-- A queued read that may suspend `op` now (Table 5.7), given SUSPEND_MAX. -/
def maySuspend (op : DieOp) (r : DieOp) (smax : Nat) : Bool :=
  r.kind == 0 && (r.cls == 0 || (r.cls ≤ 4 && op.suspends < smax))

/-- The first queued operation `f` selects, and the queue without it. -/
def takeFirst (f : DieOp → Bool) : List DieOp → Option (DieOp × List DieOp)
  | [] => none
  | x :: xs => if f x then some (x, xs) else (takeFirst f xs).map fun r => (r.1, x :: r.2)

/-- What the die does next at time `t`: starts, suspends (after 12 µs since the last resume, else the suspend is
deferred) or resumes. The answer tells the kind of operation suspended, if one was. In a suspended operation `deferred` tells that
the suspend counts against SUSPEND_MAX. -/
def Die.next (d : Die) (smax t : Nat) : Die × Option Nat :=
  match d.run with
  | none =>
    match d.susp with
    | none => match d.queue with
      | [] => (d, none)
      | o :: os => ({ d with run := some o, queue := os }, none)
    | some p =>
      match takeFirst (fun r => maySuspend { p with suspends := p.suspends - b2n p.deferred } r smax) d.queue with
      | some (r, os) => ({ d with run := some r, queue := os }, none)
      | none => ({ d with run := some { p with resumedAt := some t, deferred := false }, susp := none }, none)
  | some p =>
    if p.kind = 0 then (d, none) else
    match takeFirst (fun r => maySuspend p r smax) d.queue with
    | none => (d, none)
    | some (r, os) =>
      let early : Bool := match p.resumedAt with
        | some t0 => t < t0 + us 12
        | none => false
      if early then ({ d with run := some { p with deferred := true } }, none)
      else ({ d with
          run := some r, queue := os
          susp := some { p with suspends := p.suspends + (if r.cls = 0 then 0 else 1), deferred := r.cls != 0 } }, some p.kind)

/-- Lets die `n` go on; suspends are counted. From a power-fail on, no new program or erase is issued (R184). -/
def State.kickDie (s : State) (n : Nat) : State :=
  let d := s.die n
  let late := if s.pwr.fail then d.queue.filter (·.kind != 0) else []
  let (d, k) := ({ d with queue := d.queue.filter fun o => !s.pwr.fail || o.kind == 0 }).next (s.obj 0x1200 9 4) s.up
  let d := { d with queue := d.queue ++ late }
  let s := s.setDie n d
  match k with
  | none => s
  | some k => (s.bump 0x6050 (if k = 1 then 7 else 8)).bump (0x6100 + n / 32) 4

/-- Places a die operation of subscriber `sub` as a unit of its group's port (R160); a program or erase its port takes no more waits to be
placed again. -/
def State.dieUnit (s : State) (n sub : Nat) (op : DieOp) (colour : Nat) : State :=
  match s.place (16 + n / 32) sub op.cls { len := 1, colour := colour, tag := op.tag, dieOp := some (n, op) } with
  | (true, s) => s
  | (false, s) => if op.kind = 1 then { s with media := { s.media with redo := s.media.redo ++ [op] } } else s

/-- Every die operation on its way or in progress, with its die: in port schedulers and on dies. -/
def State.dieOps (s : State) : List (Nat × DieOp) :=
  (s.media.dies.flatMap fun d => (d.2.run.toList ++ d.2.susp.toList ++ d.2.queue).map fun o => (d.1, o)) ++
    (s.tm.leaves.flatMap fun l => (l.2.q ++ l.2.wait).filterMap (·.dieOp)) ++
    (s.tm.rind.flatMap fun e => (e.2.run.toList ++ e.2.q).filterMap fun w => w.unit.bind (·.2.dieOp))

/-! ### The map and its cache (R165, R166) -/

/-- Map page of entry index `i`. -/
def mapPageOf (i : Nat) : Nat := i / 2048
/-- The map entry of frame slot and layer. -/
def State.mapEnt (s : State) (slot layer : Nat) : Option MapEnt := mget? s.media.map (256 * slot + layer)
/-- The cache slot that holds page `p`, with its contents. -/
def State.cacheSlot (s : State) (p : Nat) : Option (Nat × CacheSlot) := s.media.cache.find? fun e => e.2.page == p
/-- The change number of the committed image of a metadata structure, plus 1; 0 where there is none. -/
def State.durNo (s : State) (k : MetaKey) : Nat := ((s.media.dur.find? fun m => m.key == k).map (·.seqNo + 1)).getD 0
/-- The records of programs that have not passed. -/
def State.flying (s : State) : List Rec :=
  ((s.dieOps.map (·.2)) ++ s.media.redo).flatMap fun o => if mhas s.media.punnets o.punnet then [] else o.recs
/-- The latest contents of a map page are not committed (R166). -/
def State.pageDirty (s : State) (p : Nat) : Bool :=
  (s.media.metaPend.any fun m => m.1 == .mapPage p) || s.flying.any fun r => r.key == some (.mapPage p) && r.seqNo + 1 > s.durNo (.mapPage p)
/-- The places (punnet · 16384 + offset) of the committed copies of a metadata structure's durable image (R159). -/
def State.metaCopies (s : State) (k : MetaKey) : List Nat :=
  s.media.punnets.flatMap fun p =>
    (p.2.recs.filter fun r => !p.2.bad && !r.bad && r.key == some k && r.seqNo + 1 == s.durNo k).map fun r => p.1 * 16384 + r.off

/-- A slice read for staging, by no operation of the OTT, is under way. -/
def State.stagingAt (s : State) (fid layer : Nat) : Bool :=
  (s.dieOps.any fun o => o.2.kind == 0 && o.2.tag.isNone && o.2.fid == fid && o.2.layer == layer) ||
  s.lk.reads.any fun r => r.2.tag.isNone && r.2.fid == fid && r.2.layer == layer

/-- READERS of a slice (Table 4.2): the operations that hold it pinned, from their first look at it until they have finished with it,
and a staging read of it (R115). -/
def State.readersAt (s : State) (fid layer : Nat) : Nat :=
  (s.q.ott.filter fun e => (e.2.asks.any fun a => a.fid == fid && a.layer == layer)
    || (e.2.got.any fun g => g.1 == fid && g.2.1 == layer) || e.2.pins.contains (fid, layer)).length + b2n (s.stagingAt fid layer)

/-- A map page covers a slice with READERS above 0. -/
def State.pageRead (s : State) (p : Nat) : Bool :=
  s.pg.frames.any fun f => f.2.slot / 8 == p && f.2.slices.any fun l => s.readersAt f.1 l.1 > 0

/-- A page that the hand passes (R166): it covers a slice that is read, its latest contents are not committed, or it is being loaded. -/
def State.pageKept (s : State) (c : CacheSlot) : Bool := c.load == 1 || s.pageRead c.page || s.pageDirty c.page

/-- The clock sweep (R166) from `hand` over up to a full turn: the slot to use, and the cache with the reference bits cleared. -/
def sweep (kept : CacheSlot → Bool) (cache : Map CacheSlot) (hand : Nat) : Nat → Option Nat × Map CacheSlot
  | 0 => (none, cache)
  | n + 1 =>
    let h := hand % 262144
    match mget? cache h with
    | none => (some h, cache)
    | some c =>
      if c.ref then sweep kept (mset cache h { c with ref := false }) (h + 1) n
      else if kept c then sweep kept cache (h + 1) n
      else (some h, cache)

/-- Stores the contents of a cache slot. -/
def State.setCache (s : State) (h : Nat) (c : CacheSlot) : State := { s with media := { s.media with cache := mset s.media.cache h c } }

/-- Looks up map page `p` in class `cls` for subscriber `sub`: a hit sets the reference bit; a miss evicts by the sweep and
reads the page from a METADATA copy. `false`: the page is being read, or none can be evicted now. -/
def State.mapLookup (s : State) (p cls sub : Nat) : Bool × State :=
  match s.cacheSlot p with
  | some (h, c) =>
    if c.load = 1 then (false, s)
    else if c.load = 2 then (true, s.setCache h { c with ref := true, load := 0 })
    else (true, (s.setCache h { c with ref := true }).bump 0x6050 0x0C)
  | none =>
    match sweep s.pageKept s.media.cache s.media.hand 262144 with
    | (none, cache) => (false, { s with media := { s.media with cache := cache } })
    | (some h, cache) =>
      let s := { s with media := { s.media with cache := cache, hand := (h + 1) % 262144 } }
      let s := s.bump 0x6050 0x0D
      let s := if cls = 0 then s.bump 0x6050 0x0E else s
      match s.metaCopies (.mapPage p) with
      | [] => (true, s.setCache h { page := p })
      | x :: _ =>
        (false, (s.setCache h { page := p, load := 1 }).dieUnit (pnDie (x / 16384)) sub
          { kind := 0, cls := cls, punnet := x / 16384, off := x % 16384, sub := sub, page := some p } 0)

/-- Notes that a map page changed: it joins the METADATA stream. -/
def State.dirtyPage (s : State) (p : Nat) : State := s.touch (.mapPage p)

/-- Sets or clears the map entry of (slot, layer). -/
def State.setMap (s : State) (slot layer : Nat) (e : Option MapEnt) : State :=
  let k := 256 * slot + layer
  let s := match e with
    | some e => { s with media := { s.media with map := mset s.media.map k e } }
    | none => { s with media := { s.media with map := merase s.media.map k } }
  s.dirtyPage (mapPageOf k)

/-- R176: the record at `loc` (punnet · 16384 + offset) is released: the discard is recorded and counted. -/
def State.discardAt (s : State) (loc : Nat) : State :=
  let s := { s with media := { s.media with discards := s.media.discards ++ [(loc, s.media.metaNo)] } }
  (s.touch .discards).bump 0x6050 0x15

/-- R176: the T2 record of (slot, layer) is released: its map entry is cleared and the discard recorded. -/
def State.discard (s : State) (slot layer : Nat) : State :=
  match s.mapEnt slot layer with
  | none => s
  | some e => (s.setMap slot layer none).discardAt (e.punnet * 16384 + e.off)

/-! ### Records (R129-R131, R157) -/

/-- Length of a record of `payload` bytes, in 16 B units: header, payload, padding. -/
def recUnits (payload : Nat) : Nat := (32 + payload + 15) / 16

/-- The slice record of a copy (R130, R131): LOSSLESS or LOSSY_FP8 when coding makes the payload smaller, else RAW.
(log 14, DESIGN CHOICE) -/
def mkRec (g : Geo) (fid layer profile epoch : Nat) (ver : BitVec 16) (lossy durable : Bool) (d : SliceData) : Rec :=
  let img := validImage g d
  if lossy then
    let q := d.map fun r => storeRow { g with fp8 := true } r.elems
    let qi := validImage { g with fp8 := true } q
    let n := min (Config.codedBytes qi) qi.length
    { fid := fid, layer := layer, version := ver, format := 1, fill := d.length, profile := profile, epoch := epoch
      data := d.map (lossyRow g), durable := durable, len := max 3 (recUnits n), payload := n
      crc := crc32c (validImage g (d.map (lossyRow g))) }
  else
    let n := Config.codedBytes img
    let raw := n ≥ img.length
    { fid := fid, layer := layer, version := ver, format := if raw then 2 else 0, fill := d.length, profile := profile
      epoch := epoch, data := d, durable := durable, len := max 3 (recUnits (if raw then img.length else n))
      payload := if raw then img.length else n, crc := crc32c img }

/-- The 32 B header of a slice record (Table 4.5). -/
def Rec.header (r : Rec) : Bytes :=
  leBytes 4 r.fid ++ leBytes 1 r.layer ++ leBytes 1 r.format ++ leBytes 1 r.fill ++ leBytes 1 r.profile ++ leBytes 4 r.payload ++
    leBytes 4 r.crc ++ leBytes 2 r.version.toNat ++ leBytes 2 0 ++ leBytes 4 r.epoch ++ leBytes 8 0

/-- Page types a record touches (R157). -/
def Rec.pages (r : Rec) : Nat := (r.off * 16 + r.len * 16 - 1) / 65536 - r.off * 16 / 65536 + 1

/-- Where a record of `len` units starts after `used` units: a record of 65,536 B or less crosses no page-type boundary, a longer one
exactly one (R157). -/
def recStart (used len : Nat) : Nat := if (used + len - 1) / 4096 - used / 4096 > (len - 1) / 4096 then roundUp used 4096 else used

/-- The record fits an open punnet (R156, R161). -/
def OpenP.fits (o : OpenP) (len : Nat) : Bool := o.recs.length < 252 && recStart o.used len + len ≤ 12032

/-! ### Reading (R168) -/

/-- The record a map entry points to. -/
def State.recAt (s : State) (e : MapEnt) : Option Rec :=
  (mget? s.media.punnets e.punnet).bind fun p => p.recs.find? fun r => r.off == e.off

/-- Places the reads of `op`'s record, one for each of the `n` page types it touches. -/
def State.readPages (s : State) (n colour : Nat) (op : DieOp) : State :=
  (List.range n).foldl (fun s i => s.dieUnit (pnDie op.punnet) op.sub { op with last := i + 1 == n } colour) s

/-- Issues the die reads of the T2 copy of (fid, slot, layer) for operation `t` (or staging) in class `cls`: one per page type. `false`:
the map lookup must wait (R166); a staging read waits by itself for a page that is being loaded. A read that its leaf drops leaves the slice
where it was, without data (R335, R336). -/
def State.issueRead (s : State) (t : Option Nat) (sub cls colour fid slot layer : Nat) : Bool × State :=
  let p := mapPageOf (256 * slot + layer)
  let op : DieOp := { kind := 0, cls := cls, punnet := 0, tag := t, fid := fid, layer := layer, sub := sub }
  match s.mapLookup p cls sub with
  | (false, s) =>
    if t.isNone ∧ (s.cacheSlot p).isSome then (true, { s with media := { s.media with loadWait := s.media.loadWait ++ [(p, colour, op)] } })
    else (false, s)
  | (true, s) =>
    match s.mapEnt slot layer with
    | none => (true, s)
    | some e =>
      let n := ((s.recAt e).map Rec.pages).getD 1
      let x := 16 + pnDie e.punnet / 32
      let tell := fun (s : State) (f : Op → Op) => match t with
        | none => s
        | some t => match s.op? t with
          | some o => s.setOp t (f o)
          | none => s
      (true, match s.refusesUnit x sub cls n with
        | some d => tell (s.countDrop x sub cls d) fun o => { o with got := o.got ++ [(fid, layer, stPartial, [])] }
        | none => tell (s.readPages n colour { op with punnet := e.punnet, off := e.off }) fun o =>
            { o with asks := o.asks ++ [{ fid := fid, layer := layer, left := 1 }] })

/-! ### Maintenance (R171-R173) -/

/-- The map entries that point into superblock `sb` of die `n`: slot, layer, entry. -/
def State.sbEntries (s : State) (n sb : Nat) : List (Nat × MapEnt) :=
  s.media.map.filter fun e => pnDie e.2.punnet == n && pnSb e.2.punnet == sb

/-- The metadata records of superblock `sb` of die `n` that hold the durable image of their structure, with their places. -/
def State.sbMeta (s : State) (n sb : Nat) : List (Nat × Rec) :=
  (s.media.punnets.filter fun p => pnDie p.1 == n && pnSb p.1 == sb && !p.2.bad).flatMap fun p =>
    (p.2.recs.filter fun r => r.key.any fun k => s.durNo k == r.seqNo + 1).map fun r => (p.1 * 16384 + r.off, r)

/-- Reads the record at `loc` in class 6 to move it (R160, R171). -/
def State.moveRead (s : State) (loc : Nat) (r : Rec) : State :=
  s.readPages r.pages 0 { kind := 0, cls := 6, punnet := loc / 16384, off := loc % 16384, fid := r.fid, layer := r.layer, move := true }

/-- Relocates a superblock: every valid record, one that a map entry points to or that holds the durable image of a metadata
structure, is read in class 6, to be copied unchanged into the RELOCATION stream. -/
def State.relocate (s : State) (n sb : Nat) : State :=
  let t := (s.sbEntries n sb).foldl (fun s e =>
    match s.recAt e.2 with
    | some r => s.moveRead (e.2.punnet * 16384 + e.2.off) r
    | none => s) s
  (s.sbMeta n sb).foldl (fun s e => s.moveRead e.1 e.2) t

/-- A superblock may be erased: closed, no valid record in it, nothing queued or running reads it (R172). -/
def State.erasable (s : State) (n sb : Nat) : Bool :=
  let d := s.die n
  (mget d.sbs sb { st := 0 }).st == 2 && (s.sbEntries n sb).isEmpty && (s.sbMeta n sb).isEmpty &&
  !(s.dieOps.any fun o => o.1 == n && pnSb o.2.punnet == sb)

/-- Issues the erase of a superblock. -/
def State.erase (s : State) (n sb : Nat) : State :=
  s.dieUnit n 64 { kind := 2, cls := 6, punnet := punnetNo n sb 0 } 0

/-- The collection candidate of a die: the closed superblock with the greatest (1 − u) · a ÷ (1 + u), compared as exact
fractions (u valid units of 12,032 · 384, a hours since last program). -/
def State.gcPick (s : State) (n : Nat) : Option Nat :=
  let full := 12032 * 384
  let sc := fun (b : Nat) (v : SuperB) =>
    let u := ((s.sbEntries n b).map (·.2.len)).sum + ((s.sbMeta n b).map (·.2.len)).sum
    ((full - min u full) * (s.up - v.progAt), full + u)
  ((s.die n).sbs.filter fun e => e.2.st == 2).foldl (fun (acc : Option (Nat × Nat × Nat)) e =>
    let f := sc e.1 e.2
    match acc with
    | none => some (e.1, f)
    | some a => if f.1 * a.2.2 > a.2.1 * f.2 then some (e.1, f) else acc) none |>.map (·.1)

/-- A relocation out of superblock `sb` of die `n` is under way. -/
def State.relocating (s : State) (n sb : Nat) : Bool :=
  let here := fun (p : Nat) => pnDie p == n && pnSb p == sb
  let from_ := fun (r : Rec) => r.src.any fun x => here (x / 16384)
  (s.dieOps.any fun o => (o.2.move && here o.2.punnet) || o.2.recs.any from_) ||
    (s.media.openP.any fun o => o.2.recs.any from_) || s.media.redo.any fun o => o.recs.any from_

/-- Garbage collection of a die (Table 5.8): below GC_START the best candidate is relocated, or erased when it holds nothing. -/
def State.collectDie (s : State) (n : Nat) : State :=
  if (s.die n).freeCount < s.obj 0x1200 4 12 then
    match s.gcPick n with
    | some b =>
      if s.erasable n b then
        if s.dieOps.any fun o => o.1 == n && o.2.kind == 2 then s
        else s.erase n b
      else if s.relocating n b then s else s.relocate n b
    | none => s
  else s

/-- Static wear levelling of a die (Table 5.8). -/
def State.levelDie (s : State) (n : Nat) : State :=
  let d := s.die n
  let low := (d.sbs.filter fun e => e.2.st == 2).foldl (fun (acc : Option (Nat × Nat)) e =>
    match acc with
    | none => some (e.1, d.erase e.1)
    | some a => if d.erase e.1 < a.2 then some (e.1, d.erase e.1) else acc) none
  match low with
  | some (b, _) => if d.eraseMax - d.eraseMin > s.obj 0x1200 6 200 ∧ !s.relocating n b then (s.relocate n b).bump 0x6050 0x11 else s
  | none => s

/-- Maintenance of a die by its free superblocks and its wear (R173). -/
def State.upkeep (s : State) (n : Nat) : State := (s.collectDie n).levelDie n

/-- Retires a superblock in use, once (R175): its committed records are relocated and it is never used again. -/
def State.retire (s : State) (n sb : Nat) : State :=
  if (mget (s.die n).sbs sb { st := 0 }).st = 3 then s else
  let s := s.relocate n sb
  let d := s.die n
  let s := s.setDie n { d with sbs := mset d.sbs sb { mget d.sbs sb { st := 3 } with st := 3 } }
  (((s.touch .badBlocks).bump 0x6050 0x14).bump (0x6100 + n / 32) 6).upkeep n

/-- A superblock whose reads since its erase reach READ_DISTURB_LIMIT is relocated (R173), once. -/
def State.countRead (s : State) (n sb : Nat) : State :=
  let d := s.die n
  match mget? d.sbs sb with
  | none => s
  | some b =>
    let due := b.reads + 1 ≥ s.obj 0x1200 8 100000 ∧ !b.moved
    let s := s.setDie n { d with sbs := mset d.sbs sb { b with reads := b.reads + 1, moved := b.moved || due } }
    if due then (s.relocate n sb).bump 0x6050 0x10 else s

/-! ### Programs (R159-R162) -/

/-- A free place for the next punnet of a stream on die `n`: the superblock and wordline. -/
def Die.place (d : Die) (stream : Nat) : Option (Nat × Nat) :=
  match d.sbs.find? fun e => e.2.st == 1 && e.2.stream == stream && e.2.next < 384 with
  | some e => some (e.1, e.2.next)
  | none => (d.pickFree).map fun b => (b, 0)

/-- Takes the place: the superblock is open, closed once its last wordline is taken. -/
def Die.take (d : Die) (stream sb wl t : Nat) : Die :=
  let new : SuperB := { st := 1, stream := stream, erases := d.erase sb, prev := mget? d.lastSb stream }
  let b := mget d.sbs sb new
  { d with
    sbs := mset d.sbs sb { b with st := if wl + 1 = 384 then 2 else 1, stream := stream, next := wl + 1, progAt := t }
    lastSb := mset d.lastSb stream sb }

/-- R162: among the dies in service of channel `c`, fewest queued operations, then most free superblocks. -/
def State.pickDie (s : State) (c stream : Nat) : Option Nat :=
  let ds := ((List.range 8).map (8 * c + ·)).filter fun d => s.dieGood d && ((s.die d).place stream).isSome
  ds.foldl (fun (acc : Option Nat) d => match acc with
    | none => some d
    | some a =>
      let qa := (s.die a).queue.length + b2n (s.die a).run.isSome
      let qd := (s.die d).queue.length + b2n (s.die d).run.isSome
      if qd < qa ∨ (qd = qa ∧ (s.die d).freeCount > (s.die a).freeCount) then some d else acc) none

/-- The next channel in service after `c`, outside the channel groups `ban`, with room for a stream, tried over a whole turn. -/
def State.nextChan (s : State) (c stream : Nat) (ban : List Nat) : Option Nat :=
  ((List.range 128).map fun i => (c + 1 + i) % 128).find? fun c => !ban.contains (c / 4) && (s.pickDie c stream).isSome

/-- The die that a punnet outside the channel groups `ban` goes to after channel `c`. -/
def State.nextDie (s : State) (c stream : Nat) (ban : List Nat) : Option Nat :=
  (s.nextChan c stream ban).bind fun c => s.pickDie c stream

/-- Issues the program `op` on die `n` (R161): PROGRAM_SEQ, place, unit. -/
def State.program (s : State) (n : Nat) (op : DieOp) : State :=
  match (s.die n).place op.stream with
  | none => { s with media := { s.media with redo := s.media.redo ++ [op] } }
  | some (sb, wl) =>
    let op := { op with punnet := punnetNo n sb wl, progSeq := s.media.progSeq, suspends := 0, resumedAt := none, deferred := false }
    let s := s.setDie n ((s.die n).take op.stream sb wl s.up)
    let s := { s with media := { s.media with progSeq := s.media.progSeq + 1 } }
    (s.dieUnit n op.sub op 0).upkeep n

/-- The channel groups that hold, or are to hold, the other copy of a METADATA punnet with records `rs` (R159). -/
def State.twinGroups (s : State) (rs : List Rec) : List Nat :=
  let same := fun (xs : List Rec) => xs.any fun x => rs.any fun r => x.key == r.key && x.seqNo == r.seqNo
  ((s.dieOps.filter fun o => o.2.kind == 1 && o.2.stream == 2 && same o.2.recs).map fun o => o.1 / 32) ++
    (s.media.punnets.filter fun p => p.2.stream == 2 && same p.2.recs).map fun p => pnDie p.1 / 32

/-- The other superblock of a root area, or the same while the other is retired (R167). -/
def State.rootSb (s : State) (n sb : Nat) : Nat := if (mget (s.die n).sbs (1 - sb) { st := 4 }).st = 4 then 1 - sb else sb

/-- Places a program again, on another superblock or die (R179): a root checkpoint in its area, a METADATA punnet away from its other copy; it
waits while no die has room. -/
def State.reprogram (s : State) (op : DieOp) : State :=
  match op.root with
  | some cp =>
    let sb := s.rootSb cp.area cp.sb
    if s.dieGood cp.area ∧ (mget (s.die cp.area).sbs sb { st := 4 }).st = 4 then
      s.dieUnit cp.area 64 { op with punnet := punnetNo cp.area sb 0, root := some { cp with sb := sb } } 0
    else s
  | none =>
    match s.nextDie s.media.rotate op.stream (if op.stream = 2 then s.twinGroups op.recs else []) with
    | some n => s.program n op
    | none => { s with media := { s.media with redo := s.media.redo ++ [op] } }

/-- Programs that found no die are tried again. -/
def State.retryPrograms (s : State) : State :=
  if s.media.redo.isEmpty then s else
  s.media.redo.foldl State.reprogram { s with media := { s.media with redo := [] } }

/-- The value a metadata structure has now. -/
def State.metaVal (s : State) : MetaKey → MetaVal
  | .seq n => match mget? s.pg.seqs n with
    | some q => .seq { q with leaves := [], pend := [] }
    | none => .gone
  | .leaf n b => match mget? s.pg.seqs n with
    | some q => .leaf (q.leaves.filter fun e => e.1 / 256 == b)
    | none => .gone
  | .header f => match mget? s.pg.frames f with
    | some v => .header v ((s.ix.pips.filter fun e => e.2.last == f && e.2.owner == none).map (·.2))
    | none => .gone
  | .dir f => match mget? s.px.dir f with
    | some d => .dir d
    | none => .gone
  | .event n => match s.ev.log.find? fun e => e.seqNo == n with
    | some e => .event e
    | none => .gone
  | .config k => .config (mget s.media.cfgSet k [])
  | .badBlocks => .badBlocks (s.media.dies.flatMap fun d => (d.2.sbs.filter fun b => b.2.st == 3).map fun b => (d.1, b.1))
  | _ => .other

/-- KIND of a metadata record (Table 5.4, which gives event and configuration records none: 8; log 47, DESIGN CHOICE). -/
def MetaKey.kind : MetaKey → Nat
  | .seq _ => 1
  | .leaf _ _ => 2
  | .header _ => 3
  | .dir _ => 4
  | .mapPage _ => 5
  | .discards => 6
  | .badBlocks => 7
  | _ => 8

/-- The METADATA record of a changed structure, of 65,536 B at most (R157). -/
def State.metaRec (s : State) (k : MetaKey × Nat) : Rec :=
  { key := some k.1, seqNo := k.2, val := s.metaVal k.1, len := max 3 (min 4096 (Config.metaUnits k.1.kind)) }

/-- Assembles metadata records while they fit one punnet: those taken, those left. -/
def packMeta (mk : MetaKey × Nat → Rec) : OpenP → List (MetaKey × Nat) → OpenP × List (MetaKey × Nat)
  | o, [] => (o, [])
  | o, k :: ks =>
    let r := mk k
    if o.fits r.len then
      packMeta mk { o with recs := o.recs ++ [{ r with off := recStart o.used r.len }], used := recStart o.used r.len + r.len } ks
    else (o, k :: ks)

/-- Closes one METADATA punnet: the pending records that fit, as their structures stand, programmed on dies of two different
channel groups (R159). -/
def State.closeMeta (s : State) : State :=
  if s.media.metaPend.isEmpty then s else
  let (o, rest) := packMeta s.metaRec {} s.media.metaPend
  match s.nextChan s.media.rotate 2 [] with
  | none => s
  | some c =>
    match s.pickDie c 2, s.nextDie (c + 3) 2 [c / 4] with
    | some d1, some d2 =>
      let s := { s with media := { s.media with
        metaPend := rest, rotate := c, metaSince := s.media.metaSince.filter fun m => rest.any fun e => e.1 == m.1 } }
      let s := s.bump 0x6050 6 (2 * (192512 - 16 * (o.recs.map (·.len)).sum))
      let op : DieOp := { kind := 1, cls := 7, punnet := 0, recs := o.recs, stream := 2, sub := 64 }
      (s.program d1 op).program d2 op
    | _, _ => s

/-- Closes every pending metadata record's punnet. -/
def State.closeAllMeta (s : State) : Nat → State
  | 0 => s
  | n + 1 => if s.media.metaPend.isEmpty then s else (s.closeMeta).closeAllMeta n

/-- Closes an open HOST or RELOCATION punnet `key` and issues its program (R161). -/
def State.closePunnet (s : State) (key : Nat) : State :=
  match mget? s.media.openP key with
  | none => s
  | some o =>
    let stream := key / 128
    let die := (s.pickDie (key % 128) stream).orElse fun _ => s.nextDie (key % 128) stream []
    match die with
    | none => s
    | some d =>
      let s := { s with media := { s.media with openP := merase s.media.openP key } }
      let s := s.bump 0x6050 6 (192512 - 16 * ((o.recs.map (·.len)).sum))
      s.program d { kind := 1, cls := o.cls, punnet := 0, recs := o.recs, stream := stream, sub := o.sub }

/-- A token block that frame `fid` holds (R162): that of its first leaf entry. -/
def State.blockOf (s : State) (fid : Nat) : Nat :=
  ((s.pg.seqs.findSome? fun e => (e.2.leaves.find? fun l => l.2.fid == fid).map (·.1))).getD 0

/-- The channel a HOST record goes to (R162): the channels in service in turn, by block and layer, so that consecutive blocks of a layer lie on
different ones; a RELOCATION record goes to the next channel. -/
def State.recChan (s : State) (stream : Nat) (r : Rec) : Nat :=
  let cs := (List.range 128).filter fun c => (List.range 8).any fun i => s.dieGood (8 * c + i)
  let c := if stream = 0 then cs.getD ((s.blockOf r.fid + r.layer) % max 1 cs.length) 0 else s.media.rotate + 1
  (s.nextChan (c + 127) stream []).getD s.media.rotate

/-- Adds a record to the open punnet of its stream and channel; a punnet it does not fit is closed first, one with 252 entries after. The
punnet's class is the most urgent of its records' classes, its subscriber its first record's (log 47, DESIGN CHOICE). A HOST record is
compressed by the rind cores of its segment (R29). -/
def State.addRec (s : State) (stream cls sub : Nat) (r : Rec) : State :=
  let c := s.recChan stream r
  let key := 128 * stream + c
  let s := { s with media := { s.media with rotate := c } }
  let s := match mget? s.media.openP key with
    | some o => if o.fits r.len then s else s.closePunnet key
    | none => s
  let o := mget s.media.openP key { cls := cls, sub := sub }
  let o := { o with
    recs := o.recs ++ [{ r with off := recStart o.used r.len }], used := recStart o.used r.len + r.len, cls := min o.cls cls
    oldestDurable := if r.durable then some (o.oldestDurable.getD s.up) else o.oldestDurable
    oldestMeta := if r.key.isSome then some (o.oldestMeta.getD s.up) else o.oldestMeta }
  let s := { s with media := { s.media with openP := mset s.media.openP key o } }
  let s := s.bump 0x6050 (if stream = 0 then 4 else 5) (16 * r.len)
  let s := if stream = 0 then s.rindPut (portSeg (16 + c / 4)) { cls := cls, sub := sub, len := 16 * r.len } else s
  if o.recs.length = 252 then s.closePunnet key else s

/-- T2 bytes in use: records a map entry points to, and those on their way. (log 19, DEDUCED) -/
def State.t2Used (s : State) : Nat := (s.media.map.map fun e => 16 * e.2.len).sum
/-- Slice records placed in punnets that are not committed yet: in open punnets and in programs on their way. (log 19, DEDUCED) -/
def State.placedRecs (s : State) : List Rec :=
  ((s.media.openP.flatMap (·.2.recs)) ++ s.flying).filter fun r => r.key.isNone && r.src.isNone
/-- T2 has user capacity for a record of `len` units beside the records committed and those placed (R571). -/
def State.t2Room (s : State) (len : Nat) : Bool :=
  s.t2Used + 16 * ((s.placedRecs.map (·.len)).sum + len) ≤ s.t2UserBytes

end Sys2Proof.Machine
end

