-- ==== Sys2Proof/Machine/Tiers.lean ====
section
/-! DEFINITION. Tiers (04_tiers.md): residency, capacity, placement, condemnation, write-back, drops; and the freeing of
frames. -/

namespace Sys2Proof.Machine

/-! ### Frames and slices -/

/-- Allocation flag bits (Table 4.1). -/
def fHot := 0
def fExact := 1
def fDurable := 2
def fNoFlash := 3
def fNeighbour := 4
def fPinned := 5
def fShareable := 6

/-- The frame `fid`. -/
def State.frame? (s : State) (fid : Nat) : Option Frame := mget? s.pg.frames fid
/-- Stores a frame. -/
def State.setFrame (s : State) (fid : Nat) (f : Frame) : State :=
  { s with pg := { s.pg with frames := mset s.pg.frames fid f } }
/-- Changes a frame that exists. -/
def State.modFrame (s : State) (fid : Nat) (g : Frame → Frame) : State :=
  { s with pg := { s.pg with frames := mmod s.pg.frames fid g } }
/-- The slice of a layer of a frame. -/
def Frame.slice (f : Frame) (layer : Nat) : Slice := mget f.slices layer {}
/-- Slice (fid, layer). -/
def State.sliceOf (s : State) (fid layer : Nat) : Slice := ((s.frame? fid).map (·.slice layer)).getD {}
/-- Changes slice (fid, layer) of a frame that exists. -/
def State.modSlice (s : State) (fid layer : Nat) (g : Slice → Slice) : State :=
  s.modFrame fid fun f => { f with slices := mset f.slices layer (g (f.slice layer)) }
/-- The geometry of a frame's profile. -/
def State.frameGeo (s : State) (f : Frame) : Geo := s.geo f.profile
/-- FRAME_FILL, PRESENT_SLICES, ABSENT_SLICES (Table 2.5). -/
def Frame.fill (f : Frame) : Nat := (f.slices.map (·.2.fill)).foldl min 16
def Frame.present (f : Frame) : Nat := (f.slices.filter fun l => l.2.st == .present).length
def Frame.absent (f : Frame) : Nat := (f.slices.filter fun l => l.2.st == .absent).length

/-- Ages are compared as differences modulo 2^32. -/
def State.ageOf (s : State) (lastUse : Nat) : Nat := (s.px.epoch + 2 ^ 32 - lastUse) % 2 ^ 32

/-- Adds to a loss counter of a partition and of the module (R485). -/
def State.lossBump (s : State) (p sub : Nat) (n : Nat := 1) : State := (s.bump (pIx p 0x24) sub n).bump 0x6000 sub n

/-! ### Capacity (R26, R114, R572) -/

/-- Sum over frames of `f` slices times their T1-form size. -/
def State.heldBytes (s : State) (h : Slice → Bool) : Nat :=
  (s.pg.frames.map fun e => (e.2.slices.filter fun l => h l.2).length * (s.frameGeo e.2).sliceBytes).sum
/-- T0_USED, T1_USED, TN_USED; T2_USED is `State.t2Used`. -/
def State.t0Used (s : State) : Nat := s.heldBytes (·.held0)
def State.t1Used (s : State) : Nat := s.heldBytes (·.held1)
def State.tnUsed (s : State) : Nat := s.heldBytes (·.heldN)
/-- Bytes this module has lent (LENT_BYTES). -/
def State.lentBytes (s : State) : Nat := (s.lk.lent.map (·.2.bytes)).sum
/-- TN capacity: bytes granted by live leases (R144). -/
def State.tnBytes (s : State) : Nat := (s.lk.leases.map (·.2.bytes)).sum
/-- Bytes of the weights of bound profiles. -/
def State.weightBytes (s : State) : Nat :=
  ((List.range 32).map fun n => if s.bindings n = 0 then 0 else
    (if (s.geo n).latent then (s.blobOf (0x1300 + n) 15).length else 0) + (s.blobOf (0x1600 + n) 3).length).sum
/-- Bytes of page tables: records, directories and leaf tables twice, pending keys once. -/
def State.tableBytes (s : State) : Nat :=
  (s.pg.seqs.map fun e => 2 * (32 + 2048 + 2048 * ((e.2.leaves.map fun l => l.1 / 256).eraseDups).length)
    + 128 * e.2.pend.length).sum
/-- Module structures in T1 (R572). -/
def State.t1Structures (s : State) : Nat :=
  2 * s.boot.frameEntries * (320 + 192) + 2 * ((s.pg.frames.map fun e => 16 * e.2.slices.length).sum)
  + s.tableBytes
  + (s.banks.map fun b => 131072 + 8 * (16384 / s.px.widths.getD (b % 8) 2)).sum
  + 4294967296 + s.boot.frameEntries + 196608 * (s.media.openP.length + s.media.redo.length + (s.dieOps.filter fun o => o.2.kind == 1).length)
  + s.weightBytes
  + 2 * (s.ix.pips.map fun e => 32 + 64 * e.2.m).sum
  + 2 * 4194304 + (s.ev.snaps.map fun n => 64 + 16 * n.queues.length + 32 * n.ops.length).sum
  + ((List.range 64).map fun p => s.obj (pIx p 0x21) 5 0 + s.obj (pIx p 0x1C) 2 0).sum
  + (s.lk.contribs.map fun c => (c.parts.map (·.2.length)).sum).sum
/-- T1_POOL_BYTES (R572). -/
def State.t1Pool (s : State) : Nat := s.t1Bytes - s.lentBytes - s.t1Structures

/-- Capacity and occupancy of tier `x` (0, 1, 2). -/
def State.tierCap (s : State) (x : Nat) : Nat := match x with | 0 => s.t0Bytes | 1 => s.t1Pool | _ => s.t2UserBytes
def State.tierUsed (s : State) (x : Nat) : Nat := match x with | 0 => s.t0Used | 1 => s.t1Used | _ => s.t2Used
/-- High and low watermarks of tier `x` in percent (Table 4.6). -/
def State.high (s : State) (x : Nat) : Nat := s.obj 0x1100 (3 + 2 * x) ([90, 95, 97].getD x 97)
def State.low (s : State) (x : Nat) : Nat := s.obj 0x1100 (4 + 2 * x) ([80, 90, 95].getD x 95)
/-- Occupancy is at or above the high watermark. -/
def State.atHigh (s : State) (x : Nat) : Bool := s.tierUsed x * 100 ≥ s.high x * s.tierCap x
/-- T0 or T1 has free space for `n` bytes. -/
def State.room (s : State) (x n : Nat) : Bool := s.tierUsed x + n ≤ s.tierCap x

/-- The copy of tier `x` is valid. -/
def Slice.inTier (l : Slice) (x : Nat) : Bool := match x with | 0 => l.inT0 | 1 => l.inT1 | 2 => l.inT2 | _ => l.inTN
/-- Number of valid copies. -/
def Slice.copies (l : Slice) : Nat := b2n l.inT0 + b2n l.inT1 + b2n l.inT2 + b2n l.inTN

/-- Bytes a copy of tier `x` occupies. -/
def State.copyBytes (s : State) (f : Frame) (layer x : Nat) : Nat :=
  if x = 2 then 16 * ((s.mapEnt f.slot layer).map (·.len)).getD 0 else (s.frameGeo f).sliceBytes

/-- Bytes of the CONDEMNED copies of tier `x`. -/
def State.condBytes (s : State) (x : Nat) : Nat :=
  (s.pg.frames.map fun e => ((e.2.slices.filter fun l => l.2.condemned && l.2.condTier == x).map fun l =>
    s.copyBytes e.2 l.1 x).sum).sum

/-! ### Leases (R144) -/

/-- UP links to module `id`. (log 22, DESIGN CHOICE) -/
def State.linksTo (s : State) (id : Nat) : List Nat :=
  (s.lk.links.filter fun e => e.2.st == .up && e.2.role == 1 && e.2.partner == id).map (·.1)
/-- Bytes of TN copies held under lender slot `k`. -/
def State.leaseUsed (s : State) (k : Nat) : Nat := s.heldBytes fun l => l.heldN && l.lender == k
/-- The extents of TN copies under slot `k`: offset and size. (log 22, DESIGN CHOICE) -/
def State.leaseExtents (s : State) (k : Nat) : List (Nat × Nat) :=
  s.pg.frames.flatMap fun e => (e.2.slices.filter fun l => l.2.heldN && l.2.lender == k).map fun l =>
    (l.2.tnOff, (s.frameGeo e.2).sliceBytes)
/-- A free offset for `n` bytes in lease `k` of `cap` bytes: at a free hint, else after some copy, else at 0.
(log 1, DESIGN CHOICE; log 22, DESIGN CHOICE) -/
def State.leasePlace (s : State) (k cap n : Nat) : Option Nat :=
  let ex := s.leaseExtents k
  let ok := fun a => a + n ≤ cap && ex.all fun e => a + n ≤ e.1 || e.1 + e.2 ≤ a
  (Config.leaseOff s.free % (cap + 1) / 64 * 64 :: 0 :: ex.map fun e => e.1 + e.2).find? ok
/-- The lender slot with room for a slice of `n` bytes, and its offset. -/
def State.tnRoom (s : State) (n : Nat) : Option (Nat × Nat) :=
  s.lk.leases.findSome? fun e =>
    if e.2.revoking ∨ (s.linksTo e.2.partner).isEmpty then none
    else (s.leasePlace e.1 e.2.bytes n).map fun a => (e.1, a)

/-- R118: the copy of tier `x` is the slice's last. -/
def State.lastTier (s : State) (f : Frame) (l : Slice) (x : Nat) : Bool :=
  l.copies == 1 && l.inTier x &&
  match x with
  | 2 => true
  | 3 => bit f.flags fNoFlash
  | 1 => bit f.flags fNoFlash && !(bit f.flags fNeighbour && f.st != .opened &&
    ((l.heldN && !(l.condemned && l.condTier == 3)) || (s.tnRoom (s.frameGeo f).sliceBytes).isSome))
  | _ => false

/-! ### Drops (R134, R135) -/

/-- A slice becomes ABSENT with FILL 0 and no copy (R59). -/
def Slice.gone (l : Slice) : Slice := { st := .absent, version := l.version, lastUse := l.lastUse, lastWrite := l.lastWrite }

/-- Drops slice (fid, layer) for cause 0 AGE, 1 LEASE or 2 FAULT. -/
def State.dropSlice (s : State) (fid layer cause : Nat) : State :=
  match s.frame? fid with
  | none => s
  | some f =>
    if (f.slice layer).st != .present then s else
    let s := s.discard f.slot layer
    let s := { s with tier := { s.tier with wb := s.tier.wb.filter fun w => !(w.fid == fid && w.layer == layer) } }
    let s := (s.modSlice fid layer Slice.gone).touch (.header fid)
    ((s.bump (pIx f.creator 8) 4).bump 0x6040 (7 + cause)).lossBump f.creator (2 + cause)

/-! ### Candidates and pressure (R116, R120, R121) -/

/-- R121. -/
def State.condemnable (s : State) (f : Frame) (l : Slice) (x : Nat) : Bool :=
  l.inTier x && !l.condemned &&
  (x != 1 || (!l.held0 && !(f.pinned && s.ageOf l.lastUse ≤ s.obj 0x1100 10 100))) &&
  (!s.lastTier f l x || f.st != .opened)

/-- A candidate: not HOT first, then ascending LAST_USE, FID, layer (R120). -/
structure Cand where
  hot : Bool
  age : Nat
  fid : Nat
  layer : Nat
  deriving DecidableEq, Repr

/-- The order of R120. -/
def Cand.before (a b : Cand) : Bool :=
  if a.hot != b.hot then b.hot
  else if a.age ≠ b.age then a.age > b.age
  else if a.fid ≠ b.fid then a.fid < b.fid
  else a.layer < b.layer

/-- Insertion by an order. -/
def insBy {α : Type} (lt : α → α → Bool) (a : α) : List α → List α
  | [] => [a]
  | b :: bs => if lt a b then a :: b :: bs else b :: insBy lt a bs
/-- Sorting by an order; equal members keep their places. -/
def sortBy {α : Type} (lt : α → α → Bool) (l : List α) : List α := l.foldr (insBy lt) []

/-- The copies of tier `x` that may be condemned, in the order of R120. -/
def State.candidates (s : State) (x : Nat) : List Cand :=
  sortBy Cand.before <| s.pg.frames.flatMap fun e => (e.2.slices.filter fun l => s.condemnable e.2 l.2 x && s.readersAt e.1 l.1 == 0).map fun l =>
    ⟨bit e.2.flags fHot, s.ageOf l.2.lastUse, e.1, l.1⟩

/-- The pressure flag of tier `x` (R120). -/
def State.pressure (s : State) (x : Nat) : Bool :=
  match x with | 0 => s.tier.pressure0 | 1 => s.tier.pressure1 | _ => s.tier.pressure2
/-- Stores a pressure flag. -/
def State.setPressure (s : State) (x : Nat) (b : Bool) : State :=
  match x with
  | 0 => { s with tier := { s.tier with pressure0 := b } }
  | 1 => { s with tier := { s.tier with pressure1 := b } }
  | _ => { s with tier := { s.tier with pressure2 := b } }

/-- Pressure begins at the high watermark and ends once occupancy less condemned copies is below the low one. -/
def State.updPressure (s : State) (x : Nat) : State :=
  if s.atHigh x then s.setPressure x true
  else if (s.tierUsed x - s.condBytes x) * 100 < s.low x * s.tierCap x then s.setPressure x false else s

/-! ### Leases lent (R511) -/

/-- LEASE_CHANGE (R513): `k` the lender slot, or 0x100 + slot for a lent lease. -/
def State.leaseEvent (s : State) (k change bytes : Nat) : State := s.event 0x0032 { params := [k, change, bytes] }

/-- The type header of a LEND frame (Table 16.11). -/
def lendHdr (kind id term notice bytes : Nat) : Bytes :=
  leBytes 1 kind ++ leBytes 1 id ++ leBytes 2 0 ++ leBytes 4 term ++ leBytes 2 notice ++ leBytes 6 0 ++ leBytes 8 bytes

/-- Queues a LEND frame on link `x`: VL 7, module subscriber. -/
def State.sendLend (s : State) (x kind id term notice bytes : Nat) : State :=
  let f : LFrame := { typ := 8, vl := 7, hdr := lendHdr kind id term notice bytes }
  (s.place (48 + x) 64 7 { len := s.unitLen (48 + x) f.len, frame := some f }).2

/-- The newest lent lease that is not being revoked. -/
def State.newestLent (s : State) : Option (Nat × Lent) :=
  (s.lk.lent.filter fun e => !e.2.revoking).foldl (fun (acc : Option (Nat × Lent)) e => match acc with
    | some a => if e.2.order > a.2.order then some e else some a
    | none => some e) none

/-- Revokes a lent lease: REVOKE with its notice (R511). -/
def State.revokeLent (s : State) (b : Nat) (le : Lent) : State :=
  let s := { s with lk := { s.lk with
    lent := mset s.lk.lent b { le with revoking := true, noticeEnd := s.up + ms le.notice } } }
  let s := match s.linksTo le.partner with
    | x :: _ => s.sendLend x 6 b 0 le.notice 0
    | [] => s
  s.leaseEvent (0x100 + b) 7 le.bytes

/-- Bytes lent under leases not being revoked. -/
def State.lentActive (s : State) : Nat := ((s.lk.lent.filter fun e => !e.2.revoking).map (·.2.bytes)).sum

/-- Some event of R511, item 4, asks for a lent lease back: lending is off, LEND_BYTES is below the bytes lent, or T1, with the
bytes already asked for counted as returned, is at its high watermark. -/
def State.mustRevoke (s : State) : Bool :=
  s.obj 0x1A10 1 0 == 0 || s.obj 0x1A10 2 0 < s.lentActive ||
    s.t1Used * 100 ≥ s.high 1 * (s.t1Pool + (s.lentBytes - s.lentActive))

/-- Revokes the newest lent leases until the event is resolved (R511). -/
def State.lendCheck (s : State) : Nat → State
  | 0 => s
  | n + 1 =>
    match s.newestLent with
    | some (b, le) => if s.mustRevoke then (s.revokeLent b le).lendCheck n else s
    | none => s

/-- A placement that brings a tier to its high watermark puts it under pressure (R120); T1's may ask lent leases back (R511). -/
def State.press (s : State) (x : Nat) : State :=
  if s.atHigh x then (if x = 1 then (s.setPressure 1 true).lendCheck 16 else s.setPressure x true) else s

/-- The first of the given copies whose condemnation brings the occupancy of tier `x`, less its condemned copies and `b` bytes more,
below the low watermark, and those before it. -/
def State.toCondemn (s : State) (x : Nat) : Nat → List Cand → List Cand
  | _, [] => []
  | b, c :: cs =>
    if (s.tierUsed x - s.condBytes x - b) * 100 < s.low x * s.tierCap x then []
    else c :: s.toCondemn x (b + ((s.frame? c.fid).map fun f => s.copyBytes f c.layer x).getD 0) cs

/-- The copies of tier `x` that the ager condemns now. -/
def State.victims (s : State) (x : Nat) : List Cand := s.toCondemn x 0 (s.candidates x)

/-- The flags of a copy of tier `x` that is condemned (Table 4.4). -/
def State.condemnMark (s : State) (fid layer x : Nat) : State :=
  s.modSlice fid layer fun l => { l with condemned := true, condTier := x, condEpoch := s.px.epoch }

/-- R116 for T2, whose copies need no write-back: at its high watermark it first condemns. -/
def State.makeRoom2 (s : State) : State :=
  if s.atHigh 2 then (s.victims 2).foldl (fun s c => s.condemnMark c.fid c.layer 2) (s.setPressure 2 true) else s

/-! ### Write-back (R126-R128, R571) -/

/-- A T2 record of the slice's current version, from the copy a write-back reads. -/
def State.recOf (s : State) (fid : Nat) (f : Frame) (layer : Nat) : Option Rec :=
  let l := f.slice layer
  let g := s.frameGeo f
  let lossy := !g.fp8 && f.st == .sealed && !bit f.flags fExact && !bit f.flags fDurable
  (if l.inT0 then l.t0 else if l.inT1 then l.t1 else l.tn).map fun d =>
    { mkRec g fid layer f.profile s.px.epoch l.version lossy (bit f.flags fDurable) d with stamp := f.stamp }

/-- Sends a slice's T1-form bytes to a lender as LEASE writes (R512). -/
def State.leaseWrite (s : State) (k off sub : Nat) (bs : Bytes) : State :=
  match mget? s.lk.leases k with
  | none => s
  | some le =>
    match s.linksTo le.partner with
    | [] => s
    | x :: _ =>
      ((chunks 8192 (bs.length / 8192 + 1) bs).foldl (fun (st : Nat × State) b =>
        let f : LFrame := { typ := 1, vl := 5, hdr := dataHdr 1 0 0 0 le.id (off + st.1), payload := b }
        (st.1 + b.length, (st.2.place (48 + x) sub 5 { len := st.2.unitLen (48 + x) f.len, frame := some f }).2)) (0, s)).2

/-- Starts or retries the write-back `w`, which runs in class 4: a T0 copy goes to T1, or its T2 record joins the HOST stream in class 4, waits for T2 space (R571), or its
bytes go to a lender. -/
def State.writeBack (s : State) (w : WriteBack) : State :=
  match s.frame? w.fid with
  | none => s
  | some f =>
    let l := f.slice w.layer
    let keep := fun (s : State) (w : WriteBack) => { s with tier := { s.tier with
      wb := (s.tier.wb.filter fun v => !(v.fid == w.fid && v.layer == w.layer)) ++ [w] } }
    let w := { w with version := l.version }
    let n := (s.frameGeo f).sliceBytes
    if w.toT1 then (keep s w).hbmUnits w.fid w.layer f.creator 4 0 n else
    let s := if l.inT1 ∧ !l.inT0 then s.hbmUnits w.fid w.layer f.creator 4 0 n else s
    let tn := if w.demote ∧ bit f.flags fNeighbour ∧ f.st ≠ .opened ∧ !l.heldN then s.tnRoom n else none
    match tn with
    | some (k, off) =>
      let s := { s with free := s.free + 1 }
      let s := s.modSlice w.fid w.layer fun l => { l with heldN := true, lender := k, tnOff := off }
      let d := (if l.inT0 then l.t0 else l.t1).getD []
      (keep s { w with toTN := some k }).leaseWrite k off f.creator (t1Image (s.frameGeo f) d)
    | none =>
      if bit f.flags fNoFlash then s else
      match s.recOf w.fid f w.layer with
      | none => s
      | some r =>
        let s := s.makeRoom2
        if s.t2Room r.len then
          let s := if r.format = 1 then s.bump 0x6040 0x0A else s
          (keep s { w with waitSpace := false }).addRec 0 4 f.creator r
        else keep s { w with waitSpace := true }

/-- R128: the record of a DURABLE write joins the HOST stream in the write's class `c`, or waits for T2 space (R571). -/
def State.offerRec (s : State) (c p : Nat) (r : Rec) : State :=
  let s := s.makeRoom2
  if s.t2Room r.len then s.addRec 0 c p r else { s with media := { s.media with recWait := s.media.recWait ++ [(c, p, r)] } }

/-- Starts a write-back unless one of the slice is under way. -/
def State.startWriteBack (s : State) (fid layer : Nat) (toT1 demote : Bool) : State :=
  if s.tier.wb.any fun v => v.fid == fid && v.layer == layer then
    { s with tier := { s.tier with wb := s.tier.wb.map fun v =>
      if v.fid = fid ∧ v.layer = layer then { v with demote := v.demote || demote } else v } }
  else s.writeBack { fid := fid, layer := layer, version := 0, toT1 := toT1, demote := demote }

/-! ### Condemnation (R116, R122, R123) -/

/-- Condemns the copy of tier `x` (Table 4.4), starting the write-back R122 requires. -/
def State.condemn (s : State) (fid layer x : Nat) : State :=
  match s.frame? fid with
  | none => s
  | some f =>
    let l := f.slice layer
    let s := s.condemnMark fid layer x
    if x = 0 ∧ l.dirtyT1 then s.startWriteBack fid layer true false
    else if (x = 1 ∨ x = 3) ∧ l.dirtyLow ∧ !s.lastTier f l x then s.startWriteBack fid layer false true
    else s

/-- R116: a tier at its high watermark first condemns. -/
def State.makeRoom (s : State) (x : Nat) : State :=
  if s.atHigh x then (s.victims x).foldl (fun s c => s.condemn c.fid c.layer x) (s.setPressure x true) else s

/-! ### Placement (Table 4.3) -/

/-- A slice takes T0 space when T0 has some now (R116). -/
def State.space0 (s : State) (fid layer : Nat) : State :=
  match s.frame? fid with
  | none => s
  | some f =>
    let l := f.slice layer
    if l.held0 ∨ (l.condemned ∧ l.condTier = 0) then s
    else
      let s := s.makeRoom 0
      if s.room 0 (s.frameGeo f).sliceBytes then (s.modSlice fid layer fun l => { l with held0 := true }).press 0 else s

/-- Places a T0 copy of data `d` when T0 has free space now (R116). -/
def State.placeT0 (s : State) (fid layer : Nat) (d : SliceData) : State :=
  (s.space0 fid layer).modSlice fid layer fun l =>
    if l.held0 && !(l.condemned && l.condTier == 0) then { l with t0 := some d, inT0 := true } else l

/-- Places a T1 copy of data `d`, and a T0 copy if HOT, by a read or staging of subscriber `sub` in class `cls` (R116, R119). `false`: not
placed, as between the steps of its free commit (Table 4.4). -/
def State.promote (s : State) (fid layer sub cls : Nat) (d : SliceData) : Bool × State :=
  match s.frame? fid with
  | none => (false, s)
  | some f =>
    let l := f.slice layer
    if l.inT0 ∨ l.inT1 then (true, s)
    else if l.condemned ∧ l.condTier = 1 then (false, s) else
    let none_ := s.atHigh 1 && (s.candidates 1).isEmpty
    let s := if l.held1 then s else s.makeRoom 1
    if l.held1 ∨ (!none_ ∧ s.room 1 (s.frameGeo f).sliceBytes) then
      let s := s.modSlice fid layer fun l => { l with
        t1 := some d, inT1 := true, held1 := true }
      let s := (s.hbmUnits fid layer sub cls 0 (s.frameGeo f).sliceBytes).press 1
      let s := s.bump 0x6040 1
      (true, if bit f.flags fHot then s.placeT0 fid layer d else s)
    else (false, s)

/-- R115, Table 4.4, R570: a read or write pins the slice: LAST_USE is set, a condemned copy still valid revives, and a write
reinstates a T0 or T1 copy between the steps of its free commit. -/
def State.pin (s : State) (fid layer : Nat) (write : Bool) : State :=
  match s.frame? fid with
  | none => s
  | some f =>
    let l := f.slice layer
    let s := s.modSlice fid layer fun l => { l with lastUse := s.px.epoch }
    if !l.condemned then s
    else if l.inTier l.condTier then
      ((s.modSlice fid layer fun l => { l with condemned := false, condEpoch := 0 }).bump 0x6040 5).lossBump f.creator 0x0A
    else if write ∧ l.condTier ≤ 1 then
      (s.modSlice fid layer fun l => { l with
        inT0 := l.inT0 || l.condTier == 0, inT1 := l.inT1 || l.condTier == 1, condemned := false, condEpoch := 0 }).bump 0x6040 6
    else s

/-- The copy a read or write uses in T0 or T1. -/
def Slice.top (l : Slice) : Option SliceData := if l.inT0 then l.t0 else if l.inT1 then l.t1 else none

/-! ### Freeing frames (R96, R125, R197) -/

/-- Frees pips that `sel` selects, and span pips over a block pip freed (R197): counted, columns released; the header record of a public one's
last frame is recorded without it (R199). -/
def State.freePips (s : State) (sel : Pip → Bool) : State :=
  let blocks := (s.ix.pips.filter fun e => sel e.2 && !e.2.level).map (·.2)
  let all := fun (x : Pip) => sel x || (x.level && blocks.any fun b =>
    b.profile == x.profile && b.group == x.group && b.sources.all x.sources.contains)
  let gone := s.ix.pips.filter fun e => all e.2
  if gone.isEmpty then s else
  let s := { s with ix := { s.ix with pips := s.ix.pips.filter fun e => !all e.2 } }
  ((gone.filter fun e => e.2.owner == none).foldl (fun s e => s.touch (.header e.2.last)) s).bump 0x6060 0x0B gone.length

/-- Frees a frame: every copy in every tier, its T2 records, its directory entry and CAM position, its pips and the pip
computations over it (R218). -/
def State.freeFrame (s : State) (fid : Nat) : State :=
  match s.frame? fid with
  | none => s
  | some f =>
    let s := f.slices.foldl (fun s l => s.discard f.slot l.1) s
    let s := { s with
      pg := { s.pg with frames := merase s.pg.frames fid }
      px := { s.px with
        dir := merase s.px.dir fid
        cam := s.px.cam.filter fun e => e.2.fid != fid
        placing := s.px.placing.filter (· != fid)
        refill := s.px.refill.filter (· != fid)
        commits := s.px.commits.filter (· != fid) }
      ix := { s.ix with jobs := s.ix.jobs.filter fun j => !j.fids.contains fid } }
    let s := { s with tier := { s.tier with wb := s.tier.wb.filter fun w => w.fid != fid } }
    let s := s.touch (.header fid)
    let s := if f.keyed then s.touch (.dir fid) else s
    (s.freePips fun p => p.sources.contains fid).bump 0x6030 9

/-! ### Free commits of slice copies (Table 4.4) -/

/-- The write-back a condemned copy needs is done (R122). -/
def State.commitReady (s : State) (f : Frame) (l : Slice) : Bool :=
  match l.condTier with
  | 0 => !l.dirtyT1
  | 2 => true
  | x => !l.dirtyLow || s.lastTier f l x

/-- Step 1, or the single change of a last-tier copy; a copy that has become the last one of an OPEN frame stays CONDEMNED and is not
dropped (R61). (log 39, DEDUCED) -/
def State.commitOne (s : State) (fid layer : Nat) : State :=
  match s.frame? fid with
  | none => s
  | some f =>
    let l := f.slice layer
    if !l.condemned ∨ !l.inTier l.condTier ∨ l.condEpoch = s.px.epoch ∨ !s.commitReady f l then s
    else if s.lastTier f l l.condTier then
      if s.readersAt fid layer = 0 ∧ f.st ≠ .opened then s.dropSlice fid layer 0 else s
    else s.modSlice fid layer fun l => { l with
      inT0 := l.inT0 && l.condTier != 0, inT1 := l.inT1 && l.condTier != 1
      inT2 := l.inT2 && l.condTier != 2, inTN := l.inTN && l.condTier != 3 }

/-- A relocation copy whose original the map no longer names is invalid at once (R171). -/
def State.voidCopy (s : State) (e : MapEnt) : State :=
  { s with media := { s.media with discards := s.media.discards ++ [(e.punnet * 16384 + e.off, 0)] } }

/-- The free commits due at an age tick. -/
def State.commitSlices (s : State) : State :=
  (s.pg.frames.flatMap fun e => (e.2.slices.filter fun l => l.2.condemned).map fun l => (e.1, l.1)).foldl
    (fun s k => s.commitOne k.1 k.2) s

/-- Frees the space of the copy in tier `x`. A T2 copy's record is discarded. (log 39, DEDUCED) -/
def State.freeCopy (s : State) (fid : Nat) (f : Frame) (layer x : Nat) : State :=
  let s := s.modSlice fid layer fun l => { l with condemned := false, condEpoch := 0 }
  match x with
  | 0 => s.modSlice fid layer fun l => { l with t0 := none, held0 := false }
  | 1 => s.modSlice fid layer fun l => { l with t1 := none, held1 := false }
  | 2 => (s.discard f.slot layer).modSlice fid layer fun l => { l with
      dirtyLow := !l.inTN, lossy := false, durableDone := false }
  | _ => s.modSlice fid layer fun l => { l with
      tn := none, heldN := false, lender := 0, dirtyLow := l.dirtyLow || !l.inT2 }

/-- Step 2 of a slice copy (Table 4.4, R570). (log 39, DEDUCED) -/
def State.sliceStep2 (s : State) (fid layer : Nat) : State :=
  match s.frame? fid with
  | none => s
  | some f =>
    let l := f.slice layer
    if !l.condemned ∨ l.inTier l.condTier then s
    else if s.readersAt fid layer = 0 ∨ (l.condTier = 3 ∧ l.tn = none) then s.freeCopy fid f layer l.condTier
    else (s.modSlice fid layer fun l => { l with
      inT0 := l.inT0 || l.condTier == 0, inT1 := l.inT1 || l.condTier == 1
      inT2 := l.inT2 || l.condTier == 2, inTN := l.inTN || l.condTier == 3
      condemned := false, condEpoch := 0 }).bump 0x6040 6

/-- WRITEBACK_COMPLETE (R127): the destination copy of the slice's write-back is valid. (log 39, DEDUCED) -/
def State.endWriteBack (s : State) (fid layer : Nat) : State :=
  match s.tier.wb.find? fun w => w.fid == fid && w.layer == layer, s.frame? fid with
  | some w, some f =>
    let l := f.slice layer
    let done := { s with tier := { s.tier with wb := s.tier.wb.filter fun v => !(v.fid == fid && v.layer == layer) } }
    if w.waitSpace then s
    else if w.toT1 then
      if l.t0.isNone then done
      else if l.version = w.version then
        (done.modSlice fid layer fun l => { l with t1 := l.t0, inT1 := true, held1 := true, dirtyT1 := false }).bump 0x6040 4
      else (done.bump 0x6040 4).startWriteBack fid layer true w.demote
    else match w.toTN with
      | some _ =>
        let s := (done.bump 0x6040 3).bump 0x6040 4
        if l.top.isNone then s.modSlice fid layer fun l => { l with heldN := false, tn := none }
        else if l.version = w.version then
          s.modSlice fid layer fun l => { l with tn := l.top, inTN := true, dirtyLow := false }
        else
          (s.modSlice fid layer fun l => { l with heldN := false, tn := none }).startWriteBack fid layer false w.demote
      | none =>
        if l.inT2 ∧ !l.dirtyLow then (if w.demote then done.bump 0x6040 2 else done).bump 0x6040 4
        else if l.version ≠ w.version then
          ((if w.demote then done.bump 0x6040 2 else done).bump 0x6040 4).startWriteBack fid layer false w.demote
        else s
  | _, _ => s

/-! ### Commits of T2 records (R127, R164, R178) -/

/-- A slice record is committed at `e`: the map switches when its frame is the one it was made for and its VERSION is current, or, for a
relocated record, when the entry still points to its source. Otherwise a relocation copy is invalid at once, and an outdated record is
released by R176 (R171, R178). (log 39, DEDUCED) -/
def State.commitSlice (s : State) (r : Rec) (e : MapEnt) : State :=
  match (s.frame? r.fid).filter fun f => f.stamp == r.stamp with
  | none => if r.src.isSome then s.voidCopy e else s.discardAt (e.punnet * 16384 + e.off)
  | some f =>
    match r.src with
    | some src =>
      match s.mapEnt f.slot r.layer with
      | some old => if old.punnet * 16384 + old.off = src then s.setMap f.slot r.layer (some e) else s.voidCopy e
      | none => s.voidCopy e
    | none =>
      let l := f.slice r.layer
      if l.st != .present ∨ l.version ≠ r.version then s.discardAt (e.punnet * 16384 + e.off) else
      let s := s.discard f.slot r.layer
      let s := s.setMap f.slot r.layer (some e)
      (s.modSlice r.fid r.layer fun l => { l with
        inT2 := true, dirtyLow := false, lossy := r.format == 1, durableDone := true }).press 2

end Sys2Proof.Machine
end

