-- ==== Sys2Proof/Machine/Prefix.lean ====
section
/-! DEFINITION. The prefix store (03_prefix_store.md): salts and domains, the CAM banks, lookups and hits, insertion, and
the removal of keys. -/

namespace Sys2Proof.Machine

/-! ### Share domains (R80-R82) -/

/-- The share-domain entry `d` of a setup. -/
def Setup.domain (u : Setup) (d : Nat) : Domain := mget u.domains d {}
/-- Domain `d` is enabled and counts partition `p` as a member; a private domain has one member (R80, R93). -/
def Setup.member (u : Setup) (d p : Nat) : Bool :=
  if d < 256 then (u.domain d).enabled && bit (u.domain d).members p else d == 0x8000 + p && p < 64
/-- The salt of domain `d` in a setup: written, or derived at the last format (R80, R182). (log 15, DESIGN CHOICE) -/
def State.saltOf (s : State) (u : Setup) (d : Nat) : Nat :=
  let derived := (Config.salt s.boot.formats d).toNat
  if d < 256 then (u.domain d).salt.getD derived else derived

/-! ### The CAM (R85-R88) -/

/-- Width of bank `b` in force. -/
def State.camWidth (s : State) (b : Nat) : Nat := s.px.widths.getD (b % 8) 2
/-- Entry positions and segments of bank `b`. -/
def State.camPositions (s : State) (b : Nat) : Nat := 16384 / s.camWidth b
/-- A row of bank `b` is fenced. -/
def State.rowFenced (s : State) (b r : Nat) : Bool := s.fencedUnit 4 (16384 * b + r)
/-- A position is usable when none of its rows is fenced. -/
def State.camUsable (s : State) (b pos : Nat) : Bool :=
  let u := s.camWidth b
  (List.range u).all fun i => !s.rowFenced b (pos * u + i)
/-- CAM_CAPACITY (R85 over the banks in service). -/
def State.camCapacity (s : State) : Nat :=
  (s.banks.map fun b => s.camPositions b * (s.px.hole - 1) / s.px.hole).sum
/-- R86: the bank of a key: the first in service among the banks its slot falls to in turn (log 12). -/
def State.camBank (s : State) (key : Nat) : Option Nat :=
  (((List.range 896).map fun i => Config.bankMap (bits key 192 12) i % 896).find? s.bankGood).orElse fun _ => s.banks.head?

/-- The order of entries in a bank (R88). -/
def camBefore (u : Nat) (a b : CamEnt) : Bool :=
  if u = 1 then a.key % 2 ^ 64 < b.key % 2 ^ 64
  else if a.domain ≠ b.domain then a.domain < b.domain
  else if a.depth ≠ b.depth then a.depth < b.depth
  else a.key % 2 ^ 64 < b.key % 2 ^ 64

/-- The units a position of width `u` stores match a key sought (Table 3.2). -/
def camMatch (u : Nat) (e : CamEnt) (key domain depth : Nat) : Bool :=
  e.key % 2 ^ 64 == key % 2 ^ 64 &&
  (u == 1 || (e.domain == domain && e.depth == depth &&
    (if u = 2 then bits e.key 64 32 == bits key 64 32
     else bits e.key 64 128 == bits key 64 128 && bits e.key 192 32 == bits key 192 32)))

/-- The valid positions of bank `b` that match, in position order. -/
def State.camHits (s : State) (b key domain depth : Nat) : List CamEnt :=
  ((s.px.cam.filter fun e => e.1 / 16384 == b && camMatch (s.camWidth b) e.2 key domain depth).map (·.2))

/-- A segment: its usable positions with their contents. -/
abbrev Segment := List (Nat × Option CamEnt)

/-- Segment `g` of bank `b`. -/
def State.segment (s : State) (b g : Nat) : Segment :=
  ((List.range s.px.hole).map (· + g * s.px.hole)).filterMap fun p =>
    if s.camUsable b p then some (p, mget? s.px.cam (16384 * b + p)) else none

/-- Free positions of a segment. -/
def segFree (g : Segment) : Nat := (g.filter (·.2.isNone)).length
/-- Entries of a segment. -/
def segEnts (g : Segment) : List CamEnt := g.filterMap (·.2)

/-- R88: `e` at its ordered place, after entries of an equal order; entries between it and the nearest free position, of two equally near
the one above, shift by one. (log 47, DESIGN CHOICE) -/
def segInsert (u : Nat) (e : CamEnt) (g : Segment) : Segment :=
  let ps := g.map (·.1)
  let cs := g.map (·.2)
  let n := cs.foldl (fun (acc : Nat × Nat) c => match c with
    | some x => (acc.1 + 1, if camBefore u e x then acc.2 else acc.1 + 1)
    | none => (acc.1 + 1, acc.2)) (0, 0) |>.2
  let l := cs.take n
  let r := cs.drop n
  let dr := r.findIdx (·.isNone)
  let dl := l.reverse.findIdx (·.isNone)
  let out := if dr < r.length ∧ (dr ≤ dl ∨ dl ≥ l.length) then l ++ some e :: (r.take dr ++ r.drop (dr + 1))
    else
      let f := l.length - 1 - dl
      l.take f ++ l.drop (f + 1) ++ some e :: r
  ps.zip out

/-- The segment without its last entry, and that entry. -/
def segPop (g : Segment) : Option CamEnt × Segment :=
  match g.reverse.find? fun x => x.2.isSome with
  | none => (none, g)
  | some (p, e) => (e, g.map fun x => if x.1 = p then (x.1, none) else x)

/-- The cascade over counted segments: `e` enters the first; a segment left without a free position hands its last entry on. -/
def segCascade (u : Nat) (e : CamEnt) : List Segment → List Segment
  | [] => []
  | g :: gs =>
    let g' := segInsert u e g
    if segFree g' > 0 then g' :: gs
    else match segPop g' with
      | (some x, g'') => g'' :: segCascade u x gs
      | (none, g'') => g'' :: gs

/-- Writes segments back into the bank. -/
def State.setSegments (s : State) (b : Nat) (gs : List Segment) : State :=
  { s with px := { s.px with cam := gs.foldl (fun cam g => g.foldl (fun cam x => match x.2 with
      | some e => mset cam (16384 * b + x.1) e
      | none => merase cam (16384 * b + x.1)) cam) s.px.cam } }

/-- The segment of an entry's ordered place: that of its predecessor in the bank, else that of the first entry, else 0
(log 12). -/
def State.segOf (s : State) (b : Nat) (e : CamEnt) : Nat :=
  let es := s.px.cam.filter fun x => x.1 / 16384 == b
  match (es.filter fun x => !camBefore (s.camWidth b) e x.2).getLast? with
  | some x => x.1 % 16384 / s.px.hole
  | none => match es.head? with
    | some x => x.1 % 16384 / s.px.hole
    | none => 0

/-- LAST_USE of the directory entry of a FID. -/
def State.dirUse (s : State) (fid : Nat) : Nat := ((mget? s.px.dir fid).map (·.lastUse)).getD 0

/-- Places an entry in bank `b` (R88): cascade over at most 8 counted segments, else one key is left out. -/
def State.camPlace (s : State) (b : Nat) (e : CamEnt) : State :=
  let u := s.camWidth b
  let g0 := s.segOf b e
  let counted := ((List.range (s.camPositions b / s.px.hole - g0)).map (· + g0)).filterMap fun g =>
    let sg := s.segment b g
    if sg.length ≥ 2 then some sg else none
  let w := counted.take 8
  if w.any fun g => segFree g ≥ 2 then s.setSegments b (segCascade u e w)
  else
    let cs := sortBy (camBefore u) (e :: w.flatMap segEnts)
    let old := cs.foldl (fun (acc : Option CamEnt) c => match acc with
      | none => some c
      | some a => if s.ageOf (s.dirUse c.fid) > s.ageOf (s.dirUse a.fid) then some c else some a) none
    let s := s.bump 0x6030 0x0C
    match old with
    | none => s
    | some o =>
      if o.fid = e.fid then s
      else s.setSegments b (segCascade u e (w.map fun g => g.map fun x =>
        if x.2.any (·.fid == o.fid) then (x.1, none) else x))

/-- The entries of bank `b` that a fenced row leaves without a proper place (R85, R88): those of a segment with fewer than two usable
positions, and the last of a segment without a free one. -/
def State.misplaced (s : State) (b : Nat) : List CamEnt :=
  (List.range (s.camPositions b / s.px.hole)).flatMap fun i =>
    let g := s.segment b i
    if g.length < 2 then segEnts g else if segFree g = 0 then (segPop g).1.toList else []

/-- After a fence in bank `b` its misplaced entries go where R88 places them. -/
def State.mendBank (s : State) (b : Nat) : State :=
  let es := s.misplaced b
  let out := fun (e : Nat × CamEnt) => e.1 / 16384 == b && es.any (·.fid == e.2.fid)
  let s := { s with px := { s.px with cam := s.px.cam.filter (!out ·) } }
  es.foldl (fun s e => s.camPlace b e) s

/-- Places the key of frame `fid` in its bank, if its entry is VALID and not held there. (log 12, DESIGN CHOICE) -/
def State.placeKey (s : State) (fid : Nat) : State :=
  match mget? s.px.dir fid with
  | some d =>
    if d.st ≠ .valid ∨ s.px.cam.any (fun e => e.2.fid == fid) then s else
    match s.camBank d.key with
    | some b => s.camPlace b { fid := fid, key := d.key, domain := d.domain, depth := d.depth }
    | none => s
  | none => s

/-- Removes a key's CAM position. -/
def State.camDrop (s : State) (fid : Nat) : State :=
  { s with px := { s.px with cam := s.px.cam.filter fun e => e.2.fid != fid } }

/-! ### Lookups and hits (R90, R91) -/

/-- What a lookup seeks. -/
structure Sought where
  key : Nat
  parent : Nat
  toks : List Nat
  domain : Nat
  depth : Nat
  profile : Nat

/-- R90: a directory entry is a hit. -/
def Sought.hits (k : Sought) (d : DirEnt) : Bool :=
  d.st == .valid && d.key == k.key && d.parent == k.parent && d.toks == k.toks && d.domain == k.domain &&
    d.profile == k.profile && d.depth == k.depth

/-- The frame a lookup finds among the CAM's entries, then in the directory, counted. -/
def State.lookedUp (s : State) (cam : List CamEnt) (k : Sought) (absentMiss : Bool) : Option Nat × State :=
  let ok := fun (f : Nat) => match s.frame? f with
    | some fr => !fr.underRecount && !(absentMiss && fr.absent > 0)
    | none => false
  match cam.find? fun e => (mget? s.px.dir e.fid).any k.hits with
  | some e => if ok e.fid then (some e.fid, s.bump 0x6030 3) else (none, s.bump 0x6030 5)
  | none =>
    match s.px.dir.find? fun d => k.hits d.2 with
    | some d => if ok d.1 then (some d.1, s.bump 0x6030 4) else (none, s.bump 0x6030 5)
    | none => (none, s.bump 0x6030 5)

/-- One lookup, counted: the FID hit, or none. A frame under recount counts as a miss (R74), and so does one with ABSENT
slices when the search asks (R92). -/
def State.lookup (s : State) (k : Sought) (absentMiss : Bool) : Option Nat × State :=
  let s := s.bump 0x6030 2
  let cam := match s.camBank k.key with
    | some b => (s.camHits b k.key k.domain k.depth).take 4
    | none => []
  let bad := cam.takeWhile fun e => !(mget? s.px.dir e.fid).any k.hits
  (if bad.isEmpty then s else s.bump 0x6030 6 bad.length).lookedUp cam k absentMiss

/-- A verified hit of partition `p` (R91, Table 3.5): the frame is pinned; a CONDEMNED frame revives. -/
def State.hit (s : State) (p fid : Nat) : State :=
  let e := s.px.epoch
  let s := { s with px := { s.px with dir := mmod s.px.dir fid fun d =>
    { d with lastUse := e, hits := min (2 ^ 32 - 1) (d.hits + 1) } } }
  match s.frame? fid with
  | none => s
  | some f =>
    let s := s.setFrame fid { f with
      refs := f.refs + 1, st := if f.st = .condemned then .sealed else f.st, condEpoch := 0 }
    if f.st = .condemned then (s.bump 0x6030 7).lossBump p 0x0B else s

/-! ### References (R57, R96) -/

/-- A reference or pin is given up: at 0 a keyed frame's LAST_USE is set and a frame without a key is freed. -/
def State.unref (s : State) (fid : Nat) : State :=
  match s.frame? fid with
  | none => s
  | some f =>
    let s := s.setFrame fid { f with refs := f.refs - 1 }
    if f.refs > 1 then s
    else if f.keyed then { s with px := { s.px with dir := mmod s.px.dir fid fun d => { d with lastUse := s.px.epoch } } }
    else s.freeFrame fid

/-! ### Insertion (R94, R95) -/

/-- Inserts a pending key for a sealed frame of `depth` (R94): the directory entry VALID, KEY set, the CAM placement
waiting. A key already VALID or INVALID stops it (R95). -/
def State.insertKey (s : State) (fid : Nat) (k : PendKey) (depth : Nat) : State :=
  match s.frame? fid with
  | none => s
  | some f =>
    if s.px.dir.any fun d => d.2.key == k.key && d.2.st != .inserting then s.bump 0x6030 0x0B
    else
      let d : DirEnt := {
        key := k.key, parent := k.parent, toks := k.toks, domain := f.domain, depth := depth, profile := f.profile
        st := .valid, lastUse := s.px.epoch, hits := 0 }
      let s := { s with px := { s.px with dir := mset s.px.dir fid d, placing := s.px.placing ++ [fid] } }
      (((s.setFrame fid { f with keyed := true }).touch (.dir fid)).touch (.header fid)).bump 0x6030 0x0A

/-- Removes the key of a frame (R105, R107): KEY becomes 0, and a frame with REFCOUNT 0 is freed. -/
def State.dropKey (s : State) (fid : Nat) : State :=
  match s.frame? fid with
  | none => s
  | some f =>
    if f.refs = 0 ∧ !f.underRecount then s.freeFrame fid
    else
      let s := s.camDrop fid
      let s := { s with px := { s.px with
        dir := merase s.px.dir fid, placing := s.px.placing.filter (· != fid), refill := s.px.refill.filter (· != fid), commits := s.px.commits.filter (· != fid) } }
      ((s.setFrame fid { f with keyed := false, condEpoch := 0 }).touch (.dir fid)).touch (.header fid)

/-- Removes every key of domain `d` (R107). The number removed. -/
def State.purge (s : State) (d : Nat) : Nat × State :=
  let fs := (s.px.dir.filter fun e => e.2.domain == d).map (·.1)
  (fs.length, fs.foldl State.dropKey s)

/-! ### Ageing (R100, R101) -/

/-- Step 1 of a frame's free commit: CAM position, then directory entry INVALID. -/
def State.frameStep1 (s : State) (fid : Nat) : State :=
  let s := s.camDrop fid
  { s with px := { s.px with dir := mmod s.px.dir fid fun d => { d with st := .invalid } } }

/-- Step 2 of a frame's free commit for epoch `e`: freed, or the entry VALID again and back in the CAM. (log 39, DEDUCED) -/
def State.frameStep2 (s : State) (fid : Nat) : State :=
  match s.frame? fid, mget? s.px.dir fid with
  | some f, some d =>
    if d.st ≠ .invalid ∨ f.underRecount then s
    else
      let s' := { s with px := { s.px with commits := s.px.commits.filter (· != fid) } }
      if f.refs = 0 ∧ f.st = .condemned ∧ f.condEpoch ≠ 0 ∧ f.condEpoch ≠ s.px.epoch then s'.freeFrame fid
      else
        let s := { s' with px := { s'.px with
          dir := mset s'.px.dir fid { d with st := .valid }, placing := s'.px.placing ++ [fid]
          commits := if f.st = FrameSt.condemned then s'.px.commits ++ [fid] else s'.px.commits } }
        s.bump 0x6030 8
  | _, _ => s

/-- A frame the ager may condemn: SEALED, keyed, REFCOUNT 0, and not under recount (R74). -/
def agerTakes (f : Frame) : Bool := f.st == .sealed && f.keyed && f.refs == 0 && !f.underRecount

/-- Condemns a frame at the current epoch and lists it for the free commit. -/
def State.condemnFrame (s : State) (fid : Nat) : State :=
  let s := s.modFrame fid fun f => { f with st := .condemned, condEpoch := s.px.epoch }
  { s with px := { s.px with commits := s.px.commits.filter (· != fid) ++ [fid] } }

/-- Frames neither FREE nor CONDEMNED. -/
def State.framesKept (s : State) : Nat := (s.pg.frames.filter fun e => e.2.st != .condemned).length

/-- The condemnation of frames at the new epoch (R100). -/
def State.condemnFrames (s : State) : State :=
  let use := fun (f : Nat) => s.dirUse f
  let held := s.pg.frames.filter fun e => agerTakes e.2 && s.ageOf (use e.1) ≥ s.obj 0x1400 2 6000
  let s := held.foldl (fun s e => s.condemnFrame e.1) s
  let more := sortBy (fun (a b : Nat) => if s.ageOf (use a) ≠ s.ageOf (use b) then s.ageOf (use a) > s.ageOf (use b)
    else a < b) ((s.pg.frames.filter fun e => agerTakes e.2).map (·.1))
  more.foldl (fun s f => if s.framesKept * 16 ≥ 15 * s.boot.frameEntries then s.condemnFrame f else s) s

end Sys2Proof.Machine
end

