-- ==== Sys2Proof/Machine/Pages.lean ====
section
/-! DEFINITION. Sequences, page tables, references, frames and slice writes (02_pages.md). -/

namespace Sys2Proof.Machine

/-! ### Sequences -/

/-- Stores a sequence. -/
def State.setSeq (s : State) (n : Nat) (q : Seq) : State := { s with pg := { s.pg with seqs := mset s.pg.seqs n q } }
/-- The sequence `n`, in any state. -/
def State.seq? (s : State) (n : Nat) : Option Seq := mget? s.pg.seqs n

/-- The bytes an operand address names, for operation `o`. -/
def State.operand (s : State) (o : Op) (a n : Nat) : Bytes := s.readAt o.part (s.opPort o) a n

/-- Whether operation `o` reads block `b` of sequence `n` through its page table (R57). -/
def opReads (o : Op) (n b : Nat) : Bool :=
  let d := o.desc
  let f := fld d
  let named := dSeq d == n
  match o.src with
  | .push _ _ => (List.range o.aux).any fun i => batchBlock (pBatch o.arg) (o.pos + i) == some (n, b)
  | .req _ => false
  | .queue =>
    match cmdOf (f 0 1) with
    | some .sliceWrite => named && f 12 4 / 16 ≤ b && b ≤ (f 12 4 + f 16 4 - 1) / 16
    | some .sliceRead => named && f 12 2 ≤ b && b < f 12 2 + f 16 4
    | some .stage => named && f 12 2 ≤ b && b < f 12 2 + f 16 4
    | some .seqFork => named
    | some .inspectFrame => named && f 16 4 ≤ b && b < f 16 4 + f 20 2
    | some .attend =>
      (List.range (hCount o.arg)).any fun j => eSeq (aEntry o.arg j) == n
    | _ => false

/-- Operation `o` names sequence `n` (R39): in its descriptor, an ATTEND's entries, or the batch of a push or pull. -/
def opNames (o : Op) (n : Nat) : Bool :=
  match o.src with
  | .push _ _ => (pBatch o.arg).any fun e => e.1 == n
  | .req _ => false
  | .queue => match cmdOf (fld o.desc 0 1) with
    | some .attend => (List.range (hCount o.arg)).any fun j => eSeq (aEntry o.arg j) == n
    | some .copy | some .seqOpen | some .maskedSearch | some .purgePrivate | some .saveDiscard | some .gather | some .reduce
    | some .collect | some .nop | some .list | none => false
    | some _ => dSeq o.desc == n

/-- Some operation in the OTT names sequence `n` (R39). -/
def State.seqNamed (s : State) (n : Nat) : Bool := s.q.ott.any fun e => opNames e.2 n

/-- The first SEQ from `h` on that is free and named by no operation, within `n` tries. -/
def State.findSeq (s : State) (h : Nat) : Nat → Option Nat
  | 0 => none
  | n + 1 => if mhas s.pg.seqs (h % 2 ^ 24) || s.seqNamed (h % 2 ^ 24) then s.findSeq (h + 1) n else some (h % 2 ^ 24)

/-- A free SEQ (R302), from a free hint. (log 1, DESIGN CHOICE) -/
def State.freeSeq (s : State) : Option (Nat × State) :=
  let (n, s) := s.takeFree
  (s.findSeq (Config.seqHint n) (2 ^ 24)).map fun q => (q, s)

/-! ### References (R56-R58) -/

/-- Tags of operations other than `self` that read block `b` of sequence `n`. -/
def State.readersOf (s : State) (n b : Nat) (self : Option Nat) : List Nat :=
  (s.q.ott.filter fun e => some e.1 != self && e.2.st != .recordWait && opReads e.2 n b).map (·.1)

/-- A RELEASING sequence with no release left becomes FREE. -/
def State.endSeq (s : State) (n : Nat) : State :=
  match s.seq? n with
  | some q =>
    if q.releasing ∧ !(s.pg.releases.any fun r => r.seq == n && !r.lost) then
      ({ s with pg := { s.pg with seqs := merase s.pg.seqs n } }).touch (.seq n)
    else s
  | none => s

/-- A deferred release takes effect (R57), unless its frame is under recount (R74). -/
def State.applyRelease (s : State) (r : Release) : State :=
  if (s.frame? r.fid).any (·.underRecount) then s
  else
    let s := { s with pg := { s.pg with releases := s.pg.releases.erase r } }
    (s.unref r.fid).endSeq r.seq

/-- Gives up the reference of leaf entry `b` of sequence `n` to `fid`: deferred behind earlier readers, else at once. -/
def State.releaseRef (s : State) (n b fid : Nat) (self : Option Nat) : State :=
  let p := ((s.seq? n).map (·.part)).getD 0
  let r : Release := { seq := n, block := b, fid := fid, part := p, waits := s.readersOf n b self }
  let s := { s with pg := { s.pg with releases := s.pg.releases ++ [r] } }
  let s := s.freePips fun x => x.owner == some n && x.sources.contains fid
  if r.waits.isEmpty then s.applyRelease r else s

/-- Releases that wait for no operation any more. -/
def State.dueReleases (s : State) : State :=
  (s.pg.releases.filter fun r => r.waits.isEmpty && !r.lost).foldl State.applyRelease s

/-- The references of leaf entries `ls` of sequence `n`, whose table is lost, are left to the reference recount (R74, R566, R567). -/
def State.loseRefs (s : State) (n : Nat) (ls : Map Leaf) : State :=
  let p := ((s.seq? n).map (·.part)).getD 0
  let rs := (ls.filter fun l => l.2.st != .absent && l.2.fid ≠ 0).map fun l =>
    { seq := n, block := l.1, fid := l.2.fid, part := p, waits := s.readersOf n l.1 none, lost := true : Release }
  { s with pg := { s.pg with releases := s.pg.releases ++ rs } }

/-- The reference recount releases a lost reference by R57. -/
def State.ownRelease (s : State) (r : Release) : State :=
  let v := { r with lost := false }
  let s := { s with pg := { s.pg with releases := s.pg.releases.map fun x => if x = r then v else x } }
  if r.waits.isEmpty then s.applyRelease v else s

/-- FRAMES_HELD of partition `p` (R58). -/
def State.heldFids (s : State) (p : Nat) : List Nat :=
  ((s.pg.seqs.flatMap fun e => if e.2.part = p then (e.2.leaves.filter fun l => l.2.fid ≠ 0).map (·.2.fid) else [])
    ++ (s.pg.releases.filter fun r => r.part == p).map (·.fid)).eraseDups
def State.framesHeld (s : State) (p : Nat) : Nat := (s.heldFids p).length

/-- References of a frame that R74 counts: leaf entries and deferred releases of known holders (no pin outlives its step). -/
def State.refsOf (s : State) (fid : Nat) : Nat :=
  (s.pg.seqs.map fun e => (e.2.leaves.filter fun l => l.2.fid == fid).length).sum
    + (s.pg.releases.filter fun r => r.fid == fid && !r.lost).length

/-! ### Leaf entries -/

/-- Leaf entry `b` as an operation finds it: its own entry, or one whose release still waits for operation `t`. -/
def State.leafFor (s : State) (t : Option Nat) (n b : Nat) : Option Leaf :=
  match (s.seq? n).bind fun q => mget? q.leaves b with
  | some l => some l
  | none => match t with
    | none => none
    | some t => (s.pg.releases.find? fun r => r.seq == n && r.block == b && r.waits.contains t).map fun r =>
      { st := .sealed, fid := r.fid }

/-- Writes leaf entry `b` of sequence `n`. -/
def State.setLeaf (s : State) (n b : Nat) (l : Option Leaf) : State :=
  match s.seq? n with
  | none => s
  | some q =>
    let lv := match l with
      | some l => mset q.leaves b l
      | none => merase q.leaves b
    (s.setSeq n { q with leaves := lv }).touch (.leaf n (b / 256))

/-- Clears or sets SHARED of a leaf entry (R53). -/
def State.setShared (s : State) (n b : Nat) (v : Bool) : State :=
  match (s.seq? n).bind fun q => mget? q.leaves b with
  | some l => if l.shared = v then s else s.setLeaf n b (some { l with shared := v })
  | none => s

/-! ### Frames (R55, R111, R112, R565) -/

/-- A FID not in use, from a free hint. -/
def State.freeFid (s : State) : Option (Nat × State) :=
  let (n, s) := s.takeFree
  let h := 1 + Config.fidHint n % 4294967294
  ((mfree s.pg.frames h (4294967295 - h)).orElse fun _ => mfree s.pg.frames 1 (h - 1)).map fun f => (f, s)

/-- The lowest free frame slot. -/
def State.freeSlot (s : State) : Nat :=
  ((List.range (s.pg.frames.length + 1)).find? fun i => !(s.pg.frames.any fun f => f.2.slot == i)).getD 0

/-- Pinned bytes of partition `p` (R112). -/
def State.pinnedBytes (s : State) (p : Nat) : Nat :=
  ((s.pg.frames.filter fun f => f.2.creator == p && f.2.pinned).map (·.2.pinBytes)).sum

/-- Flags stored at creation (R111). -/
def State.policyFlags (s : State) (p fl : Nat) : Nat :=
  let fl := if s.obj (pIx p 8) 1 1 = 0 then fl ||| 2 else fl
  if s.obj (pIx p 8) 2 1 = 0 then fl &&& 0x6F else fl

/-- Opens a frame for partition `p` (R55, R112, Table 4.3), REFCOUNT 1, slices NOT_WRITTEN. none: the frame table is full, or
T1 has no free space. -/
def State.openFrame (s : State) (p profile flags domain source : Nat) : Option (Nat × State) :=
  let g := s.geo profile
  if s.pg.frames.length ≥ s.boot.frameEntries then none else
  let s := s.makeRoom 1
  if !s.room 1 g.frameBytes then none else
  match s.freeFid with
  | none => none
  | some (fid, s) =>
    let wants := bit flags fPinned
    let pin := wants && s.pinnedBytes p + g.frameBytes ≤ s.obj (pIx p 8) 3 0
    let s := if wants ∧ !pin then s.bump 0x6040 0x0B else s
    let s := if bit flags fHot then s.makeRoom 0 else s
    let k := if bit flags fHot then (s.t0Bytes - s.t0Used) / (max 1 g.sliceBytes) else 0
    let f : Frame := {
      refs := 1, profile := profile, layers := g.layers, flags := flags, creator := p, domain := domain, source := source
      slot := s.freeSlot, pinned := pin, pinBytes := g.frameBytes, stamp := s.media.metaNo
      slices := (List.range g.layers).map fun i => (i, { held1 := true, held0 := i < k, lastUse := s.px.epoch }) }
    some (fid, (((s.setFrame fid f).touch (.header fid)).press 1).press 0)

/-! ### Sealing (R60, R82) -/

/-- SEALED in every leaf entry that references the frame. -/
def State.sealLeaves (s : State) (fid : Nat) : State :=
  { s with pg := { s.pg with seqs := s.pg.seqs.map fun e => (e.1, { e.2 with
      leaves := e.2.leaves.map fun l => if l.2.fid = fid then (l.1, { l.2 with st := .sealed }) else l }) } }

/-- Drops a pending key of a sequence. -/
def State.dropPend (s : State) (n : Nat) (sel : Nat → Bool) : State :=
  match s.seq? n with
  | some q => if q.pend.any fun e => sel e.1 then s.setSeq n { q with pend := q.pend.filter fun e => !sel e.1 } else s
  | none => s

/-- Seals frame `fid` by a write of sequence `n` into block `b`, under setup `u`. The block's pending key is used up, also by a seal
that R82 keeps from inserting it (log 47, DESIGN CHOICE). -/
def State.sealFrame (s : State) (u : Setup) (n b fid : Nat) : State :=
  match s.frame? fid, s.seq? n with
  | some f, some q =>
    let s := ((s.setFrame fid { f with st := .sealed }).sealLeaves fid).touch (.leaf n (b / 256))
    let s := if !bit f.flags fShareable then s
      else if f.domain < 256 ∧ !u.member f.domain q.part then s.bump 0x6030 0x0F
      else match mget? q.pend b with
        | some k => s.insertKey fid k b
        | none => s
    s.dropPend n (· == b)
  | _, _ => s

/-! ### Slice writes (R59, R62, R63) -/

/-- Data an operation has read of a slice: its status and rows. -/
def Op.gotOf (o : Op) (fid layer : Nat) : Option (Nat × SliceData) :=
  (o.got.find? fun g => g.1 == fid && g.2.1 == layer).map fun g => (g.2.2.1, g.2.2.2)

/-- The outcome of one slice write. -/
inductive WOut where
  | done (s : State) (fid : Nat)
  | fail (status : Nat) (s : State)
  | wait (s : State)
  | need (ks : List (Nat × Nat)) (s : State)

/-- What one slice write writes, for which operation. -/
structure WArg where
  tag : Nat
  op : Op
  setup : Setup
  seq : Nat
  block : Nat
  layer : Nat
  r0 : Nat
  rows : List Row
  flags : Nat

/-- R59, Table 4.3: the rows stored in the slice's copy `base`, FILL set; other copies are no longer current. -/
def Slice.store (l : Slice) (hot : Bool) (base : SliceData) (r0 : Nat) (rows : List Row) (t e : Nat) : Slice :=
  let d := base.take r0 ++ rows
  let l := { l with
    fill := r0 + rows.length, st := .present, version := l.version + 1, lastUse := e, lastWrite := t
    inT2 := false, lossy := false, durableDone := false, dirtyLow := true, tn := none, inTN := false
    heldN := l.heldN && l.condemned && l.condTier == 3 }
  if l.inT0 then { l with t0 := some d, dirtyT1 := true, inT1 := false }
  else
    let l := { l with t1 := some d, inT1 := true, held1 := true }
    if hot && l.held0 then { l with t0 := some d, inT0 := true } else l

/-- R128: the record of a DURABLE write of slice (fid, layer) is offered to T2. -/
def State.durableRecord (s : State) (c p fid layer : Nat) : State :=
  match (s.frame? fid).bind fun f => s.recOf fid f layer with
  | none => s
  | some r => s.offerRec c p r

/-- Applies the rows to slice (fid, layer), whose base rows are at hand: FILL, LENGTH, counters, seal, durable record. -/
def State.applyRows (s : State) (a : WArg) (fid : Nat) (base : SliceData) (refill : Bool) : State :=
  match s.frame? fid with
  | none => s
  | some f =>
    let p := a.op.part
    let hot := bit f.flags fHot
    let s := if hot then s.space0 fid a.layer else s
    let s := s.modSlice fid a.layer fun l =>
      let l := l.store hot base a.r0 a.rows s.px.epoch s.px.epoch
      if refill then { l with refillAt := some s.q.fetchNo } else l
    let s := s.press 1
    let s := if refill then (s.bump 0x6020 2).lossBump p 5 else s
    let s := s.lossBump p 1
    let e := 16 * a.block + a.r0 + a.rows.length
    let s := match s.seq? a.seq with
      | some q => if q.length < e ∨ bit f.flags fDurable then (s.setSeq a.seq { q with length := max q.length e }).touch (.seq a.seq) else s
      | none => s
    let s := s.touch (.header fid)
    let s := match s.frame? fid with
      | some f => if f.st = .opened ∧ f.fill = 16 then s.sealFrame a.setup a.seq a.block fid else s
      | none => s
    if bit f.flags fDurable then (s.touch (.leaf a.seq (a.block / 256))).durableRecord a.op.cls p fid a.layer else s

/-- The rows below `r0` of the slice, for a write in place: from T0 or T1, or as read for the operation. -/
def State.writeInto (s : State) (a : WArg) (fid : Nat) (refill : Bool) : WOut :=
  match s.frame? fid with
  | none => .fail stBad s
  | some f =>
    let s := s.pin fid a.layer true
    let l := s.sliceOf fid a.layer
    let spaced := fun (s : State) (base : SliceData) =>
      if l.held1 ∨ l.held0 then WOut.done (s.applyRows a fid base refill) fid
      else
        let s := s.makeRoom 1
        if s.room 1 (s.frameGeo f).sliceBytes then .done (s.applyRows a fid base refill) fid else .wait s
    if l.st ≠ .present ∨ a.r0 = 0 then spaced s []
    else match l.top with
      | some d => spaced s d
      | none => match a.op.gotOf fid a.layer with
        | some (0, d) => spaced s d
        | some (st, _) => .fail st s
        | none => .need [(fid, a.layer)] s

/-- A slice of the copy that R63 makes of slice `l`, given its rows. -/
def cowSlice (l : Slice) (d : SliceData) (r0 e : Nat) (new : Slice) : Slice :=
  let k := min l.fill r0
  if l.st = .absent then { new with st := .absent }
  else if l.st = .present ∧ k > 0 then { new with
    st := .present, fill := k, t1 := some (d.take k), inT1 := true, dirtyLow := true, lastUse := e
    t0 := if new.held0 then some (d.take k) else none, inT0 := new.held0 }
  else new

/-- R63: copy-on-write of `fid` for the writer, then the write into the copy; a row read in vain ends it (R75). -/
def State.copyOnWrite (s : State) (a : WArg) (fid : Nat) : WOut :=
  match s.frame? fid with
  | none => .fail stBad s
  | some f =>
    let p := a.op.part
    let need := f.slices.filter fun l =>
      l.2.st == .present && min l.2.fill a.r0 > 0 && l.2.top.isNone && (a.op.gotOf fid l.1).isNone
    if !need.isEmpty then .need (need.map fun l => (fid, l.1)) s
    else
      let bad := f.slices.findSome? fun l =>
        if l.2.st == .absent || (l.2.st == .present && min l.2.fill a.r0 > 0 && l.2.top.isNone) then
          match a.op.gotOf fid l.1 with
          | some (0, _) => none
          | some (st, _) => some st
          | none => none
        else none
      match bad with
      | some st => .fail st s
      | none =>
        let own := (s.pg.seqs.any fun e => e.2.part == p && e.2.leaves.any fun l =>
          l.2.fid == fid && !(e.1 == a.seq && l.1 == a.block))
        if own ∧ s.framesHeld p + 1 > (a.setup.prot p).quota then .fail stProt s
        else
          match s.openFrame p f.profile f.flags f.domain fid with
          | none => .wait (s.makeRoom 1)
          | some (nf, s) =>
            let s := f.slices.foldl (fun s l =>
              let d := (l.2.top.orElse fun _ => (a.op.gotOf fid l.1).map (·.2)).getD []
              s.modSlice nf l.1 (cowSlice l.2 d a.r0 s.px.epoch)) s
            let s := (s.setLeaf a.seq a.block (some { st := .opened, fid := nf })).bump 0x6020 1
            let s := s.releaseRef a.seq a.block fid (some a.tag)
            s.writeInto a nf ((s.sliceOf nf a.layer).st == .absent)

/-- One slice write by Table 2.6; a write that found its slice uncorrectable ends with that status (R75). (log 39, DEDUCED) -/
def State.writeSlice (s : State) (a : WArg) : WOut :=
  let p := a.op.part
  match (s.seq? a.seq).bind fun q => (mget? q.leaves a.block).bind fun l => if l.st = .absent then none else some l with
  | none =>
    if a.r0 ≠ 0 then .fail stBad s
    else if s.framesHeld p + 1 > (a.setup.prot p).quota then .fail stProt s
    else
      match s.seq? a.seq with
      | none => .fail stProt s
      | some q =>
        match s.openFrame p ((s.bound p q.slot).getD 0) (s.policyFlags p a.flags) q.domain 0 with
        | none => .wait (s.makeRoom 1)
        | some (fid, s) => (s.setLeaf a.seq a.block (some { st := .opened, fid := fid })).writeInto a fid false
  | some lf =>
    match s.frame? lf.fid with
    | none => .fail stAbsent s
    | some f =>
      let l := f.slice a.layer
      let r1 := a.r0 + a.rows.length
      let found := ((a.op.gotOf lf.fid a.layer).map (·.1)).getD 0
      if f.underRecount then .fail stAbsent s
      else if l.st = .absent ∧ a.r0 > 0 ∧ found ≠ 0 then .fail found s
      else if f.st = .opened then
        if a.r0 > l.fill then .fail stBad s
        else if f.refs = 1 then (s.setShared a.seq a.block false).writeInto a lf.fid (l.st == .absent)
        else s.copyOnWrite a lf.fid
      else if l.st = .absent then
        if a.r0 = 0 ∧ r1 = 16 then
          (if f.refs = 1 then s.setShared a.seq a.block false else s).writeInto a lf.fid true
        else .fail stBad s
      else if a.r0 = 0 ∧ r1 = 16 ∧ l.refillAt.any (· > a.op.fetchNo) then .done (s.bump 0x6020 3) lf.fid
      else s.copyOnWrite a lf.fid

/-! ### Ends and truncations (R304, R77) -/

/-- Makes the leaf entries of a sequence at and above block `b` EMPTY, releasing their references; how many. -/
def State.cutLeaves (s : State) (n b : Nat) (self : Option Nat) : Nat × State :=
  match s.seq? n with
  | none => (0, s)
  | some q =>
    let gone := q.leaves.filter fun l => l.1 ≥ b
    let refs := gone.filter fun l => l.2.st != .absent && l.2.fid ≠ 0
    let s := gone.foldl (fun s l => s.setLeaf n l.1 none) s
    (refs.length, refs.foldl (fun s l => s.releaseRef n l.1 l.2.fid self) s)

/-- Ends a sequence: RELEASING, every reference released, pending keys discarded; FREE once no release is left. -/
def State.discardSeq (s : State) (n : Nat) (self : Option Nat) : Nat × State :=
  match s.seq? n with
  | none => (0, s)
  | some q =>
    let s := (s.setSeq n { q with releasing := true, pend := [] }).touch (.seq n)
    let (k, s) := s.cutLeaves n 0 self
    let s := s.freePips fun x => x.owner == some n
    (k, s.endSeq n)

end Sys2Proof.Machine
end

