-- ==== Sys2Proof/Machine/Reads.lean ====
section
/-! DEFINITION. Slice reads of operations: from T0 and T1 at once, from T2 and TN by reads that end later (Table 4.3, R168,
R508, R512). -/

namespace Sys2Proof.Machine

/-- A read of slice (fid, layer) for operation `t` ended with status `st` (0: data `d` came). (log 6, DEDUCED) -/
def State.arrive (s : State) (t fid layer st : Nat) (d : SliceData) : State :=
  match s.op? t with
  | none => s
  | some o =>
    let here := fun (a : Ask) => a.fid == fid && a.layer == layer
    match o.asks.find? here with
    | none => s
    | some a =>
      let bad := if a.bad ≠ 0 then a.bad else st
      if a.left > 1 then
        s.setOp t { o with asks := o.asks.map fun x => if here x then { x with left := a.left - 1, bad := bad } else x }
      else
        let asks := o.asks.filter fun x => !here x
        s.setOp t { o with
          asks := asks, got := o.got ++ [(fid, layer, bad, d)]
          st := if asks.isEmpty ∧ o.st = .reading then .ready else o.st }

/-- The type header of a REQ frame (Table 16.8). -/
def reqHdr (kind colour part queue sel rtag value first count addr : Nat) : Bytes :=
  leBytes 1 (kind + 16 * colour) ++ leBytes 1 part ++ leBytes 1 queue ++ leBytes 1 sel ++ leBytes 2 rtag ++ leBytes 2 value
    ++ leBytes 4 first ++ leBytes 4 count ++ leBytes 8 addr

/-- Sends LEASE_READ requests for `n` bytes from offset `off`, up to 8,192 B each, on VL 5 (R508, R512). -/
def State.leaseAsk (s : State) (t : Option Nat) (x id k fid layer sub : Nat) (ver : BitVec 16) (base : Nat) : Nat → Nat → State
  | 0, _ => s
  | fuel + 1, n =>
    if n = 0 then s else
    let c := min 8192 n
    let (h, s) := s.takeFree
    let h := Config.rtagHint h % 65536
    match (mfree s.lk.reads h (65536 - h)).orElse fun _ => mfree s.lk.reads 0 h with
    | none => s
    | some rt =>
      let off := base
      let f : LFrame := { typ := 2, vl := 5, hdr := reqHdr 7 0 0 0 id rt 0 0 c off }
      let rd : LeaseRd := { tag := t, fid := fid, layer := layer, version := ver, slot := k, off := off, total := c, link := x }
      let s := { s with lk := { s.lk with reads := mset s.lk.reads rt rd } }
      let s := (s.place (48 + x) sub 5 { len := s.unitLen (48 + x) f.len, frame := some f }).2
      s.leaseAsk t x id k fid layer sub ver (base + c) fuel (n - c)

/-- Reads the TN copy of a slice over the lender's lowest UP link. -/
def State.readTN (s : State) (t : Option Nat) (fid layer : Nat) : State :=
  match s.frame? fid with
  | none => s
  | some f =>
    let l := f.slice layer
    match mget? s.lk.leases l.lender with
    | none => s
    | some le =>
      match s.linksTo le.partner with
      | [] => s
      | x :: _ =>
        let n := (s.frameGeo f).sliceBytes
        let s := s.leaseAsk t x le.id l.lender fid layer f.creator l.version l.tnOff (n / 8192 + 1) n
        match t.bind s.op? with
        | some o => s.setOp (t.getD 0) { o with asks := o.asks ++ [{ fid := fid, layer := layer, left := 1 }] }
        | none => s

/-- Operation `t` pins a slice it finds in T0 or T1 (R115). -/
def State.holdSlice (s : State) (t : Nat) (k : Nat × Nat) : State :=
  match s.op? t with
  | some o => if o.pins.contains k then s else (s.setOp t { o with pins := o.pins ++ [k] }).pin k.1 k.2 false
  | none => s

/-- Looks at the slices of `ks` for operation `t`: those in T0 or T1 are pinned, and those in T2 or TN only that it has neither asked for
nor got are read. `false`: a map lookup must wait (R166). (log 6, DEDUCED) -/
def State.askSlices (s : State) (t c colour : Nat) : List (Nat × Nat) → Bool × State
  | [] => (true, s)
  | k :: ks =>
    match s.op? t, s.frame? k.1 with
    | some o, some f =>
      let l := f.slice k.2
      let known := (o.asks.any fun a => a.fid == k.1 && a.layer == k.2) || (o.gotOf k.1 k.2).isSome
      if known ∨ l.st ≠ .present then s.askSlices t c colour ks
      else if l.top.isSome then (s.holdSlice t k).askSlices t c colour ks
      else if l.inTN then ((s.pin k.1 k.2 false).readTN (some t) k.1 k.2).askSlices t c colour ks
      else if l.inT2 then
        match (s.pin k.1 k.2 false).issueRead (some t) o.part c colour k.1 f.slot k.2 with
        | (true, s) => s.askSlices t c colour ks
        | (false, s) => (false, s)
      else s.askSlices t c colour ks
    | _, _ => s.askSlices t c colour ks

/-- Reads what operation `t` needs from T2 and TN: `true` when nothing is out and it can go on now. -/
def State.fetchSlices (s : State) (t c colour : Nat) (ks : List (Nat × Nat)) : Bool × State :=
  match s.askSlices t c colour ks with
  | (false, s) => match s.op? t with
    | some o => (false, s.setOp t { o with st := .mapWait })
    | none => (false, s)
  | (true, s) => match s.op? t with
    | some o => if o.asks.isEmpty then (true, s) else (false, s.setOp t { o with st := .reading })
    | none => (true, s)

/-- What an operation finds of a slice: data, zeros of a block or slice never written, or a status. -/
inductive Found where
  | data (d : SliceData)
  | zero
  | status (st : Nat)

/-- The slice of a layer behind a leaf entry, for operation `o`: from its top copy, or as read for it. -/
def State.findSlice (s : State) (o : Op) (lf : Option Leaf) (layer : Nat) : Found :=
  match lf with
  | none => .zero
  | some lf =>
    if lf.st = .absent then .status stAbsent else
    match s.frame? lf.fid with
    | none => .status stAbsent
    | some f =>
      let l := f.slice layer
      if f.underRecount then .status stAbsent else
      match l.st with
      | .notWritten => .zero
      | .absent => match o.gotOf lf.fid layer with
        | some (st, d) => if st = 0 then .data d else .status st
        | none => .status stAbsent
      | .present => match l.top with
        | some d => .data d
        | none => match o.gotOf lf.fid layer with
          | some (0, d) => .data d
          | some (st, _) => .status st
          | none => .status stAbsent

/-- Counts one slice demand and how it ended (R482). (log 39, DEDUCED) -/
def State.demand (s : State) (p : Nat) (f : Found) : State :=
  let s := s.lossBump p 6
  match f with
  | .status st => if st = stMedia then s.lossBump p 8 else if st = stLease then s.lossBump p 9
    else if st = stAbsent then s.lossBump p 7 else s
  | _ => s

/-- A promoting read or staging brought the data of version `v` from T2 or TN: a T1 copy is placed if the slice still holds
that version and has none (Table 4.3). -/
def State.promoteRead (s : State) (fid layer sub cls : Nat) (v : BitVec 16) (d : SliceData) : State :=
  match s.frame? fid with
  | none => s
  | some f =>
    let l := f.slice layer
    if l.st = .present ∧ l.version = v ∧ l.top.isNone then (s.promote fid layer sub cls d).2 else s

/-! ### Operand traffic of an operation -/

/-- Reads operand bytes of operation `o`, with PCIe read requests for HOST space. -/
def State.readIn (s : State) (o : Op) (colour a n : Nat) : Bytes × State :=
  (s.operand o a n, if spaceOf a = 0 then s.pcieUnits o.part (s.opPort o) o.cls colour 1 n else s)

/-- Writes result or data bytes of operation `t`, with `via` through rind cores (R29): how many frames await acknowledgement, whether
some were discarded. -/
def State.writeOutVia (s : State) (via : Bool) (t : Nat) (o : Op) (colour a : Nat) (bs : Bytes) : Nat × Bool × State :=
  let k := s.opPort o
  let s := if spaceOf a = 0 then s.pcieVia via o.part k o.cls colour 0 bs.length else s
  s.writeVia via o.part k o.cls colour (some t) a bs

/-- As `writeOutVia`, past no rind core. -/
def State.writeOut (s : State) (t : Nat) (o : Op) (colour a : Nat) (bs : Bytes) : Nat × Bool × State :=
  s.writeOutVia false t o colour a bs

/-- Ends operation `t` after its last write: LINK_DOWN when frames were discarded (R346, R316). -/
def State.finishOut (s : State) (t status detail progress acks : Nat) (cut : Bool) : State :=
  if cut then s.finishOp t stLinkDown 0 progress 0 acks [] else s.finishOp t status detail progress 0 acks []

/-- As `finishOut`, for a command whose PROGRESS counts what is wholly written (Table 9.1): `units` holds, for each unit written, the
frames placed up to its end. (log 20, DEDUCED) -/
def State.finishUnits (s : State) (t status acks : Nat) (cut : Bool) (units : List Nat) : State :=
  let s := match s.op? t with
    | some o => s.setOp t { o with frames := acks, units := units }
    | none => s
  s.finishOut t status 0 units.length acks cut

end Sys2Proof.Machine
end

