-- ==== Sys2Proof/Machine/Pips.lean ====
section
/-! DEFINITION. Pips before their vectors (06_relevance_index.md): index geometry, keys and lookups, the computations in flight and what
they read, columns and the batches of the arrays. -/

namespace Sys2Proof.Machine

/-! ### Profiles' index geometry (R192-R195) -/

/-- m and G of profile `n`. -/
def State.ixM (s : State) (n : Nat) : Nat := s.obj (0x1600 + n) 1 1
def State.ixG (s : State) (n : Nat) : Nat := s.obj (0x1600 + n) 2 4
/-- PROJ of profile `n`. -/
def State.proj (s : State) (n : Nat) : Bytes := s.blobOf (0x1600 + n) 3
/-- PROJ_BYTES. -/
def State.projBytes (s : State) (n : Nat) : Nat := (s.geo n).layers * 64 * s.ixM n * (s.geo n).wk * 2
/-- The layers of group γ. -/
def State.groupLayers (s : State) (n y : Nat) : List Nat :=
  let g := s.ixG n
  ((List.range g).map (· + y * g)).filter (· < (s.geo n).layers)

/-! ### Keys and lookups (R196-R198) -/

/-- The FIDs of an item of sequence `n` (a pip block or, with `span`, a span) when every leaf entry is SEALED. -/
def State.itemFids (s : State) (n : Nat) (span : Bool) (item : Nat) : Option (List Nat) :=
  let k := if span then 256 else 16
  (s.seq? n).bind fun q =>
    let ls := (List.range k).filterMap fun i => (mget? q.leaves (k * item + i)).bind fun l =>
      if l.st = .sealed then some l.fid else none
    if ls.length = k then some ls else none

/-- The source check (R197). (log 40, DEDUCED) -/
def sourceCheck (fs : List Nat) : Nat := crc32c (fs.flatMap (leBytes 4))

/-- The key of a pip over the frames `fs` (R197). -/
def pipKey (pf : Nat) (span : Bool) (y : Nat) (fs : List Nat) : PipKey :=
  { profile := pf, span := span, group := y, last := fs.getLastD 0, check := sourceCheck fs }

/-- The key of a stored pip. -/
def Pip.key (p : Pip) : PipKey := { profile := p.profile, span := p.level, group := p.group, last := p.last, check := p.check }

/-- The pip of key `k` that sequence `n` may use: a public one or a private one of its own. -/
def State.keyedPip (s : State) (n : Nat) (k : PipKey) : Option (Nat × Pip) :=
  s.ix.pips.find? fun e => e.2.key == k && (e.2.owner == none || e.2.owner == some n)

/-- The pip that serves an item of sequence `n` in layer group γ of profile `pf`. -/
def State.pipOf (s : State) (n pf y : Nat) (span : Bool) (item : Nat) : Option (Nat × Pip) :=
  (s.itemFids n span item).bind fun fs => s.keyedPip n (pipKey pf span y fs)

/-- A pip of sequence `q` in layer group `y` may be computed now. -/
def State.pipAllowed (s : State) (q : Seq) (y : Nat) : Bool :=
  let pf := (s.bound q.part q.slot).getD 0
  !q.releasing && (s.bound q.part q.slot).isSome && !(s.proj pf).isEmpty && !s.boot.stone && !s.suppressed q.part &&
    decide (s.obj (pIx q.part 0x18) 2 16384 ≤ q.length) && !(s.groupLayers pf y).isEmpty

/-- The slices a computation reads: those of a pip block in its layer group; a span's is made of its block pips (R194). -/
def State.jobSlices (s : State) (k : PipKey) (fs : List Nat) : List (Nat × Nat) :=
  if k.span then [] else (s.groupLayers k.profile k.group).flatMap fun l => fs.map fun f => (f, l)

/-- A block's slices are all there, none of them ABSENT; a span's block pips are (R196). -/
def State.pipSources (s : State) (n : Nat) (k : PipKey) (fs : List Nat) : Bool :=
  if k.span then (List.range 16).all fun i =>
    (s.keyedPip n (pipKey k.profile false k.group ((fs.drop (16 * i)).take 16))).isSome
  else (s.jobSlices k fs).all fun e => (s.frame? e.1).any fun f => (f.slice e.2).st == .present

/-- What sequence `n` needs a pip for in one item: its key and frames, when the item has its sources (R196). -/
def State.pipNeed (s : State) (n : Nat) (q : Seq) (span : Bool) (item y : Nat) : Option (PipKey × List Nat) :=
  if !s.pipAllowed q y then none else
  (s.itemFids n span item).bind fun fs =>
    let k := pipKey ((s.bound q.part q.slot).getD 0) span y fs
    if s.pipSources n k fs then some (k, fs) else none

/-! ### Computations in flight (R196, R218) -/

/-- Reads the slices of `ks` for a pip in class 4: those still to be read once a map page has been loaded. -/
def State.pipReads (s : State) : List (Nat × Nat) → List (Nat × Nat) × State
  | [] => ([], s)
  | k :: ks =>
    let r : Bool × State := match s.frame? k.1 with
      | none => (true, s)
      | some f =>
        let l := f.slice k.2
        if l.st ≠ .present ∨ l.inT0 then (true, s)
        else if l.inT1 then (true, s.hbmUnits k.1 k.2 64 4 0 (s.frameGeo f).sliceBytes)
        else if l.inTN then (true, s.readTN none k.1 k.2)
        else s.issueRead none 64 4 0 k.1 f.slot k.2
    let w := r.2.pipReads ks
    (if r.1 then w.1 else k :: w.1, w.2)

/-- Begins the computation of a pip for an item of sequence `n`. -/
def State.pipBegin (s : State) (n : Nat) (q : Seq) (item : Nat) (k : PipKey) (fs : List Nat) : State :=
  let w := s.pipReads (s.jobSlices k fs)
  { w.2 with ix := { w.2.ix with
    jobs := w.2.ix.jobs ++ [{ part := q.part, seq := n, item := item, key := k, fids := fs, todo := w.1 }] } }

/-- A lookup of sequence `n`: it finds a pip, waits for a computation in flight, or begins one (R196, R218). -/
def State.pipLook (s : State) (n : Nat) (q : Seq) (item : Nat) (k : PipKey) (fs : List Nat) : State :=
  let new := !s.ix.looks.contains (n, item, k)
  let s := if new then { s with ix := { s.ix with looks := s.ix.looks ++ [(n, item, k)] } } else s
  if (s.keyedPip n k).isSome ∨ s.ix.jobs.any (·.key == k) then (if new then s.bump 0x6060 0x0A else s)
  else s.pipBegin n q item k fs

/-- The items of sequence `q` with a leaf entry, pip blocks or spans. -/
def Seq.items (q : Seq) (span : Bool) : List Nat := (q.leaves.map fun l => l.1 / (if span then 256 else 16)).eraseDups

/-- Looks up every item of sequence `n`, pip blocks before spans. -/
def State.pipLooks (s : State) (n : Nat) (q : Seq) (span : Bool) : State :=
  let pf := (s.bound q.part q.slot).getD 0
  if (s.proj pf).isEmpty then s else
  let g := s.ixG pf
  (List.range (((s.geo pf).layers + g - 1) / g)).foldl (fun s y =>
    (q.items span).foldl (fun s item => match s.pipNeed n q span item y with
      | some (k, fs) => s.pipLook n q item k fs
      | none => s) s) s

/-- Slices of computations whose map page was being loaded are asked for again. -/
def State.pipRetry (s : State) : State :=
  s.ix.jobs.foldl (fun s j => if j.todo.isEmpty then s else
    let w := s.pipReads j.todo
    { w.2 with ix := { w.2.ix with jobs := w.2.ix.jobs.map fun x => if x == j then { j with todo := w.1 } else x } }) s

/-- Computations that `sel` selects are abandoned. -/
def State.dropJobs (s : State) (sel : PipJob → Bool) : State :=
  { s with ix := { s.ix with jobs := s.ix.jobs.filter fun j => !sel j } }

/-! ### Columns (R205, R208) -/

/-- Array `a`'s state. -/
def State.anArray (s : State) (a : Nat) : AnArray := mget s.ix.arrays a {}
/-- Stores an array. -/
def State.setArray (s : State) (a : Nat) (v : AnArray) : State :=
  { s with ix := { s.ix with arrays := mset s.ix.arrays a v } }
/-- Stores a pip. -/
def State.setPip (s : State) (i : Nat) (p : Pip) : State := { s with ix := { s.ix with pips := mset s.ix.pips i p } }
/-- The pip whose part lies in column (a, c). -/
def State.columnPip (s : State) (a c : Nat) : Option (Nat × Pip) := s.ix.pips.find? fun e => e.2.cols.contains (a, c)

/-- The lowest free column of the array set of `m` arrays that begins with array `m·k`; columns of `spare` count as free, the column
`ban` does not (R205). -/
def State.setColumn (s : State) (m : Nat) (spare : List (Nat × Nat)) (ban : Option (Nat × Nat)) (k : Nat) : Option (List (Nat × Nat)) :=
  let as := (List.range m).map (· + k * m)
  if as.all (fun a => s.arrayGood a && (s.anArray a).st != 3) then
    ((List.range 4096).find? fun c => as.all fun a => s.columnGood a c && ban != some (a, c) &&
      ((s.columnPip a c).isNone || spare.contains (a, c))).map fun c => as.map fun a => (a, c)
  else none

/-- The array sets that hold pips of the same span (or, for span pips, of the same sequence) and layer group as `p` (R205). -/
def State.kinSets (s : State) (p : Pip) : List Nat :=
  (s.ix.pips.filterMap fun e =>
    if e.2.home = p.home ∧ e.2.profile = p.profile ∧ e.2.group = p.group ∧ e.2.m = p.m then e.2.cols.head?.map (·.1 / p.m) else none).eraseDups

/-- Free columns for pip `p`: in an array set that holds its kin where one has room, else in the first that has (R205). Placement affects
time only. (log 12, DESIGN CHOICE) -/
def State.freeColumns (s : State) (p : Pip) (spare : List (Nat × Nat)) (ban : Option (Nat × Nat)) : Option (List (Nat × Nat)) :=
  (s.kinSets p ++ List.range (3584 / p.m)).findSome? (s.setColumn p.m spare ban)

/-- R208: the public pips with columns whose source frames all have REFCOUNT 0, in ascending order of LAST_USE; among equals the lowest
pip number comes first (log 47, DESIGN CHOICE). -/
def State.sparePips (s : State) : List (Nat × Pip) :=
  sortBy (fun (a b : Nat × Pip) => s.ageOf a.2.lastUse > s.ageOf b.2.lastUse)
    (s.ix.pips.filter fun e => e.2.owner == none && !e.2.cols.isEmpty && e.2.sources.all fun f => (s.frame? f).all fun fr => fr.refs == 0)

/-- Pip `i` gives up its columns: it is COMPUTED. -/
def State.unplace (s : State) (i : Nat) : State :=
  match mget? s.ix.pips i with
  | some p => s.setPip i { p with st := 1, cols := [], passed := [], again := [] }
  | none => s

/-- Pip `i` takes free columns, if there are any. -/
def State.placeFree (s : State) (i : Nat) (ban : Option (Nat × Nat)) : State :=
  match mget? s.ix.pips i with
  | none => s
  | some p =>
    if !p.cols.isEmpty then s else
    match s.freeColumns p [] ban with
    | some cs => s.setPip i { p with cols := cs }
    | none => s

/-- Gives pip `i` columns (R205, R208): as few pips as it takes give up theirs when none is free. -/
def State.placePip (s : State) (i : Nat) (ban : Option (Nat × Nat)) : State :=
  let s := s.placeFree i ban
  match mget? s.ix.pips i with
  | none => s
  | some p =>
    if !p.cols.isEmpty then s else
    let sp := s.sparePips
    match (List.range sp.length).findSome? fun k =>
        let v := sp.take (k + 1)
        (s.freeColumns p (v.flatMap (·.2.cols)) ban).map fun cs => (v.map (·.1), cs) with
    | some (v, cs) => (v.foldl State.unplace s).setPip i { p with cols := cs }
    | none => s.bump 0x6060 0x12

/-! ### Batches (R206, R215) -/

/-- Parts that wait for programming on array `a`: (pip, part, column). -/
def State.waitingParts (s : State) (a : Nat) : List (Nat × Nat × Nat) :=
  s.ix.pips.flatMap fun e =>
    ((List.range e.2.cols.length).zip e.2.cols).filterMap fun c =>
      let due := if e.2.st = 3 then e.2.again.contains c.1 else !e.2.passed.contains c.1
      if c.2.1 = a ∧ due then some (e.1, c.1, c.2.2) else none

/-- Array `a` runs a batch. -/
def AnArray.busy (v : AnArray) : Bool := !v.batch.isEmpty || !v.refRun.isEmpty

/-- Starts the next batch of array `a`, of up to 64 columns (R206), due reference columns among them (R215). -/
def State.startBatch (s : State) (a : Nat) : State :=
  let v := s.anArray a
  let ws := (s.waitingParts a).take 64
  let rs := v.refWait.take (64 - ws.length)
  if v.st ≠ 0 ∨ v.busy ∨ (ws.isEmpty ∧ rs.isEmpty) then s
  else
    let s := s.setArray a { v with batch := ws, refRun := rs, refWait := v.refWait.drop rs.length }
    ws.foldl (fun s w => match mget? s.ix.pips w.1 with
      | some p => if p.st = 3 then s else s.setPip w.1 { p with st := 2 }
      | none => s) s

/-- Starts batches on the arrays of a pip. -/
def State.startFor (s : State) (i : Nat) : State :=
  match mget? s.ix.pips i with
  | some p => p.cols.foldl (fun s c => s.startBatch c.1) s
  | none => s

/-- Pips without columns take free ones and are set to be programmed, in the background (R220, R222). -/
def State.placeWaiting (s : State) : State :=
  ((s.ix.pips.filter fun e => e.2.cols.isEmpty).map (·.1)).foldl (fun s i => (s.placeFree i none).startFor i) s

/-- The index's part of an age tick: lookups whose keys no longer stand are forgotten, and items without a pip are looked up; the module
does so at each tick (log 48, DESIGN CHOICE). -/
def State.indexTick (s : State) : State :=
  let stands := fun (e : Nat × Nat × PipKey) => (s.itemFids e.1 e.2.2.span e.2.1).any fun fs =>
    pipKey e.2.2.profile e.2.2.span e.2.2.group fs == e.2.2
  let s := { s with ix := { s.ix with looks := s.ix.looks.filter stands } }
  let s := s.pipRetry
  let s := s.pg.seqs.foldl (fun s e => s.pipLooks e.1 e.2 false) s
  let s := s.pg.seqs.foldl (fun s e => s.pipLooks e.1 e.2 true) s
  s.placeWaiting

end Sys2Proof.Machine
end

