-- ==== Sys2Proof/Machine/Fences.lean ====
section
/-! DEFINITION. What a link-down, a lost lease and a fence do (R32, R33, R441, R476, R477, R512, R519). -/

namespace Sys2Proof.Machine

/-! ### Links -/

/-- Link `n`. -/
def State.link (s : State) (n : Nat) : Link := mget s.lk.links n {}
/-- Stores a link. -/
def State.setLink (s : State) (n : Nat) (l : Link) : State := { s with lk := { s.lk with links := mset s.lk.links n l } }
/-- Adds to counter `sub` of link `n` (Table 16.21). -/
def State.linkCount (s : State) (n sub : Nat) (k : Nat := 1) : State := s.bump (lIx n 2) sub k

/-- The units on their way to port `x`, each with its subscriber and class: in its leaves, and behind rind-core work (R29). -/
def State.portUnits (s : State) (x : Nat) : List (Nat × Nat × TUnit) :=
  (s.tm.leaves.flatMap fun e => if schedPort (e.1 / 520) = x then
    (e.2.q ++ e.2.wait).map fun u => (e.1 / 8 % 65, e.1 % 8, u) else []) ++
  ((s.rindSeg (portSeg x)).run.toList ++ (s.rindSeg (portSeg x)).q).filterMap fun w =>
    match w.unit with
    | some (sc, u) => if schedPort sc = x then some (w.sub, w.cls, u) else none
    | none => none

/-- Takes the units of port `x` that `sel` selects by subscriber off their queues. -/
def State.takeUnits (s : State) (x : Nat) (sel : Nat → TUnit → Bool) : State :=
  let leaf := fun (e : Nat × LeafQ) => if schedPort (e.1 / 520) = x then
    (e.1, { e.2 with q := e.2.q.filter (!sel (e.1 / 8 % 65) ·), wait := e.2.wait.filter (!sel (e.1 / 8 % 65) ·) }) else e
  let gone := fun (w : RindWork) => w.unit.any fun v => schedPort v.1 == x && sel w.sub v.2
  let r := s.rindSeg (portSeg x)
  let strip := fun (w : RindWork) => if gone w then { w with unit := none } else w
  let s := { s with tm := { s.tm with leaves := s.tm.leaves.map leaf } }
  if !(r.run.toList ++ r.q).any gone then s
  else s.setRind (portSeg x) { r with run := r.run.map strip, q := r.q.filter (!gone ·) }

/-- Discards every unit on its way to port `x` that `sel` selects by subscriber: DROPPED_OTHER with loss subindex `n`, or DROPPED_RESET
for 3 (R346, R349). A program or erase that a reset discards is placed anew by the flash media manager (R161, R189).
(log 46, DEDUCED) -/
def State.dropUnits (s : State) (x n : Nat) (sel : Nat → TUnit → Bool) : State :=
  let gone := (s.portUnits x).filter fun u => sel u.1 u.2.2
  if gone.isEmpty then s else
  let s := gone.foldl (fun s u => s.countDrop x u.1 u.2.1 n) (s.takeUnits x sel)
  let again := if n = 3 then gone.filterMap fun u => u.2.2.dieOp.filter (·.2.kind != 0) else []
  again.foldl (fun s e => (s.place x 64 e.2.cls { len := 1, dieOp := some e }).2) s

/-- Tags of operations with units on port `x`. -/
def State.unitTags (s : State) (x : Nat) : List Nat := (s.portUnits x).filterMap (·.2.2.tag)
/-- Frames queued on port `x`. -/
def State.unitFrames (s : State) (x : Nat) : List LFrame := (s.portUnits x).filterMap (·.2.2.frame)

/-- The partition whose journal a SINK frame on link `n` carries a record of. -/
def State.recordOf (s : State) (n : Nat) (f : LFrame) : Option Nat :=
  if f.typ ≠ 1 ∨ fld f.hdr 0 1 % 4 ≠ 0 ∨ f.payload.length ≠ 32 then none else
  let a := fld f.hdr 8 6
  (s.q.queues.find? fun e => e.2.binding == 2 && e.2.link == n && offOf e.2.cjBase.toNat ≤ a &&
    a < offOf e.2.cjBase.toNat + 32 * 2 ^ e.2.cjLog2).map fun e => e.1 / 64

/-- Plan `n` of partition `p`. -/
def State.plan (s : State) (p n : Nat) : Plan := mget s.tier.plans (8 * p + n) {}
/-- Stores a plan's run state. -/
def State.setPlan (s : State) (p n : Nat) (v : Plan) : State :=
  { s with tier := { s.tier with plans := mset s.tier.plans (8 * p + n) v } }
/-- Removes job `no` of a plan. -/
def State.endJob (s : State) (p n no : Nat) : State :=
  let v := s.plan p n
  s.setPlan p n { v with jobs := v.jobs.filter fun j => j.no != no }

/-! ### Pushes cut by a link-down (R142, R149) -/

/-- LAYER_END of a job on its links that are UP, with `bad` slices not delivered (R142, R509). (log 38, DEDUCED) -/
def State.layerEnd (s : State) (p n : Nat) (j : PlanJob) (bad : Nat) : State :=
  let hdr := leBytes 1 3 ++ leBytes 1 p ++ leBytes 1 n ++ leBytes 1 0 ++ leBytes 2 j.pos ++ leBytes 2 0 ++ leBytes 4 bad
    ++ leBytes 12 0
  let f : LFrame := { typ := 9, vl := pPushClass j.plan, hdr := hdr }
  (j.links.eraseDups.filter fun x => (s.link x).st == .up).foldl (fun s x =>
    (s.place (48 + x) p (pPushClass j.plan) { len := s.unitLen (48 + x) f.len, frame := some f }).2) s

/-- The blocks, of `z` bytes each from sink address `base` on, that SINK frames `fs` carry bytes of. -/
def cutBlocks (base z : Nat) (fs : List LFrame) : List Nat :=
  if z = 0 then [] else (fs.flatMap fun f =>
    let a := fld f.hdr 8 6 - base
    (List.range ((a + f.payload.length - 1) / z + 1 - a / z)).map (· + a / z)).eraseDups

/-- A push or pull cut by a link-down ends LINK_DOWN with the slices not delivered, those of the cut frames `fs` among them, as PROGRESS; its
other links get LAYER_END. (log 38, DEDUCED) -/
def State.cutPush (s : State) (t : Nat) (o : Op) (n pos : Nat) (fs : List LFrame) : State :=
  let gone := cutBlocks (pBase o.arg pos) (s.pSize o.part o.arg) fs
  match (s.plan o.part n).jobs.find? fun j => j.tag == some t with
  | some j =>
    let bad := (j.absent ++ j.other ++ gone).eraseDups.length
    ((s.layerEnd o.part n j bad).endJob o.part n j.no).endOp t stLinkDown 0 bad 0
  | none => s.endOp t stLinkDown 0 (o.progress + gone.length) 0

/-! ### Leases and links -/

/-- A slice whose condemned copy of tier `x` is gone is condemned no longer (Table 4.2). -/
def Slice.uncond (l : Slice) (x : Nat) : Slice :=
  if l.condemned && l.condTier == x then { l with condemned := false, condEpoch := 0 } else l

/-- A TN copy is given up, or its space: a write-back on its way to it is done elsewhere where R122 requires it; the copy is released
where another copy is current, else its slice is dropped with cause LEASE. -/
def State.loseTN (s : State) (fid layer : Nat) : State :=
  let l := s.sliceOf fid layer
  let mine := fun (w : WriteBack) => w.fid == fid && w.layer == layer && w.toTN.isSome
  let again := s.tier.wb.any mine
  let s := { s with tier := { s.tier with wb := s.tier.wb.filter (!mine ·) } }
  if !l.inTN then
    let s := s.modSlice fid layer fun l => ({ l with heldN := false, tn := none } : Slice).uncond 3
    if again then s.startWriteBack fid layer false true else s
  else if l.inT0 ∨ l.inT1 ∨ l.inT2 then
    s.modSlice fid layer fun l => ({ l with
      inTN := false, heldN := false, tn := none, dirtyLow := l.dirtyLow || !l.inT2 } : Slice).uncond 3
  else s.dropSlice fid layer 1

/-- The slices with a TN copy or its space under slot `k`. -/
def State.heldUnder (s : State) (k : Nat) : List (Nat × Nat) :=
  s.pg.frames.flatMap fun e => (e.2.slices.filter fun l => l.2.heldN && l.2.lender == k).map fun l => (e.1, l.1)

/-- Ends the lease of slot `k`: its copies given up, reads of them ending with status `st`, change code recorded. -/
def State.endLease (s : State) (k st change : Nat) : State :=
  match mget? s.lk.leases k with
  | none => s
  | some le =>
    let s := (s.heldUnder k).foldl (fun s x => s.loseTN x.1 x.2) s
    let rds := s.lk.reads.filter fun r => r.2.slot == k
    let s := { s with lk := { s.lk with
      leases := merase s.lk.leases k, reads := s.lk.reads.filter fun r => r.2.slot != k } }
    let s := rds.foldl (fun s r => match r.2.tag with
      | some t => s.arrive t r.2.fid r.2.layer st []
      | none => s) s
    s.leaseEvent k change le.bytes

/-- A REVOKING lease without copies ends: RELEASED is sent (Table 16.12). -/
def State.leaseCheck (s : State) (k : Nat) : State :=
  match mget? s.lk.leases k with
  | some le =>
    if le.revoking ∧ (s.heldUnder k).isEmpty then
      let s := match s.linksTo le.partner with
        | x :: _ => s.sendLend x 7 le.id 0 0 0
        | [] => s
      s.endLease k stLease 4
    else s
  | none => s

/-- R145, R512: the lease becomes REVOKING, its notice ending at `e`; copies current elsewhere are released, the others
read, newest use first. -/
def State.revokeLease (s : State) (k e : Nat) : State :=
  match mget? s.lk.leases k with
  | none => s
  | some le =>
    if le.revoking then s else
    let s := { s with lk := { s.lk with leases := mset s.lk.leases k { le with revoking := true, noticeEnd := e } } }
    let s := s.leaseEvent k 3 le.bytes
    let hs := sortBy (fun (a b : Nat × Nat) =>
      let x := s.sliceOf a.1 a.2
      let y := s.sliceOf b.1 b.2
      if x.dirtyLow != y.dirtyLow then x.dirtyLow else s.ageOf x.lastUse < s.ageOf y.lastUse) (s.heldUnder k)
    let s := hs.foldl (fun s x =>
      let l := s.sliceOf x.1 x.2
      if !l.inTN ∨ l.inT0 ∨ l.inT1 ∨ l.inT2 then s.loseTN x.1 x.2 else s.readTN none x.1 x.2) s
    s.leaseCheck k

/-- The entry status vector of an ATTEND (R228), written at STATUS_ADDR. (log 29, DEDUCED) -/
def State.putStatuses (s : State) (t : Nat) (o : Op) (colour : Nat) : Nat × Bool × State :=
  s.writeOut t o colour (fld o.arg 56 8) (o.ents.map fun e => BitVec.ofNat 8 e.st)

/-- Save `v` is the live save `id` of partition `p`. -/
def Save.isLive (v : Save) (p id : Nat) : Bool := v.part == p && v.id == id && !v.gone
/-- The live save `id` of partition `p`. -/
def State.save? (s : State) (p id : Nat) : Option Save := s.att.saves.find? fun v => v.isLive p id
/-- Frees save `id` of partition `p` (R246): backwards dispatched before keep what they read of it. (log 29, DEDUCED) -/
def State.freeSave (s : State) (p id : Nat) : State :=
  let free := fun (v : Save) => if v.isLive p id then (if v.readers.isEmpty then none else some { v with gone := true }) else some v
  { s with att := { s.att with saves := s.att.saves.filterMap free } }
/-- Backward `t` of save `id` of partition `p` has been dispatched (R254). -/
def State.takeSave (s : State) (t p id : Nat) : State :=
  let take := fun (v : Save) => if v.isLive p id then { v with readers := v.readers ++ [t] } else v
  { s with att := { s.att with saves := s.att.saves.map take } }
/-- The save that backward `t` reads. -/
def State.takenSave (s : State) (t : Nat) : Option Save := s.att.saves.find? fun v => v.readers.contains t
/-- Backward `t`, which named save `id` of partition `p`, has completed: the save is freed (R246). -/
def State.leaveSave (s : State) (t p id : Nat) : State :=
  let leave := fun (v : Save) => if v.readers.contains t then
      (let rs := v.readers.filter (· != t)
       if rs.isEmpty then none else some { v with readers := rs, gone := true }) else some v
  if (s.takenSave t).isSome then { s with att := { s.att with saves := s.att.saves.filterMap leave } } else s.freeSave p id

/-- The save that forward `t` made holds no data for entry `e` (R255). -/
def State.saveLose (s : State) (t p id e : Nat) : State :=
  let lose := fun (v : Save) => if v.isLive p id ∧ v.maker = t then { v with
    entries := ((List.range v.entries.length).zip v.entries).map fun x =>
      if x.1 = e then { x.2 with held := false, blocks := [], stats := [], probs := none } else x.2 } else v
  { s with att := { s.att with saves := s.att.saves.map lose } }

/-- An ATTEND whose output a link-down cut: entries DONE or LOW_CONFIDENCE become LINK_DOWN (R255). (log 29, DEDUCED) -/
def State.cutAttend (s : State) (t : Nat) (o : Op) : State :=
  let hit := fun (e : AttEnt) => e.st == 0 || e.st == stLow
  let bad := (List.range o.ents.length).filter fun i => hit (o.ents.getD i {})
  let s := if hSave o.arg then bad.foldl (fun s i => s.saveLose t o.part (hSaveId o.arg) i) s else s
  let o := { o with ents := o.ents.map fun e => if hit e then { e with st := stLinkDown } else e }
  let s := (s.setOp t o).putStatuses t o 0
  s.2.2.endOp t stPartial 0 o.progress o.durable

/-- The status of an entry of ATTEND `o` that is stopped with `st` (R256, R257): under RESTART every entry not yet DONE has it; else an undecided
one ends `st` once the entries are begun and NOT_STARTED before, where `hard` (a reset), NOT_STARTED in any case otherwise, and
one whose output had begun to leave ends ABORTED. -/
def stopEntry (o : Op) (st : Nat) (hard : Bool) (e : AttEnt) : Nat :=
  if st = stRestart then (if e.st = stDone then stDone else stRestart)
  else if e.st = 0xFF then (if hard ∧ o.pos = 2 then st else stNotStarted)
  else if o.st = .finishing ∧ isSuccess e.st then stAborted else e.st

/-- A forward that is stopped leaves a save without data for the entries `bad` (R255); one not filled yet holds none for any. -/
def State.stopSave (s : State) (t : Nat) (o : Op) (bad : List Nat) : State :=
  let a := o.arg
  let empty := (List.range (hCount a)).map fun e =>
    { seq := eSeq (aEntry a e), qrows := eRows (aEntry a e), held := false : SaveEnt }
  let fill := fun (v : Save) => if v.isLive o.part (hSaveId a) ∧ v.maker = t ∧ v.entries.isEmpty then { v with entries := empty } else v
  if hSave a ∧ o.pos ≥ 1 then
    bad.foldl (fun s i => s.saveLose t o.part (hSaveId a) i) { s with att := { s.att with saves := s.att.saves.map fill } }
  else s

/-- Stops ATTEND `t`: its entries end as `stopEntry` says, the status vector is written, and a backward frees the save it names (R246). -/
def State.stopAttend (s : State) (t : Nat) (o : Op) (st : Nat) (hard : Bool) (detail : Nat := 0) : State :=
  let ents := (if o.ents.isEmpty then List.replicate (hCount o.arg) {} else o.ents).map fun e => { e with st := stopEntry o st hard e }
  let s := s.stopSave t o ((List.range ents.length).filter fun i => !isSuccess (ents.getD i {}).st)
  let s := if hBack o.arg then s.leaveSave t o.part (hSaveId o.arg) else s
  let o := { o with ents := ents }
  let w := (s.setOp t o).putStatuses t o 0
  w.2.2.endOp t st detail (ents.filter fun e => e.st != stNotStarted).length o.durable

/-- Stops operation `t` with status `st` and its progress; `hard` by a reset. -/
def State.stopOp (s : State) (t st : Nat) (hard : Bool) (detail : Nat := 0) : State :=
  match s.op? t with
  | none => s
  | some o =>
    if o.st = .recordWait then s
    else if isAttend o then s.stopAttend t o st hard detail
    else s.endOp t st detail o.done o.durable

/-- An operation, of whose frames a link-down cut `fs`, ends LINK_DOWN with its progress (R149, R255, R316). -/
def State.endLinkDown (s : State) (t : Nat) (fs : List LFrame) : State :=
  match s.op? t with
  | none => s
  | some o =>
    if o.st = .recordWait then s
    else match o.src with
      | .push n pos => s.cutPush t o n pos fs
      | _ => if cmdOf (fld o.desc 0 1) = some .attend then s.cutAttend t o else s.endOp t stLinkDown 0 o.done o.durable

/-- Reads of TN copies whose requests went over link `n` end LINK_DOWN; those of a revocation are asked again. -/
def State.cutReads (s : State) (n : Nat) : State :=
  let rds := s.lk.reads.filter fun r => r.2.link == n
  let s := { s with lk := { s.lk with reads := s.lk.reads.filter fun r => r.2.link != n } }
  rds.foldl (fun s r => match r.2.tag with
    | some t => s.arrive t r.2.fid r.2.layer stLinkDown []
    | none => s.readTN none r.2.fid r.2.layer) s

/-- R519: link `n` goes down for `reason` into state `st`. -/
def State.linkDown (s : State) (n reason : Nat) (st : LinkSt) : State :=
  let l := s.link n
  let frames := l.replay.map (·.f) ++ s.unitFrames (48 + n)
  let sent := (l.replay.filterMap fun f => f.tag.map fun t => (t, f.f)) ++
    (s.portUnits (48 + n)).filterMap fun u => u.2.2.tag.bind fun t => u.2.2.frame.map fun f => (t, f)
  let tags := (l.replay.filterMap (·.tag) ++ s.unitTags (48 + n)).eraseDups
  let qs := (s.q.queues.filter fun e => e.2.binding == 2 && e.2.link == n).map (·.1)
  let ps := (qs.map (· / 64)).eraseDups
  let fresh := fun (s : State) (p : Nat) =>
    let pt := mget s.part.parts p {}
    { s with part := { s.part with parts := mset s.part.parts p { pt with fresh := true } } }
  let s := ps.foldl fresh s
  let s := s.setLink n { l with
    st := st, reason := reason, since := s.up, held := [], replay := [], replaying := false, ackDue := none, nakAt := none
    eqLanes := [] }
  let s := frames.foldl (fun s f => match s.recordOf n f with
    | some p => s.putResetRecord p f.payload
    | none => s) s
  let s := s.dropUnits (48 + n) (if reason = 7 then 4 else 5) fun _ _ => true
  let s := tags.foldl (fun s t => s.endLinkDown t ((sent.filter (·.1 == t)).map (·.2))) s
  let s := qs.foldl (fun s q => s.flushQueue q 4) s
  let cut := fun (c : Contrib) => c.links.contains n && (c.parts.map (·.2.length)).sum < c.total
  let s := { s with lk := { s.lk with
    contribs := s.lk.contribs.filter (!cut ·), offers := merase s.lk.offers n
    asked := if s.lk.asked = some n then none else s.lk.asked } }
  let s := { s with dict := { s.dict with sessions := s.dict.sessions.filter fun x => x.ep != Endpoint.mgmt n } }
  let s := if l.role = 1 then s.lk.leases.foldl (fun s e =>
      if e.2.partner = l.partner ∧ (s.linksTo e.2.partner).isEmpty then s.endLease e.1 stLinkDown 5 else s) s else s
  let s := s.cutReads n
  (s.event 0x0030 { port := 48 + n, unitKind := 0x0D, unit := n, params := [reason] }).linkCount n 0x0D

/-! ### Lost copies (R33, R149, R477) -/

/-- The copy of tier `x` (0 or 1) of a slice is lost; where it was the only one, the slice is dropped (R149). -/
def State.loseCopy (s : State) (fid layer x : Nat) : State :=
  match s.frame? fid with
  | none => s
  | some f =>
    let l := f.slice layer
    if l.inTier x ∧ l.copies = 1 then s.dropSlice fid layer 2
    else if x = 0 then s.modSlice fid layer fun l => ({ l with
      inT0 := false, held0 := false, t0 := none, dirtyT1 := l.dirtyT1 && !l.inT0
      held1 := l.held1 && (l.inT1 || f.st == .opened || !l.dirtyT1) } : Slice).uncond 0
    else if !l.inT1 then s
    else s.modSlice fid layer fun l => ({ l with
      inT1 := false, t1 := none, dirtyT1 := l.inT0, held1 := l.inT0 || f.st == .opened } : Slice).uncond 1

/-- Every copy of tier `x` whose place `sel` selects is lost. -/
def State.loseCopies (s : State) (x : Nat) (sel : Nat → Nat → Bool) : State :=
  (s.pg.frames.flatMap fun e => (e.2.slices.filter fun l => sel e.1 l.1 && (if x = 0 then l.2.held0 else l.2.inT1)).map
    fun l => (e.1, l.1)).foldl (fun s k => s.loseCopy k.1 k.2 x) s

/-- The T2 record of a slice is lost: another copy serves, else the slice is dropped (R180, R181). -/
def State.loseT2 (s : State) (fid layer : Nat) : State :=
  match s.frame? fid with
  | none => s
  | some f =>
    let l := f.slice layer
    if l.inT2 ∧ !(l.inT0 ∨ l.inT1 ∨ l.inTN) then s.dropSlice fid layer 2
    else
      let s := s.setMap f.slot layer none
      s.modSlice fid layer fun l => ({ l with
        inT2 := false, lossy := false, durableDone := false, dirtyLow := l.dirtyLow || (!l.inTN && l.st == .present) } : Slice).uncond 2

/-- The frame in slot `i`. -/
def State.slotFid (s : State) (i : Nat) : Option Nat := (s.pg.frames.find? fun f => f.2.slot == i).map (·.1)

/-! ### Structures lost -/

/-- STRUCTURE_LOST of one structure of KIND `k` (Table 5.4). (log 34, DEDUCED) -/
def State.structLost (s : State) (k : Nat) : State := s.event 0x0042 { params := [k, 1] }

/-- Every block of `bs` of sequence `n` below its LENGTH becomes an ABSENT entry, the others EMPTY (R74, R566).
(log 43, DESIGN CHOICE) -/
def State.rebuildLeaves (s : State) (n : Nat) (bs : List Nat) : State :=
  match s.seq? n with
  | none => s
  | some q =>
    let s := s.loseRefs n (q.leaves.filter fun l => bs.contains l.1)
    bs.foldl (fun s b => s.setLeaf n b (if 16 * b < q.length then some { st := .absent } else none)) s

/-- What the loss of both copies of a structure does. A frame header rebuilt keeps STATE, FLAGS, CREATOR, SHARE_DOMAIN, SOURCE_FID and
KEY (log 47, DESIGN CHOICE). (log 34, DEDUCED; log 43, DESIGN CHOICE) -/
def State.loseStruct (s : State) (x : Lost) : State :=
  match x with
  | .seqRecord n =>
    if (s.seq? n).isNone then s else
    let s := s.loseRefs n (((s.seq? n).map (·.leaves)).getD [])
    let s := { s with pg := { s.pg with seqs := merase s.pg.seqs n } }
    ((s.freePips fun y => y.owner == some n).touch (.seq n)).structLost 1
  | .leafTable n g =>
    if (s.seq? n).isNone then s else (s.rebuildLeaves n ((List.range 256).map fun i => 256 * g + i)).structLost 2
  | .directory n =>
    match s.seq? n with
    | none => s
    | some q =>
      let bs := ((List.range ((q.length + 15) / 16)) ++ q.leaves.map (·.1)).eraseDups
      (s.rebuildLeaves n bs).structLost 2
  | .header fid =>
    match s.frame? fid with
    | none => s
    | some f =>
      let s := (List.range f.layers).foldl (fun s l =>
        if (f.slice l).st = .present then s.dropSlice fid l 2 else s.modSlice fid l fun y => { y with st := .absent }) s
      ((s.modFrame fid fun f => { f with underRecount := true }).touch (.header fid)).structLost 3
  | .dirEntry fid =>
    if (mget? s.px.dir fid).isNone then s
    else ((s.dropKey fid).bump 0x6030 0x0E).event 0x0041 { params := [fid] }
  | .pip i =>
    if !mhas s.ix.pips i then s
    else (s.freePips fun y => some y == mget? s.ix.pips i).bump 0x6060 0x18
  | .eventRing =>
    let n := s.ev.log.length
    (({ s with ev := { s.ev with log := [] } }).bump 0x60B0 3 n).structLost Config.ringKind.toNat
  | .snapshot i =>
    if s.ev.snaps.any (·.id == i) then
      ({ s with ev := { s.ev with snaps := s.ev.snaps.filter fun n => n.id != i } }).bump 0x60B0 6
    else s
  | .mapPage p =>
    let ks := (s.media.map.filter fun e => mapPageOf e.1 == p).map (·.1)
    let s := ks.foldl (fun s k => match s.slotFid (k / 256) with
      | some f => s.loseT2 f (k % 256)
      | none => s) s
    s.structLost 5

/-! ### Metadata and map pages that flash has lost (R166, R180, R181) -/

/-- The structure of a metadata record both of whose copies are lost. -/
def State.loseKey (s : State) (k : MetaKey) : State :=
  match k with
  | .seq n => s.loseStruct (.seqRecord n)
  | .leaf n b => s.loseStruct (.leafTable n b)
  | .header f => s.loseStruct (.header f)
  | .dir f => s.loseStruct (.dirEntry f)
  | .mapPage p => s.loseStruct (.mapPage p)
  | k => s.touch k

/-- Structures whose committed record has no copy left in flash are lost (R181), unless a later record of theirs is on its way. -/
def State.checkMeta (s : State) : State :=
  let gone := s.media.dur.filter fun m => (s.metaCopies m.key).isEmpty
  if gone.isEmpty then s else
  let s := { s with media := { s.media with dur := s.media.dur.filter fun m => !gone.contains m } }
  let later := fun (m : DurMeta) => (s.media.metaPend.any fun e => e.1 == m.key) || s.flying.any fun r => r.key == some m.key
  (gone.filter fun m => m.val != .gone && !later m).foldl (fun s m => s.loseKey m.key) s

/-- The copy of a metadata record at `loc` is no longer one. -/
def State.cutMeta (s : State) (loc : Nat) : State :=
  let cut := fun (p : Punnet) => { p with recs := p.recs.filter fun r => r.off != loc % 16384 }
  { s with media := { s.media with punnets := mmod s.media.punnets (loc / 16384) cut } }
/-- The copy of a metadata record at `loc` is lost. -/
def State.loseMeta (s : State) (loc : Nat) : State := (s.cutMeta loc).checkMeta

/-- Map page `p` has been read, or its contents are known: lookups and staging reads that wait for it go on. -/
def State.pageLoaded (s : State) (p : Nat) : State :=
  let s := match s.cacheSlot p with
    | some (h, c) => s.setCache h { c with load := 2 }
    | none => s
  let ws := s.media.loadWait.filter (·.1 == p)
  let wake := fun (o : Op) => if o.st = .mapWait then { o with st := .ready } else o
  let s := { s with
    media := { s.media with loadWait := s.media.loadWait.filter (·.1 != p) }
    q := { s.q with ott := s.q.ott.map fun e => (e.1, wake e.2) } }
  ws.foldl (fun s w => match s.frame? w.2.2.fid with
    | some f => if (f.slice w.2.2.layer).top.isSome then s
        else (s.issueRead none w.2.2.sub w.2.2.cls w.2.1 w.2.2.fid f.slot w.2.2.layer).2
    | none => s) s

/-- The read `op` of a map page failed: the other copy is read (R181); with both lost, the page is. -/
def State.pageFailed (s : State) (op : DieOp) (p : Nat) : State :=
  let loc := op.punnet * 16384 + op.off
  match (s.metaCopies (.mapPage p)).filter (· != loc) with
  | x :: _ =>
    if op.second then ((s.loseStruct (.mapPage p)).touch (.mapPage p)).pageLoaded p
    else s.dieUnit (pnDie (x / 16384)) op.sub { op with punnet := x / 16384, off := x % 16384, second := true } 0
  | [] => ((s.loseStruct (.mapPage p)).touch (.mapPage p)).pageLoaded p

/-! ### Dies (R180) -/

/-- A die operation whose die is lost: a program goes elsewhere, a read of a map page to the other copy, any other read fails. -/
def State.loseOp (s : State) (o : DieOp) : State :=
  if o.kind = 1 then s.reprogram o
  else if o.kind ≠ 0 then s
  else match o.page, o.tag with
    | some p, _ => s.pageFailed o p
    | none, some t => if o.last then s.arrive t o.fid o.layer stMedia [] else s
    | none, none => s

/-- Die `n` is lost (R180): its records, and its queued operations; programs under way go to other dies. -/
def State.loseDie (s : State) (n : Nat) : State :=
  let d := s.die n
  let mine := fun (_ : Nat) (u : TUnit) => u.dieOp.any fun o => o.1 == n
  let ops := (s.dieOps.filter fun o => o.1 == n).map (·.2)
  let keys := (s.media.map.filter fun e => pnDie e.2.punnet == n).map (·.1)
  let s := s.takeUnits (16 + n / 32) mine
  let s := { s with media := { s.media with
    punnets := s.media.punnets.filter fun p => pnDie p.1 != n
    roots := s.media.roots.filter fun r => r.area != n
    spoiled := s.media.spoiled.filter fun x => pnDie (x.2 / 16384) != n } }
  let s := s.setDie n { d with run := none, susp := none, queue := [] }
  let s := keys.foldl (fun s k => match s.slotFid (k / 256) with
    | some f => s.loseT2 f (k % 256)
    | none => s) s
  ((ops.foldl State.loseOp s).checkMeta).bump 0x6050 0x18

/-- Pips with a column that `sel` selects become COMPUTED and are placed elsewhere (R220). -/
def State.unplacePips (s : State) (sel : Nat → Nat → Bool) : State :=
  let ids := (s.ix.pips.filter fun e => e.2.cols.any fun c => sel c.1 c.2).map (·.1)
  ids.foldl (fun s i => (s.placeFree i none).startFor i) (ids.foldl State.unplace s)

/-- Array `a` becomes FENCED; the change is recorded (R220). -/
def State.fenceArray (s : State) (a : Nat) : State :=
  let v := s.anArray a
  if v.st = 3 then s else
  let s := s.setArray a { v with st := 3, batch := [], refRun := [], refWait := [] }
  let s := (s.unplacePips fun x _ => x == a).bump 0x6060 0x11
  s.event 0x0040 { unitKind := 6, field := pithField (a / 32), unit := a % 32, params := [v.st, 3] }

/-- The valid keys outside the CAM that `sel` selects are to be refilled into their banks (R103, R106). -/
def State.markRefill (s : State) (sel : DirEnt → Bool) : State :=
  let fs := (s.px.dir.filter fun d => d.2.st == .valid && sel d.2 && !(s.px.cam.any fun e => e.2.fid == d.1)).map (·.1)
  { s with px := { s.px with refill := (s.px.refill ++ fs).eraseDups } }

/-- Keys whose bank has changed since `old` are to be refilled (R103). -/
def State.refillMoved (old s : State) : State := s.markRefill fun d => old.camBank d.key != s.camBank d.key

/-- CAM entries whose bank or position is out of service are gone. -/
def State.cleanCam (s : State) : State :=
  let ok := fun (k : Nat) => s.bankGood (k / 16384) && s.camUsable (k / 16384) (k % 16384)
  { s with px := { s.px with cam := s.px.cam.filter fun e => ok e.1 } }

/-! ### Fences (R441, R476) -/

/-- An existing entry names the unit or a unit that contains it (R441). -/
def State.covered (s : State) (kind field unit : Nat) : Bool :=
  let f := (pithFields.findIdx (· == field))
  match kind with
  | 1 => s.fences.any fun d => d.kind == 1 && d.field == field
  | 2 => s.fieldFenced f || s.fencedIn 2 field unit
  | 4 => s.fieldFenced (unit / 16384 / 8) || s.fencedUnit 4 unit
  | 5 => s.fieldFenced f || s.fencedIn 6 field (bits unit 16 5) || s.fencedIn 5 field unit
  | 6 => s.fieldFenced f || s.fencedIn 6 field unit
  | 7 => s.fieldFenced f || s.fencedIn 7 field unit
  | 8 => !s.stackGood (unit / 32) || s.fencedUnit 8 unit
  | 9 => !s.stackGood unit
  | 0xA => !s.dieGood unit
  | 0xB => !s.groupGood unit
  | 0xC => !s.linkGood (unit / 4) || s.fencedUnit 0xC unit
  | 0xD => !s.linkGood unit
  | 3 => s.fencedIn 3 field unit || s.fencedIn 1 field 0
  | 0xE => s.fencedUnit 0xE unit || !s.pcieGood (unit / 16)
  | k => s.fencedUnit k unit

/-- The ports of part `k` of segment `g` (Table 1.2). -/
def segPorts (g k : Nat) : List Nat :=
  let a := stackSegs.findIdx (· == g)
  let b := flashSegs.findIdx (· == g)
  match k with
  | 0 => if a < 16 then [a] else []
  | 1 => if a < 16 then (List.range 8).map fun i => 48 + 8 * a + i else []
  | 2 => if b < 16 then [16 + 2 * b] else []
  | 3 => if b < 16 then [17 + 2 * b] else []
  | 4 => if g = 28 then [176] else if g = 30 then [177] else []
  | _ => []

/-- The traffic-manager ports a fence touches. (log 33, DEDUCED) -/
def fencePorts (kind field unit : Nat) : List Nat :=
  match kind with
  | 1 =>
    let g := segFields.findIdx (· == field)
    if g < 32 then (List.range 5).flatMap (segPorts g) else []
  | 8 => [unit / 32]
  | 9 => [unit]
  | 0xA => [16 + unit / 32]
  | 0xB => [16 + unit]
  | 0xC => [48 + unit / 4]
  | 0xD => [48 + unit]
  | 0xE => [176 + unit / 16]
  | 0xF => segPorts (unit % 256) (unit / 256)
  | _ => []

/-- Adds the entry to the map, or holds it while the map is full (R444). -/
def State.addEntry (s : State) (d : Defect) : State :=
  if s.boot.defects.length < 253952 then { s with boot := { s.boot with defects := s.boot.defects ++ [d], mapSeq := s.boot.mapSeq + 1 } }
  else (({ s with boot := { s.boot with heldFences := s.boot.heldFences ++ [d] } }).bump 0x7200 8).event 0x0062 {}

/-- What lay behind port `x` is lost with its controller; `old` is the state before the fence, whose places held. -/
def State.losePort (old s : State) (x : Nat) : State :=
  match portKind x with
  | 0 => s.loseCopies 1 fun a b => old.stackFor a b == x
  | 1 => (List.range 32).foldl (fun s i => s.loseDie (32 * (x - 16) + i)) s
  | 2 => s.linkDown (x - 48) 7 .fenced
  | _ => s

/-- The data consequences of a fence already in the map (Table 15.8); `old` is the state before it. -/
def State.fenceData (old s : State) (kind field unit : Nat) : State :=
  match kind with
  | 1 =>
    let f := pithFields.findIdx (· == field)
    if f ≥ 112 then (fencePorts kind field unit).foldl old.losePort s else
    let s := s.loseCopies 0 fun a b => old.coreFor a b / 3072 == f
    let s := (List.range 32).foldl (fun s i => if old.arrayGood (32 * f + i) then s.fenceArray (32 * f + i) else s) s
    old.refillMoved s.cleanCam
  | 2 =>
    let f := pithFields.findIdx (· == field)
    s.loseCopies 0 fun a b => old.coreFor a b == 3072 * f + unit
  | 4 =>
    let s := s.cleanCam
    if s.bankGood (unit / 16384) then s.mendBank (unit / 16384) else old.refillMoved s
  | 5 =>
    let a := 32 * pithFields.findIdx (· == field) + bits unit 16 5
    s.unplacePips fun x c => x == a && c == unit % 65536
  | 6 => s.fenceArray (32 * pithFields.findIdx (· == field) + unit)
  | 8 => s.loseCopies 1 fun a b => old.stackFor a b == unit / 32 && old.chanFor a b == unit % 32
  | 9 => s.loseCopies 1 fun a b => old.stackFor a b == unit
  | 0xA => s.loseDie unit
  | 0xB => (List.range 32).foldl (fun s i => s.loseDie (32 * unit + i)) s
  | 0xD => s.linkDown unit 7 .fenced
  | 0xF => (fencePorts kind field unit).foldl old.losePort s
  | _ => s

/-- Units whose fence is a module-level fault (R470). -/
def moduleKind (kind : Nat) : Bool := [1, 8, 9, 0xB, 0xF].contains kind

/-- The entry of a fence joins the map and the event log. -/
def State.fenceNote (s : State) (cls kind field unit origin reason : Nat) : State :=
  let d : Defect := {
    kind := kind, origin := origin, field := field, reason := reason, unit := unit, powerOns := s.boot.powerOns
    uptime := (s.up - s.boot.startAt) / 1000000000 }
  let ports := fencePorts kind field unit
  (s.addEntry d).eventAs 0x0001 cls {
    port := if ports.length = 1 then ports.headD 0xFFFF else 0xFFFF, unitKind := kind, field := field, unit := unit
    params := [origin, reason] }

/-- What a noted fence does to data and ports; `old` is the state before it. -/
def State.fenceEffects (old s : State) (kind field unit : Nat) : State :=
  let ports := fencePorts kind field unit
  let s := old.fenceData s kind field unit
  let s := ports.foldl (fun s x => if s.portShut x = 1 then s.dropUnits x 4 fun _ _ => true else s) s
  ports.foldl State.reRatio s

/-- Fences a unit: recorded in the defect map and the event log, with its effects on data and ports; nothing for a unit an
entry covers. -/
def State.fence (s : State) (kind field unit origin reason : Nat) : State :=
  if s.covered kind field unit then s
  else s.fenceEffects (s.fenceNote (if moduleKind kind then 6 else 5) kind field unit origin reason) kind field unit

end Sys2Proof.Machine
end

