-- ==== Sys2Proof/Machine/Zdp.lean ====
section
/-! DEFINITION. ZDP messages and sessions (R386, R394, R404, R405): how a message leaves, and how a session ends. -/

namespace Sys2Proof.Machine

/-- A ZDP message (Table 12.4). -/
def zdpMsg (svc tag ix sub : Nat) (last : Bool) (payload : Bytes) : Bytes :=
  leBytes 1 svc ++ leBytes 1 tag ++ leBytes 2 ix ++ leBytes 1 sub ++ leBytes 1 (b2n last) ++ leBytes 2 payload.length ++ payload

/-- An abort response (R394). (log 31, DEDUCED) -/
def abortMsg (svc tag ix sub code : Nat) : Bytes :=
  zdpMsg 0xFF tag ix sub false (leBytes 2 code ++ leBytes 1 svc ++ leBytes 1 0)

/-- The key of an endpoint's mailbox: its PCIe function's (R404). -/
def boxKey : Endpoint → Option Nat
  | .pf k => some (fnKey k 0)
  | .vf k p => some (fnKey k (p + 1))
  | _ => none

/-- The mailbox of a function. -/
def State.box (s : State) (k : Nat) : Mailbox := mget s.dict.boxes k {}
/-- Stores a mailbox. -/
def State.setBox (s : State) (k : Nat) (b : Mailbox) : State :=
  { s with dict := { s.dict with boxes := mset s.dict.boxes k b } }

/-- CAN_NODE_ID (R403). -/
def State.canNode (s : State) : Nat := s.boot.straps % 128
/-- CAN FD is silent: node ID 0, a failed crystal, or S0 out of service (R403, R462, R431). (log 31, DEDUCED) -/
def State.canSilent (s : State) : Bool := s.canNode == 0 || !s.clk.crystal || s.segGone 0

/-- A message leaves for an endpoint; on a mailbox it stands in RESPONSE (R404), on a link it travels in a MGMT frame on VL 7 (R510), and a
silent CAN FD carries none. (log 5, DESIGN CHOICE) -/
def State.zdpSend (s : State) (ep : Endpoint) (msg : Bytes) : State :=
  match boxKey ep with
  | some k => { s.setBox k { s.box k with ready := true, response := msg } with out := s.out ++ [Out.zdp ep msg] }
  | none =>
    match ep with
    | .mgmt n =>
      let f : LFrame := { typ := 6, vl := 7, hdr := leBytes 24 0, payload := msg }
      (s.place (48 + n) 64 7 { len := s.unitLen (48 + n) f.len, frame := some f }).2
    | _ => if s.canSilent then s else { s with out := s.out ++ [Out.zdp ep msg] }

/-- A request of the endpoint is in progress: its response waits (R395, R404). -/
def State.owes (s : State) (ep : Endpoint) : Bool := s.media.syncs.any fun w => w.ep == some ep

/-- The session of an endpoint (R386): an endpoint holds at most one. -/
def State.session? (s : State) (ep : Endpoint) : Option Session := s.dict.sessions.find? fun x => x.ep == ep
/-- Changes the session of an endpoint. -/
def State.modSession (s : State) (ep : Endpoint) (f : Session → Session) : State :=
  { s with dict := { s.dict with sessions := s.dict.sessions.map fun x => if x.ep = ep then f x else x } }
/-- Removes the session of an endpoint; its watches and transfer end with it. -/
def State.dropSession (s : State) (ep : Endpoint) : State :=
  { s with dict := { s.dict with sessions := s.dict.sessions.filter fun x => x.ep != ep } }

/-- Sends an abort response that no request asked for, and counts it. -/
def State.abortSend (s : State) (ep : Endpoint) (svc tag ix sub code : Nat) : State :=
  (s.bump 0x60A0 2).zdpSend ep (abortMsg svc tag ix sub code)

/-- Answers a request with an abort response; both counters count it. -/
def State.abort (s : State) (ep : Endpoint) (svc tag ix sub code : Nat) : State :=
  (s.bump 0x60A0 1).abortSend ep svc tag ix sub code

/-- Ends a session by a reset or a lost right (R410, R414): its client receives 0x0E07. -/
def State.endSession (s : State) (x : Session) : State :=
  let (ix, sub) := match x.xfer with
    | some v => (v.index, v.sub)
    | none => (0, 0)
  (s.dropSession x.ep).abortSend x.ep 0 0 ix sub 0x0E07

/-- Ends every session `sel` selects, each with 0x0E07. -/
def State.endSessions (s : State) (sel : Session → Bool) : State :=
  (s.dict.sessions.filter sel).foldl State.endSession s

/-- A function's mailbox is reset (R405): its session ends, its watches and notifications are gone, MB_STATUS is 0. -/
def State.resetBox (s : State) (ep : Endpoint) : State :=
  match boxKey ep with
  | some k => { s.dropSession ep with dict := { (s.dropSession ep).dict with boxes := merase s.dict.boxes k } }
  | none => s

end Sys2Proof.Machine
end

