-- ==== Sys2Proof/Machine/FlashCmds.lean ====
section
/-! DEFINITION. The commands of flash media (05_flash_media.md): reads, programs and erases that end, flush timers,
maintenance, the root checkpoint; what responses wait for (R188, R392). -/

namespace Sys2Proof.Machine

/-- R180: a die whose good superblocks fall below 95 % of 3,641 is retired. -/
def State.checkDie (s : State) (n : Nat) : State :=
  if (3641 - (s.die n).retired) * 100 < 95 * 3641 then s.fence 0x0A 0 n 3 4 else s

/-- Retires a superblock and checks its die. -/
def State.retireSb (s : State) (n sb : Nat) : State := (s.retire n sb).checkDie n

/-- MAP_CACHE_WAIT_RESUME (R166): the operation's lookup goes on once a page can be evicted. -/
def execMapCacheWaitResume (t : Nat) (s : State) : Res :=
  .next <| match s.op? t with
    | some o =>
      if o.st = .mapWait ∧ (sweep s.pageKept s.media.cache s.media.hand 262144).1.isSome then
        s.setOp t { o with st := .ready }
      else s
    | none => s

/-- SUSPEND_HOLDOFF_EXPIRY (R169): 12 µs after the last resume the deferred suspend is issued. -/
def execSuspendHoldoffExpiry (n : Nat) (s : State) : Res :=
  .next <| match (s.die n).run with
    | some o => match o.resumedAt with
      | some t => if o.deferred then (s.timeTo (t + us 12)).kickDie n else s
      | none => s
    | none => s

/-! ### Reads (R168, R170-R175, R181) -/

/-- Die reads that an outcome took (R174): one at each step, and two more to decode soft. -/
def outcomeReads : ReadOutcome → Nat
  | .hard _ | .mismatch => 1
  | .retry k => 1 + min k 15
  | .soft | .uncorrectable => 18

/-- Counters of a die read by its outcome (Tables 5.12, 5.13); each further read is an operation of its port (R160, R170).
(log 34, DEDUCED) -/
def State.countOutcome (s : State) (n : Nat) (op : DieOp) (o : ReadOutcome) : State :=
  let s := (s.bump 0x6050 1 (outcomeReads o)).bump (0x6100 + n / 32) 1 (outcomeReads o)
  let s := (List.range (outcomeReads o - 1)).foldl (fun s _ => (s.place (16 + n / 32) op.sub op.cls { len := 1 }).2) s
  match o with
  | .hard _ | .mismatch => s
  | .retry k => s.bump 0x6050 9 (min k 15)
  | .soft => (s.bump 0x6050 9 15).bump 0x6050 0x0A
  | .uncorrectable => (((s.bump 0x6050 9 15).bump 0x6050 0x0A).bump 0x6050 0x0B).bump (0x6100 + n / 32) 5

/-- Maintenance a read's outcome calls for (R173, R175): a read that needed soft decoding counts whether it succeeded or not. -/
def State.readUpkeep (s : State) (n sb : Nat) (o : ReadOutcome) : State :=
  let s := s.countRead n sb
  match o with
  | .hard true => if s.relocating n sb then s else (s.relocate n sb).bump 0x6050 0x0F
  | .soft | .uncorrectable =>
    let d := s.die n
    match mget? d.sbs sb with
    | none => s
    | some b =>
      let recent := b.softAt.filter fun t => s.up < t + 24 * 3600 * sec 1
      let s := s.setDie n { d with sbs := mset d.sbs sb { b with softAt := s.up :: recent } }
      if recent.isEmpty then s else s.retireSb n sb
  | _ => s

/-- The record a read brings. -/
def State.readRec (s : State) (op : DieOp) : Option Rec :=
  (mget? s.media.punnets op.punnet).bind fun p => p.recs.find? fun r => r.fid == op.fid && r.layer == op.layer && r.off == op.off

/-- The map entry of the slice of `op` still points to the record it read. -/
def State.stillMapped (s : State) (op : DieOp) : Bool :=
  (s.frame? op.fid).any fun f => (s.mapEnt f.slot op.layer).any fun e => e.punnet == op.punnet && e.off == op.off

/-- A read for an operation or a staging has brought its whole record, or failed (R75, R133, R178). -/
def State.readDone (s : State) (op : DieOp) (bad : Bool) : State :=
  let tell := fun (s : State) (st : Nat) (d : SliceData) => match op.tag with
    | some t => s.arrive t op.fid op.layer st d
    | none => s
  match s.readRec op with
  | none => tell s stMedia []
  | some r =>
    if bad then tell (if s.stillMapped op ∧ r.version = (s.sliceOf op.fid op.layer).version then s.loseT2 op.fid op.layer else s) stMedia []
    else (tell s 0 r.data).promoteRead op.fid op.layer op.sub op.cls r.version r.data

/-- A read of a relocation has brought its record, which joins the RELOCATION stream while it is valid (R171), or failed (R181). -/
def State.moveDone (s : State) (op : DieOp) (bad : Bool) : State :=
  let loc := op.punnet * 16384 + op.off
  match s.readRec op with
  | none => s
  | some r =>
    let valid := match r.key with
      | some k => (s.metaCopies k).contains loc
      | none => s.stillMapped op
    if !valid then s
    else if !bad then s.addRec 1 6 64 { r with src := some loc, durable := false }
    else if r.key.isSome then s.loseMeta loc else s.loseT2 op.fid op.layer

/-- A die read has ended, `bad` when what it read is of no use. -/
def State.readEnded (s : State) (op : DieOp) (bad : Bool) : State :=
  let k := (op.tag, op.punnet * 16384 + op.off)
  match op.page with
  | some p => if bad then s.pageFailed op p else s.pageLoaded p
  | none =>
    if !op.last then (if bad then { s with media := { s.media with spoiled := s.media.spoiled ++ [k] } } else s)
    else
      let bad := bad || s.media.spoiled.contains k
      let s := { s with media := { s.media with spoiled := s.media.spoiled.filter (· != k) } }
      if op.move then s.moveDone op bad else s.readDone op bad

/-- PAGE_READ_DONE (R168, R174, R75): decode, check and restore; promotion; the die goes on. -/
def execPageReadDone (n : Nat) (out : ReadOutcome) (s : State) : Res :=
  .next <| match (s.die n).run with
  | none => s
  | some op =>
    if op.kind ≠ 0 then s else
    let s := s.setDie n { s.die n with run := none }
    let s := (s.countOutcome n op out).readUpkeep n (pnSb op.punnet) out
    ((s.readEnded op (out == .uncorrectable || out == .mismatch)).upkeep n).kickDie n

/-! ### Programs and erases (R158-R164, R171, R172, R179) -/

/-- When the open punnet `o` must close (R161): its oldest DURABLE record has waited DURABLE_FLUSH, or its oldest metadata record
META_FLUSH. -/
def State.flushAt (s : State) (o : OpenP) : Option Nat :=
  let a := o.oldestDurable.map fun t => t + us (s.obj 0x1200 1 100)
  let b := o.oldestMeta.map fun t => t + ms (s.obj 0x1200 2 100)
  match a, b with
  | some x, some y => some (min x y)
  | some x, none => some x
  | none, y => y

/-- PUNNET_FLUSH_TIMER (R161): DURABLE_FLUSH or META_FLUSH for an open punnet, META_FLUSH for the METADATA stream; metadata records beyond
one punnet's room close it without a wait (log 19, DESIGN CHOICE). -/
def execPunnetFlushTimer (key : Option Nat) (s : State) : Res :=
  .next <| match key with
  | some k => match (mget? s.media.openP k).bind s.flushAt with
    | some t => (s.timeTo t).closePunnet k
    | none => s
  | none => match s.media.metaSince with
    | [] => s
    | m :: _ =>
      if !(packMeta s.metaRec {} s.media.metaPend).2.isEmpty then s.closeMeta
      else (s.timeTo (m.2 + ms (s.obj 0x1200 2 100))).closeAllMeta s.media.metaPend.length

/-- The durable image of a metadata structure takes a committed record; a relocated copy of the image takes the place of the one it was
copied from. -/
def State.commitMeta (s : State) (r : Rec) : State :=
  match r.key with
  | none => s
  | some k =>
    if s.durNo k > r.seqNo + 1 then s
    else
      let s := { s with media := { s.media with
        dur := (s.media.dur.filter fun m => m.key != k) ++ [{ key := k, seqNo := r.seqNo, val := r.val }] } }
      match r.src with
      | some src => s.cutMeta src
      | none => s

/-- A slice is durable in the sense of R163: a record made for its frame at that version, and its metadata, are committed. -/
def State.isDurable (s : State) (w : DurWait) : Bool :=
  (s.media.punnets.any fun p => p.2.recs.any fun r =>
    r.key.isNone && r.fid == w.fid && r.layer == w.layer && r.version == w.version && r.stamp == w.stamp) &&
  w.marks.all fun m => s.durNo m.1 > m.2

/-- DURABLE writes that await slices now durable count them, and end once none is left (R128, R163). -/
def State.settleDurable (s : State) : State :=
  s.q.ott.foldl (fun s e =>
    if e.2.slices.isEmpty then s else
    let left := e.2.slices.filter fun w => !s.isDurable w
    let k := e.2.slices.length - left.length
    if k = 0 then s else
    match s.op? e.1 with
    | some o => ((s.setOp e.1 { o with slices := left, durable := o.durable + k }).bump 0x6050 0x17 k).settle e.1
    | none => s) s

/-- Copies of REVOKING leases that are current in T2 by now are released (R145). -/
def State.drainLeases (s : State) : State :=
  s.lk.leases.foldl (fun s e =>
    if !e.2.revoking then s else
    let s := (s.heldUnder e.1).foldl (fun s x =>
      let l := s.sliceOf x.1 x.2
      if l.inT0 ∨ l.inT1 ∨ l.inT2 then s.loseTN x.1 x.2 else s) s
    s.leaseCheck e.1) s

/-- The place a root checkpoint written now takes in the area of die `n`, and what it carries (R167). -/
def State.rootNow (s : State) (n : Nat) : RootCp :=
  let last := ((s.media.roots.find? fun r => r.area == n).map (·.sb)).getD 1
  { area := n, sb := s.rootSb n last, progSeq := s.media.progSeq, at_ := s.up
    opened := s.media.dies.flatMap fun d => (d.2.sbs.filter fun b => b.2.st == 1).map fun b => (b.2.stream, d.1 * 4096 + b.1)
    pages := s.media.dur.filterMap fun m => match m.key with
      | .mapPage p => ((s.metaCopies m.key).head?).map fun x => (p, x / 16384)
      | _ => none }

/-- A committed root checkpoint is the newest of its area, in place of the one its superblock held. -/
def State.commitRoot (s : State) (cp : RootCp) : State :=
  { s with media := { s.media with roots := cp :: s.media.roots.filter fun r => !(r.area == cp.area && r.sb == cp.sb) } }

/-- A punnet is committed: its records enter the durable state (R158). -/
def State.commitPunnet (s : State) (op : DieOp) : State :=
  let b := mget (s.die (pnDie op.punnet)).sbs (pnSb op.punnet) { st := 1 }
  let p : Punnet := { stream := op.stream, progSeq := op.progSeq, recs := op.recs, at_ := s.media.metaNo, erases := b.erases, prev := b.prev }
  op.recs.foldl (fun s r =>
    if r.key.isSome then s.commitMeta r
    else s.commitSlice r { punnet := op.punnet, off := r.off, len := r.len, format := r.format })
    { s with media := { s.media with punnets := mset s.media.punnets op.punnet p } }

/-- Writes a root checkpoint into each root area in service (R167), each as one program of class 6 (log 19, DESIGN CHOICE). -/
def State.checkpoint (s : State) : State :=
  let s := { s with media := { s.media with rootAt := s.up } }
  (rootDies.filter s.dieGood).foldl (fun s n =>
    let cp := s.rootNow n
    s.dieUnit n 64 { kind := 1, cls := 6, punnet := punnetNo n cp.sb 0, stream := 1, root := some cp } 0) s

/-! ### Responses that wait (R188, R392, R561) -/

/-- The metadata changes that are not durable yet. -/
def State.openMarks (s : State) : List (MetaKey × Nat) :=
  s.media.metaPend ++ s.flying.filterMap fun r => r.key.map fun k => (k, r.seqNo)

/-- The DIRTY_LOW slices whose frames lack NO_FLASH. -/
def State.dirtySlices (s : State) : List (Nat × Nat) :=
  s.pg.frames.flatMap fun e => if bit e.2.flags fNoFlash then [] else
    (e.2.slices.filter fun l => l.2.st == .present && l.2.dirtyLow).map fun l => (e.1, l.1)

/-- Writes every such slice back, and closes the HOST punnets. -/
def State.writeBackAll (s : State) : State :=
  let s := s.dirtySlices.foldl (fun s k => s.startWriteBack k.1 k.2 false false) s
  ((s.media.openP.map (·.1)).filter (· < 128)).foldl State.closePunnet s

/-- A wait begins to wait for every metadata change applied so far, closing open METADATA punnets at once. -/
def State.syncMeta (s : State) (w : SyncWait) : SyncWait × State :=
  ({ w with stage := 1, marks := s.openMarks }, s.closeAllMeta s.media.metaPend.length)

/-- The image of a FIRMWARE_UPDATE is programmed in NOR device `d`; after device 1 its slot is VALID (R438). -/
def State.programImage (s : State) (d : Nat) : State :=
  match s.boot.update with
  | none => s
  | some (k, v) =>
    let w := mget s.boot.slots k {}
    let other := w.copies.getD (1 - d) []
    let w : Slot := if d = 0 then { w with copies := [v, []] } else { w with st := 2, copies := [other, v] }
    { s with boot := { s.boot with slots := mset s.boot.slots k w, update := if d = 0 then s.boot.update else none } }

/-- What a wait does next: its stages in order, and whether it has moved. A firmware image takes one look for each NOR device
(log 32, DESIGN CHOICE). (log 19, DESIGN CHOICE) -/
def State.syncGo (s : State) (w : SyncWait) : SyncWait × State :=
  match w.stage with
  | 0 =>
    let s := s.writeBackAll
    if s.dirtySlices.isEmpty then s.syncMeta w else (w, s)
  | 1 =>
    if w.marks.all fun m => s.durNo m.1 > m.2 then
      if w.kind = 2 then ({ w with stage := 2 }, s.checkpoint) else ({ w with stage := 3 }, s)
    else if w.kind ≠ 3 ∧ w.marks.any s.media.metaPend.contains then (w, s.closeAllMeta s.media.metaPend.length)
    else (w, s)
  | 2 =>
    if s.dieOps.any fun o => o.2.root.isSome then (w, s)
    else ({ w with stage := 3 }, { s with media := { s.media with state := 3, quiesced := true } })
  | 4 => ({ w with stage := 5 }, s.programImage 0)
  | 5 => ({ w with stage := 3 }, s.programImage 1)
  | _ => (w, s)

/-- A wait is over: its response leaves while its client still has its session (R411). -/
def State.syncEnd (s : State) (w : SyncWait) : State :=
  let s := if w.kind = 3 then s.bump 0x60A0 6 else s
  match w.ep with
  | some e => if (s.session? e).isSome then (s.bump 0x60A0 1).zdpSend e w.msg else s
  | none => s

/-- One wait goes on as far as it can. -/
def State.syncOne (s : State) (w : SyncWait) : State :=
  let r := s.syncGo w
  let r := if r.1.stage = w.stage ∨ w.kind = 5 then r else r.2.syncGo r.1
  let r := if r.1.stage = 2 then r.2.syncGo r.1 else r
  if r.1.stage = 3 then r.2.syncEnd r.1 else { r.2 with media := { r.2.media with syncs := r.2.media.syncs ++ [r.1] } }

/-- The responses that wait go on. -/
def State.syncStep (s : State) : State :=
  if s.media.syncs.isEmpty then s else s.media.syncs.foldl State.syncOne { s with media := { s.media with syncs := [] } }

/-- The response `msg` to `ep` waits as the write that asked for it says. A SHUTDOWN_PREPARE stops fetching at once; a persistent value waits
for its own change alone. -/
def State.syncBegin (s : State) (ep : Option Endpoint) (msg : Bytes) : State :=
  let k := s.media.syncAsk
  let s := { s with media := { s.media with syncAsk := 0 }, q := { s.q with fetchStopped := s.q.fetchStopped || k == 2 } }
  let w : SyncWait := { kind := k, ep := ep, msg := msg }
  let own := s.media.metaPend.filter fun m => match m.1 with
    | .config _ => true
    | _ => false
  if k = 5 then { s with media := { s.media with syncs := s.media.syncs ++ [{ w with stage := 4 }] } } else
  let r := if k = 2 then ({ w with stage := 0 }, s) else if k = 3 then ({ w with marks := own }, s) else s.syncMeta w
  { r.2 with media := { r.2.media with syncs := r.2.media.syncs ++ [r.1] } }.syncStep

/-- PUNNET_PROGRAM_DONE (R158, R163, R164, R167, R171, R179). (log 42, DESIGN CHOICE) -/
def execPunnetProgramDone (n : Nat) (pass : Bool) (s : State) : Res :=
  .next <| match (s.die n).run with
  | none => s
  | some op =>
    if op.kind ≠ 1 then s else
    let s := s.setDie n { s.die n with run := none }
    let sources := (op.recs.filterMap fun r => r.src.map fun x => pnDie (x / 16384)).eraseDups
    let s := if pass then
        let s := (s.bump 0x6050 2).bump (0x6100 + n / 32) 2
        match op.root with
        | some cp => s.commitRoot cp
        | none => ((s.commitPunnet op).settleDurable).drainLeases
      else (((s.bump 0x6050 0x12).retireSb n (pnSb op.punnet)).reprogram op)
    (((n :: sources).eraseDups.foldl State.upkeep s).syncStep).kickDie n

/-- SUPERBLOCK_ERASE_DONE (R172, R175): the superblock is free, or retired when the erase failed; programs that found no die are tried
again. -/
def execSuperblockEraseDone (n : Nat) (pass : Bool) (s : State) : Res :=
  .next <| match (s.die n).run with
  | none => s
  | some op =>
    if op.kind ≠ 2 then s else
    let sb := pnSb op.punnet
    let s := s.setDie n { s.die n with run := none }
    if pass then
      let d := s.die n
      let s := s.setDie n { d with sbs := merase d.sbs sb, erases := mset d.erases sb (d.erase sb + 1) }
      let s := { s with media := { s.media with
        punnets := s.media.punnets.filter fun p => !(pnDie p.1 == n && pnSb p.1 == sb)
        discards := s.media.discards.filter fun x => !(pnDie (x.1 / 16384) == n && pnSb (x.1 / 16384) == sb) } }
      (((s.bump 0x6050 3).bump (0x6100 + n / 32) 3).retryPrograms.upkeep n).kickDie n
    else ((s.bump 0x6050 0x13).retireSb n sb).kickDie n

/-- RETENTION_REFRESH (R173): a closed superblock whose program age exceeds the limit, halved `hotSteps` times, moves: `hotSteps` is the number
of full 10 °C by which the hourly mean flash temperature has exceeded 55 °C (log 26, DESIGN CHOICE). -/
def execRetentionRefresh (n sb hotSteps : Nat) (s : State) : Res :=
  .next <|
    let limit := s.obj 0x1200 7 90 * 24 * 3600 * sec 1 / 2 ^ hotSteps
    match mget? (s.die n).sbs sb with
    | some b =>
      if b.st = 2 ∧ s.up - b.progAt > limit ∧ !s.relocating n sb then (s.relocate n sb).bump 0x6050 0x0F else s
    | none => s

/-- ROOT_CHECKPOINT (R167), every ROOT_CHECKPOINT seconds while the media is mounted. -/
def execRootCheckpoint (s : State) : Res :=
  .next <| if s.media.state = 2 then (s.timeTo (s.media.rootAt + sec (s.obj 0x1200 3 60))).checkpoint else s

end Sys2Proof.Machine
end

