-- ==== Sys2Proof/Machine/TierCmds.lean ====
section
/-! DEFINITION. The commands of ageing, tiers and references: ticks, free commits, write-backs, waits, releases, recounts, and
the upkeep of the CAM (02, 03, 04). -/

namespace Sys2Proof.Machine

/-- The pressure of tier `x` at a tick (R120). -/
def State.agePressure (s : State) (x : Nat) : State :=
  let s := s.updPressure x
  if s.pressure x then (s.victims x).foldl (fun s c => s.condemn c.fid c.layer x) s else s

/-- Write-backs and records of DURABLE writes that wait for T2 space are tried again (R571). -/
def State.retryWaits (s : State) : State :=
  let rs := s.media.recWait
  let s := { s with media := { s.media with recWait := [] } }
  let s := rs.foldl (fun s w => s.offerRec w.1 w.2.1 w.2.2) s
  (s.tier.wb.filter (·.waitSpace)).foldl (fun s w => s.writeBack w) s

/-- AGE_TICK (R100, R120, R123): the epoch advances, free commits run step 1, frames and slice copies are condemned. A change of the
AGE_TICK object counts from this tick on (R151). -/
def execAgeTick (s : State) : Res :=
  .next <|
    let s := s.timeTo (s.px.tickAt + ms s.px.tickIv)
    let e := if (s.px.epoch + 1) % 2 ^ 32 = 0 then 1 else (s.px.epoch + 1) % 2 ^ 32
    let s := { s with px := { s.px with epoch := e, tickAt := s.up, tickIv := s.obj 0x1100 1 10 } }
    let s := s.px.commits.foldl State.frameStep1 s
    let s := (s.commitSlices).condemnFrames
    ((((s.agePressure 0).agePressure 1).agePressure 2).lendCheck 16).retryWaits.retryPrograms.indexTick.syncStep

/-- FREE_COMMIT_STEP2 (R123, R101): of a slice copy, or, with no layer, of a frame. -/
def execFreeCommitStep2 (fid : Nat) (layer : Option Nat) (s : State) : Res :=
  .next <| match layer with
    | some l => s.sliceStep2 fid l
    | none => s.frameStep2 fid

/-- WRITEBACK_DELAY_EXPIRY (R126). -/
def execWritebackDelayExpiry (fid layer : Nat) (s : State) : Res :=
  .next <| match s.frame? fid with
    | some f =>
      let l := f.slice layer
      if l.st = .present ∧ l.dirtyLow ∧ f.st = .sealed ∧ !bit f.flags fNoFlash ∧ s.ageOf l.lastWrite ≥ s.obj 0x1100 9 50
      then s.startWriteBack fid layer false false else s
    | none => s

/-- WRITEBACK_COMPLETE (R127). (log 42, DESIGN CHOICE) -/
def execWritebackComplete (fid layer : Nat) (s : State) : Res := .next (s.endWriteBack fid layer).syncStep

/-- ALLOC_WAIT_TIMEOUT (R147, R565, R299): the write ends PARTIAL with DETAIL 0x0008. -/
def execAllocWaitTimeout (t : Nat) (s : State) : Res :=
  .next <| match s.op? t with
    | some o => match o.st with
      | .allocWait dl => ((s.timeTo dl).bump 0x6040 0x0D).finishOp t stPartial 8 o.progress o.durable 0 o.slices
      | _ => s
    | none => s

/-- DEFERRED_RELEASE (R57): the release of a block's reference takes effect once no earlier operation reads through it. -/
def execDeferredRelease (seq block : Nat) (s : State) : Res :=
  .next <| (s.pg.releases.filter fun r => r.seq == seq && r.block == block && r.waits.isEmpty && !r.lost).foldl State.applyRelease s

/-- Releases `k` references of a frame. -/
def State.unrefs (s : State) (fid : Nat) : Nat → State
  | 0 => s
  | k + 1 => (s.unref fid).unrefs fid k

/-- REFERENCE_RECOUNT (R567): references whose holders are lost are released by R57, and every REFCOUNT still above the references
held is lowered to them. -/
def execReferenceRecount (s : State) : Res :=
  .next <|
    let own := s.pg.releases.filter fun r => r.lost && !((s.frame? r.fid).any (·.underRecount))
    let s := own.foldl State.ownRelease s
    s.pg.frames.foldl (fun s f =>
      if f.2.underRecount then s else s.unrefs f.1 (f.2.refs - s.refsOf f.1)) s

/-- FRAME_RECOUNT_DONE (R74): the frame leaves the recount with the references counted; releases held back take effect. -/
def execFrameRecountDone (fid : Nat) (s : State) : Res :=
  .next <| match s.frame? fid with
    | some f =>
      if !f.underRecount then s else
      let s := s.setFrame fid { f with refs := s.refsOf fid + 1, underRecount := false }
      let s := { s with pg := { s.pg with releases := s.pg.releases.filter fun r => !(r.lost && r.fid == fid) } }
      ((s.pg.releases.filter fun r => r.fid == fid && r.waits.isEmpty).foldl State.applyRelease s).unref fid
    | none => s

/-- CAM_PLACE (R88, Table 3.3): the next inserted key of frame `fid` takes its position. -/
def execCamPlace (fid : Nat) (s : State) : Res :=
  .next <| if s.px.placing.contains fid then
      ({ s with px := { s.px with placing := s.px.placing.filter (· != fid) } }).placeKey fid
    else s

/-- A CAM row that differs from its image is rewritten and counted; the second time within 24 h it is fenced (R103).
(log 34, DEDUCED) -/
def State.scrubRow (s : State) (bank row : Nat) : State :=
  let k := 16384 * bank + row
  let s := s.bump 0x6030 0x0D
  match mget? s.px.rowErrs k with
  | some t =>
    if s.up < t + 24 * 3600 * sec 1 then s.fence 4 (pithField (bank / 8)) k 3 2
    else { s with px := { s.px with rowErrs := mset s.px.rowErrs k s.up } }
  | none => { s with px := { s.px with rowErrs := mset s.px.rowErrs k s.up } }

/-- CAM_SCRUB (R103) of a bank in service, in which the given rows differ from the image. -/
def execCamScrub (bank : Nat) (rows : List Nat) (s : State) : Res :=
  .next <| if s.bankGood bank then
      (rows.filter fun r => r < 16384 && !s.rowFenced bank r).foldl (fun s r => s.scrubRow bank r) s
    else s

/-- One key enters its bank: its directory entry is read from HBM in class 6 (R103). -/
def State.refillKey (s : State) (fid : Nat) : State := (s.hbmUnits fid 0 64 6 0 192).placeKey fid

/-- CAM_BANK_REFILL (R103, R106): the valid keys of the bank that wait for it enter it, most HITS first. -/
def execCamBankRefill (bank : Nat) (s : State) : Res :=
  .next <|
    let mine := fun (f : Nat) => (mget? s.px.dir f).any fun d => s.camBank d.key == some bank
    let fs := s.px.refill.filter mine
    let hits := fun (f : Nat) => ((mget? s.px.dir f).map (·.hits)).getD 0
    let s := { s with px := { s.px with refill := s.px.refill.filter (!mine ·) } }
    (sortBy (fun (a b : Nat) => hits a > hits b) fs).foldl State.refillKey s

end Sys2Proof.Machine
end

