-- ==== Sys2Proof/Machine/PrefixCmds.lean ====
section
/-! DEFINITION. The commands of the prefix engine: chain search, masked search, purge, and the sequence commands (03;
R89-R93, R302-R307, R568). -/

namespace Sys2Proof.Machine

/-! ### Chain search (R89-R92, R305, R568) -/

/-- A chain search under way: its blocks so far, hits (pinned), and keys computed. -/
structure Chain where
  s : State
  parent : Nat := 0
  missed : Bool := false
  hits : List Nat := []
  keys : List (Nat × PendKey) := []

/-- What the blocks of a search have in common. -/
structure ChainArg where
  part : Nat
  seq : Nat
  tag : Nat
  salt : Nat
  domain : Nat
  profile : Nat
  absentMiss : Bool

/-- Block `i` with tokens `toks`: its key is computed; looked up unless an earlier block missed. -/
def Chain.block (c : Chain) (a : ChainArg) (i : Nat) (toks : List Nat) : Chain :=
  let key := sch256 c.parent a.tag a.salt toks
  let open_ : Bool := match (c.s.seq? a.seq).bind fun q => mget? q.leaves i with
    | none => true
    | some l => l.st != .sealed
  let keys : List (Nat × PendKey) := if open_ then c.keys ++ [(i, { key := key, parent := c.parent, toks := toks })] else c.keys
  if c.missed then { c with parent := key, keys := keys }
  else
    match c.s.lookup { key := key, parent := c.parent, toks := toks, domain := a.domain, depth := i, profile := a.profile }
        a.absentMiss with
    | (some fid, s) => { c with s := s.hit a.part fid, parent := key, hits := c.hits ++ [fid], keys := keys }
    | (none, s) => { c with s := s, parent := key, missed := true, keys := keys }

/-- The blocks of a search from block `i` on; `bs` holds their token IDs. -/
def Chain.run (c : Chain) (a : ChainArg) (bs : Bytes) : Nat → Nat → Chain
  | 0, _ => c
  | n + 1, i => (c.block a i (numsOf 4 16 (bs.drop (64 * i)))).run a bs n (i + 1)

/-- Records pending keys of a sequence (R568). -/
def State.setPend (s : State) (n : Nat) (ks : List (Nat × PendKey)) : State :=
  match s.seq? n with
  | some q => if ks.isEmpty then s else s.setSeq n { q with pend := ks.foldl (fun m k => mset m k.1 k.2) q.pend }
  | none => s

/-- Attaches hits from block `b` on (R91): how many, the DETAIL of a stop (0 none), the hits left. -/
def State.attach (s : State) (u : Setup) (p n : Nat) : Nat → List Nat → Nat × Nat × List Nat × State
  | b, [] => (b, 0, [], s)
  | b, fid :: fs =>
    let busy : Bool := match (s.seq? n).bind fun q => mget? q.leaves b with
      | some l => l.st != .absent
      | none => false
    let held := s.heldFids p
    if busy then (b, 7, fid :: fs, s)
    else if !held.contains fid ∧ held.length + 1 > (u.prot p).quota then (b, 0x0B, fid :: fs, s)
    else
      let more := ((s.frame? fid).map Frame.refs).getD 0 > 1
      (s.setLeaf n b (some { st := .sealed, fid := fid, shared := more })).attach u p n (b + 1) fs

/-- The 16 B result of CHAIN_SEARCH (R305). -/
def chainResult (d attached absent : Nat) : Bytes := leBytes 4 d ++ leBytes 4 attached ++ leBytes 4 absent ++ leBytes 4 0

/-- Frames among `fs` with ABSENT slices (R92). -/
def State.absentAmong (s : State) (fs : List Nat) : Nat :=
  (fs.filter fun f => (s.frame? f).any fun fr => fr.absent > 0).length

/-- Runs the lookups of a CHAIN_SEARCH; PROTECTION when its domain may not be used (R82). -/
def State.chain (s : State) (o : Op) : Option Chain :=
  let d := o.desc
  let n := dSeq d
  match s.seq? n with
  | none => none
  | some q =>
    let u := s.setupOf o.gen
    if !u.member q.domain o.part then none
    else
      let pf := (s.bound o.part q.slot).getD 0
      let blocks := fld d 12 4
      let (bs, s) := s.readIn o 0 (fld d 16 8) (64 * blocks)
      let a : ChainArg := {
        part := o.part, seq := n, tag := s.prof pf 2, salt := s.saltOf u q.domain, domain := q.domain, profile := pf
        absentMiss := bit (fld d 11 1) 1 }
      some (Chain.run { s := s.bump 0x6030 1 } a bs blocks 0)

/-- The ready operation of a chain search in mode `m` (0 probe, 1 attach). -/
def State.chainCmd (s : State) (t m : Nat) : Option Op :=
  (s.runCmd t .chainSearch).bind fun o => if bits (fld o.desc 11 1) 0 1 = m then some o else none

/-- A probe's result: the keys found stay pending on the sequence, the references taken are given back. -/
def State.probeDone (s : State) (t : Nat) (o : Op) (hits : List Nat) (keys : List (Nat × PendKey)) : State :=
  let s := s.setPend (dSeq o.desc) keys
  let res := chainResult hits.length 0 (s.absentAmong hits)
  let s := hits.foldl State.unref s
  let r := if fld o.desc 24 8 = 0 then (0, false, s) else s.writeOut t o 0 (fld o.desc 24 8) res
  r.2.2.finishOut t stDone 0 hits.length r.1 r.2.1

/-- An attach's result: the blocks hit join the sequence as far as the quota allows. -/
def State.attachDone (s : State) (t : Nat) (o : Op) (hits : List Nat) (keys : List (Nat × PendKey)) : State :=
  let n := dSeq o.desc
  let absent := s.absentAmong hits
  let s := s.setPend n (keys.filter fun k => k.1 ≥ hits.length)
  let (k, det, left, s) := s.attach (s.setupOf o.gen) o.part n 0 hits
  let s := left.foldl State.unref s
  let s := match s.seq? n with
    | some q => if q.length < 16 * k then (s.setSeq n { q with length := 16 * k }).touch (.seq n) else s
    | none => s
  let r := if fld o.desc 24 8 = 0 then (0, false, s)
    else s.writeOut t o 0 (fld o.desc 24 8) (chainResult hits.length k absent)
  r.2.2.finishOut t (if det = 0 then stDone else stPartial) det k r.1 r.2.1

/-- CHAIN_SEARCH in probe mode. -/
def execChainSearchProbe (t : Nat) (s : State) : Res :=
  .next <| match s.chainCmd t 0 with
    | none => s
    | some o =>
      let s := s.meterOp o
      match s.seqOf o.part (dSeq o.desc), s.chain o with
      | none, _ => s.endOp t stProt 0x0A 0 0
      | _, none => s.endOp t stProt 0 0 0
      | _, some c => c.s.probeDone t o c.hits c.keys

/-- CHAIN_SEARCH in attach mode. -/
def execChainSearchAttach (t : Nat) (s : State) : Res :=
  .next <| match s.chainCmd t 1 with
    | none => s
    | some o =>
      let s := s.meterOp o
      let n := dSeq o.desc
      match s.seqOf o.part n, s.chain o with
      | none, _ => s.endOp t stProt 0x0A 0 0
      | _, none => s.endOp t stProt 0 0 0
      | _, some c => c.s.attachDone t o c.hits c.keys

/-! ### Masked search (R93, R306) -/

/-- The order of masked results: domain, depth, key[0]. -/
def maskedBefore (a b : DirEnt) : Bool :=
  if a.domain ≠ b.domain then a.domain < b.domain
  else if a.depth ≠ b.depth then a.depth < b.depth
  else a.key % 2 ^ 64 < b.key % 2 ^ 64

/-- The 288-bit search word of an entry. -/
def DirEnt.word (d : DirEnt) : Nat := d.key + 2 ^ 256 * d.depth + 2 ^ 272 * d.domain

/-- An entry matches the argument block `a` of Table 9.7 for partition `p` under setup `u` (R93). -/
def maskedHit (u : Setup) (p : Nat) (a : Bytes) (d : DirEnt) : Bool :=
  let m := fld a 36 36
  d.st == .valid && (d.word &&& m) == (fld a 0 36 &&& m) && fld a 72 2 ≤ d.depth && d.depth ≤ fld a 74 2
    && (!bit (fld a 76 1) 0 || maskedBefore { d with domain := fld a 78 2, depth := fld a 80 2, key := fld a 88 8 } d)
    && u.member d.domain p

/-- The reserved bytes of the masked-search argument are zero (R13): bits 7-1 of byte 76, bytes 77 and 82-87. -/
def maskedReserved (a : Bytes) : Option Nat :=
  if fld a 76 1 / 2 ≠ 0 then some 76 else if fld a 77 1 ≠ 0 then some 77
  else (List.range 6).findSome? fun i => if fld a (82 + i) 1 ≠ 0 then some (82 + i) else none

/-- The result of MASKED_SEARCH (Table 9.7). -/
def maskedResult (total : Nat) (fs : List (Nat × DirEnt)) : Bytes :=
  let (a, b, c) := match fs.getLast? with
    | some e => (e.2.domain, e.2.depth, e.2.key % 2 ^ 64)
    | none => (0, 0, 0)
  leBytes 4 total ++ leBytes 4 fs.length ++ leBytes 2 a ++ leBytes 2 b ++ leBytes 4 0 ++ leBytes 8 c ++ leBytes 8 0
    ++ fs.flatMap fun e => leBytes 4 e.1

/-- MASKED_SEARCH (R93, R306). (log 6, DEDUCED) -/
def execMaskedSearch (t : Nat) (s : State) : Res :=
  .next <| match s.runCmd t .maskedSearch with
    | none => s
    | some o =>
      let (a, s) := (s.meterOp o).readIn o 0 (fld o.desc 8 8) 96
      match maskedReserved a with
      | some i => s.endOp t stBad (0x4000 + i) 0 0
      | none =>
        if fld a 72 2 > fld a 74 2 then s.endOp t stBad (0x4000 + 72) 0 0
        else
          let all := sortBy (fun (x y : Nat × DirEnt) => maskedBefore x.2 y.2)
            (s.px.dir.filter fun e => maskedHit (s.setupOf o.gen) o.part a e.2)
          let fs := all.take (fld o.desc 24 2)
          let r := s.writeOut t o 0 (fld o.desc 16 8) (maskedResult all.length fs)
          r.2.2.finishOut t stDone 0 fs.length r.1 r.2.1

/-- PURGE_PRIVATE (R306, R107): every key of the partition's private domain is removed. -/
def execPurgePrivate (t : Nat) (s : State) : Res :=
  .next <| match s.runCmd t .purgePrivate with
    | none => s
    | some o =>
      let (k, s) := (s.meterOp o).purge (0x8000 + o.part)
      s.endOp t stDone 0 (min k (2 ^ 32 - 1)) 0

/-! ### Sequences (R302-R304) -/

/-- R81: the domain a sequence of `p` opens in. -/
def openDomain (u : Setup) (p d : Nat) : Option Nat :=
  if d = 0xFFFF ∨ d = 0x8000 + p then some (0x8000 + p)
  else if d < 256 ∧ u.member d p then some d else none

/-- SEQ_OPEN (R302). -/
def execSeqOpen (t : Nat) (s : State) : Res :=
  .next <| match s.runCmd t .seqOpen with
    | none => s
    | some o =>
      let s := s.meterOp o
      let slot := fld o.desc 16 1 % 8
      match openDomain (s.setupOf o.gen) o.part (fld o.desc 18 2) with
      | none => s.endOp t stProt 0 0 0
      | some d =>
        if (s.bound o.part slot).isNone then s.endOp t stProfile 0 0 0
        else match s.freeSeq with
          | none => s.endOp t stNotStarted 6 0 0
          | some (n, s) =>
            ((s.setSeq n { part := o.part, slot := slot, domain := d }).touch (.seq n)).endOp t stDone 0 n 0

/-- Copies leaf entry `b` of sequence `n` into sequence `m`, taking a reference and setting SHARED on both (R303, R53). -/
def State.forkLeaf (s : State) (n m b : Nat) (l : Leaf) : State :=
  if l.st = .absent then s.setLeaf m b (some l)
  else
    let s := s.modFrame l.fid fun f => { f with refs := f.refs + 1 }
    ((s.touch (.header l.fid)).setLeaf m b (some { l with shared := true })).setShared n b true

/-- R74: a block below length `l` of the sequence refers to a frame under recount. -/
def State.forkBlocked (s : State) (q : Seq) (l : Nat) : Bool :=
  q.leaves.any fun e => e.1 < (l + 15) / 16 && (s.frame? e.2.fid).any (·.underRecount)

/-- SEQ_FORK (R303); ABSENT, with no SEQ assigned, while a frame it would share is under recount (R74). -/
def execSeqFork (t : Nat) (s : State) : Res :=
  .next <| match s.runCmd t .seqFork with
    | none => s
    | some o =>
      let s := s.meterOp o
      let n := dSeq o.desc
      match s.seqOf o.part n with
      | none => s.endOp t stProt 0x0A 0 0
      | some q =>
        let l := if fld o.desc 12 4 = 0 then q.length else fld o.desc 12 4
        if l > q.length then s.endOp t stBad 0x800C 0 0
        else if s.forkBlocked q l then s.endOp t stAbsent 0 0 0
        else match s.freeSeq with
          | none => s.endOp t stNotStarted 6 0 0
          | some (m, s) =>
            let new : Seq := {
              part := o.part, slot := q.slot, domain := q.domain, length := l
              pend := q.pend.filter fun e => e.1 < l / 16 }
            let s := (s.setSeq m new).touch (.seq m)
            let s := (q.leaves.filter fun e => e.1 < (l + 15) / 16).foldl (fun s e => s.forkLeaf n m e.1 e.2) s
            s.endOp t stDone 0 m 0

/-- SEQ_TRUNCATE (R304). -/
def execSeqTruncate (t : Nat) (s : State) : Res :=
  .next <| match s.runCmd t .seqTruncate with
    | none => s
    | some o =>
      let s := s.meterOp o
      let n := dSeq o.desc
      match s.seqOf o.part n with
      | none => s.endOp t stProt 0x0A 0 0
      | some q =>
        let l := fld o.desc 12 4
        if l > q.length then s.endOp t stBad 0x800C 0 0 else
        let (k, s) := s.cutLeaves n ((l + 15) / 16) (some t)
        let s := s.dropPend n (· ≥ l / 16)
        let s := match s.seq? n with
          | some q => (s.setSeq n { q with length := l }).touch (.seq n)
          | none => s
        s.endOp t stDone 0 k 0

/-- SEQ_DISCARD (R304, R77). -/
def execSeqDiscard (t : Nat) (s : State) : Res :=
  .next <| match s.runCmd t .seqDiscard with
    | none => s
    | some o =>
      let s := s.meterOp o
      match s.seqOf o.part (dSeq o.desc) with
      | none => s.endOp t stProt 0x0A 0 0
      | some _ =>
        let (k, s) := s.discardSeq (dSeq o.desc) (some t)
        s.endOp t stDone 0 k 0

/-! ### Inspection (R307) -/

/-- A sequence record (Table 2.2). -/
def seqBytes (n : Nat) (q : Seq) : Bytes :=
  leBytes 4 (n + 2 ^ 24 * q.part) ++ leBytes 1 (q.slot + 8 * (if q.releasing then 2 else 1)) ++ leBytes 3 0
    ++ leBytes 4 q.length ++ leBytes 4 (Config.handle 0 n).toNat ++ leBytes 2 q.domain ++ leBytes 14 0

/-- A leaf entry (Table 2.4). -/
def leafWord : Option Leaf → Nat
  | none => 0
  | some l => match l.st with
    | .absent => 3 * 2 ^ 32
    | .opened => l.fid + 2 ^ 32 + 2 ^ 35 * b2n l.shared
    | .sealed => l.fid + 2 * 2 ^ 32 + 2 ^ 35 * b2n l.shared

/-- The code of a slice state (Table 2.5). -/
def SliceSt.code : SliceSt → Nat
  | .notWritten => 0
  | .present => 1
  | .absent => 2

/-- A frame header of 320 B (Table 2.5), REFCOUNT `refs`. -/
def headerBytes (fid : Nat) (f : Frame) (refs : Nat) : Bytes :=
  let st := match f.st with | .opened => 1 | .sealed => 2 | .condemned => 3
  leBytes 4 fid ++ leBytes 4 refs ++ leBytes 1 st ++ leBytes 1 f.fill ++ leBytes 1 f.profile ++ leBytes 1 f.flags
    ++ leBytes 1 f.creator ++ leBytes 1 0 ++ leBytes 2 f.domain ++ leBytes 4 f.condEpoch
    ++ leBytes 4 (if f.keyed then (Config.handle 1 fid).toNat else 0) ++ leBytes 2 f.present ++ leBytes 2 f.absent
    ++ leBytes 4 f.source ++ leBytes 32 0
    ++ (List.range 256).map fun i => if i < f.layers then
        BitVec.ofNat 8 ((f.slice i).fill + 32 * (f.slice i).st.code) else 0

/-- A residency record (Table 4.2). (log 20, DEDUCED) -/
def residency (l : Slice) (readers : Nat) : Bytes :=
  let lo := b2n l.inT0 + 2 * b2n l.inT1 + 4 * b2n l.inT2 + 8 * b2n l.inTN + 16 * l.lender + 256 * b2n l.dirtyT1
    + 512 * b2n l.dirtyLow + 1024 * b2n l.lossy + 2048 * b2n l.durableDone + 4096 * b2n l.condemned + (if l.condemned then 8192 * l.condTier else 0)
  leBytes 2 lo ++ leBytes 2 l.version.toNat ++ leBytes 4 l.lastUse ++ leBytes 4 (if l.condemned then l.condEpoch else 0) ++ leBytes 2 readers
    ++ leBytes 2 0

/-- INSPECT_SEQ (R307). -/
def execInspectSeq (t : Nat) (s : State) : Res :=
  .next <| match s.runCmd t .inspectSeq with
    | none => s
    | some o =>
      let s := s.meterOp o
      let n := dSeq o.desc
      match s.seqOf o.part n with
      | none => s.endOp t stProt 0x0A 0 0
      | some q =>
        let k := fld o.desc 20 2
        let body := (List.range k).flatMap fun i => leBytes 8 (leafWord (mget? q.leaves (fld o.desc 16 4 + i)))
        let r := s.writeOut t o 0 (fld o.desc 24 8) (seqBytes n q ++ body)
        r.2.2.finishOut t stDone 0 k r.1 r.2.1

/-- REFCOUNT as it shows: while the frame is under recount, what has been counted so far, a free value (R74). (log 43, DESIGN CHOICE) -/
def State.shownRefs (s : State) (fid : Nat) (f : Frame) : Nat :=
  if f.underRecount then Config.countSoFar fid s.up % (s.refsOf fid + 1) else f.refs

/-- One record of INSPECT_FRAME, `z` bytes long. -/
def State.frameRecord (s : State) (t n z b : Nat) : Bytes :=
  match (s.leafFor (some t) n b).bind fun l => (s.frame? l.fid).map fun f => (l.fid, f) with
  | some (fid, f) => padTo (headerBytes fid f (s.shownRefs fid f) ++ (List.range f.layers).flatMap fun i => residency (f.slice i) (s.readersAt fid i)) z
  | none => List.replicate z 0

/-- INSPECT_FRAME (R307). -/
def execInspectFrame (t : Nat) (s : State) : Res :=
  .next <| match s.runCmd t .inspectFrame with
    | none => s
    | some o =>
      let s := s.meterOp o
      let n := dSeq o.desc
      match s.seqOf o.part n with
      | none => s.endOp t stProt 0x0A 0 0
      | some _ =>
        let k := fld o.desc 20 2
        let z := roundUp (320 + 16 * (s.seqGeo o.part n).layers) 64
        let body := (List.range k).flatMap fun i => s.frameRecord t n z (fld o.desc 16 4 + i)
        let r := s.writeOut t o 0 (fld o.desc 24 8) body
        r.2.2.finishOut t stDone 0 k r.1 r.2.1

end Sys2Proof.Machine
end

