-- ==== Sys2Proof/Machine/PageMover.lean ====
section
/-! DEFINITION. The commands of the page mover: COPY, SLICE_WRITE, SLICE_READ and STAGE (R294-R301). -/

namespace Sys2Proof.Machine

/-! ### COPY (R294-R297) -/

/-- One row of a COPY converted, and the groups with the reserved scale byte (R295). -/
def convRow (conv rowBytes : Nat) (bs : Bytes) : Bytes × Nat :=
  let n := rowBytes / 256
  match conv with
  | 1 =>
    let gs := (cut (List.replicate n 128) (bfOfBytes bs)).map compressGroup
    ((gs.flatMap (·.1)).map (BitVec.ofNat 8) ++ gs.map fun g => BitVec.ofNat 8 g.2, 0)
  | 2 =>
    let gs := (List.range n).map fun i => (fld bs (128 * n + i) 1, slice bs (128 * i) 128)
    (gs.flatMap fun g => if g.1 = 255 then bfBytes (List.replicate 128 0x7FC0) else
      bfBytes (g.2.map fun b => widen g.1 b.toNat), (gs.filter fun g => g.1 == 255).length)
  | _ => (bs, 0)

/-- How a COPY goes (R296). -/
inductive CopyWay where
  | alias_ | ascending | descending | staged | tooLarge
  deriving DecidableEq, Repr

/-- Two operand extents overlap (R296): the same HOST or WINDOW space, intersecting ranges. -/
def extentsMeet (src m dst n : Nat) : Bool :=
  spaceOf src == spaceOf dst && spaceOf src ≤ 1 && offOf src < offOf dst + n && offOf dst < offOf src + m

/-- The rule of R296 that fits a COPY descriptor. -/
def copyWay (d : Bytes) : CopyWay :=
  let rows := fld d 28 4
  let conv := bits (fld d 40 1) 0 2
  let (ls, ld) := copyLens conv (fld d 24 4)
  let ss := if rows = 1 then 0 else fld d 32 4
  let ds := if rows = 1 then 0 else fld d 36 4
  let src := fld d 8 8
  let dst := fld d 16 8
  if rows > 1 ∧ ds < ld then .alias_
  else if !extentsMeet src (extent rows ss ls) dst (extent rows ds ld) then .ascending
  else if conv = 0 ∧ ss = ds then (if offOf dst > offOf src then .descending else .ascending)
  else if rows * ls ≤ 262144 then .staged
  else .tooLarge

/-- The source rows of a COPY as they stand. -/
def State.copySource (s : State) (o : Op) : List Bytes :=
  let d := o.desc
  let rows := fld d 28 4
  let (ls, _) := copyLens (bits (fld d 40 1) 0 2) (fld d 24 4)
  (List.range rows).map fun i => s.operand o (fld d 8 8 + i * fld d 32 4) ls

/-- Meters and writes row `i` of a COPY; the frames placed at the end of each row, their sum and whether some were discarded go along. -/
def State.copyRow (t : Nat) (o : Op) (acc : List Nat × Nat × Bool × State) (r : Nat × Bytes) : List Nat × Nat × Bool × State :=
  let d := o.desc
  let conv := bits (fld d 40 1) 0 2
  let (bs, bad) := convRow conv (fld d 24 4) r.2
  let (col, s) := acc.2.2.2.meterItem o.part o.cls bs.length 0 false
  let s := (s.readIn o col (fld d 8 8) r.2.length).2
  let s := if bad = 0 then s else s.bump 0x6090 5 bad
  let w := s.writeOutVia (conv != 0) t o col (fld d 16 8 + r.1 * fld d 36 4) bs
  let cut := acc.2.2.1 || w.2.1
  let k := acc.2.1 + w.1
  (if cut then acc.1 else acc.1 ++ [k], k, cut, w.2.2)

/-- Writes every row of a COPY in traversal order, with `down` from the last row on; R297: the destination receives what a copy through a temporary
buffer gives. -/
def State.copyRows (s : State) (t : Nat) (o : Op) (down : Bool) : List Nat × Nat × Bool × State :=
  let rs := s.copySource o
  let rows := (List.range rs.length).zip rs
  (if down then rows.reverse else rows).foldl (State.copyRow t o) ([], 0, false, s)

/-- COPY (R294-R297). (log 6, DEDUCED) -/
def execCopy (t : Nat) (s : State) : Res :=
  .next <| match s.runCmd t .copy with
    | none => s
    | some o =>
      let go := fun (s : State) st =>
        let r := s.copyRows t o (copyWay o.desc == .descending)
        r.2.2.2.finishUnits t st r.2.1 r.2.2.1 r.1
      match copyWay o.desc with
      | .alias_ => (s.bump 0x6090 4).endOp t stAlias 0 0 0
      | .tooLarge => s.endOp t stBad 5 0 0
      | .ascending => go s stDone
      | .descending => go (s.bump 0x6090 2) stDone
      | .staged => go (s.bump 0x6090 3) stStaged

/-! ### SLICE_WRITE (R298, R299) -/

/-- The j-th slice write of a SLICE_WRITE, in the order of R298, with the bytes of its rows. -/
def State.writeArg (s : State) (t : Nat) (o : Op) (j : Nat) : WArg :=
  let d := o.desc
  let first := fld d 12 4
  let last := first + fld d 16 4
  let lc := fld d 21 2
  let b := first / 16 + j / lc
  let k := j % lc
  let n := dSeq d
  let g := s.seqGeo o.part n
  let lo := max first (16 * b)
  let hi := min last (16 * b + 16)
  let src := fld d 24 8 + k * fld d 32 4 + (lo - first) * 2 * g.w
  let rows := (List.range (hi - lo)).map fun i => storeRow g (bfOfBytes (s.operand o (src + i * 2 * g.w) (2 * g.w)))
  { tag := t, op := o, setup := s.setupOf o.gen, seq := n, block := b, layer := fld d 20 1 + k, r0 := lo - 16 * b
    rows := rows, flags := fld d 11 1 }

/-- Slice writes a SLICE_WRITE makes. -/
def writeCount (d : Bytes) : Nat :=
  ((fld d 12 4 + fld d 16 4 - 1) / 16 - fld d 12 4 / 16 + 1) * fld d 21 2

/-- Metering and traffic of one applied slice write (R332, R322), its count, and what a DURABLE write then awaits (R163). -/
def State.wrote (s : State) (a : WArg) (fid : Nat) : State :=
  let o := a.op
  let g := s.seqGeo o.part a.seq
  let (col, s) := s.meterItem o.part o.cls g.sliceBytes 0 false
  let n := a.rows.length * 2 * g.w
  let k := s.opPort o
  let s := if spaceOf (fld o.desc 24 8) = 0 then s.pcieUnits o.part k o.cls col 1 n else s
  let s := if g.fp8 ∧ k < 2 then s.rindPut (portSeg (176 + k)) { cls := o.cls, sub := o.part, len := n } else s
  let s := (s.hbmUnits fid a.layer o.part o.cls col n).bump 0x6090 6
  match s.op? a.tag, s.frame? fid with
  | some o, some f =>
    let keys : List MetaKey := [.header fid, .leaf a.seq (a.block / 256), .seq a.seq]
    let w : DurWait := {
      fid := fid, layer := a.layer, stamp := f.stamp, version := (f.slice a.layer).version
      marks := s.media.metaPend.filter fun m => keys.contains m.1 }
    let o := { o with pos := o.pos + 1, progress := o.progress + 1, got := [], pins := [] }
    s.setOp a.tag (if bit f.flags fDurable then { o with slices := o.slices ++ [w] } else o)
  | _, _ => s

/-- SLICE_WRITE `t` waits for space (R147, R565): counted, and given its deadline, at its first wait; the slice it writes stays pinned. -/
def State.allocWait (s : State) (t : Nat) (o : Op) (a : WArg) : State :=
  let dl := o.allocAt.getD (s.up + ms (s.obj 0x1100 0x0B 10))
  let s := if o.allocAt.isNone then s.bump 0x6040 0x0C else s
  let pin := ((s.leafFor (some t) a.seq a.block).filter (·.st != .absent)).map fun l => (l.fid, a.layer)
  s.setOp t { o with st := .allocWait dl, allocAt := some dl, pins := pin.toList }

/-- Goes on with a SLICE_WRITE for up to `n` slice writes. -/
def State.sliceWrites (s : State) (t : Nat) : Nat → State
  | 0 => s
  | n + 1 =>
    match s.op? t with
    | none => s
    | some o =>
      if o.pos ≥ writeCount o.desc then s.finishOp t stDone 0 o.progress o.durable 0 o.slices
      else
        let a := s.writeArg t o o.pos
        match s.writeSlice a with
        | .done s fid => (s.wrote a fid).sliceWrites t n
        | .fail st s => s.finishOp t st 0 o.progress o.durable 0 o.slices
        | .need ks s => match s.fetchSlices t o.cls 0 ks with
          | (true, s) => s.sliceWrites t n
          | (false, s) => s
        | .wait s => s.allocWait t o a

/-- SLICE_WRITE (R298, R299): goes on until it ends, waits for a read, or waits for space (R147). (log 6, DEDUCED) -/
def execSliceWrite (t : Nat) (s : State) : Res :=
  .next <| match s.runCmd t .sliceWrite with
    | none => s
    | some o =>
      match s.seqOf o.part (dSeq o.desc) with
      | none => s.finishOp t stProt 0x0A o.progress o.durable 0 o.slices
      | some _ => s.sliceWrites t (2 * writeCount o.desc + 2)

/-- ALLOC_WAIT_RESUME (R147, R565): a write that waits for space tries again; its deadline stays. -/
def execAllocWaitResume (t : Nat) (s : State) : Res :=
  .next <| match s.op? t with
    | some o => match o.st with
      | .allocWait _ => (s.setOp t { o with st := .ready }).sliceWrites t (2 * writeCount o.desc + 2)
      | _ => s
    | none => s

/-! ### SLICE_READ (R300) -/

/-- The slices of layers `ls` of `n` blocks from `b` on, as operation `t` finds them. -/
def State.rangeSlices (s : State) (t n b k : Nat) (ls : List Nat) : List (Nat × Nat) :=
  (List.range k).flatMap fun i => match s.leafFor (some t) n (b + i) with
    | some l => if l.st = .absent then [] else ls.map fun y => (l.fid, y)
    | none => []

/-- Bit k of an absent map in `n` bytes (R300). -/
def absentMap (n : Nat) (ks : List Nat) : Bytes := leBytes n ((ks.map fun k => 2 ^ k).sum)

/-- The bytes of a slice as SLICE_READ delivers them: tiles as stored (R45) or expanded (R47). -/
def deliver (g : Geo) (up : Bytes) (expand : Bool) (layer h0 n : Nat) (d : SliceData) : Bytes :=
  (if expand then tilesExpanded g up layer h0 n d else tilesStored g d).flatten

/-- What a SLICE_READ has done so far. -/
structure ReadAcc where
  s : State
  acks : Nat := 0
  cut : Bool := false
  units : List Nat := []
  absent : List Nat := []
  media : Bool := false
  lease : Bool := false
  down : Bool := false

/-- Delivers slice `k` of a SLICE_READ. -/
def ReadAcc.one (t : Nat) (o : Op) (a : ReadAcc) (k : Nat) : ReadAcc :=
  let d := o.desc
  let n := dSeq d
  let layer := fld d 20 1
  let ex := bit (fld d 23 1) 0
  let g := a.s.seqGeo o.part n
  let pf := (a.s.bound o.part (((a.s.seq? n).map Seq.slot).getD 0)).getD 0
  let z := g.delivery ex (fld d 26 1)
  let lf := a.s.leafFor (some t) n (fld d 12 2 + k)
  let found := a.s.findSlice o lf layer
  let (col, s) := a.s.meterItem o.part o.cls z 0 false
  let s := if lf.isSome then s.demand o.part found else s
  let put := fun (rows : SliceData) =>
    let s := match lf with
      | some l => (s.pin l.fid layer false).hbmUnits l.fid layer o.part o.cls col g.sliceBytes
      | none => s
    let bs := deliver g (s.blobOf (0x1300 + pf) 15) ex layer (fld d 24 2) (fld d 26 1) rows
    let w := s.writeOutVia ex t o col (fld d 32 8 + k * z) bs
    let cut := a.cut || w.2.1
    let k := a.acks + w.1
    { a with s := w.2.2.bump 0x6090 7, acks := k, cut := cut, units := if cut then a.units else a.units ++ [k] }
  match found with
  | .data rows => put rows
  | .zero => put []
  | .status st => { a with
      s := s, absent := a.absent ++ [k], media := a.media || st == stMedia, lease := a.lease || st == stLease, down := a.down || st == stLinkDown }

/-- The status of a read by R316. -/
def ReadAcc.status (a : ReadAcc) : Nat :=
  if a.cut || a.down then stLinkDown else if a.media then stMedia else if a.lease then stLease
  else if a.absent.isEmpty then stDone else stAbsent

/-- A SLICE_READ whose slices have arrived is delivered, with its absent map. -/
def State.sliceReadDone (s : State) (t : Nat) (o : Op) : State :=
  let d := o.desc
  let a := (List.range (fld d 16 4)).foldl (ReadAcc.one t o) { s := s }
  let w := if fld d 40 8 = 0 then (0, false, a.s)
    else a.s.writeOut t o 0 (fld d 40 8) (absentMap (roundUp ((fld d 16 4 + 7) / 8) 8) a.absent)
  let a := { a with s := w.2.2, acks := a.acks + w.1, cut := a.cut || w.2.1 }
  a.s.finishUnits t a.status a.acks a.cut a.units

/-- SLICE_READ (R300): slices in T2 or TN only are read first (PAGE_READ_DONE, DATA_RESPONSE); then all are delivered. -/
def execSliceRead (t : Nat) (s : State) : Res :=
  .next <| match s.runCmd t .sliceRead with
    | none => s
    | some o =>
      let d := o.desc
      match s.fetchSlices t o.cls 0 (s.rangeSlices t (dSeq d) (fld d 12 2) (fld d 16 4) [fld d 20 1]) with
      | (false, s) => s
      | (true, s) =>
        match s.op? t with
        | none => s
        | some o => s.sliceReadDone t o

/-! ### STAGE (R301) -/

/-- What a STAGE has done: slices with a T1 copy, whether some are ABSENT, dropped as red or left without a copy. -/
structure StageAcc where
  s : State
  staged : Nat := 0
  absent : Bool := false
  partly : Bool := false
  media : Bool := false
  lease : Bool := false
  down : Bool := false

/-- Looks at one slice after its read ended. -/
def StageAcc.one (o : Op) (a : StageAcc) (k : Nat × Nat) : StageAcc :=
  let s := a.s
  match s.frame? k.1 with
  | none => { a with absent := true }
  | some f =>
    let l := f.slice k.2
    match l.st, o.gotOf k.1 k.2 with
    | .notWritten, _ => a
    | .absent, some (st, _) => { a with absent := true, media := a.media || st == stMedia, lease := a.lease || st == stLease }
    | .absent, none => { a with absent := true }
    | .present, some (0, d) =>
      let (ok, s) := if l.top.isSome then (true, s) else s.promote k.1 k.2 o.part o.cls d
      if ok then { a with s := s, staged := a.staged + 1 } else { a with s := s, partly := true }
    | .present, some (st, _) =>
      if l.top.isSome then { a with staged := a.staged + 1 }
      else { a with
          media := a.media || st == stMedia, lease := a.lease || st == stLease, down := a.down || st == stLinkDown, partly := true }
    | .present, none =>
      if l.top.isSome then { a with s := s.pin k.1 k.2 false, staged := a.staged + 1 } else { a with partly := true }

/-- Meters the slices of a STAGE: those to stage, and whether some were dropped as red (R334, R335). (log 38, DEDUCED) -/
def State.stageMeter (s : State) (o : Op) (ks : List (Nat × Nat)) : List (Nat × Nat) × Bool × State :=
  ks.foldl (fun (acc : List (Nat × Nat) × Bool × State) k =>
    let n := ((acc.2.2.frame? k.1).map fun f => (acc.2.2.frameGeo f).sliceBytes).getD 0
    let (col, s) := acc.2.2.meterItem o.part o.cls n 0 true
    if col = 3 then (acc.1, true, s) else (acc.1 ++ [k], acc.2.1, s)) ([], false, s)

/-- The slices `ks` of a STAGE, whose reads ended, are staged; `red` tells that some were dropped as red. -/
def State.stageDone (s : State) (t : Nat) (o : Op) (ks : List (Nat × Nat)) (red : Bool) : State :=
  let d := o.desc
  let gone : Bool := (List.range (fld d 16 4)).any fun i => match s.leafFor (some t) (dSeq d) (fld d 12 2 + i) with
    | some l => l.st == LeafSt.absent
    | none => false
  let a := ks.foldl (StageAcc.one o) { s := s, absent := gone, partly := red }
  let st := if a.down then stLinkDown else if a.media then stMedia else if a.lease then stLease else if a.absent then stAbsent
    else if a.partly then stPartial else stDone
  a.s.finishOp t st 0 a.staged 0 0 []

/-- STAGE (R301). The slices are metered once, when the command first runs (`aux` then is 1, or 2 after a drop); those dropped
are not staged. -/
def execStage (t : Nat) (s : State) : Res :=
  .next <| match s.runCmd t .stage with
    | none => s
    | some o =>
      let d := o.desc
      let n := dSeq d
      let b := fld d 12 2
      let k := fld d 16 4
      let ls := (List.range (fld d 21 2)).map (· + fld d 20 1)
      let all := s.rangeSlices t n b k ls
      let (ks, red, s) := if o.aux = 0 then s.stageMeter o all else (o.todo, o.aux == 2, s)
      let s := match s.op? t with
        | some o => s.setOp t { o with
            aux := if red then 2 else 1, todo := ks }
        | none => s
      match s.fetchSlices t o.cls 0 ks with
      | (false, s) => s
      | (true, s) =>
        match s.op? t with
        | none => s
        | some o => s.stageDone t o ks red

end Sys2Proof.Machine
end

