-- ==== Sys2Proof/Machine/Link.lean ====
section
/-! DEFINITION. The receive and transmit sides of a Kwaxel link: acceptance, acknowledgement, credits, replay (R492-R505),
training (R520-R522) and the lending of memory (R511-R513). -/

namespace Sys2Proof.Machine

/-! ### Credits (R498-R500) -/

/-- RX_CREDITS of link `n` for VL `v`; the default of R500. -/
def State.rxCredits (s : State) (n v : Nat) : Nat :=
  let b := s.blobOf (lIx n 0) 4
  if b.isEmpty then (if v = 0 then 256 else if v ≤ 5 then 128 else 64) else fld b (2 * v) 2

/-- Sends a CREDIT frame with the current limits (R499). -/
def State.sendCredit (s : State) (n : Nat) : State :=
  let l := s.link n
  { s with out := s.out ++ [Out.control n 3 ((List.range 8).flatMap fun v => leBytes 2 (mget l.rxLimit v 0))] }

/-- Returns the credits of a frame that leaves the receive buffer; the change of LIMIT is sent (R498, R499). -/
def State.returnCredits (s : State) (n vl c : Nat) : State :=
  let l := s.link n
  (s.setLink n { l with rxLimit := mset l.rxLimit vl ((mget l.rxLimit vl 0 + c) % 65536) }).sendCredit n

/-! ### Acceptance (R504, Table 16.5) -/

/-- Sends ACK(EXPECTED − 1). -/
def State.sendAck (s : State) (n : Nat) : State :=
  let l := s.link n
  let s := { s with out := s.out ++ [Out.control n 4 (leBytes 4 ((l.expected + 2 ^ 24 - 1) % 2 ^ 24))] }
  s.setLink n { l with acked := 0, ackDue := none }

/-- Sends NAK(EXPECTED). -/
def State.sendNak (s : State) (n : Nat) : State :=
  let l := s.link n
  let s := { s with out := s.out ++ [Out.control n 5 (leBytes 4 l.expected)] }
  (s.setLink n { l with nakAt := some s.up }).linkCount n 8

/-- Accepts a reliable frame of `len` bytes on VL `vl` of a link that is UP. none: the link is not UP, or went down because the
frame needs more credits than its VL holds (R496). (log 7, DEDUCED) -/
def State.accept (s : State) (n vl len : Nat) : Option State :=
  let l := s.link n
  if l.st ≠ .up then none else
  let c := (len + 255) / 256
  let l := { l with
    expected := (l.expected + 1) % 2 ^ 24
    rxUsed := mset l.rxUsed vl ((mget l.rxUsed vl 0 + c) % 65536)
    nakAt := none, spoiled := false, acked := l.acked + 1, ackDue := some (l.ackDue.getD (s.up + 500)) }
  let rec_ := (s.link n).nakAt.isSome && (s.link n).spoiled
  let s := ((s.setLink n l).linkCount n 2).linkCount n 4 len
  let s := if rec_ then s.linkCount n 0x0C else s
  some (if l.acked ≥ 32 then s.sendAck n else s)

/-- The VL has the credits for a frame of `len` bytes. -/
def State.hasCredits (s : State) (n vl len : Nat) : Bool :=
  let l := s.link n
  (mget l.rxLimit vl 0 + 65536 - mget l.rxUsed vl 0) % 65536 ≥ (len + 255) / 256

/-- A frame counted as rejected (R497, R507, R512). -/
def State.reject (s : State) (n : Nat) : State := s.linkCount n 0x11

/-! ### Frames held back (R502) -/

/-- The sender of a ZDP request and its payload bytes (Table 12.5); a row of a DOMAIN object stands for the SEG_END of its write. -/
def zdpOf (i : Instr) : Option (Zdp × Nat) :=
  match i with
  | .ottHwmRead z _ => some (z, 0)
  | .ottReserveWrite z _ v => some (z, v.length)
  | .ottCapWrite z _ v => some (z, v.length)
  | .mediaSync z => some (z, 1)
  | .shutdownPrepare z => some (z, 1)
  | .domainPurge z v => some (z, v.length)
  | .shareDomainWrite z _ _ v => some (z, v.length)
  | .profileBindingWrite z _ _ v => some (z, v.length)
  | .upprojWrite z _ _ => some (z, 4)
  | .projWrite z _ _ => some (z, 4)
  | .indexGeometryWrite z _ _ v => some (z, v.length)
  | .planWrite z _ _ _ => some (z, 4)
  | .leafStatsRead z _ _ _ => some (z, 0)
  | .leafCfgWrite z _ _ _ v => some (z, v.length)
  | .nodeCfgWrite z _ _ v => some (z, v.length)
  | .meterCfgWrite z _ _ v => some (z, v.length)
  | .derateWrite z _ v => some (z, v.length)
  | .histReset z => some (z, 1)
  | .snapshotRequest z v => some (z, v.length)
  | .jobResume z _ v => some (z, v.length)
  | .partitionReset z _ v => some (z, v.length)
  | .partitionDisable z _ v => some (z, v.length)
  | .protectionWrite z _ _ v => some (z, v.length)
  | .protectionBatch z _ => some (z, 4)
  | .frameQuotaWrite z _ v => some (z, v.length)
  | .zdpOpen z _ _ => some (z, 2)
  | .zdpClose z => some (z, 0)
  | .describe z _ _ => some (z, 0)
  | .read z _ _ => some (z, 0)
  | .write z _ _ v => some (z, v.length)
  | .segReadInit z _ _ => some (z, 0)
  | .segWriteInit z _ _ _ => some (z, 4)
  | .segData z _ _ _ d => some (z, 4 + d.length)
  | .segEnd z _ _ _ => some (z, 4)
  | .segAbort z _ _ => some (z, 0)
  | .watch z _ _ => some (z, 0)
  | .unwatch z _ _ => some (z, 0)
  | .kxlOwnerLinksWrite z _ v => some (z, v.length)
  | .restart z v => some (z, v.length)
  | .startFailClear z v => some (z, v.length)
  | .firmwareUpdate z _ => some (z, 4)
  | .firmwareActivate z v => some (z, v.length)
  | .defectAdd z v => some (z, v.length)
  | .factoryToken z _ => some (z, 4)
  | .forensicRead z v _ => some (z, v.length)
  | .refSelect z v => some (z, v.length)
  | .timeSet z v => some (z, v.length)
  | .collSetsWrite z _ => some (z, 4)
  | .lendEnable z v => some (z, v.length)
  | .lendBytes z v => some (z, v.length)
  | .borrowBytes z v => some (z, v.length)
  | .linkEnable z _ v => some (z, v.length)
  | _ => none

/-- The virtual lane, LENGTH and partition of a received frame that the module may hold back. -/
def heldFrame (i : Instr) : Nat × Nat × Nat :=
  match i with
  | .submit r => (r.vl, 36 + r.payload.length, r.part)
  | .tail r => (r.vl, 36 + r.payload.length, r.part)
  | .cjHead r => (r.vl, 36 + r.payload.length, r.part)
  | .pull r => (r.vl, 36 + r.payload.length, r.part)
  | .windowWrite r => (r.vl, 36 + r.payload.length, r.part)
  | .windowRead r => (r.vl, 36 + r.payload.length, r.part)
  | .leaseRead r => (r.vl, 36 + r.payload.length, 64)
  | .markStepBegin _ p _ => (0, 36, p)
  | .markStart _ p _ _ => (0, 36, p)
  | .collFrame _ vl _ _ _ _ p _ _ _ d => (vl, 36 + d.length, p)
  | .dataResponse _ vl _ _ _ _ d => (vl, 36 + d.length, 64)
  | .leaseWrite _ vl _ _ d => (vl, 36 + d.length, 64)
  | .sinkFrameReject _ vl _ d => (vl, 36 + d.length, 64)
  | i => (7, match zdpOf i with
    | some (_, n) => 44 + n
    | none => 36, 64)

/-- Holds a frame back (R502); REQs are counted (0x10). -/
def State.hold (s : State) (n : Nat) (i : Instr) : State :=
  let s := s.setLink n { s.link n with held := (s.link n).held ++ [i] }
  match i with
  | .submit _ => s.linkCount n 0x10
  | .tail _ => s.linkCount n 0x10
  | .cjHead _ => s.linkCount n 0x10
  | .pull _ => s.linkCount n 0x10
  | .windowWrite _ => s.linkCount n 0x10
  | .windowRead _ => s.linkCount n 0x10
  | .leaseRead _ => s.linkCount n 0x10
  | _ => s

/-- A REQ that finds no ring entry or no OTT entry has its credits withheld (REQ_CREDIT_WITHHOLDS, R266, R278). -/
def State.withhold (s : State) (i : Instr) : State :=
  match i with
  | .submit _ => s.bump 0x6080 7
  | .pull _ => s.bump 0x6080 7
  | _ => s

/-- LENGTH and VL lie within the ranges of the frame's type (R496, Table 16.2): a MGMT frame carries at most 8,200 B, any other 8,192 B. -/
def frameFits (i : Instr) (vl len : Nat) : Bool := vl < 8 && len ≤ 36 + (if (zdpOf i).isSome then 8200 else 8192)

/-- Frame `i` of `len` bytes arrives on VL `vl` of link `n` as R504 accepts it. It is applied and its credits return; where `apply` cannot
apply it yet, or an earlier frame of its VL waits, it is held back (R502). A frame out of its type's range or beyond its VL's credits takes the
link down (R496). -/
def State.receiveRes (s : State) (n vl len : Nat) (i : Instr) (apply : State → Option Res) : Res :=
  if (s.link n).st ≠ .up then .next s
  else if !(frameFits i vl len && s.hasCredits n vl len) then .next (s.linkDown n 3 .down)
  else match s.accept n vl len with
    | none => .next s
    | some s =>
      if (s.link n).held.any fun h => (heldFrame h).1 == vl then .next (s.hold n i)
      else match apply s with
        | some (.next t) => .next (if (t.link n).st = .up then t.returnCredits n vl ((len + 255) / 256) else t)
        | some r => r
        | none => .next ((s.hold n i).withhold i)

/-- `receiveRes` for frames whose application never stops. (log 7, DEDUCED) -/
def State.receive (s : State) (n vl len : Nat) (i : Instr) (apply : State → State) : State :=
  match s.receiveRes n vl len i fun s => some (.next (apply s)) with
  | .next t => t
  | _ => s

/-- Discards the held frames of partition `p` on every link and returns their credits (R522). -/
def State.dropHeld (s : State) (p : Nat) : State :=
  s.lk.links.foldl (fun s e =>
    let gone := e.2.held.filter fun i => (heldFrame i).2.2 == p
    if gone.isEmpty then s else
    let s := s.setLink e.1 { s.link e.1 with held := e.2.held.filter fun i => (heldFrame i).2.2 != p }
    gone.foldl (fun s i => s.returnCredits e.1 (heldFrame i).1 (((heldFrame i).2.1 + 255) / 256)) s) s

/-! ### Transmission (R505, Table 16.6) -/

/-- Releases the replay buffer's frames before position `k`; their operations see them acknowledged. -/
def State.releaseFrames (s : State) (n k : Nat) : State :=
  let l := s.link n
  let gone := l.replay.take k
  let s := s.setLink n { l with replay := l.replay.drop k, replayCount := if k = 0 then l.replayCount else 0 }
  gone.foldl (fun s f => match f.tag with
    | some t => s.ackOne t
    | none => s) s

/-- Resends every unacknowledged frame in FSEQ order; the link goes down when REPLAY_COUNT exceeds 8 (R505). -/
def State.replayAll (s : State) (n : Nat) : State :=
  let l := s.link n
  if l.replayCount + 1 > 8 then s.linkDown n 2 .down else
  let again := l.replay.map fun (t : TxFrame) => Out.frame n t.fseq t.f
  let sent := l.replay.map fun (t : TxFrame) => { t with sentAt := s.up }
  let s := { s with out := s.out ++ again }
  let s := s.setLink n { l with replayCount := l.replayCount + 1, replaying := false, replay := sent }
  s.linkCount n 0x0A l.replay.length

/-! ### Lending (R511-R513) -/

/-- Module partners, each with its lowest UP link (R511). -/
def State.partners (s : State) : List (Nat × Nat) :=
  (s.lk.links.filter fun e => e.2.st == .up && e.2.role == 1).foldl (fun acc e =>
    if acc.any fun p => p.2 == e.2.partner then acc else acc ++ [(e.1, e.2.partner)]) []

/-- Bytes on offer: LEND_BYTES − LENT_BYTES rounded down to 1 GiB, while LEND_ENABLE is 1. -/
def State.onOffer (s : State) : Nat :=
  if s.obj 0x1A10 1 0 = 0 then 0 else (s.obj 0x1A10 2 0 - s.lentBytes) / 2 ^ 30 * 2 ^ 30

/-- Sends OFFER to every module partner while LEND_ENABLE is 1 (R511). -/
def State.sendOffers (s : State) : State :=
  if s.obj 0x1A10 1 0 = 0 then s else s.partners.foldl (fun s p => s.sendLend p.1 1 0 0 0 s.onOffer) s

/-- A lent lease ends: its bytes return to the T1 pool (R511), OFFER follows. -/
def State.endLent (s : State) (b : Nat) : State :=
  match mget? s.lk.lent b with
  | some le => (({ s with lk := { s.lk with lent := merase s.lk.lent b } }).leaseEvent (0x100 + b) 8 le.bytes).sendOffers
  | none => s

/-- The lowest of `n` numbers that a table does not list. (log 22, DESIGN CHOICE) -/
def lowFree {α : Type} (m : Map α) (n : Nat) : Option Nat := mfree m 0 n

/-- R512: a borrower short of BORROW_BYTES with a free slot and no request out asks the offering partner on the lowest link.
(log 22, DESIGN CHOICE) -/
def State.borrow (s : State) : State :=
  let want := s.obj 0x1A10 6 0
  if s.lk.asked.isSome ∨ s.tnBytes ≥ want ∨ (lowFree s.lk.leases 16).isNone then s else
  match s.lk.offers.find? fun o => o.2 > 0 && (s.link o.1).st == .up with
  | some o => ({ s with lk := { s.lk with asked := some o.1 } }).sendLend o.1 2 0 0 0 ((want - s.tnBytes + 2 ^ 30 - 1) / 2 ^ 30 * 2 ^ 30)
  | none => s

/-- Table 16.12: BORROWED_BYTES above BORROW_BYTES revokes the newest slots with the lease's notice. -/
def State.borrowCheck (s : State) : State :=
  (s.lk.leases.reverse).foldl (fun s e =>
    let live := ((s.lk.leases.filter fun l => !l.2.revoking).map (·.2.bytes)).sum
    if live > s.obj 0x1A10 6 0 ∧ !e.2.revoking then s.revokeLease e.1 (min e.2.termEnd (s.up + ms e.2.notice)) else s) s

/-! ### Training (R520-R522) -/

/-- The limits granted at a training: RX_CREDITS from dictionary-ready on, 0 before (R522). -/
def State.grants (s : State) (n : Nat) : Map Nat := if s.boot.ready then (List.range 8).map fun v => (v, s.rxCredits n v) else []

/-- Begins attempt `k` of a training; RATE, RATE_FALLBACK and RX_CREDITS are those at its first (Table 16.21). -/
def State.beginAttempt (s : State) (n k : Nat) : State :=
  let l : Link := { s.link n with st := .equalise, attempt := k, since := s.up, eqLanes := [] }
  s.setLink n (if k = 1 then
    { l with rate := s.rateSel n, fallback := s.obj (lIx n 0) 3 1 == 1, rxShare := s.grants n } else l)

/-- The module sends a training block (Table 16.19). -/
def State.sendTraining (s : State) (n : Nat) : State :=
  let l := s.link n
  let rates := if l.rate = 200 then 2 else if l.fallback then 3 else 1
  let body := leBytes 1 0xFF ++ leBytes 1 1 ++ leBytes 1 ((l.eqLanes.map fun i => 2 ^ i).sum) ++ leBytes 1 rates
    ++ leBytes 8 Config.moduleId.toNat ++ (List.range 8).flatMap (fun v => leBytes 2 (mget l.rxShare v 0)) ++ leBytes 4 0
  { s with out := s.out ++ [Out.block n 1 body] }

/-- The rate two sides reach (R521): 400, 200 on lanes 0-1 or 2-3, or none; `own` and `his` are lanes, `rates` the partner's. -/
def chooseRate (own his : List Nat) (rateSel : Nat) (fallback : Bool) (rates : Nat) : Option (Nat × Nat) :=
  let pair := fun (a b : Nat) => own.contains a && own.contains b && his.contains a && his.contains b
  if pair 0 1 ∧ pair 2 3 ∧ rateSel = 400 ∧ bit rates 0 then some (400, 0xF)
  else if (fallback ∨ rateSel = 200) ∧ bit rates 1 then
    if pair 0 1 then some (200, 3) else if pair 2 3 then some (200, 0xC) else none
  else none

/-- Lane failures of a training (R521): lanes that did not equalise, and key 4 when the module has no usable pair; a lane or
link that fails its third training in a row is fenced. (log 23, DESIGN CHOICE) -/
def State.countLanes (s : State) (n : Nat) : State :=
  let l := s.link n
  let ok := l.eqLanes
  let pair := (ok.contains 0 && ok.contains 1) || (ok.contains 2 && ok.contains 3)
  let fails := (List.range 5).foldl (fun m i =>
    let good := if i = 4 then pair else ok.contains i
    if good then merase m i else mset m i (mget m i 0 + 1)) l.laneFails
  let s := s.setLink n { l with laneFails := fails }
  let s := (List.range 4).foldl (fun s i => if mget fails i 0 = 3 then s.fence 0x0C 0xFF (4 * n + i) 2 5 else s) s
  if mget fails 4 0 = 3 then s.fence 0x0D 0xFF n 2 5 else s

/-- An attempt fails: the next one, or DOWN after the third (Table 16.18). -/
def State.attemptFails (s : State) (n : Nat) : State :=
  let s := s.linkCount n 0x0E
  let l := s.link n
  if l.attempt < 3 then s.beginAttempt n (l.attempt + 1)
  else
    let s := s.countLanes n
    if (s.link n).st = .fenced then s
    else ((s.setLink n { s.link n with st := .down, reason := 6, since := s.up }).event 0x0030
      { port := 48 + n, unitKind := 0x0D, unit := n, params := [6] }).linkCount n 0x0D

/-- The link comes UP (Table 16.18, R521). -/
def State.linkUp (s : State) (n rate lanes role partner : Nat) (limits : Bytes) : State :=
  let s := (s.linkCount n 0x0E).countLanes n
  let l := s.link n
  let lim : Map Nat := (List.range 8).map fun v => (v, fld limits (2 * v) 2)
  let s := s.setLink n { l with
    st := .up, role := role, partner := partner, trained := rate, lanes := lanes, txLimit := lim, txUsed := []
    rxLimit := l.rxShare, rxUsed := [], nextFseq := 0, expected := 0, replayCount := 0, replaying := false, replay := []
    nakAt := none, spoiled := false, acked := 0, ackDue := none, held := [], since := s.up }
  (s.reRatio (48 + n)).event 0x0031 { port := 48 + n, unitKind := 0x0D, unit := n, params := [rate] }

end Sys2Proof.Machine
end

