-- ==== Sys2Proof/Machine/Plans.lean ====
section
/-! DEFINITION. Layer plans (R136-R143, R148, R313): the plan object, staging, pushes and pulls. -/

namespace Sys2Proof.Machine

/-! ### Writing a plan object (R136, R137) -/

/-- Reserved bits of a plan (Tables 4.9, 4.10) that are set. -/
def planReserved (b : Bytes) : Bool :=
  fld b 0 1 / 4 != 0 || fld b 1 1 / 16 != 0 || fld b 3 1 / 4 != 0 || bit (fld b 4 1) 3 || bit (fld b 4 1) 7 ||
  fld b 5 1 / 64 != 0 || fld b 22 2 != 0 || fld b 34 1 / 8 != 0 || !allZero (slice b 35 29) ||
  !allZero (slice b (64 + pOrderLen b) (roundUp (pOrderLen b) 64 - pOrderLen b)) ||
  (List.range (pBatchLen b)).any fun j =>
    let a := pBatchAt b j
    fld b (a + 3) 1 != 0 || fld b (a + 6) 2 != 0 || fld b (a + 8) 4 / 2 ^ 17 != 0 || fld b (a + 12) 4 != 0

/-- R137 for a plan whose slot is bound to profile `n` of geometry `g`: layers below LAYERS, room in a ring slot.
An expanded size is known for a latent profile only (R49). -/
def planFits (b : Bytes) (g : Geo) : Bool :=
  (List.range (pOrderLen b)).all (fun i => pOrder b i < g.layers) &&
  (!pDeliver b || ((pExpand b && !g.latent) || pBlocks b * g.delivery (pExpand b) (fld b 29 1) ≤ fld b 24 4))

/-- R136, R137: the plan may be written for partition `p`. The empty value turns the plan off; a plan that is off may name an empty
slot (log 38, DEDUCED). -/
def State.planOk (s : State) (p : Nat) (b : Bytes) : Bool :=
  b.isEmpty ||
  (let bound := s.bound p (fld b 34 1 % 8)
   let order := (List.range (pOrderLen b)).map (pOrder b)
   let n := fld b 29 1
   b.length == pBatchAt b (pBatchLen b) && !planReserved b && pMode b != 3 && 1 ≤ pLead b && pLead b ≤ pStageLead b &&
   pLead b + 1 ≤ fld b 28 1 && fld b 28 1 ≤ 16 && 1 ≤ n && n ≤ 32 && fld b 24 4 % 1024 == 0 &&
   1 ≤ pOrderLen b && pOrderLen b ≤ 256 && 1 ≤ pBatchLen b && pBatchLen b ≤ 256 && order.eraseDups.length == order.length &&
   (pBatch b).all (fun e => 1 ≤ e.2.2 && e.2.2 ≤ 65536) && (pLinks b).all (· < 128) &&
   (!pDeliver b || (pLinks b).any (s.part.setup.hasLink p)) &&
   (match bound with
    | some k => planFits b (s.geo k)
    | none => pMode b == 0))

/-- The plan object as written. -/
def State.planObj (s : State) (p n : Nat) : Bytes := s.blobOf (pIx p (0x10 + n)) 1

/-- The plan in force (R148), or before any step the object as written. (log 38, DEDUCED) -/
def State.livePlan (s : State) (p n : Nat) : Bytes :=
  if (s.plan p n).inForce.isEmpty then s.planObj p n else (s.plan p n).inForce

/-- A step or request finds the plan turned off: it is idle (R148, Table 4.7). (log 38, DEDUCED) -/
def State.idlePlan (s : State) (p n : Nat) : State :=
  let v := s.plan p n
  s.setPlan p n { v with inForce := [], st := if v.st = 1 then 0 else v.st }

/-! ### Staging (R139-R141, Table 4.3) -/

/-- The slices of position `i` of plan `b` for partition `p`. -/
def State.posSlices (s : State) (p : Nat) (b : Bytes) (i : Nat) : List (Nat × Nat) :=
  (List.range (pBlocks b)).filterMap fun k =>
    (batchBlock (pBatch b) k).bind fun e =>
      (s.seqOf p e.1).bind fun q => (mget? q.leaves e.2).bind fun l =>
        if l.st = .absent then none else some (l.fid, pOrder b i)

/-- Stages one slice: a read with promotion when it lies in T2 or TN only (Table 4.3). `false`: the map lookup waits. -/
def State.stageSlice (s : State) (p c colour : Nat) (k : Nat × Nat) : Bool × State :=
  match s.frame? k.1 with
  | none => (true, s)
  | some f =>
    let l := f.slice k.2
    if l.st ≠ .present ∨ f.underRecount then (true, s)
    else if l.top.isSome then (true, s.pin k.1 k.2 false)
    else if l.inTN then (true, (s.pin k.1 k.2 false).readTN none k.1 k.2)
    else (s.pin k.1 k.2 false).issueRead none p c colour k.1 f.slot k.2

/-- Stages the slices `ks` of plan `n` in class `c`, each metered (R332): a red one is dropped (R143), one whose map lookup
waits is kept for later. -/
def State.stageAll (s : State) (p n c : Nat) (ks : List (Nat × Nat)) : State :=
  ks.foldl (fun s k =>
    let len := ((s.frame? k.1).map fun f => (s.frameGeo f).sliceBytes).getD 0
    let (col, s) := s.meterItem p c len 0 true
    if col = 3 then s
    else match s.stageSlice p c col k with
      | (true, s) => s
      | (false, s) =>
        let v := s.plan p n
        s.setPlan p n { v with stages := v.stages ++ [k] }) s

/-- Tries the slices of plan `n` whose staging waits for a map page. -/
def State.stageWaiting (s : State) (p n : Nat) : State :=
  let v := s.plan p n
  let s := s.setPlan p n { v with stages := [] }
  v.stages.foldl (fun s k => match s.stageSlice p (pStageClass (s.livePlan p n)) 0 k with
    | (true, s) => s
    | (false, s) =>
      let v := s.plan p n
      s.setPlan p n { v with stages := v.stages ++ [k] }) s

/-- Stages positions `lo` to `hi - 1` that exist and that this step has not staged (R139). -/
def State.stagePositions (s : State) (p n lo hi : Nat) : State :=
  let b := (s.plan p n).inForce
  (List.range (min hi (pOrderLen b))).foldl (fun s i =>
    let v := s.plan p n
    if i < lo ∨ v.staged.contains i then s
    else (s.setPlan p n { v with staged := v.staged ++ [i] }).stageAll p n (pStageClass b) (s.posSlices p b i)) s

/-! ### Marks (R139, R143) -/

/-- Queues the push of position `i` once in a step. -/
def State.queuePush (s : State) (p n i : Nat) : State :=
  let v := s.plan p n
  let b := v.inForce
  if !pDeliver b ∨ i ≥ pOrderLen b ∨ v.pushed.contains i then s
  else
    let j : PlanJob := { no := v.next, pos := i, plan := b, cls := pPushClass b, step := v.step, count := pBlocks b }
    s.setPlan p n { v with jobs := v.jobs ++ [j], pushed := v.pushed ++ [i], next := v.next + 1 }

/-- STEP_BEGIN (R139): the object as written comes into force; the first positions are queued and staged. (log 38, DEDUCED) -/
def State.stepBegin (s : State) (p n : Nat) : State :=
  let b := s.planObj p n
  let v := s.plan p n
  let s := s.setPlan p n { v with inForce := b, st := 1, step := v.step + 1, pushed := [], staged := [] }
  ((List.range (pLead b)).foldl (fun s i => s.queuePush p n i) s).stagePositions p n 0 (pStageLead b)

/-- START(i) (R139, R143). A START before any STEP_BEGIN uses the plan as written (log 38, DEDUCED); it stages from position i + 1 on
(log 47, DESIGN CHOICE). -/
def State.startPos (s : State) (p n i : Nat) : State :=
  let v := s.plan p n
  let v := { v with inForce := s.livePlan p n }
  let late := v.jobs.any fun j => !j.pull && j.pos == i && !j.late
  let jobs := v.jobs.map fun j => if !j.pull ∧ j.pos = i then { j with late := true } else j
  let s := s.setPlan p n { v with st := 1, pos := i, jobs := jobs }
  let s := if late then s.bump 0x6040 0x0E else s
  let b := v.inForce
  (s.queuePush p n (i + pLead b)).stagePositions p n (i + 1) (i + pStageLead b + 1)

/-- A MARK applied (R509): ignored, and counted, unless the plan is in cadence mode and a START's position exists. The mode is that of
the plan a START meets in force, or that a STEP_BEGIN brings into force (R148). -/
def State.mark (s : State) (link p n ev i : Nat) : State :=
  let s := s.linkCount link 0x12
  let live := s.livePlan p n
  if !s.part.setup.hasLink p link ∨ s.suppressed p then s.linkCount link 0x13
  else if ev = 1 then
    if pMode (s.planObj p n) = 1 then s.stepBegin p n else (s.idlePlan p n).linkCount link 0x13
  else if pMode live = 1 ∧ i < pOrderLen live then s.startPos p n i
  else s.linkCount link 0x13

/-- The position of a layer in a plan that is on. -/
def layerPos (b : Bytes) (layer : Nat) : Option Nat :=
  if pMode b = 0 then none else (List.range (pOrderLen b)).find? fun i => pOrder b i == layer

/-- R141: an ATTEND that names a plan with DELIVER = 0 acts as START, and as STEP_BEGIN at position 0. The plan is the one in force until
its next step (R148); a layer that it lacks begins a step at position 0 of the object as written. (log 38, DEDUCED) -/
def State.planAttend (s : State) (p n layer : Nat) : State :=
  if s.suppressed p then s else
  let b := s.planObj p n
  let first := match layerPos (s.livePlan p n) layer with
    | some i => i == 0
    | none => layerPos b layer == some 0
  let s := if !first then s else if pMode b = 0 then s.idlePlan p n else s.stepBegin p n
  match layerPos (s.livePlan p n) layer with
  | some i => s.startPos p n i
  | none => s

/-! ### Pushes (R138, R142, R313) -/

/-- The operation of a pushed or pulled position: its plan, its blocks, and PROGRESS as long as none is delivered (R142). -/
def pushOp (p n : Nat) (j : PlanJob) : Op :=
  { part := p, queue := 64 * p + pQueue j.plan, src := .push n j.pos, cls := j.cls, ring := 0xFFFF, list := 0x1FFF
    utag := 0x80000000 + n * 2 ^ 16 + j.pos, arg := j.plan, pos := j.first, aux := j.count, progress := j.count }

/-- The OTT entry of a job: the one it holds, or one it takes now (R313). -/
def State.jobEntry (s : State) (p n : Nat) (j : PlanJob) : Option (Nat × State) :=
  match j.tag with
  | some t => some (t, s)
  | none => s.takeEntry (pushOp p n j)

/-- Changes job `no` of a plan. -/
def State.modJob (s : State) (p n no : Nat) (f : PlanJob → PlanJob) : State :=
  let v := s.plan p n
  s.setPlan p n { v with jobs := v.jobs.map fun j => if j.no = no then f j else j }
/-- What one block of a job finds: tiles, an ABSENT slice, or another reason not to deliver. -/
inductive Piece where
  | tiles (ts : List Bytes)
  | absent
  | other

/-- The leaf of block `k` of a job; none when its sequence is not a LIVE one of `p` in the plan's profile slot. -/
def State.jobLeaf (s : State) (t p : Nat) (j : PlanJob) (k : Nat) : Option (Option Leaf) :=
  (batchBlock (pBatch j.plan) k).bind fun e =>
    match s.seq? e.1 with
    | some q => if q.part = p ∧ q.slot = fld j.plan 34 1 % 8 then some (s.leafFor (some t) e.1 e.2) else none
    | none => none

/-- The piece of block `k`. -/
def State.piece (s : State) (p t : Nat) (o : Op) (j : PlanJob) (k : Nat) : Piece × State :=
  let b := j.plan
  let layer := pOrder b j.pos
  let pf := (s.bound p (fld b 34 1 % 8)).getD 0
  let g := s.geo pf
  let up := s.blobOf (0x1300 + pf) 15
  let cut_ := fun (rows : SliceData) => if pExpand b then tilesExpanded g up layer (fld b 6 2) (fld b 29 1) rows
    else tilesStored g rows
  match s.jobLeaf t p j k with
  | none => (.other, s)
  | some lf =>
    let found := s.findSlice o lf layer
    let s := if lf.isSome then s.demand p found else s
    if j.colours.getD (k - j.first) 0 = 3 then (.other, s) else
    match found with
    | .data d => (.tiles (cut_ d), match lf with
        | some l => (s.pin l.fid layer false).hbmUnits l.fid layer p j.cls (j.colours.getD (k - j.first) 0) g.sliceBytes
        | none => s)
    | .zero => (.tiles (cut_ []), s)
    | .status st => (if st = stAbsent ∨ st = stMedia then .absent else .other, s)

/-- A tile on its way: block, sink address, colour, bytes. -/
structure Tile where
  blocks : List Nat
  addr : Nat
  colour : Nat
  bytes : Bytes

/-- Joins contiguous tiles of one link into frames of up to 8,192 B (R497). -/
def joinTiles : List Tile → List Tile
  | [] => []
  | t :: ts => match joinTiles ts with
    | [] => [t]
    | u :: us =>
      if t.addr + t.bytes.length = u.addr ∧ t.colour = u.colour ∧ t.bytes.length + u.bytes.length ≤ 8192 then
        { t with blocks := t.blocks ++ u.blocks, bytes := t.bytes ++ u.bytes } :: us
      else t :: u :: us

/-- The tiles of a job's pieces in order, from sink address `a` on, one delivery size `z` a block. -/
def jobTiles (j : PlanJob) (base z : Nat) (ps : List (Nat × Piece)) : List Tile :=
  ps.flatMap fun e => match e.2 with
    | .tiles ts =>
      (ts.foldl (fun (acc : Nat × List Tile) b =>
        (acc.1 + b.length, acc.2 ++ [⟨[e.1], acc.1, j.colours.getD (e.1 - j.first) 0, b⟩])) (base + e.1 * z, [])).2
    | _ => []

/-- The usable links of a job (R138). -/
def State.usable (s : State) (p : Nat) (b : Bytes) : List Nat :=
  (pLinks b).filter fun n => s.part.setup.hasLink p n && (s.link n).st == .up

/-- Sends the tiles of a job round-robin over `ls`, expanded ones (`via`) through the rind cores (R29): frames to acknowledge, blocks not
sent. (log 38, DEDUCED) -/
def State.sendTiles (s : State) (via : Bool) (p t cls : Nat) (ls : List Nat) (ts : List Tile) : Nat × List Nat × State :=
  let idx := (List.range ts.length).zip ts
  ((List.range ls.length).zip ls).foldl (fun (acc : Nat × List Nat × State) l =>
    let own := joinTiles ((idx.filter fun e => e.1 % ls.length == l.1).map (·.2))
    own.foldl (fun (acc : Nat × List Nat × State) u =>
      let f : LFrame := { typ := 1, vl := cls, hdr := dataHdr 0 0 0 0 0 u.addr, payload := u.bytes }
      let s := acc.2.2
      match s.send via (48 + l.2) p cls { len := s.unitLen (48 + l.2) f.len, colour := u.colour, tag := some t, frame := some f } with
      | (true, s) => (acc.1 + 1, acc.2.1, s)
      | (false, s) => (acc.1, acc.2.1 ++ u.blocks, s)) acc) (0, [], s)

/-- Meters the slices of a job once, at the delivery size (R332). (log 38, DEDUCED) -/
def State.meterJob (s : State) (p : Nat) (j : PlanJob) : List Nat × State :=
  if !j.colours.isEmpty then (j.colours, s) else
  let z := s.pSize p j.plan
  (List.range j.count).foldl (fun (acc : List Nat × State) _ =>
    let (c, s) := acc.2.meterItem p j.cls z j.pre (!j.pull)
    (acc.1 ++ [c], s)) ([], s)

/-- Ends the operation of a job (R313): its status by the slices not delivered. -/
def State.recordJob (s : State) (t : Nat) (j : PlanJob) : State :=
  let bad := (j.absent ++ j.other).eraseDups
  let st := if bad.isEmpty then stDone else if j.other.isEmpty then stAbsent else stPartial
  match s.op? t with
  | some o => (s.setOp t { o with acks := 0 }).finishOp t st 0 bad.length 0 o.acks []
  | none => s

/-- The status that keeps a job from delivering any tile: no usable link (R138), or an expansion of a profile that has none (R49) or of
heads beyond EXP_HEADS (log 47, DESIGN CHOICE). -/
def State.jobBad (s : State) (p : Nat) (j : PlanJob) : Option Nat :=
  let pf := (s.bound p (fld j.plan 34 1 % 8)).getD 0
  let g := s.geo pf
  if (s.usable p j.plan).isEmpty then
    some (if (pLinks j.plan).any (s.part.setup.hasLink p) then stLinkDown else stProt)
  else if !pExpand j.plan then none
  else if !g.latent ∨ (s.blobOf (0x1300 + pf) 15).isEmpty then some stProfile
  else if fld j.plan 6 2 + fld j.plan 29 1 > g.heads then some stBad
  else none

/-- The slices that job `j` of tag `t` reads: those of its blocks that are not dropped as red. -/
def State.pushReads (s : State) (p t : Nat) (j : PlanJob) : List (Nat × Nat) :=
  ((List.range j.count).map (· + j.first)).filterMap fun k => if j.colours.getD (k - j.first) 0 = 3 then none else
    match s.jobLeaf t p j k with
    | some (some l) => if l.st = .absent then none else some (l.fid, pOrder j.plan j.pos)
    | _ => none

/-- The pieces of job `j`, whose reads have ended, go out over its usable links (R138); what is not delivered is noted. -/
def State.sendJob (s : State) (p n t : Nat) (j : PlanJob) (o : Op) : State :=
  let ls := s.usable p j.plan
  let r := ((List.range j.count).map (· + j.first)).foldl (fun (acc : List (Nat × Piece) × State) k =>
    let (x, s) := acc.2.piece p t o j k
    (acc.1 ++ [(k, x)], s)) ([], s)
  let w := r.2.sendTiles (pExpand j.plan) p t j.cls ls (jobTiles j (pBase j.plan j.pos) (r.2.pSize p j.plan) r.1)
  let gone := r.1.filterMap fun e => match e.2 with | .absent => some e.1 | _ => none
  let other := r.1.filterMap fun e => match e.2 with | .other => some e.1 | _ => none
  let s := match w.2.2.op? t with
    | some o => w.2.2.setOp t { o with st := .mapped, acks := o.acks + w.1, asks := [], got := [], pins := [] }
    | none => w.2.2
  s.modJob p n j.no fun j => { j with
    begun := true, links := ls, absent := gone, other := (other ++ w.2.1).eraseDups }

/-- A job that has taken its entry `t`: metered once, with its colours. -/
def State.jobTagged (s : State) (p n t : Nat) (j : PlanJob) : PlanJob × State :=
  let m := s.meterJob p j
  let j := { j with tag := some t, colours := m.1 }
  (j, m.2.modJob p n j.no fun _ => j)

/-- A job begins (R138), or asks for the slices it still lacks. -/
def State.beginJob (s : State) (p n : Nat) (j : PlanJob) : State :=
  match s.jobEntry p n j with
  | none => s
  | some (t, s) =>
    let (j, s) := s.jobTagged p n t j
    match s.jobBad p j with
    | some st => (s.endJob p n j.no).endOp t st 0 j.count 0
    | none =>
      match s.fetchSlices t j.cls 0 (s.pushReads p t j) with
      | (false, s) => s
      | (true, s) =>
        match s.op? t with
        | none => s.endJob p n j.no
        | some o => s.sendJob p n t j o

/-- Drops jobs whose operation has ended (R149, R151). -/
def State.cleanJobs (s : State) (p n : Nat) : State :=
  let v := s.plan p n
  s.setPlan p n { v with jobs := v.jobs.filter fun j => match j.tag with
    | some t => (s.op? t).any fun o => o.part == p && o.src == OpSrc.push n j.pos
    | none => true }

/-- The operation of a job, if it holds one, can go on now. -/
def State.jobReady (s : State) (j : PlanJob) : Bool :=
  match j.tag with
  | some t => (s.op? t).any fun o => o.st == .ready
  | none => true

/-- The push of `js` that is first in the order of steps and positions (R139). -/
def firstPush (js : List PlanJob) : Option PlanJob :=
  js.foldl (fun acc j => if j.pull then acc else match acc with
    | none => some j
    | some a => if j.step < a.step ∨ (j.step = a.step ∧ j.pos < a.pos) then some j else acc) none

/-- PUSH_BEGIN (R138): the next queued position of plan `n` begins, in position order; a pulled one when its reads ended. -/
def execPushBegin (p n : Nat) (s : State) : Res :=
  .next <|
    let s := (s.cleanJobs p n).stageWaiting p n
    let js := (s.plan p n).jobs.filter fun j => !j.begun
    match (js.find? fun j => j.pull && s.jobReady j).orElse fun _ => firstPush js with
    | some j => if s.jobReady j then s.beginJob p n j else s
    | none => s

/-- PUSH_COMPLETE (R142): no tile of the oldest begun position is queued any more; LAYER_END goes out and the record is due. -/
def execPushComplete (p n : Nat) (s : State) : Res :=
  .next <|
    let s := s.cleanJobs p n
    match (s.plan p n).jobs.find? fun j => j.begun with
    | none => s
    | some j =>
      match j.tag with
      | none => s
      | some t =>
        if j.links.any fun x => (s.unitTags (48 + x)).contains t then s
        else ((s.layerEnd p n j (j.absent ++ j.other).eraseDups.length).endJob p n j.no).recordJob t j

end Sys2Proof.Machine
end

