-- ==== Sys2Proof/Machine/Collect.lean ====
section
/-! DEFINITION. Collectives: sets, contributions and their combination at the root (R310-R312, R250-R252, R514, R515). -/

namespace Sys2Proof.Machine

/-! ### Numbers -/

/-- The IEEE 754-2019 maximum (R240): a NaN operand gives NaN, +0 ranks above −0. (log 30, DEDUCED) -/
def fmaximum (a b : Nat) : Nat :=
  if isNaN32 a then a else if isNaN32 b then b
  else if flt a b then b else if flt b a then a
  else if a = 0x80000000 then b else a

/-- A binary32 value in OUT_TYPE or TYPE: FP32, or rounded to BF16. -/
def outBytes (fp32 : Bool) (v : Nat) : Bytes := if fp32 then leBytes 4 v else leBytes 2 (toBf v)

/-! ### Sets (Table 16.14) -/

/-- A collective set entry. -/
structure CollSet where
  id : Nat
  part : Nat
  root : Bool
  member : Nat
  members : Nat
  links : List Nat
  deriving DecidableEq, Repr

/-- Entry `i` of a COLL_SETS value. -/
def collSetAt (b : Bytes) (i : Nat) : CollSet :=
  let a := 32 * i
  { id := fld b a 2, part := fld b (a + 2) 1 % 64, root := bit (fld b (a + 3) 1) 0, member := bits (fld b (a + 3) 1) 1 4
    members := fld b (a + 4) 2
    links := ((List.range 8).map fun j => fld b (a + 8 + j) 1).filter (· != 0xFF) }

/-- The entries of a COLL_SETS value. -/
def collSets (b : Bytes) : List CollSet := (List.range (b.length / 32)).map (collSetAt b)
/-- The set `n` on this module. -/
def State.collSet (s : State) (n : Nat) : Option CollSet := (collSets (s.blobOf 0x1A01 1)).find? fun c => c.id == n

/-- A COLL_SETS value may be written (R514): whole entries, at most 1,024, distinct SET_IDs, reserved bits 0, LINKS given. -/
def State.collSetsOk (s : State) (b : Bytes) : Bool :=
  b.length % 32 == 0 && b.length ≤ 32768 &&
  ((collSets b).map (·.id)).eraseDups.length == b.length / 32 &&
  ((List.range (b.length / 32)).all fun i => fld b (32 * i + 2) 1 < 64 && fld b (32 * i + 3) 1 < 32 &&
    fld b (32 * i + 6) 2 == 0 && allZero (slice b (32 * i + 16) 16)) &&
  (collSets b).all fun c => c.links.all fun n => n < 128 && s.part.setup.hasLink c.part n

/-! ### Contributions -/

/-- Bytes of a contribution at hand. -/
def Contrib.have_ (c : Contrib) : Nat := (c.parts.map (·.2.length)).sum
/-- The contribution is complete. -/
def Contrib.full (c : Contrib) : Bool := c.have_ ≥ c.total
/-- The bytes of a contribution by offset; bytes that no frame carried are unspecified (R250). -/
def Contrib.bytes (c : Contrib) : Bytes :=
  let top := c.parts.foldl (fun m p => max m (p.1 + p.2.length)) 0
  (List.range top).map fun i =>
    match c.parts.find? fun p => p.1 ≤ i && i < p.1 + p.2.length with
    | some p => p.2.getD (i - p.1) 0
    | none => Config.freeByte i

/-- Rounds of set `n` whose COLLECT has been posted. -/
def State.posted (s : State) (n : Nat) : Nat := mget s.lk.rounds (2 * n) 0
/-- The COLLECT that takes round `k` of set `n`. -/
def State.collectOp (s : State) (n k : Nat) : Option (Nat × Op) :=
  s.q.ott.find? fun e => e.2.src == .queue && cmdOf (fld e.2.desc 0 1) == some .collect && fld e.2.desc 8 2 == n
    && e.2.aux == k && (match e.2.st with | .posted _ => true | _ => false)

/-- A round in which a contribution was discarded completes PARTIAL (R311). -/
def State.spoil (s : State) (n k : Nat) : State :=
  if s.lk.spoiled.contains (n, k) then s else { s with lk := { s.lk with spoiled := s.lk.spoiled ++ [(n, k)] } }

/-- Drops what is kept of a round. -/
def State.dropRound (s : State) (n k : Nat) : State :=
  { s with lk := { s.lk with
    contribs := s.lk.contribs.filter fun c => !(c.set == n && c.round == k)
    spoiled := s.lk.spoiled.filter fun e => e != (n, k) } }

/-- Adds bytes at an offset to the contribution (set, member, round). -/
def State.addPart (s : State) (c : Contrib) (off : Nat) (bs : Bytes) (link : Option Nat) : State :=
  let same := fun (d : Contrib) => d.set == c.set && d.member == c.member && d.round == c.round
  let put := fun (d : Contrib) => { d with
    parts := d.parts ++ [(off, bs)]
    links := match link with | some n => if d.links.contains n then d.links else d.links ++ [n] | none => d.links }
  let cs := if s.lk.contribs.any same then s.lk.contribs.map fun d => if same d then put d else d
    else s.lk.contribs ++ [put c]
  { s with lk := { s.lk with contribs := cs } }

/-! ### Combination (R311, R251) -/

/-- REDUCE: the element-wise sum over `n` elements of `es` bytes, in ascending member order from +0. -/
def reduceBytes (fp32 : Bool) (n : Nat) (cs : List Bytes) : Bytes :=
  let es := if fp32 then 4 else 2
  (List.range n).flatMap fun i =>
    let v := cs.foldl (fun acc b => fadd acc (if fp32 then fld b (4 * i) 4 else bf32 (fld b (2 * i) 2))) fZero
    if es = 4 then leBytes 4 v else leBytes 2 (toBf v)

/-- MERGE of one item (R251): contributions are Dv values, M and LSE each. The values, M and LSE combined. (log 30, DEDUCED) -/
def mergeItem (dv : Nat) (cs : List Bytes) : List Nat × Nat × Nat :=
  let lse := fun (b : Bytes) => fld b (4 * dv + 4) 4
  let m := cs.foldl (fun acc b => fmaximum acc (fld b (4 * dv) 4)) fNegInf
  let l := cs.foldl (fun acc b => fmaximum acc (lse b)) fNegInf
  if l = fNegInf then (List.replicate dv 0, m, fNegInf) else
  let w := cs.map fun b => if lse b = fNegInf then fZero else fexp (fsub (lse b) l)
  let sw := w.foldl fadd fZero
  let out := (List.range dv).map fun i =>
    fdiv ((w.zip cs).foldl (fun acc p => fadd acc (fmul p.1 (fld p.2 (4 * i) 4))) fZero) sw
  (out, m, fadd l (flog sw))

/-- The bytes of piece `p` that the root keeps: those that a contribution of another member also covers are unspecified (R250).
(log 37, DEDUCED) -/
def ownBytes (key : Nat → Byte) (others : List Contrib) (p : Nat × Bytes) : Bytes :=
  let qs := (others.flatMap (·.parts)).filter fun q => q.1 < p.1 + p.2.length && p.1 < q.1 + q.2.length
  if qs.isEmpty then p.2
  else (List.range p.2.length).map fun j =>
    if qs.any fun q => q.1 ≤ p.1 + j && p.1 + j < q.1 + q.2.length then key (p.1 + j) else p.2.getD j 0

/-- Writes the result of COLLECT `t` (a REDUCE through rind cores, R29) from the contributions `cs`, in ascending member order: frames to acknowledge, discards. -/
def State.writeCollect (s : State) (t : Nat) (o : Op) (cs : List Contrib) : Nat × Bool × State :=
  let d := o.desc
  let dst := fld d 16 8
  let len := fld d 24 4
  let fp32 := bit (fld d 10 1) 2
  match fld d 10 1 % 4 with
  | 0 => cs.foldl (fun acc c => c.parts.foldl (fun (acc : Nat × Bool × State) p =>
      let bs := (ownBytes (Config.gatherByte s.free s.up (fld d 8 2) o.aux) (cs.filter fun e => e.member != c.member) p).take
        (len - p.1)
      if bs.isEmpty then acc else
      let w := acc.2.2.writeOut t o 0 (dst + p.1) bs
      (acc.1 + w.1, acc.2.1 || w.2.1, w.2.2)) acc) (0, false, s)
  | 1 => s.writeOutVia true t o 0 dst (reduceBytes fp32 (len / (if fp32 then 4 else 2)) (cs.map (·.bytes)))
  | _ =>
    let dv := fld d 32 2
    let n := fld d 28 4
    let r := (List.range n).map fun i => mergeItem dv (cs.map fun c => slice c.bytes (i * (4 * dv + 8)) (4 * dv + 8))
    let w := s.writeOut t o 0 dst ((r.flatMap fun x => x.1.flatMap (outBytes fp32)).take len)
    if fld d 40 8 = 0 then w
    else
      let v := w.2.2.writeOut t o 0 (fld d 40 8) (r.flatMap fun x => leBytes 4 x.2.1 ++ leBytes 4 x.2.2)
      (w.1 + v.1, w.2.1 || v.2.1, v.2.2)

/-- The contributions of a COLLECT's round that it may combine; those of another KIND, or of a REDUCE with another TYPE, are
discarded and spoil the round (R311). (log 37, DEDUCED) -/
def State.roundOf (s : State) (o : Op) : List Contrib × State :=
  let n := fld o.desc 8 2
  let k := o.aux
  let kind := fld o.desc 10 1 % 4
  let fp32 := bit (fld o.desc 10 1) 2
  let mine := s.lk.contribs.filter fun c => c.set == n && c.round == k && c.full
  let bad := mine.filter fun c => c.kind != kind || (kind == 1 && c.fp32 != fp32)
  let s := if bad.isEmpty then s else
    ({ s with lk := { s.lk with contribs := s.lk.contribs.filter fun c => !bad.contains c } }).spoil n k
  (sortBy (fun (a b : Contrib) => a.member < b.member) (mine.filter fun c => !bad.contains c), s)

/-- Ends COLLECT `t` with the contributions `cs`. (log 37, DEDUCED) -/
def State.endCollect (s : State) (t : Nat) (o : Op) (cs : List Contrib) (status detail : Nat) : State :=
  let n := fld o.desc 8 2
  let w := if cs.isEmpty then (0, false, s) else s.writeCollect t o cs
  (w.2.2.dropRound n o.aux).finishOut t status detail cs.length w.1 w.2.1

/-- COLLECT `t` completes once MEMBERS admitted contributions are there (R311). -/
def State.tryCollect (s : State) (t : Nat) : State :=
  match s.op? t with
  | none => s
  | some o =>
    let (cs, s) := s.roundOf o
    if cs.length < fld o.desc 11 1 then s
    else s.endCollect t o cs (if s.lk.spoiled.contains (fld o.desc 8 2, o.aux) then stPartial else stDone) 0

/-! ### Members (R310, R312, R515) -/

/-- The type header of a COLL frame (Table 16.15). -/
def collHdr (set member kind part round off total : Nat) (fp32 : Bool) : Bytes :=
  leBytes 2 set ++ leBytes 1 (member + 16 * kind + 64 * b2n fp32) ++ leBytes 1 part ++ leBytes 4 round ++ leBytes 8 off
    ++ leBytes 4 total ++ leBytes 4 0

/-- Bytes the root holds for partition `p` beyond posted COLLECTs. -/
def State.collHeld (s : State) (p : Nat) : Nat :=
  ((s.lk.contribs.filter fun c => c.round ≥ s.posted c.set && (s.collSet c.set).any fun e => e.part == p).map Contrib.have_).sum

/-- A complete contribution may complete its COLLECT. -/
def State.contribFull (s : State) (set member round : Nat) : State :=
  if s.lk.contribs.any fun c => c.set == set && c.member == member && c.round == round && c.full then
    match s.collectOp set round with
    | some e => s.tryCollect e.1
    | none => s
  else s

/-- A COLL frame of link `n` at this module (R515). none: it is held back. (log 37, DEDUCED) -/
def State.collFrame (s : State) (n : Nat) (f : LFrame) : Option State :=
  let h := fld f.hdr
  let set := h 0 2
  let m := h 2 1 % 16
  let round := h 4 4
  let gone := (s.linkCount n 0x16)
  match s.collSet set with
  | none => some gone
  | some e =>
    let old := s.lk.contribs.any fun c => c.set == set && c.member == m && c.round == round && c.full
    if !e.root then some gone
    else if !bit e.members m ∨ old ∨ (round < s.posted set ∧ (s.collectOp set round).isNone) then some (gone.spoil set round)
    else if round ≥ s.posted set ∧ s.collHeld e.part + f.payload.length > s.obj 0x1A01 2 67108864 then none
    else
      let c : Contrib := {
        set := set, member := m, round := round, kind := bits (h 2 1) 4 2, fp32 := bit (h 2 1) 6, total := h 16 4 }
      let s := s.addPart c (h 8 6) f.payload (some n)
      let s := if s.lk.contribs.any fun d => d.set == set && d.member == m && d.round == round && d.full
        then s.linkCount n 0x15 else s
      some (s.contribFull set m round)

/-- Pieces of a contribution: each run of bytes cut at 8,192 B. -/
def contribPieces (ps : List (Nat × Bytes)) : List (Nat × Bytes) :=
  ps.flatMap fun p => ((chunks 8192 (p.2.length / 8192 + 1) p.2).foldl (fun (acc : Nat × List (Nat × Bytes)) b =>
    (acc.1 + b.length, acc.2 ++ [(acc.1, b)])) (p.1, [])).2

/-- Operation `t` contributes the runs `ps` to a set of kind `kind` (R515): sent over the set's LINKS frame by frame, or placed at
once when this module is the root. Frames to acknowledge, discards. (log 37, DEDUCED) -/
def State.contribute (s : State) (t : Nat) (o : Op) (e : CollSet) (kind : Nat) (fp32 : Bool) (ps : List (Nat × Bytes)) :
    Nat × Bool × State :=
  let round := mget s.lk.rounds (2 * e.id + 1) 0
  let s := { s with lk := { s.lk with rounds := mset s.lk.rounds (2 * e.id + 1) (round + 1) } }
  let total := (ps.map (·.2.length)).sum
  let qs := contribPieces ps
  if e.root then
    if !bit e.members e.member ∨ (round < s.posted e.id ∧ (s.collectOp e.id round).isNone) then (0, false, s.spoil e.id round)
    else
      let c : Contrib := { set := e.id, member := e.member, round := round, kind := kind, fp32 := fp32, total := total }
      (0, false, (qs.foldl (fun s q => s.addPart c q.1 q.2 none) s).contribFull e.id e.member round)
  else if e.links.isEmpty then (0, true, s)
  else
    ((List.range qs.length).zip qs).foldl (fun (acc : Nat × Bool × State) q =>
      let x := e.links.getD (q.1 % e.links.length) 0
      let f : LFrame := {
        typ := 7, vl := o.cls, hdr := collHdr e.id e.member kind o.part round q.2.1 total fp32, payload := q.2.2 }
      match acc.2.2.place (48 + x) o.part o.cls { len := acc.2.2.unitLen (48 + x) f.len, tag := some t, frame := some f } with
      | (true, s) => (acc.1 + 1, acc.2.1, s)
      | (false, s) => (acc.1, true, s)) (0, false, s)

/-- The set an operation names, of its partition (R514). (log 37, DEDUCED) -/
def State.opSet (s : State) (o : Op) (n : Nat) : Option CollSet :=
  (s.collSet n).bind fun e => if e.part = o.part then some e else none

/-- Meters a contribution in 4 KiB units (R332). (log 41, DEDUCED) -/
def State.meterUnits (s : State) (o : Op) (n : Nat) : State :=
  (List.range ((n + 4095) / 4096)).foldl (fun s i => (s.meterItem o.part o.cls (min 4096 (n - 4096 * i)) 0 false).2) s

/-- A GATHER or REDUCE descriptor's contribution. -/
def State.contribOp (s : State) (t : Nat) (o : Op) (kind member off : Nat) (fp32 : Bool) : State :=
  let n := fld o.desc 24 4
  match s.opSet o (fld o.desc 8 2) with
  | none => s.endOp t stProt 0 0 0
  | some e =>
    let (bs, s) := (s.meterUnits o n).readIn o 0 (fld o.desc 16 8) n
    let w := s.contribute t o { e with member := member } kind fp32 [(off, bs)]
    let us := (n + 4095) / 4096
    w.2.2.finishUnits t stDone w.1 w.2.1 ((List.range (if w.2.1 then min us (2 * w.1) else us)).map fun i => if w.1 = 0 then 0 else i / 2 + 1)

/-- GATHER (R312, R515): LENGTH bytes at ROOT_OFFSET of the root's destination. -/
def execGather (t : Nat) (s : State) : Res :=
  .next <| match s.runCmd t .gather with
    | some o => s.contribOp t o 0 (((s.collSet (fld o.desc 8 2)).map CollSet.member).getD 0) (fld o.desc 32 8) false
    | none => s

/-- REDUCE (R311, R312): LENGTH bytes of TYPE as member MEMBER. -/
def execReduce (t : Nat) (s : State) : Res :=
  .next <| match s.runCmd t .reduce with
    | some o => s.contribOp t o 1 (fld o.desc 10 1 % 16) 0 (bit (fld o.desc 11 1) 0)
    | none => s

/-- Bits set in a member bitmap. -/
def popcount (v : Nat) : Nat := ((List.range 64).filter fun i => bit v i).length

/-- COLLECT (R310, R311): takes the set's next round and waits for its contributions. (log 37, DEDUCED) -/
def execCollect (t : Nat) (s : State) : Res :=
  .next <| match s.runCmd t .collect with
    | none => s
    | some o =>
      let d := o.desc
      let n := fld d 8 2
      let s := s.meterOp o
      match s.opSet o n with
      | none => s.endOp t stProt 0 0 0
      | some e =>
        if fld d 11 1 > (if e.root then popcount e.members else 0) then s.endOp t stBad 0 0 0
        else
          let k := s.posted n
          let s := { s with lk := { s.lk with rounds := mset s.lk.rounds (2 * n) (k + 1) } }
          let dl := if fld d 12 2 = 0 then none else some (s.up + ms (fld d 12 2))
          (s.setOp t { o with st := .posted dl, aux := k }).tryCollect t

/-- COLLECT_TIMEOUT (R311): PARTIAL with the contributions combined so far. (log 37, DEDUCED) -/
def execCollectTimeout (t : Nat) (s : State) : Res :=
  .next <| match s.op? t with
    | some o => match o.st with
      | .posted (some dl) =>
        let s := (s.timeTo dl).bump 0x6090 8
        let (cs, s) := s.roundOf o
        s.endCollect t o cs stPartial 9
      | _ => s
    | none => s

/-- COLL_SETS has been written (R517): contributions of changed sets are discarded, their COLLECTs end PARTIAL, rounds restart. -/
def State.setsChanged (s : State) (old : Bytes) : State :=
  let new := collSets (s.blobOf 0x1A01 1)
  let olds := collSets old
  let ids := ((olds.filter fun c => !new.contains c).map CollSet.id ++ (new.filter fun c => !olds.contains c).map CollSet.id).eraseDups
  let ops := s.q.ott.filter fun e => ids.contains (fld e.2.desc 8 2) && e.2.src == .queue
    && cmdOf (fld e.2.desc 0 1) == some .collect && (match e.2.st with | .posted _ => true | _ => false)
  let s := { s with lk := { s.lk with
    contribs := s.lk.contribs.filter fun c => !ids.contains c.set
    spoiled := s.lk.spoiled.filter fun e => !ids.contains e.1
    rounds := s.lk.rounds.filter fun r => !ids.contains (r.1 / 2) } }
  ops.foldl (fun s e => s.endOp e.1 stPartial 0 0 0) s

end Sys2Proof.Machine
end

