-- ==== Sys2Proof/Machine/Index.lean ====
section
/-! DEFINITION. The analog relevance index (06_relevance_index.md): pips, their computation, placement and programming, the
pyramid search, and the states of the arrays. -/

namespace Sys2Proof.Machine

/-! ### Vectors (R194) -/

/-- Row `i` of PROJ_l as BF16 values. -/
def State.projRow (s : State) (n l i : Nat) : List Nat :=
  let w := (s.geo n).wk
  bfOfBytes (slice (s.proj n) (2 * w * (l * 64 * s.ixM n + i)) (2 * w))

/-- The sum of two vectors, element by element. (log 40, DEDUCED) -/
def vadd (a b : List Nat) : List Nat := (a.zip b).map fun p => fadd p.1 p.2

/-- A dot product of BF16 weights and FP32 values, ascending from +0. (log 30, DEDUCED) -/
def dotF : Nat → List Nat → List Nat → Nat
  | acc, a :: as, b :: bs => dotF (fadd acc (fmul (bf32 a) b)) as bs
  | acc, _, _ => acc

/-- The key row of a stored row in FP32 (R194). (log 40, DEDUCED) -/
def keyRow (g : Geo) (r : Row) : List Nat :=
  let xs := (bfRow g r).map bf32
  if g.latent then xs.take g.latentW
  else
    let ks := (List.range g.heads).map fun h => (xs.drop (h * g.kW)).take g.kW
    (ks.foldl vadd (List.replicate g.kW fZero)).map fun x => fdiv x (fOfNat g.heads)

/-! ### Quantisation (R195, R201) -/

/-- `num ÷ den` rounded to nearest even. -/
def divRne (num den : Nat) : Nat :=
  let q := num / den
  let r := 2 * (num % den)
  if r > den ∨ (r = den ∧ q % 2 = 1) then q + 1 else q

/-- x ÷ s rounded to nearest even and clamped to ±lim, for a binary32 `x` and BF16 `s`; 0 for s = 0. A quotient that is no number gives a free
code (log 12). -/
def quotCode (x sc lim : Nat) : Int :=
  match unpackF 23 x, unpackF 7 sc with
  | .fin n m1 e1, .fin _ m2 e2 =>
    if m2 = 0 then 0 else
    let k := e1 - e2
    let q := min lim (divRne (m1 * 2 ^ k.toNat) (m2 * 2 ^ (-k).toNat))
    if n then -(q : Int) else q
  | .fin _ _ _, .inf _ => 0
  | _, _ => max (-(lim : Int)) (min lim (Config.oddCode (BitVec.ofNat 32 x) (BitVec.ofNat 32 sc)))

/-- The binary32 magnitude `x` ÷ `d`, rounded up to BF16: the quotient to 40 more bits is cut at the last place a BF16 value has there, which
below the normal range is 2^-133, and one is added when anything was cut. -/
def scaleUp (x d : Nat) : Nat :=
  match unpackF 23 x with
  | .fin _ m e =>
    if m = 0 then 0 else
    let n := m * 2 ^ 40 / d
    let place : Int := max (e - 40 + (Nat.log2 n : Int) - 7) (-133)
    let k := (place - (e - 40)).toNat
    let up := n % 2 ^ k != 0 || m * 2 ^ 40 % d != 0
    packF 7 false (n / 2 ^ k + b2n up) place false
  | _ => toBf (x % 2 ^ 31)

/-- The largest magnitude of a list of binary32 values. -/
def maxAbs (xs : List Nat) : Nat := xs.foldl (fun a x => fmaximum a (x % 2 ^ 31)) 0

/-- Scale and codes of one part, for a full code of `lim` (15 for pips, 31 for queries). -/
def quantPart (lim : Nat) (xs : List Nat) : Nat × List Int :=
  let sc := scaleUp (maxAbs xs) lim
  (sc, xs.map fun x => quotCode x sc lim)

/-- The parts of a vector. -/
def parts64 (m : Nat) (v : List Nat) : List (List Nat) := (List.range m).map fun a => (v.drop (64 * a)).take 64

/-! ### Computation (R194-R199) -/

/-- The data of a slice wherever it lies. -/
def State.sliceData (s : State) (fid layer : Nat) : Option SliceData :=
  (s.frame? fid).bind fun f =>
    let l := f.slice layer
    if l.st ≠ .present then none
    else l.top.orElse fun _ => (if l.inTN then l.tn else none).orElse fun _ =>
      ((s.mapEnt f.slot layer).bind s.recAt).map (·.data)

/-- Every member, when all are there. -/
def allSome {α : Type} : List (Option α) → Option (List α)
  | [] => some []
  | none :: _ => none
  | some x :: xs => (allSome xs).map (x :: ·)

/-- v of a pip block (R194): none while a slice is not to be had. -/
def State.blockVec (s : State) (pf y : Nat) (fs : List Nat) : Option (List Nat) :=
  let g := s.geo pf
  let ls := s.groupLayers pf y
  let n := 64 * s.ixM pf
  let one : Nat → Option (List Nat) := fun l =>
    (allSome (fs.map fun f => s.sliceData f l)).map fun (rows : List SliceData) =>
      let ks := rows.flatMap fun d => d.map (keyRow g)
      let mean := (ks.foldl vadd (List.replicate g.wk fZero)).map fun x => fdiv x (fOfNat 256)
      (List.range n).map fun i => dotF fZero (s.projRow pf l i) mean
  (allSome (ls.map one)).map fun (vs : List (List Nat)) =>
    (vs.foldl vadd (List.replicate n fZero)).map fun x => fmul (fdiv fOne (fOfNat ls.length)) x

/-- v of a span over the frames `fs`: the mean of the v of the block pips that sequence `n` may use. -/
def State.spanVec (s : State) (n pf y : Nat) (fs : List Nat) : Option (List Nat) :=
  let blocks := (List.range 16).map fun i =>
    (s.keyedPip n (pipKey pf false y ((fs.drop (16 * i)).take 16))).map fun e => e.2.v
  (allSome blocks).map fun (vs : List (List Nat)) =>
    (vs.foldl vadd (List.replicate (64 * s.ixM pf) fZero)).map fun x => fdiv x (fOfNat 16)

/-- The vector of a computation. -/
def State.jobVec (s : State) (j : PipJob) : Option (List Nat) :=
  if j.key.span then s.spanVec j.seq j.key.profile j.key.group j.fids else s.blockVec j.key.profile j.key.group j.fids

/-- Module uptime in s. -/
def State.upS (s : State) : Nat := s.up / 1000000000

/-- The pip record (Table 6.1) of pip `i`; SCALE and CODE as R195 gives them, LOCATION a handle without meaning outside. -/
def Pip.record (i : Nat) (p : Pip) : Bytes :=
  leBytes 4 p.last ++ leBytes 4 p.check ++ leBytes 1 (p.profile + 32 * b2n p.level + 64 * Nat.log2 p.m) ++ leBytes 1 p.group ++
  leBytes 1 (p.st + 8 * b2n p.owner.isSome) ++ leBytes 1 0 ++
  leBytes 4 (if p.cols.isEmpty then 0 else (Config.handle 6 i).toNat) ++ leBytes 4 p.progAt ++ leBytes 4 p.lastUse ++
  padTo (p.scales.flatMap (leBytes 2)) 8 ++ p.codes.flatMap fun c => c.map fun w => (BitVec.ofInt 8 w)

/-- A public pip of the same last frame, level and layer group exists (R198). -/
def State.pipClash (s : State) (k : PipKey) : Bool :=
  s.ix.pips.any fun e => e.2.last == k.last && e.2.level == k.span && e.2.group == k.group && e.2.owner == none

/-- The new pip of computation `j` with vector `v` is stored under its own key, placed and set to be programmed; where another public pip has
that last frame it is private to the sequence that needed it (R197, R198). LAST_USE of a pip no query has scored is the epoch of
its computation (log 47, DESIGN CHOICE). -/
def State.newPip (s : State) (j : PipJob) (v : List Nat) : State :=
  let m := s.ixM j.key.profile
  let clash := s.pipClash j.key
  if clash ∧ (s.seq? j.seq).isNone then s else
  let qs := (parts64 m v).map (quantPart 15)
  let p : Pip := {
    last := j.key.last, check := j.key.check, profile := j.key.profile, level := j.key.span, m := m, group := j.key.group
    owner := if clash then some j.seq else none, scales := qs.map (·.1), codes := qs.map (·.2), sources := j.fids
    v := v, lastUse := s.px.epoch, home := (j.seq, if j.key.span then 65536 else j.item / 16) }
  let i := s.ix.nextId
  let s := { s with ix := { s.ix with pips := mset s.ix.pips i p, nextId := i + 1 } }
  let s := s.bump 0x6060 9
  let s := if clash then s.bump 0x6060 0x17 else s.touch (.header j.key.last)
  (s.placePip i none).startFor i

/-- A read of a slice of computation `j` is under way. -/
def State.pipReading (s : State) (j : PipJob) : Bool :=
  (s.jobSlices j.key j.fids).any fun k =>
    (s.dieOps.any fun o => o.2.kind == 0 && o.2.page.isNone && o.2.fid == k.1 && o.2.layer == k.2) ||
    (s.media.loadWait.any fun w => w.2.2.fid == k.1 && w.2.2.layer == k.2) ||
    s.lk.reads.any fun r => r.2.fid == k.1 && r.2.layer == k.2

/-- Computation `j` ends, unless its reads are still under way: its pip is stored, or nothing where a source is not to be had (R218). -/
def State.pipEnd (s : State) (j : PipJob) : State :=
  if !j.todo.isEmpty then s.pipRetry
  else if s.pipReading j then s
  else
    let s := s.dropJobs (· == j)
    match s.jobVec j with
    | some v => s.newPip j v
    | none => s

/-- PIP_COMPUTE_DONE (R194-R198, R218): the computation in flight for an item ends; where none is, the item is looked up first.
(log 40, DEDUCED; log 48, DESIGN CHOICE) -/
def execPipComputeDone (n : Nat) (span : Bool) (item y : Nat) (s : State) : Res :=
  let mine := fun (j : PipJob) => j.seq == n && j.key.span == span && j.item == item && j.key.group == y
  .next <| match s.ix.jobs.find? mine with
    | some j => s.pipEnd j
    | none => match s.seq? n with
      | none => s
      | some q => match s.pipNeed n q span item y with
        | none => s
        | some (k, fs) =>
          let s := s.pipLook n q item k fs
          match s.ix.jobs.find? mine with
          | some j => s.pipEnd j
          | none => s

/-! ### Calibration (R214, R219) -/

/-- The number of array `a`'s latest calibration, over all starts. -/
def State.calNo (s : State) (a : Nat) : Nat := s.boot.starts * 2 ^ 64 + (s.anArray a).cal

/-- Gain and offset of column group `k` of array `a` in force (binary32; log 12). -/
def State.gain (s : State) (a k : Nat) : Nat := (Config.gainOf (32 * a + k) (s.calNo a)).toNat
def State.offset (s : State) (a k : Nat) : Nat := (Config.offsetOf (32 * a + k) (s.calNo a)).toNat

/-- A calibration trips (Table 6.4): a gain outside 0.75–1.33, an offset above 16 codes, or a poor fit. -/
def State.calTrips (s : State) (a : Nat) : Bool :=
  Config.fitBad a (s.calNo a) || (List.range 32).any fun k =>
    let g := s.gain a k
    isNaN32 g || flt g 0x3F400000 || flt 0x3FAA3D71 g || flt 0x41800000 (s.offset a k % 2 ^ 31)

/-! ### Programming (R206, R207) -/

/-- A binary32 value rounded to an integer, half to even; 0 for what is no number. -/
def roundF (x : Nat) : Int :=
  match unpackF 23 x with
  | .fin n m e =>
    let q : Nat := divRne (m * 2 ^ e.toNat) (2 ^ (-e).toNat)
    if n then -(q : Int) else q
  | _ => 0

/-- An integer in binary32. -/
def fOfInt (i : Int) : Nat := packF 23 (i < 0) i.natAbs 0 false

/-- The verify code that stored code `w` aims at in column `c` of array `a`: round(127 · 31 · w ÷ 512) mapped through the group's gain and
offset in force (R206). (log 40, DEDUCED) -/
def State.verifyTarget (s : State) (a c : Nat) (w : Int) : Int :=
  let q : Nat := divRne (127 * 31 * w.natAbs) 512
  let t : Int := if w < 0 then -(q : Int) else q
  roundF (fadd (fdiv (fOfInt t) (s.gain a (c / 128))) (s.offset a (c / 128)))

/-- The targets of a column of a batch, row by row. -/
def State.columnTargets (s : State) (a : Nat) (e : Nat × Nat × Nat) : List Int :=
  let w := ((mget? s.ix.pips e.1).map fun p => p.codes.getD e.2.1 []).getD []
  (List.range 64).map fun r => s.verifyTarget a e.2.2 (w.getD r 0)

/-- One iteration of program_batch for a column (R206): its rows that are ok, whether it has failed, from the codes `cs` read. -/
def verifyColumn (ts cs : List Int) (v : List Bool × Bool) : List Bool × Bool :=
  let ps := ts.zip cs
  ((v.1.zip ps).map fun p => p.1 || (p.2.2 - p.2.1).natAbs ≤ 3,
    v.2 || ps.any fun p => p.2.natAbs > p.1.natAbs + 3)

/-- The codes of column number `j` that an iteration's 64 row reads gave. -/
def codesOf (it : List (List Int)) (j : Nat) : List Int := (List.range 64).map fun r => (it.getD r []).getD j 0

/-- One iteration for every column of the batch. -/
def verifyPass (ts : List (List Int)) (it : List (List Int)) (vs : List (List Bool × Bool)) : List (List Bool × Bool) :=
  ((List.range ts.length).zip (ts.zip vs)).map fun c => verifyColumn c.2.1 (codesOf it c.1) c.2.2

/-- The iterations of program_batch until every cell is ok. -/
def verifyLoop (ts : List (List Int)) : List (List (List Int)) → List (List Bool × Bool) → List (List Bool × Bool)
  | [], vs => vs
  | it :: its, vs =>
    let vs := verifyPass ts it vs
    if vs.all fun v => v.1.all id then vs else verifyLoop ts its vs

/-- Which columns of a batch with targets `ts` failed, from the verify codes of its iterations, 24 at most (R206). -/
def batchFails (ts : List (List Int)) (codes : List (List (List Int))) : List Bool :=
  (verifyLoop ts (codes.take 24) (ts.map fun _ => (List.replicate 64 false, false))).map fun v => v.2 || !v.1.all id

/-- A column failed: its pip is programmed again at another; the second time the column is fenced (R207). -/
def State.columnFailed (s : State) (a : Nat) (w : Nat × Nat × Nat) : State :=
  let v := s.anArray a
  let k := mget v.fails w.2.2 0 + 1
  let s := (s.setArray a { v with fails := mset v.fails w.2.2 k }).unplace w.1
  let s := if k ≥ 2 then
      (s.bump 0x6060 0x0E).fence 5 (pithField (a / 32)) (65536 * (a % 32) + w.2.2) 3 7
    else s.bump 0x6060 0x0D
  s.placePip w.1 (some (a, w.2.2))

/-- A part of pip `p` has passed: once all have, one programming pass of the pip is done (R207, R215). -/
def State.partPassed (s : State) (i : Nat) (p : Pip) (part : Nat) : State :=
  let p := { p with passed := if p.passed.contains part then p.passed else p.passed ++ [part], again := p.again.filter (· != part) }
  if p.passed.length ≥ p.m ∧ p.again.isEmpty then
    (s.setPip i { p with st := 3, progAt := s.upS }).bump 0x6060 0x0C
  else s.setPip i p

/-- One column of a batch after programming; nothing where its pip no longer holds it. -/
def State.partDone (s : State) (a : Nat) (w : (Nat × Nat × Nat) × Bool) : State :=
  match mget? s.ix.pips w.1.1 with
  | none => s
  | some p =>
    if p.cols.getD w.1.2.1 (a + 1, 0) ≠ (a, w.1.2.2) then s
    else if w.2 then s.columnFailed a w.1
    else s.partPassed w.1.1 p w.1.2.1

/-- Reference columns `gs` of array `a` have been programmed. -/
def State.refsDone (s : State) (a : Nat) (gs : List Nat) : State :=
  let v := s.anArray a
  s.setArray a { v with refs := gs.foldl (fun m g => mset m g s.upS) v.refs }

/-- PIP_PROGRAM_BATCH_DONE (R206, R207, R215): the batch of array `a` ends with the verify codes its iterations read, iteration by iteration
and row by row; columns pass or fail. The next batch starts. -/
def execPipProgramBatchDone (a : Nat) (codes : List (List (List Int))) (s : State) : Res :=
  .next <|
    let v := s.anArray a
    if !v.busy then s
    else
      let bad := batchFails (v.batch.map (s.columnTargets a)) codes
      let s := (s.setArray a { v with batch := [], refRun := [] }).refsDone a v.refRun
      let s := (v.batch.zip bad).foldl (fun s w => s.partDone a w) s
      v.batch.foldl (fun s w => s.startFor w.1) (s.startBatch a)

/-- When the reference column of group `g` of array `a` was last programmed, in s: at the start where it has not been since. -/
def State.refAt (s : State) (a g : Nat) : Nat := mget (s.anArray a).refs g (s.ix.calAt / 1000000000)

/-- PIP_REFRESH (R215): the PROGRAMMED pip in a data column, 72 h old, or the reference column of group `col` − 4,096 is due: it joins a batch in
place. -/
def execPipRefresh (a col : Nat) (s : State) : Res :=
  .next <|
    if col ≥ 4096 then
      let g := col - 4096
      let v := s.anArray a
      if g ≥ 32 ∨ v.refRun.contains g ∨ v.refWait.contains g ∨ !s.arrayGood a then s
      else
        let s := s.timeTo (sec (s.refAt a g + 72 * 3600))
        (s.setArray a { s.anArray a with refWait := v.refWait ++ [g] }).startBatch a
    else match s.columnPip a col with
      | none => s
      | some e =>
        if e.2.st ≠ 3 ∨ !e.2.again.isEmpty then s
        else
          let s := s.timeTo (sec (e.2.progAt + 72 * 3600))
          (s.setPip e.1 { e.2 with again := List.range e.2.m }).startFor e.1

/-! ### Array states (R214, R219, R220) -/

/-- A state change of an array, recorded (R220). -/
def State.arrayTo (s : State) (a st : Nat) : State :=
  let v := s.anArray a
  (s.setArray a { v with st := st }).event 0x0040
    { unitKind := 6, field := pithField (a / 32), unit := a % 32, params := [v.st, st] }

/-- An array becomes SUSPECT: the third time within 7 days it is fenced (Table 6.5). -/
def State.suspect (s : State) (a : Nat) : State :=
  let s := s.arrayTo a 1
  let v := s.anArray a
  let recent := (v.suspects.filter fun t => s.up < t + 7 * 24 * 3600 * sec 1) ++ [s.up]
  let s := (s.setArray a { v with suspects := recent, batch := [], refRun := [], refWait := [], residuals := [], win := {} }).bump 0x6060 0x10
  let s := v.batch.foldl (fun s w => match mget? s.ix.pips w.1 with
    | some p => if p.st = 2 then s.setPip w.1 { p with st := 1 } else s
    | none => s) s
  if recent.length ≥ 3 then s.fence 6 (pithField (a / 32)) (a % 32) 3 6 else s

/-- ARRAY_CALIBRATION (R214, R219, R220): an array in service, or reprogrammed and not yet back, is calibrated 20 s after its last calibration.
(log 40, DEDUCED) -/
def execArrayCalibration (a : Nat) (s : State) : Res :=
  .next <|
    let v := s.anArray a
    if !s.arrayGood a ∨ !(v.st = 0 ∨ (v.st = 2 ∧ v.reprogrammed)) then s
    else
      let s := s.timeTo (v.calAt.getD s.ix.calAt + sec 20)
      let s := (s.setArray a { v with cal := v.cal + 1, calAt := some s.up, reprogrammed := false }).bump 0x6060 0x0F
      if s.calTrips a then s.suspect a
      else if v.st = 2 then (s.arrayTo a 0).startBatch a
      else s

/-- ARRAY_REPROGRAM_START (Table 6.5). -/
def execArrayReprogramStart (a : Nat) (s : State) : Res :=
  .next <| if (s.anArray a).st = 1 then
      (s.setArray a { s.anArray a with reprogrammed := false }).arrayTo a 2
    else s

/-- The parts of pip `i` in array `a` have been programmed with the array. -/
def State.rewritten (s : State) (a i : Nat) : State :=
  match mget? s.ix.pips i with
  | some p =>
    match p.cols.findIdx? (·.1 == a) with
    | some part =>
      if p.st = 3 ∧ p.again.isEmpty then (s.setPip i { p with progAt := s.upS }).bump 0x6060 0x0C else s.partPassed i p part
    | none => s
  | none => s

/-- ARRAY_REPROGRAM_DONE (Table 6.5): every data column that holds a pip and every reference column of the array has been programmed anew;
the next calibration decides. -/
def execArrayReprogramDone (a : Nat) (s : State) : Res :=
  .next <|
    let v := s.anArray a
    if v.st = 2 ∧ !v.reprogrammed then
      let ids := (s.ix.pips.filter fun e => e.2.cols.any fun c => c.1 == a).map (·.1)
      let s := (s.setArray a { v with reprogrammed := true }).refsDone a (List.range 32)
      ids.foldl (fun s i => s.rewritten a i) s
    else s

end Sys2Proof.Machine
end

