-- ==== Sys2Proof/Machine/Search.lean ====
section
/-! DEFINITION. Masks (R231, R232), the pyramid search (R201-R213, R216, R219, R236), INDEX_QUERY and PIP_INSPECT (R307, R308). -/

namespace Sys2Proof.Machine

/-! ### Masks (R231, R232) -/

/-- The codes of all row masks in ascending (m, b); `bs` starts at the summary words. -/
def maskCodes (blocks rows : Nat) (bs : Bytes) : List (List Nat) :=
  let w := (blocks + 31) / 32
  (List.range rows).map fun m => (List.range blocks).map fun b => bits (fld bs (8 * (w * m + b / 32)) 8) (2 * (b % 32)) 2

/-- Gives each MIXED code its detail word, in order. -/
def withDetail (d : Bytes) : Nat → List Nat → List (Nat × Nat) × Nat
  | k, [] => ([], k)
  | k, c :: cs =>
    let r := withDetail d (if c = 2 then k + 1 else k) cs
    ((c, if c = 2 then fld d (2 * k) 2 else 0) :: r.1, r.2)

/-- Gives every row mask its detail words. -/
def detailRows (d : Bytes) : Nat → List (List Nat) → List (List (Nat × Nat))
  | _, [] => []
  | k, r :: rs =>
    let x := withDetail d k r
    x.1 :: detailRows d x.2 rs

/-- The mask record of operation `o` at `a`, whose rows are `q`; none when it breaks R232. -/
def State.readMask (s : State) (o : Op) (a q : Nat) : Option Mask :=
  let h := s.operand o a 16
  let blocks := fld h 0 4
  let rows := fld h 4 2
  let mixed := fld h 8 4
  if blocks = 0 ∨ blocks > 65536 ∨ (rows ≠ 1 ∧ rows ≠ q) ∨ fld h 6 1 > 1 ∨ fld h 7 1 ≠ 0 ∨ fld h 12 4 ≠ 0 then none
  else
    let n := 8 * rows * ((blocks + 31) / 32)
    let cs := maskCodes blocks rows (s.operand o (a + 16) n)
    if cs.any (fun r => r.contains 3) ∨ (cs.map fun r => (r.filter (· == 2)).length).sum ≠ mixed then none
    else some { blocks := blocks, deflt := bit (fld h 6 1) 0, rows := detailRows (s.operand o (a + 16 + n) (2 * mixed)) 0 cs }

/-- Code and detail word of block `b` for row `q`. -/
def Mask.code (m : Mask) (q b : Nat) : Nat × Nat :=
  if b ≥ m.blocks then (b2n m.deflt, 0)
  else (m.rows.getD (if m.rows.length = 1 then 0 else q) []).getD b (0, 0)
/-- Row `q`'s mask admits row `r` of block `b`. -/
def Mask.admits (m : Mask) (q b r : Nat) : Bool :=
  match m.code q b with
  | (1, _) => true
  | (2, w) => bit w r
  | _ => false
/-- Every row mask excludes block `b`. -/
def Mask.excludes (m : Mask) (b : Nat) : Bool :=
  if b ≥ m.blocks then !m.deflt else m.rows.all fun r => (r.getD b (0, 0)).1 == 0
/-- An optional mask excludes block `b`. -/
def exclB (m : Option Mask) (b : Nat) : Bool := m.any fun k => k.excludes b

/-! ### The query (R201-R203) -/

/-- A retrieval query: sequence, profile, layer group, tokens of context, parameters of the partition, scales and input codes
of its parts, the mask, and the free value its analog reads depend on. -/
structure Query where
  part : Nat
  seq : Nat
  pf : Nat
  y : Nat
  len : Nat
  mask : Option Mask
  range : Nat
  kc : Nat
  kb : Nat
  margin : Nat
  limit : Nat
  factor : Nat
  sink : Nat
  x : List (Nat × List Int)
  free : Nat

/-- Σ x_i · w_i. -/
def intDot : List Int → List Int → Int
  | a :: as, b :: bs => a * b + intDot as bs
  | _, _ => 0

/-- The part is not read: all its codes are 0 (R202). -/
def zeroPart (p : Nat × List Int) : Bool := p.2.all (· == 0)

/-- The digital score of a pip (R203). -/
def Query.digital (k : Query) (p : Pip) : Nat :=
  ((k.x.zip p.scales).zip p.codes).foldl (fun acc a =>
    if zeroPart a.1.1 then acc
    else fadd acc (fmul (fmul (bf32 a.1.1.1) (bf32 a.1.2)) (fOfInt (intDot a.1.1.2 a.2)))) fZero

/-- A code of the converter, within ±127. -/
def clampCode (c : Int) : Int := max (-127) (min 127 c)

/-- The ideal code of R203; round() takes half to even (log 47, DESIGN CHOICE). -/
def Query.ideal (k : Query) (x w : List Int) : Int :=
  let v := 127 * intDot x w
  let q : Int := divRne v.natAbs (2 ^ k.range)
  clampCode (if v < 0 then -q else q)

/-- The code that column `c` of array `a`, which holds the codes `w`, gives for the input codes `x` (R203). -/
def Query.codeAt (k : Query) (a c : Nat) (x w : List Int) : Int :=
  clampCode (Config.analogCode (8192 * (4096 * k.free + a) + c) x w)

/-- The analog code of part `a` of a pip (R203). -/
def Query.code (k : Query) (p : Pip) (a : Nat) : Int :=
  let c := p.cols.getD a (0, 0)
  k.codeAt c.1 c.2 (k.x.getD a (0, [])).2 (p.codes.getD a [])

/-- What one read of an array gives (Table 6.2): the code of each of its 4,096 data columns beside the ideal code, and the codes of its 32
reference columns. -/
structure ArrayRead where
  data : List (Int × Int)
  refs : List Int

/-- A read of array `a` for the part of the query that its columns hold. A column without a PROGRAMMED pip is erased. -/
def State.readArray (s : State) (k : Query) (a : Nat) : ArrayRead :=
  let x := (k.x.getD (a % k.x.length) (0, [])).2
  { data := (List.range 4096).map fun c =>
      let w := match s.columnPip a c with
        | some (_, p) => if p.st = 3 then p.codes.getD (a % p.m) [] else []
        | none => []
      (k.codeAt a c x w, k.ideal x w)
    refs := (List.range 32).map fun g => k.codeAt a (4096 + g) x (Config.refPattern (32 * a + g)) }

/-- ŷ of part `a` (R203). -/
def State.yHat (s : State) (k : Query) (p : Pip) (a : Nat) : Nat :=
  let c := p.cols.getD a (0, 0)
  let g := c.2 / 128
  fdiv (fmul (fmul (s.gain c.1 g) (fsub (fOfInt (k.code p a)) (s.offset c.1 g))) (fOfNat (2 ^ k.range))) (fOfNat 127)

/-- The analog score of a pip. (log 40, DEDUCED) -/
def State.analog (s : State) (k : Query) (p : Pip) : Nat :=
  (List.range p.m).foldl (fun acc a =>
    let x := k.x.getD a (0, [])
    if zeroPart x then acc
    else fadd acc (fmul (fmul (bf32 x.1) (bf32 (p.scales.getD a 0))) (s.yHat k p a))) fZero

/-- A PROGRAMMED pip whose arrays are all in service and idle is scored in analog (R209, R218). -/
def State.scoredAnalog (s : State) (p : Pip) : Bool :=
  p.st == 3 && p.cols.all fun c => s.arrayGood c.1 && (s.anArray c.1).st == 0 && !(s.anArray c.1).busy

/-! ### Selection at one level (R211, R212) -/

/-- A candidate: its span or pip block, its pip, its digital score and, where it is scored in analog, that score. -/
structure PipCand where
  item : Nat
  id : Nat
  pip : Pip
  dig : Nat
  ana : Option Nat

/-- Descending score; equal scores rank the lower item first. -/
def scoreBefore (a b : Nat × Nat) : Bool := if flt b.1 a.1 then true else if flt a.1 b.1 then false else a.2 < b.2

/-- The candidate of an item. -/
def State.candOf (s : State) (k : Query) (item : Nat) (e : Nat × Pip) : PipCand :=
  { item := item, id := e.1, pip := e.2, dig := k.digital e.2, ana := if s.scoredAnalog e.2 then some (s.analog k e.2) else none }

/-- Analog candidates by rank. -/
def anaRanked (cs : List PipCand) : List PipCand :=
  sortBy (fun (a b : PipCand) => scoreBefore (a.ana.getD 0, a.item) (b.ana.getD 0, b.item)) (cs.filter fun c => c.ana.isSome)

/-- R211 with `k` to select: those chosen in rank order, those re-scored, and whether the level is LOW (R212). -/
def Query.choose (q : Query) (k : Nat) (cs : List PipCand) : List PipCand × List PipCand × Bool :=
  let band := (k * q.margin + 255) / 256
  let ranked := anaRanked cs
  let top := ranked.take (k + band)
  let again := top ++ cs.filter fun c => c.ana.isNone
  let order := sortBy (fun (a b : PipCand) => scoreBefore (a.dig, a.item) (b.dig, b.item)) (if cs.length ≤ k then cs else again)
  let sel := order.take k
  let low := (ranked.drop k).map (·.id)
  let d := (sel.filter fun c => low.contains c.id).length
  (sel, top, d * 256 > k * q.limit)

/-- Residuals of a re-scored pip's parts, in 1/65,536 code (R219). (log 40, DEDUCED) -/
def State.residuals (s : State) (q : Query) (p : Pip) : List (Nat × Int) :=
  (List.range p.m).filterMap fun a =>
    let x := (q.x.getD a (0, []))
    let c := p.cols.getD a (0, 0)
    if zeroPart x then none else
    let r := fsub (fmul (s.gain c.1 (c.2 / 128)) (fsub (fOfInt (q.code p a)) (s.offset c.1 (c.2 / 128))))
      (fOfInt (q.ideal x.2 (p.codes.getD a [])))
    match unpackF 23 r with
    | .fin n m e =>
      let v : Int := (if e + 16 ≥ 0 then m * 2 ^ (e + 16).toNat else m / 2 ^ (-(e + 16)).toNat : Nat)
      some (c.1, if n then -v else v)
    | _ => none

/-- The members of `xs` that `acc` does not hold are added to it. -/
def joinNew (acc xs : List Int) : List Int := acc ++ (xs.filter fun x => !acc.contains x).eraseDups

/-- A window with one more read. -/
def ReadWin.add (v : ReadWin) (r : ArrayRead) : ReadWin :=
  { reads := v.reads + 1
    sat := v.sat + (r.data.filter fun c => c.1.natAbs == 127).length
    satIdeal := v.satIdeal + (r.data.filter fun c => c.2.natAbs == 127).length
    groups := (List.range 32).map fun g =>
      let cs := (r.data.drop (128 * g)).take 128
      let old := mget v.groups g ([], [])
      (g, (joinNew old.1 (cs.map (·.1)), joinNew old.2 (cs.map (·.2)))) }

/-- A window of 4,096 reads trips (Table 6.4): a stuck column group, or too many saturations. -/
def ReadWin.trips (v : ReadWin) : Bool :=
  (v.groups.any fun g => g.2.1.length < 4 && g.2.2.length ≥ 32) || 20 * v.sat > 20 * v.satIdeal + 4096 * v.reads

/-- The residuals of array `a` trip (Table 6.4). (log 40, DEDUCED) -/
def State.residTrips (s : State) (a : Nat) : Bool :=
  let rs := (s.anArray a).residuals
  let n := rs.length
  let lim := s.obj 0x1620 3 6
  let sq : Int := (rs.map fun r => r * r).sum
  n ≥ 4096 && (sq > (lim * 65536) ^ 2 * n || rs.sum.natAbs > 3 * 65536 * n)

/-- Keeps the newest 4,096 of a window. -/
def window4k {α : Type} (old new : List α) : List α := (old ++ new).drop ((old ++ new).length - 4096)

/-- Array `a` in service that trips becomes SUSPECT; a full window of reads begins anew (R219; log 48, DESIGN CHOICE). -/
def State.checkArray (s : State) (a : Nat) : State :=
  let v := s.anArray a
  let full := v.win.reads ≥ 4096
  if v.st ≠ 0 then s
  else if s.residTrips a ∨ (full ∧ v.win.trips) then s.suspect a
  else if full then s.setArray a { v with win := {} } else s

/-- The residuals of the pips re-scored enter their arrays' windows (R219). -/
def State.rescored (s : State) (q : Query) (top : List PipCand) : State :=
  let rs := top.flatMap fun c => s.residuals q c.pip
  let arrays := (rs.map (·.1)).eraseDups
  let s := arrays.foldl (fun s a =>
    let v := s.anArray a
    s.setArray a { v with residuals := window4k v.residuals ((rs.filter fun r => r.1 == a).map (·.2)) }) s
  arrays.foldl State.checkArray s

/-- Query reads of the arrays `as`: counted, their codes at ±127 too, and entered in the arrays' windows (R203, R219). -/
def State.readArrays (s : State) (q : Query) (as : List Nat) : State :=
  let s := as.foldl (fun s a =>
    let r := s.readArray q a
    let v := s.anArray a
    (s.setArray a { v with win := v.win.add r }).bump 0x6060 4 (r.data.filter fun c => c.1.natAbs == 127).length) s
  as.foldl State.checkArray (s.bump 0x6060 2 as.length)

/-- The pips of `cs` have been scored in this age epoch (R199). -/
def State.scored (s : State) (cs : List PipCand) : State :=
  cs.foldl (fun s c => match mget? s.ix.pips c.id with
    | some p => s.setPip c.id { p with lastUse := s.px.epoch }
    | none => s) s

/-- Records what one level read: counters, LAST_USE, the arrays' windows. A zero part counts one skip for each array that is not read (log 47,
DESIGN CHOICE). -/
def State.afterLevel (s : State) (q : Query) (cs : List PipCand) : State :=
  let ana := cs.filter fun c => c.ana.isSome
  let cols := fun (zero : Bool) => (ana.flatMap fun c => (List.range c.pip.m).filterMap fun a =>
    if zeroPart (q.x.getD a (0, [])) = zero then some (c.pip.cols.getD a (0, 0)).1 else none).eraseDups
  let subst := cs.filter fun c => c.ana.isNone && c.pip.st == 3 &&
    c.pip.cols.all fun x => s.arrayGood x.1 && (s.anArray x.1).st == 0
  let s := (s.bump 0x6060 3 (cols true).length).bump 0x6060 8 subst.length
  (s.scored cs).readArrays q (cols false)

/-- One level with `k` to select, not yet widened (`w` false) or widened: those selected, whether now widened, whether LOW was
seen, and the state. -/
def State.level (s : State) (q : Query) (k : Nat) (w : Bool) (cs : List PipCand) : List PipCand × Bool × Bool × State :=
  let kw := if w then k * q.factor else k
  let (sel, top, low) := q.choose kw cs
  let s := (s.afterLevel q cs).rescored q top
  if !low then (sel, w, false, s)
  else
    let s := s.bump 0x6060 5
    if w then (sel, w, true, s.bump 0x6060 7)
    else if q.factor ≤ 1 then (sel, false, true, s)
    else
      let s := s.bump 0x6060 6
      let (sel, top, low) := q.choose (k * q.factor) cs
      let s := s.rescored q top
      (sel, true, true, if low then s.bump 0x6060 7 else s)

/-! ### The pyramid (R210, R213) -/

/-- What a search found: the attended token blocks in ascending order, whether it widened, whether a level was LOW. -/
structure Searched where
  blocks : List Nat
  widened : Bool
  lowSeen : Bool
  s : State

/-- Blocks of `sel` kept while `room` lasts, none twice. -/
def fillSet : Nat → List Nat → List Nat → List Nat × Nat
  | _, acc, [] => (acc, 0)
  | room, acc, b :: bs =>
    if acc.contains b then fillSet room acc bs
    else if acc.length < room then fillSet room (acc ++ [b]) bs
    else
      let r := fillSet room acc bs
      (r.1, r.2 + 1)

/-- The leaf entry of block `b` is OPEN or SEALED. -/
def Seq.live (v : Seq) (b : Nat) : Bool := (mget? v.leaves b).any fun l => l.st != .absent

/-- R216: the audit of a query when its turn comes. -/
def State.audit (s : State) (q : Query) (cs : List PipCand) (sel : List Nat) : State :=
  let n := s.obj 0x1620 4 1024
  if n = 0 then s else
  let k := mget s.ix.audits q.part 0 + 1
  let s := { s with ix := { s.ix with audits := mset s.ix.audits q.part (k % n) } }
  if k % n ≠ 0 then s
  else
    let s := s.scored cs
    let best := ((sortBy (fun (a b : PipCand) => scoreBefore (a.dig, a.item) (b.dig, b.item)) cs).take q.kb).map (·.item)
    let hits := (best.filter sel.contains).length
    let s := ((s.bump 0x6060 0x13).bump 0x6060 0x14 hits).bump 0x6060 0x15 q.kb
    (s.bump (pIx q.part 0x18) 0x0A hits).bump (pIx q.part 0x18) 0x0B q.kb

/-- A retrieval query (R210-R213, R216). -/
def State.search (s : State) (q : Query) : Searched :=
  let s := ((s.bump 0x6060 1).bump (pIx q.part 0x18) 0x0C)
  match s.seq? q.seq with
  | none => { blocks := [], widened := false, lowSeen := false, s := s }
  | some v =>
    let nb := (q.len + 15) / 16
    let items := List.range ((nb + 15) / 16)
    let spans := List.range ((nb + 255) / 256)
    let blockPip := items.map fun j => (j, s.pipOf q.seq q.pf q.y false j)
    let spanPip := spans.map fun i => (i, s.pipOf q.seq q.pf q.y true i)
    let excl := fun lo n => (List.range n).all fun b => exclB q.mask (lo + b)
    let sc := spanPip.filterMap fun e => e.2.bind fun p => if excl (256 * e.1) 256 then none else some (s.candOf q e.1 p)
    let (s1, w1, low1, s) := s.level q q.kc false sc
    let open_ := s1.map (·.item) ++ (spanPip.filter fun e => e.2.isNone).map (·.1)
    let all := blockPip.filterMap fun e => e.2.bind fun p => if excl (16 * e.1) 16 then none else some (s.candOf q e.1 p)
    let (s2, w2, low2, s) := s.level q q.kb w1 (all.filter fun c => open_.contains (c.item / 16))
    let sel := s2.map (·.item)
    let sink := (List.range q.sink).filter (· < nb)
    let tail := ((List.range nb).filter fun b => v.live b && (blockPip.getD (b / 16) (0, none)).2.isNone).reverse
    let pages := (sel.flatMap fun j => (List.range 16).map (· + 16 * j)).filter fun b => b < nb && v.live b
    let (set, out) := fillSet 16384 [] (sink ++ tail ++ pages)
    let s := if out = 0 then s else s.bump 0x6060 0x16 out
    let s := if low1 ∨ low2 then s.bump (pIx q.part 0x18) 0x0D else s
    { blocks := sortBy (fun (a b : Nat) => a < b) set, widened := w2, lowSeen := low1 || low2, s := s.audit q all sel }

/-- The query of partition `p` on sequence `n` at a layer, from its key-space query in FP32 (R201), under the index parameters
`ps` of its fetch. -/
def State.queryOf (s : State) (p n pf layer len : Nat) (ps : List Nat) (mask : Option Mask) (qv : List Nat) :
    Query × State :=
  let (fr, s) := s.takeFree
  let m := s.ixM pf
  let u := (List.range (64 * m)).map fun i => dotF fZero (s.projRow pf layer i) qv
  let o := fun i d => ps.getD (i - 1) d
  ({ part := p, seq := n, pf := pf, y := layer / s.ixG pf, len := len, mask := mask, range := o 9 11, kc := o 4 16
     kb := o 5 32, margin := o 6 64, limit := o 7 32, factor := o 8 2, sink := o 3 4
     x := (parts64 m u).map (quantPart 31), free := fr }, s)

/-! ### Commands -/

/-- The answer of an INDEX_QUERY: its query searches the index, and the blocks found are written out. -/
def State.queryDone (s : State) (t : Nat) (o : Op) (n pf len : Nat) (mk : Option Mask) : State :=
  let d := o.desc
  let (bs, s) := s.readIn o 0 (fld d 16 8) (2 * (s.geo pf).wk)
  let (q, s) := s.queryOf o.part n pf (fld d 11 1) len o.params mk ((bfOfBytes bs).map bf32)
  let r := s.search q
  let blocks := r.blocks.filter fun b => !exclB mk b
  let head := leBytes 4 blocks.length ++ leBytes 1 (b2n r.widened + 2 * b2n r.lowSeen) ++ leBytes 11 0
  let w := r.s.writeOut t o 0 (fld d 32 8) (head ++ blocks.flatMap (leBytes 4))
  w.2.2.finishOut t (if r.widened then stLow else stDone) 0 blocks.length w.1 w.2.1

/-- INDEX_QUERY (R308): the context ends at CTX_END, and at LENGTH at the latest. (log 36, DEDUCED) -/
def execIndexQuery (t : Nat) (s : State) : Res :=
  .next <| match s.runCmd t .indexQuery with
    | none => s
    | some o =>
      let d := o.desc
      let n := dSeq d
      let s := s.meterOp o
      match s.seqOf o.part n with
      | none => s.endOp t stProt 0x0A 0 0
      | some v =>
        let pf := (s.bound o.part v.slot).getD 0
        let len := if fld d 12 4 = 0 then v.length else min (fld d 12 4) v.length
        let mask := if fld d 24 8 = 0 then some none else (s.readMask o (fld d 24 8) 1).map some
        if (s.proj pf).isEmpty then s.endOp t stProfile 0 0 0
        else match mask with
          | none => s.endOp t stBad 0x8018 0 0
          | some mk => s.queryDone t o n pf len mk

/-- The entry of PIP_INSPECT for one item (R307). -/
def State.pipEntry (s : State) (n pf y : Nat) (span : Bool) (item : Nat) : Bytes :=
  match s.pipOf n pf y span item with
  | none => leBytes 8 0
  | some (_, p) => leBytes 4 (p.st + 8 * b2n p.owner.isSome + 16 * b2n (s.scoredAnalog p)) ++ leBytes 4 p.lastUse

/-- PIP_INSPECT (R307). -/
def execPipInspect (t : Nat) (s : State) : Res :=
  .next <| match s.runCmd t .pipInspect with
    | none => s
    | some o =>
      let d := o.desc
      let n := dSeq d
      let s := s.meterOp o
      match s.seqOf o.part n with
      | none => s.endOp t stProt 0x0A 0 0
      | some v =>
        let pf := (s.bound o.part v.slot).getD 0
        let k := fld d 20 2
        let body := (List.range k).flatMap fun i =>
          s.pipEntry n pf (fld d 11 1) (bit (fld d 12 1) 0) (fld d 16 4 + i)
        let w := s.writeOut t o 0 (fld d 24 8) body
        w.2.2.finishOut t stDone 0 k w.1 w.2.1

end Sys2Proof.Machine
end

