-- ==== Sys2Proof/Machine/Attention.lean ====
section
/-! DEFINITION. Attention next to the cache (07_attention.md): dispatch, entries, the arithmetic of R238-R240, forward and
backward ATTENDs, saves. -/

namespace Sys2Proof.Machine

/-! ### Dispatch (R242-R246, R254) -/

/-- It is mapped over the pith: dispatched and not yet computed. -/
def isMapped (o : Op) : Bool :=
  isAttend o && o.pos ≥ 1 && (match o.st with | .ready => true | .reading => true | .mapWait => true | _ => false)
/-- Partition `p`'s attention queue in fetch order; one that FENCE holds back has not joined it. -/
def State.attendQueue (s : State) (p : Nat) : List (Nat × Op) :=
  sortBy (fun (a b : Nat × Op) => a.2.fetchNo < b.2.fetchNo)
    (s.q.ott.filter fun e => isAttend e.2 && e.2.part == p && e.2.pos == 0 && (s.runnable e.1).isSome)

/-- SAVE_USED of partition `p`. -/
def State.saveUsed (s : State) (p : Nat) : Nat := ((s.att.saves.filter fun v => v.part == p && !v.gone).map (·.bytes)).sum
/-- SAVES_LIVE of partition `p`. -/
def State.savesLive (s : State) (p : Nat) : Nat := (s.att.saves.filter fun v => v.part == p && !v.gone).length
/-- SAVE_BYTES of partition `p`. (log 29, DEDUCED) -/
def State.saveBytes (s : State) (p : Nat) : Nat := s.obj (pIx p 0x1C) 2 0

/-- The header fields a backward must repeat (R247). -/
def sameHeader (a b : Bytes) : Bool :=
  let c := fun (x : Bytes) => [fld x 0 1 / 32 * 32 + bits (fld x 0 1) 1 2 * 2, fld x 1 1, fld x 2 1,
    fld x 3 1 % 16 + hGrad x * 64, hCount x, hHeads x, hQpk x, hSaveId x, fld x 12 4]
  c a == c b && slice a 88 40 == slice b 88 40

/-- R244: the plan an ATTEND names serves it. (log 29, DEDUCED) -/
def State.attendPlanOk (s : State) (p : Nat) (a : Bytes) : Bool :=
  hPlan a == 15 ||
    (let b := s.planObj p (hPlan a)
     !pDeliver b && fld b 34 1 % 8 == hSlot a && (List.range (pOrderLen b)).any fun i => pOrder b i == hLayer a)

/-- What dispatch finds wrong with a command (R244, R246, R247, R514): status. (log 29, DEDUCED) -/
def State.dispatchBad (s : State) (o : Op) : Option Nat :=
  let a := o.arg
  let id := hSaveId a
  if !s.attendPlanOk o.part a then some stBad
  else if hKind a ≥ 2 ∧ (s.opSet o (fld a 96 2)).isNone then some stProt
  else if hBack a then
    match s.save? o.part id with
    | some v => if sameHeader a v.hdr then none else some stBad
    | none => some stBad
  else if hSave a ∧ (s.saveBytes o.part = 0 ∨ (s.save? o.part id).isSome ∨ s.savesLive o.part ≥ 4096) then some stBad
  else none

/-- Dispatches ATTEND `t`: its work is counted, its plan marked (R141, R244) and its save created (R245). A backward that is
turned away has completed, so the save it names is freed (R246). -/
def State.dispatchOp (s : State) (t : Nat) (o : Op) : State :=
  let a := o.arg
  let s := s.bump (pIx o.part 0x1C) 0x0E o.aux
  let (c, s) := s.meterItem o.part 1 64 0 false
  match s.dispatchBad o with
  | some st => (if hBack a then s.freeSave o.part (hSaveId a) else s).endOp t st 0 0 0
  | none =>
    let s := if hPlan a = 15 then s else s.planAttend o.part (hPlan a) (hLayer a)
    let v : Save := { part := o.part, id := hSaveId a, maker := t, hdr := a.take 128, entries := [], epoch := s.px.epoch, bytes := 0 }
    let s := if hSave a then { s with att := { s.att with saves := s.att.saves ++ [v] } } else s
    let s := if hBack a then s.takeSave t o.part (hSaveId a) else s
    match s.op? t with
    | some o => s.setOp t { o with pos := 1, todo := [(0, c)] }
    | none => s

/-- ATTEND_DISPATCH (R242, R243): deficit round-robin over the partitions; at most two commands are mapped at once. -/
def execAttendDispatch (s : State) : Res :=
  .next <|
    let qs := (List.range 64).map fun p => (p, s.attendQueue p)
    let ds := s.att.deficits.filter fun d => qs.any fun e => e.1 == d.1 && !e.2.isEmpty
    let s := { s with att := { s.att with deficits := ds } }
    if s.boot.stone ∨ (s.q.ott.filter fun e => isMapped e.2).length ≥ 2 ∨ qs.all (·.2.isEmpty) then s
    else
      let ms := qs.map fun e => (e.1, e.2.head?.map (·.2.aux), s.obj (pIx e.1 0x1C) 1 16 * 4096, e.2.isEmpty)
      let ms := rotateTo (·.1) s.att.turn ms
      match dwrr ms (ms.head?.map (·.1)) ds 16385 with
      | none => s
      | some (p, ds) =>
        let s := { s with att := { s.att with deficits := ds, turn := p } }
        match (s.attendQueue p).head? with
        | none => s
        | some e =>
          let s := s.dispatchOp e.1 e.2
          if (s.attendQueue p).isEmpty then { s with att := { s.att with deficits := merase s.att.deficits p } } else s

/-! ### Entries (R225, R230-R237, R255) -/

/-- The mask record of an entry: none when it has none; an error is a status. -/
def State.entryMask (s : State) (o : Op) (b : Bytes) : Except Nat (Option Mask) :=
  let m := fld o.arg 32 8
  if m = 0 ∨ eMask b = 2 ^ 32 - 1 then .ok none
  else
    let at_ := m + eMask b
    let u := s.setupOf o.gen
    let chk := fun n => (s.badOperand u o.part (s.opPort o) at_ n false).map (·.1)
    match chk 16 with
    | some st => .error st
    | none =>
      let h := s.operand o at_ 16
      match chk (maskLen h) with
      | some st => .error st
      | none => match s.readMask o at_ (eRows b) with
        | some k => .ok (some k)
        | none => .error stBad

/-- The geometry of an ATTEND's profile, and its profile. -/
def State.attPf (s : State) (o : Op) : Nat := (s.bound o.part (hSlot o.arg)).getD 0

/-- The BF16 values of query (e, r, j), in binary32 (R228). -/
def State.queryVec (s : State) (o : Op) (g : Geo) (row j : Nat) : List Nat :=
  (bfOfBytes (s.operand o (fld o.arg 16 8 + (row * hHeads o.arg + j) * g.dq * 2) (g.dq * 2))).map bf32

/-- The key-space query of a retrieval entry (R235). -/
def State.keyQuery (s : State) (o : Op) (g : Geo) (e : Nat) : List Nat :=
  let a := o.arg
  if fld a 24 8 ≠ 0 then (bfOfBytes (s.operand o (fld a 24 8 + e * g.wk * 2) (g.wk * 2))).map bf32
  else
    let n := eRows (aEntry a e)
    let vs := (List.range n).flatMap fun r => (List.range (hHeads a)).map fun j =>
      (s.queryVec o g (rowsBefore a e + r) j).take g.wk
    (vs.foldl vadd (List.replicate g.wk fZero)).map fun x => fdiv x (fOfNat (n * hHeads a))

/-- What an entry's own fields and sequence say (R225, R230, R233, R255): a status, or LENGTH as read and the mask. -/
def State.entryStart (s : State) (o : Op) (e : Nat) : Except Nat (Nat × Option Mask) :=
  let b := aEntry o.arg e
  if !entryOk o.arg b then .error stBad
  else if (o.ents.getD e {}).st ≠ 0xFF then .error (o.ents.getD e {}).st
  else match s.seqOf o.part (eSeq b) with
    | none => .error stProt
    | some v =>
      if v.slot ≠ hSlot o.arg then .error stProfile
      else if eEnd b > v.length then .error stBad
      else match s.entryMask o b with
        | .error st => .error st
        | .ok m => .ok (v.length, m)

/-- The context length of an entry. -/
def ctxLen (b : Bytes) (len : Nat) : Nat := if eEnd b = 0 then len else eEnd b

/-- R230, conditions 1 to 3 but for FILL: query row `q` may attend row `r` of block `k`. -/
def mayAttend (a b : Bytes) (l : Nat) (m : Option Mask) (q k r : Nat) : Bool :=
  16 * k + r < l && (m.all fun x => x.admits q k r) && (!hCausal a || 16 * k + r ≤ eP0 b + q)

/-- Some row may attend some position of block `k`. -/
def blockMay (a b : Bytes) (l : Nat) (m : Option Mask) (k : Nat) : Bool :=
  (List.range (eRows b)).any fun q => (List.range 16).any fun r => mayAttend a b l m q k r

/-- The candidate blocks of an entry, and of these the ones read (R230, R232). -/
def candBlocks (b : Bytes) (x : AttEnt) : List Nat :=
  if x.retr then x.blocks else List.range ((ctxLen b x.len + 15) / 16)
def readBlocks (a b : Bytes) (x : AttEnt) (m : Option Mask) : List Nat :=
  (candBlocks b x).filter fun k => !exclB m k && (!hCausal a || 16 * k ≤ eP0 b + eRows b - 1)

/-- The leaf entries of blocks `ks` of sequence `n`, as operation `t` finds them. -/
def State.leavesAt (s : State) (t n : Nat) (ks : List Nat) : Map Leaf := ks.filterMap fun k => (s.leafFor (some t) n k).map fun l => (k, l)
/-- Walks the leaf entries of the blocks that entry `x` reads. -/
def State.walk (s : State) (t : Nat) (o : Op) (b : Bytes) (x : AttEnt) : AttEnt :=
  { x with leaves := s.leavesAt t (eSeq b) (readBlocks o.arg b x x.mask) }
/-- The slices of a layer that a begun entry reads. -/
def AttEnt.slices (x : AttEnt) (layer : Nat) : List (Nat × Nat) :=
  x.leaves.filterMap fun k => if k.2.st = .absent then none else some (k.2.fid, layer)

/-- Entry `e` of forward `t` begins (R234-R237, R254): LENGTH and the mask are read, a retrieval entry is searched, and the leaf entries
of the blocks it reads are walked. -/
def State.beginEntry (s : State) (t : Nat) (o : Op) (e : Nat) : AttEnt × State :=
  match s.entryStart o e with
  | .error st => ({ st := st }, s)
  | .ok (len, m) =>
    let b := aEntry o.arg e
    let l := ctxLen b len
    let pf := s.attPf o
    let x : AttEnt := { len := len, mask := m }
    if !retrieval o.params l then (s.walk t o b x, s)
    else if (s.proj pf).isEmpty then ({ x with st := stProfile }, s)
    else
      let (q, s) := s.queryOf o.part (eSeq b) pf (hLayer o.arg) l o.params m (s.keyQuery o (s.geo pf) e)
      let r := s.search q
      (r.s.walk t o b { x with retr := true, blocks := r.blocks, low := r.widened }, r.s)

/-! ### Arithmetic (R238-R240) -/

/-- q · k: exact products, each sum rounded once. (log 30, DEDUCED) -/
def dotX : Nat → List Nat → List Nat → Nat
  | acc, a :: as, b :: bs => dotX (f32 (addFl (unpackF 23 acc) (mulFl (unpackF 23 a) (unpackF 23 b)))) as bs
  | acc, _, _ => acc
/-- A sum of products of binary32 values, each operation rounded. -/
def dotR : Nat → List Nat → List Nat → Nat
  | acc, a :: as, b :: bs => dotR (fadd acc (fmul a b)) as bs
  | acc, _, _ => acc
/-- A scalar times a vector. -/
def vscale (c : Nat) (v : List Nat) : List Nat := v.map (fmul c)

/-- k_p and v_p of a stored row for query head `j`. -/
def keyOf (g : Geo) (qpk j : Nat) (row : List Nat) : List Nat :=
  if g.latent then row else (row.drop (j / qpk * g.kW)).take g.kW
def valOf (g : Geo) (qpk j : Nat) (row : List Nat) : List Nat :=
  if g.latent then row.take g.latentW else (row.drop (g.heads * g.kW + j / qpk * g.vW)).take g.vW

/-- The score scale in force. -/
def scaleVal (a : Bytes) (g : Geo) : Nat :=
  if fld a 12 4 % 2 ^ 31 = 0 then fdiv fOne (fsqrt (fOfNat g.dq)) else fld a 12 4

/-- An attended position: its chunk, block and row, and its stored row in binary32. -/
structure APos where
  chunk : Nat
  blk : Nat
  r : Nat
  row : List Nat

/-- The running state of the online softmax. -/
structure Soft where
  m : Nat := fNegInf
  l : Nat := fZero
  o : List Nat

/-- One chunk of R239: scores with values. (log 30, DEDUCED) -/
def Soft.chunk (z : Soft) (c : List (Nat × List Nat)) : Soft :=
  let mc := c.foldl (fun acc p => fmaximum acc p.1) fNegInf
  if mc = fNegInf then z else
  let r := c.foldl (fun (acc : Nat × List Nat) p =>
    let e := fexp (fsub p.1 mc)
    (fadd acc.1 e, vadd acc.2 (vscale e p.2))) (fZero, z.o.map fun _ => fZero)
  let mn := fmaximum z.m mc
  let a := fexp (fsub z.m mn)
  let b := fexp (fsub mc mn)
  { m := mn, l := fadd (fmul z.l a) (fmul r.1 b), o := vadd (vscale a z.o) (vscale b r.2) }

/-- The chunks of positions in ascending order. -/
def chunksOf (ps : List (APos × Nat × List Nat)) : List (List (Nat × List Nat)) :=
  ((ps.map (·.1.chunk)).eraseDups).map fun c => (ps.filter fun p => p.1.chunk == c).map (·.2)

/-- One query row and head (R239): out, M and LSE. (log 30, DEDUCED) -/
def softmax (dv : Nat) (ps : List (APos × Nat × List Nat)) : List Nat × Nat × Nat :=
  let z := (chunksOf ps).foldl Soft.chunk { o := List.replicate dv fZero }
  if z.l % 2 ^ 31 = 0 then (List.replicate dv fZero, z.m, fNegInf)
  else (z.o.map fun x => fdiv x z.l, z.m, fadd z.m (flog z.l))

/-! ### One forward entry -/

/-- What one entry computed: rows of heads of (out, M, LSE), its attended blocks with their FIDs, attended positions, and the
BF16 probabilities of each row and head over the attended blocks. -/
structure EntOut where
  rows : List (List (List Nat × Nat × Nat)) := []
  blocks : List (Nat × Nat) := []
  positions : Nat := 0
  probs : List (List Nat) := []

/-- The node rows of a TREE entry that node `i` attends (R233): itself and its ancestors, ascending. -/
def ancestors (b : Bytes) : Nat → Nat → List Nat
  | 0, _ => []
  | fuel + 1, i => i :: (if eParent b i = 15 then [] else ancestors b fuel (eParent b i))

/-- The node rows of an entry in binary32 (Table 7.3). -/
def State.nodeRows (s : State) (o : Op) (g : Geo) (e : Nat) : List (List Nat) :=
  let a := o.arg
  let base := fld a 16 8 + rowsBefore a (hCount a) * hHeads a * g.dq * 2
  (List.range (eRows (aEntry a e))).map fun r =>
    (bfOfBytes (s.operand o (base + (rowsBefore a e + r) * g.w * 2) (g.w * 2))).map bf32

/-- The context positions row `q` attends, given the rows at hand of each block. -/
def ctxPos (a b : Bytes) (l : Nat) (m : Option Mask) (data : List (Nat × List (List Nat))) (q : Nat) : List APos :=
  data.flatMap fun d => ((List.range d.2.length).zip d.2).filterMap fun r =>
    if mayAttend a b l m q d.1 r.1 then some { chunk := d.1 / 16, blk := d.1, r := r.1, row := r.2 } else none

/-- The positions of row `q`, node rows of a TREE last. -/
def State.rowPos (s : State) (o : Op) (g : Geo) (e l : Nat) (m : Option Mask) (data : List (Nat × List (List Nat))) (q : Nat) :
    List APos :=
  let b := aEntry o.arg e
  ctxPos o.arg b l m data q ++
    (if hTree o.arg then
      let ns := s.nodeRows o g e
      (sortBy (fun (x y : Nat) => x < y) (ancestors b 8 q)).map fun i =>
        { chunk := 2 ^ 32, blk := 2 ^ 32, r := i, row := ns.getD i [] }
     else [])

/-- The score of a position for query vector `q` and head `j` (R238). -/
def scoreOf (a : Bytes) (g : Geo) (sc : Nat) (q : List Nat) (j : Nat) (p : APos) : Nat :=
  fmul sc (dotX fZero q (keyOf g (hQpk a) j p.row))

/-- The rows at hand of each read block of an entry; blocks not to be had give their status when R230 would let them in. -/
def State.entryData (s : State) (o : Op) (g : Geo) (b : Bytes) (l : Nat) (x : AttEnt) : List (Nat × List (List Nat)) × List Nat :=
  x.leaves.foldl (fun (acc : List (Nat × List (List Nat)) × List Nat) k =>
    match s.findSlice o (some k.2) (hLayer o.arg) with
    | .data d => (acc.1 ++ [(k.1, d.map fun r => (bfRow g r).map bf32)], acc.2)
    | .zero => acc
    | .status st => (acc.1, if blockMay o.arg b l x.mask k.1 then acc.2 ++ [st] else acc.2)) ([], [])

/-- The status of an entry that lacks slices (R316's order). -/
def worst (ss : List Nat) : Nat := ([stLinkDown, stMedia, stLease, stAbsent].find? fun x => ss.contains x).getD stAbsent

/-- R239 over one entry. -/
def State.entryForward (s : State) (o : Op) (g : Geo) (e l : Nat) (x : AttEnt)
    (data : List (Nat × List (List Nat))) : EntOut :=
  let a := o.arg
  let b := aEntry a e
  let sc := scaleVal a g
  let qs := List.range (eRows b)
  let pos := qs.map fun q => s.rowPos o g e l x.mask data q
  let att := (pos.flatten.filter fun p => p.blk < 2 ^ 32).map fun p => (p.blk, p.r)
  let ks := (data.map (·.1)).filter fun k => att.any fun x => x.1 == k
  let res := (qs.zip pos).map fun q => (List.range (hHeads a)).map fun j =>
    let v := s.queryVec o g (rowsBefore a e + q.1) j
    let ps := q.2.map fun p => (p, scoreOf a g sc v j p, valOf g (hQpk a) j p.row)
    (softmax g.dv ps, ps)
  let prob := fun (lse : Nat) (ps : List (APos × Nat × List Nat)) => ks.flatMap fun k => (List.range 16).map fun r =>
    match ps.find? fun p => p.1.blk == k && p.1.r == r with
    | some p => toBf (fexp (fsub p.2.1 lse))
    | none => 0
  { rows := res.map fun r => r.map (·.1)
    blocks := ks.map fun k => (k, ((mget? x.leaves k).map (·.fid)).getD 0)
    positions := att.eraseDups.length
    probs := res.flatMap fun r => r.map fun x => prob x.1.2.2 x.2 }

/-! ### Saves (R245, R246) -/

/-- Bytes an entry of a save takes without probabilities: 4 B a block, 8 B a row and head. -/
def saveBase (b a : Bytes) (x : EntOut) : Nat := 4 * x.blocks.length + 8 * eRows b * hHeads a

/-- The entries of a save, in order, with the probabilities that fit, and its bytes and STORE fallbacks. -/
def State.saveEntries (s : State) (o : Op) (room : Nat) : List (Nat × AttEnt × EntOut) → List SaveEnt × Nat × Nat
  | [] => ([], 0, 0)
  | (e, x, y) :: r =>
    let a := o.arg
    let b := aEntry a e
    let ok := x.st = stDone ∨ x.st = stLow
    let store := s.obj (pIx o.part 0x1C) (4 + hChan a) 0 = 1
    let pb := 32 * eRows b * hHeads a * y.blocks.length
    let fits := y.positions ≤ s.obj (pIx o.part 0x1C) (8 + hChan a) 8192 ∧ pb ≤ room
    let keep := ok ∧ store ∧ fits
    let rest := s.saveEntries o (if keep then room - pb else room) r
    let v : SaveEnt := if ok then
        { seq := eSeq b, qrows := eRows b, blocks := y.blocks, stats := y.rows.flatMap fun h => h.map (·.2)
          probs := if keep then some y.probs else none }
      else { seq := eSeq b, qrows := eRows b, held := false }
    (v :: rest.1, (if keep then pb else 0) + rest.2.1, b2n (ok && store && !fits) + rest.2.2)

/-- Fills the save that forward `t` created, if it is still live; none when it does not fit in SAVE_BYTES. -/
def State.fillSave (s : State) (t : Nat) (o : Op) (es : List (Nat × AttEnt × EntOut)) : Option State :=
  let a := o.arg
  if !hSave a then some s else
  if !((s.save? o.part (hSaveId a)).any fun v => v.maker == t) then some s else
  let base := (es.map fun x => if x.2.1.st = stDone ∨ x.2.1.st = stLow then saveBase (aEntry a x.1) a x.2.2 else 0).sum
  let used := s.saveUsed o.part
  if used + base > s.saveBytes o.part then none else
  let r := s.saveEntries o (s.saveBytes o.part - used - base) es
  let put := fun (v : Save) => if v.isLive o.part (hSaveId a) then { v with entries := r.1, bytes := base + r.2.1 } else v
  some (({ s with att := { s.att with saves := s.att.saves.map put } }).bump 0x6070 0x0B r.2.2)

/-! ### Output (R228, R229, R250, R251) -/

/-- Writes what an operation made so far: frames to acknowledge, and whether some were discarded. -/
structure Sent where
  acks : Nat := 0
  cut : Bool := false
  s : State

/-- Adds one write at an operand address. -/
def Sent.write (x : Sent) (t : Nat) (o : Op) (c a : Nat) (bs : Bytes) : Sent :=
  if bs.isEmpty then x else
  let w := x.s.writeOut t o c a bs
  { acks := x.acks + w.1, cut := x.cut || w.2.1, s := w.2.2 }

/-- Runs of bytes at offsets, each that begins where the one before it ends joined to it. -/
def joinRuns : List (Nat × Bytes) → List (Nat × Bytes)
  | [] => []
  | r :: rs => match joinRuns rs with
    | [] => [r]
    | x :: xs => if r.1 + r.2.length = x.1 then (r.1, r.2 ++ x.2) :: xs else r :: x :: xs

/-- Cuts a run at 4,096 B boundaries of its offset from the first output byte. -/
def cut4k : Nat → Nat → Bytes → List (Nat × Bytes)
  | 0, _, _ => []
  | fuel + 1, off, bs => if bs.isEmpty then [] else
    let n := 4096 - off % 4096
    (off, bs.take n) :: cut4k fuel (off + n) (bs.drop n)

/-- Sends runs of bytes at ascending offsets from sink address `base`, 4,096 B at a time, piece i on link i mod n (R229). -/
def Sent.link (x : Sent) (t : Nat) (o : Op) (c base : Nat) (rs : List (Nat × Bytes)) : Sent :=
  let ls := hLinks o.arg
  let ps := (joinRuns rs).flatMap fun r => cut4k (r.2.length / 4096 + 2) r.1 r.2
  ((List.range ps.length).zip ps).foldl (fun (x : Sent) p =>
    let n := ls.getD (p.1 % ls.length) 0
    let f : LFrame := { typ := 1, vl := 1, hdr := dataHdr 0 0 0 0 0 (base + p.2.1), payload := p.2.2 }
    let u : TUnit := { len := x.s.unitLen (48 + n) f.len, colour := c, tag := some t, frame := some f }
    let w := x.s.place (48 + n) o.part 1 u
    { acks := x.acks + b2n w.1, cut := x.cut || !w.1, s := w.2 }) x

/-- A row-statistics word. -/
def statWord (r : List Nat × Nat × Nat) : Bytes := leBytes 4 r.2.1 ++ leBytes 4 r.2.2

/-- The outputs of a forward by OUT_KIND. (log 30, DEDUCED) -/
def State.sendOut (s : State) (t : Nat) (o : Op) (g : Geo) (c : Nat) (es : List (Nat × EntOut)) : Sent :=
  let a := o.arg
  let z := g.dv * hZ a
  let h := hHeads a
  let out := fun (y : EntOut) => y.rows.flatMap fun r => r.flatMap fun x => x.1.flatMap (outBytes (hFp32 a))
  let st := fun (y : EntOut) => y.rows.flatMap fun r => r.flatMap statWord
  let at_ := fun (e size : Nat) => rowsBefore a e * h * size
  match hKind a with
  | 0 => es.foldl (fun (x : Sent) e =>
      let x := x.write t o c (fld a 40 8 + at_ e.1 z) (out e.2)
      if hStats a then x.write t o c (fld a 48 8 + at_ e.1 8) (st e.2) else x) { s := s }
  | 1 =>
    let base := fld a 40 6
    let sb := roundUp (base + rowsBefore a (hCount a) * h * z) 4096 - base
    Sent.link { s := s } t o c base ((es.map fun e => (at_ e.1 z, out e.2)) ++
      (if hStats a then es.map fun e => (sb + at_ e.1 8, st e.2) else []))
  | k =>
    match s.opSet o (fld a 96 2) with
    | none => { s := s }
    | some set =>
      let idx := fun (y : EntOut) => (List.range y.rows.length).zip y.rows
      let total := hTotal a
      let runs := if k = 2 then
          (es.flatMap fun e => (idx e.2).map fun r =>
            (fld a 40 8 + ((rowsBefore a e.1 + r.1) * total + fld a 98 2) * z,
              r.2.flatMap fun x => x.1.flatMap (outBytes (hFp32 a)))) ++
          (if hStats a then es.flatMap fun e => (idx e.2).map fun r =>
            (fld a 48 8 + ((rowsBefore a e.1 + r.1) * total + fld a 98 2) * 8, r.2.flatMap statWord) else [])
        else es.map fun e => (rowsBefore a e.1 * h * (4 * g.dv + 8), e.2.rows.flatMap fun r => r.flatMap fun x =>
          x.1.flatMap (leBytes 4) ++ statWord x)
      let set := if k = 2 then set else { set with member := fld a 102 1 % 16 }
      let s := s.bump 0x6070 (if k = 2 then 0x0D else 0x0E) es.length
      let w := s.contribute t o set (if k = 2 then 0 else 2) (k = 3) runs
      { acks := w.1, cut := w.2.1, s := w.2.2 }

/-! ### Commands -/

/-- The ATTEND of tag `t` in direction `back` when it is dispatched and nothing is out for it. -/
def State.attendAt (s : State) (t : Nat) (back : Bool) : Option Op :=
  match s.op? t with
  | some o => if isAttend o && o.pos ≥ 1 && o.st == .ready && hBack o.arg == back then some o else none
  | none => none

/-- Writes the status vector and ends the command (R255, which alone decides an ATTEND's status by R316: PARTIAL too when entries end
REEXEC; log 29, DEDUCED). -/
def Sent.finish (x : Sent) (t : Nat) (o : Op) (c : Nat) : State :=
  let hit := fun (e : AttEnt) => e.st == stDone || e.st == stLow
  let bad := (List.range o.ents.length).filter fun i => hit (o.ents.getD i {})
  let s := if x.cut ∧ hSave o.arg then bad.foldl (fun s i => s.saveLose t o.part (hSaveId o.arg) i) x.s else x.s
  let o := if x.cut then { o with ents := o.ents.map fun e => if hit e then { e with st := stLinkDown } else e } else o
  let o := { o with ents := o.ents.map fun e => { e with st := o.final e.st } }
  let sts := o.ents.map (·.st)
  let st := if sts.all (· == stDone) then stDone
    else if sts.all (fun v => v == stDone || v == stLow) then stLow
    else stPartial
  let w := (s.setOp t o).putStatuses t o c
  w.2.2.finishOp t st 0 (sts.filter (· != stNotStarted)).length 0 (x.acks + w.1) []

/-- Pins and meters the slices an ATTEND read, each once (R115, R243). -/
def State.attendReads (s : State) (o : Op) (g : Geo) (c : Nat) (fs : List (Nat × Nat)) : State :=
  let fs := fs.eraseDups
  (fs.foldl (fun s k => (s.pin k.1 k.2 false).hbmUnits k.1 k.2 o.part 1 c g.sliceBytes) s).bump 0x6070 6 fs.length

/-- Begins every entry of a forward, in order. -/
def State.beginAll (s : State) (t : Nat) (o : Op) : List AttEnt × State :=
  (List.range (hCount o.arg)).foldl (fun (acc : List AttEnt × State) e =>
    let (x, s) := acc.2.beginEntry t o e
    (acc.1 ++ [x], s)) ([], s)

/-- One forward entry that is still open: its end status, result, FIDs read, and the state with its demands and counters. -/
def State.forwardOne (s : State) (o : Op) (g : Geo) (e : Nat) (x : AttEnt) :
    AttEnt × EntOut × List (Nat × Nat) × State :=
  if x.st ≠ 0xFF then (x, {}, [], s) else
  let a := o.arg
  let b := aEntry a e
  let m := x.mask
  let l := ctxLen b x.len
  let s := s.bump 0x6070 7 ((candBlocks b x).filter (exclB m)).length
  let mixed := match m with
    | some k => ((List.range k.rows.length).map fun q => ((candBlocks b x).filter fun j => (k.code q j).1 == 2).length).sum
    | none => 0
  let s := s.bump 0x6070 8 mixed
  let fs := x.slices (hLayer a)
  let s := x.leaves.foldl (fun s k => s.demand o.part (s.findSlice o (some k.2) (hLayer a))) s
  let (data, bad) := s.entryData o g b l x
  if !bad.isEmpty then
    let st := worst bad
    ({ x with st := st }, {}, fs, if st = stAbsent then s.bump 0x6070 0x0A else s)
  else
    let y := s.entryForward o g e l x data
    let s := (s.bump 0x6070 (if x.retr then 4 else 3)).bump 0x6070 5 y.positions
    let s := if hTree a then s.bump 0x6070 9 (eRows b) else s
    ({ x with st := if x.low then stLow else stDone }, y, fs, s)

/-- The entries of an ATTEND forward, begun when it first runs, and the slices that those not yet decided read. (log 6, DEDUCED) -/
def State.forwardBegun (s : State) (t : Nat) (o : Op) : List AttEnt × List (Nat × Nat) × State :=
  let (ents, s) := if o.pos = 1 then s.beginAll t o else (o.ents, s)
  let s := s.setOp t { o with pos := 2, ents := ents }
  let need := (ents.flatMap fun e => if e.st ≠ 0xFF then [] else e.slices (hLayer o.arg)).eraseDups
  (ents, need, s)

/-- An ATTEND forward whose slices have arrived: every entry is computed, the save filled, the outputs sent, the command ended. -/
def State.forwardDone (s : State) (t : Nat) (o : Op) (c : Nat) (ents : List AttEnt) : State :=
  let a := o.arg
  let idx := (List.range ents.length).zip ents
  let g := s.geo (s.attPf o)
  let r := idx.foldl (fun (acc : List (Nat × AttEnt × EntOut) × List (Nat × Nat) × State) e =>
    let (x, y, fs, s) := acc.2.2.forwardOne o g e.1 e.2
    (acc.1 ++ [(e.1, x, y)], acc.2.1 ++ fs, s)) ([], [], s)
  let o := { o with ents := r.1.map (·.2.1) }
  let s := (r.2.2.setOp t o).attendReads o g c r.2.1
  match s.fillSave t o r.1 with
  | none => (s.freeSave o.part (hSaveId a)).endOp t stBad 0 0 0
  | some s =>
    let done := r.1.filter fun e => e.2.1.st == stDone || e.2.1.st == stLow
    (s.sendOut t o g c (done.map fun e => (e.1, e.2.2))).finish t o c

/-- ATTEND_FORWARD (R225-R246, R250-R255): entries begin, their slices are read, then all is computed and written. -/
def execAttendForward (t : Nat) (s : State) : Res :=
  .next <| match s.attendAt t false with
    | none => s
    | some o =>
      let c := (o.todo.headD (0, 0)).2
      let b := s.forwardBegun t o
      match b.2.2.fetchSlices t 1 c b.2.1 with
      | (false, s) => s
      | (true, s) =>
        match s.op? t with
        | none => s
        | some o => s.forwardDone t o c b.1

/-! ### Backward (R247-R249) -/

/-- Gradients of one entry: dq of each row and head, and the gradient row of each row of each attended block. -/
structure GradOut where
  dq : List (List Nat) := []
  rows : List (List (List Nat)) := []

/-- What one (row, head) contributes: dq, and dk and dv of each attended position. -/
structure GradHead where
  j : Nat
  dq : List Nat
  dkv : List (Nat × Nat × List Nat × List Nat)

/-- R248 for one row and head: positions with their P. -/
def gradHead (a : Bytes) (g : Geo) (sc j : Nat) (q dO d : List Nat) (dD : Nat) (ps : List (APos × Nat)) : GradHead :=
  let ds := ps.map fun p => (p.1, p.2, fmul p.2 (fsub (dotR fZero dO (valOf g (hQpk a) j p.1.row)) dD))
  { j := j
    dq := vscale sc (ds.foldl (fun acc p => vadd acc (vscale p.2.2 (keyOf g (hQpk a) j p.1.row))) (d.map fun _ => fZero))
    dkv := ds.map fun p => (p.1.blk, p.1.r, vscale (fmul sc p.2.2) q, vscale p.2.1 dO) }

/-- The gradient of row `r` of block `k`: contributions in ascending (row, head) order. (log 30, DEDUCED) -/
def gradRow (a : Bytes) (g : Geo) (hs : List GradHead) (k r : Nat) : List Nat :=
  let own := fun (ok : Nat → Bool) => hs.flatMap fun h => if ok h.j then
    (h.dkv.filter fun x => x.1 == k && x.2.1 == r).map fun x => x.2.2 else []
  let sum := fun (w : Nat) (xs : List (List Nat)) => xs.foldl vadd (List.replicate w fZero)
  if g.latent then
    let xs := own fun _ => true
    let dk := sum g.w (xs.map (·.1))
    let dv := sum g.latentW (xs.map (·.2))
    vadd (dk.take g.latentW) dv ++ dk.drop g.latentW
  else
    let per := (List.range g.heads).map fun h => own fun j => j / hQpk a == h
    (per.flatMap fun xs => sum g.kW (xs.map (·.1))) ++ per.flatMap fun xs => sum g.vW (xs.map (·.2))

/-- R249: the scale byte and E5M2 bytes of one row and group. -/
def e5Group (xs : List Nat) : List Nat × Nat :=
  let l := xs.foldl (fun a x => match unpackF 23 x with | .fin _ m e => maxMag a (m, e) | _ => a) (0, 0)
  let t : Int := (Nat.log2 l.1 : Int) + l.2 - 15 + 127
  let e := if l.1 = 0 then 127 else (max 10 (min 239 (if 4 * l.1 ≤ 7 * 2 ^ Nat.log2 l.1 then t else t + 1))).toNat
  (xs.map fun x => match unpackF 23 x with
    | .fin n m k =>
      let v := toE5m2 (.fin n m (k + 127 - e))
      if v % 128 = 124 then v - 1 else v
    | f => toE5m2 f, e)

/-- The bytes of a gradient slice (R249): 16 rows in the layout of R41, or of R42 for E5M2. (log 30, DEDUCED) -/
def gradSlice (g : Geo) (ty : Nat) (rows : List (List Nat)) : Bytes :=
  let cs := rows.map (cut g.groups)
  let n := List.range g.groups.length
  if ty = 2 then
    let qs := cs.map fun r => r.map e5Group
    padTo ((n.flatMap fun j => qs.flatMap fun r => (r.getD j ([], 0)).1.flatMap (leBytes 1)) ++
      n.flatMap fun j => qs.map fun r => BitVec.ofNat 8 (r.getD j ([], 127)).2) (roundUp (16 * g.w + 16 * g.groups.length) 64)
  else
    let bs := n.flatMap fun j => cs.flatMap fun r => (r.getD j []).flatMap (outBytes (ty = 0))
    padTo bs (roundUp bs.length 64)

/-- The gradient area of an entry (R249). -/
def gradArea (g : Geo) (ty : Nat) (blocks : List Nat) (y : GradOut) : Bytes :=
  leBytes 64 blocks.length ++ padTo (blocks.flatMap (leBytes 4)) (roundUp (4 * blocks.length) 64) ++
    y.rows.flatMap (gradSlice g ty)
/-- Entry `e` of a backward begins: it must be as saved (R247), and its gradient area writable. -/
def State.beginBack (s : State) (t : Nat) (o : Op) (v : Save) (e : Nat) : AttEnt :=
  match s.entryStart o e with
  | .error st => { st := st }
  | .ok (len, m) =>
    let b := aEntry o.arg e
    match v.entries[e]? with
    | none => { st := stBad }
    | some x =>
      let carried := x.blocks.all fun k => (s.leafFor (some t) (eSeq b) k.1).any fun l => l.st != .absent && l.fid == k.2
      if !x.held ∨ x.seq ≠ eSeq b ∨ x.qrows ≠ eRows b ∨ !carried then { st := stBad }
      else
        let n := gradAreaLen (s.geo (s.attPf o)) (hGrad o.arg) x.blocks.length
        match s.badOperand (s.setupOf o.gen) o.part (s.opPort o) (fld o.arg 72 8 + eDkv b) n true with
        | some z => { st := z.1 }
        | none =>
          let ks := x.blocks.map (·.1)
          { len := len, retr := true, blocks := ks, mask := m, leaves := s.leavesAt t (eSeq b) ks }

/-- R248 over one entry. -/
def State.entryBackward (s : State) (o : Op) (g : Geo) (e l : Nat) (m : Option Mask) (x : SaveEnt)
    (data : List (Nat × List (List Nat))) : GradOut :=
  let a := o.arg
  let b := aEntry a e
  let sc := scaleVal a g
  let h := hHeads a
  let heads := (List.range (eRows b)).flatMap fun r =>
    let ps := ctxPos a b l m data r
    (List.range h).map fun j =>
      let i := (rowsBefore a e + r) * h + j
      let q := s.queryVec o g (rowsBefore a e + r) j
      let dO := (bfOfBytes (s.operand o (fld a 64 8 + i * g.dv * 2) (g.dv * 2))).map bf32
      let ob := s.operand o (fld a 40 8 + i * g.dv * hZ a) (g.dv * hZ a)
      let out := if hFp32 a then numsOf 4 g.dv ob else (bfOfBytes ob).map bf32
      let lse := (x.stats.getD (r * h + j) (fNegInf, fNegInf)).2
      let kept := x.probs.map fun ps => ps.getD (r * h + j) []
      let prob := fun (p : APos) => match kept with
        | some ps => bf32 (ps.getD (16 * (x.blocks.findIdx fun k => k.1 == p.blk) + p.r) 0)
        | none => fexp (fsub (scoreOf a g sc q j p) lse)
      gradHead a g sc j q dO q (dotR fZero dO out) (ps.map fun p => (p, prob p))
  { dq := heads.map (·.dq), rows := x.blocks.map fun k => (List.range 16).map fun r => gradRow a g heads k.1 r }

/-- One backward entry: its end status, and the writes so far with its own. -/
def Sent.backOne (w : Sent) (t : Nat) (o : Op) (v : Save) (g : Geo) (c e : Nat) (x : AttEnt) : AttEnt × Sent :=
  if x.st ≠ 0xFF then (x, w) else
  let a := o.arg
  let b := aEntry a e
  let s := w.s
  let l := ctxLen b x.len
  let s := x.leaves.foldl (fun s k => s.demand o.part (s.findSlice o (some k.2) (hLayer a))) s
  let (data, bad) := s.entryData o g b l x
  if !bad.isEmpty then
    let st := worst bad
    ({ x with st := st }, { w with s := if st = stAbsent then s.bump 0x6070 0x0A else s })
  else
    let y := s.entryBackward o g e l x.mask (v.entries.getD e { seq := 0, qrows := 0 }) data
    let dq := y.dq.flatMap fun q => q.flatMap (outBytes (hGrad a = 0))
    let w := ({ w with s := s }).write t o c (fld a 80 8 + rowsBefore a e * hHeads a * g.dq * hY a) dq
    ({ x with st := stDone }, w.write t o c (fld a 72 8 + eDkv b) (gradArea g (hGrad a) x.blocks y))

/-- The entries of an ATTEND backward from the save `v`, and the slices it reads. -/
def State.backwardBegun (s : State) (t : Nat) (o : Op) (v : Save) : List AttEnt × List (Nat × Nat) × State :=
  let a := o.arg
  let ents := if o.pos = 1 then (List.range (hCount a)).map (s.beginBack t o v) else o.ents
  let s := s.setOp t { o with pos := 2, ents := ents }
  let need := (ents.flatMap fun e => if e.st ≠ 0xFF then [] else e.slices (hLayer a)).eraseDups
  (ents, need, s)

/-- An ATTEND backward whose slices have arrived: every entry is computed from the save `v`, the save freed, the command ended. -/
def State.backwardDone (s : State) (t : Nat) (o : Op) (v : Save) (c : Nat) (need : List (Nat × Nat)) (ents : List AttEnt) :
    State :=
  let idx := (List.range ents.length).zip ents
  let g := s.geo (s.attPf o)
  let s := s.attendReads o g c need
  let r := idx.foldl (fun (acc : List AttEnt × Sent) e =>
    let (x, w) := acc.2.backOne t o v g c e.1 e.2
    (acc.1 ++ [x], w)) ([], { s := s })
  ({ r.2 with s := r.2.s.leaveSave t o.part v.id }).finish t { o with ents := r.1 } c

/-- ATTEND_BACKWARD (R247-R249, R255): as a forward, from the save it names, which its completion frees (R246). A backward whose
forward has not filled the save yet waits for it. -/
def execAttendBackward (t : Nat) (s : State) : Res :=
  .next <| match s.attendAt t true with
    | none => s
    | some o =>
      let c := (o.todo.headD (0, 0)).2
      match s.takenSave t with
      | none => s.endOp t stBad 0 0 0
      | some v =>
        if v.entries.isEmpty then s else
        let b := s.backwardBegun t o v
        match b.2.2.fetchSlices t 1 c b.2.1 with
        | (false, s) => s
        | (true, s) =>
          match s.op? t with
          | none => s
          | some o => s.backwardDone t o v c b.2.1 b.1

/-- SAVE_DISCARD (R309): frees the save if it is live; one a dispatched backward has taken is freed by that (R254). -/
def execSaveDiscard (t : Nat) (s : State) : Res :=
  .next <| match s.runCmd t .saveDiscard with
    | none => s
    | some o =>
      let id := fld o.desc 8 2 % 4096
      let s := s.meterOp o
      match s.save? o.part id with
      | some v => if v.readers.isEmpty then (s.freeSave o.part id).endOp t stDone 0 1 0 else s.endOp t stDone 0 0 0
      | none => s.endOp t stDone 0 0 0

/-- SAVE_EXPIRY (R246): a save SAVE_HOLD age ticks old is freed and counted; a backward that has it keeps what it reads. -/
def execSaveExpiry (p id : Nat) (s : State) : Res :=
  .next <| match s.save? p id with
    | none => s
    | some v =>
      if s.ageOf v.epoch < s.obj (pIx p 0x1C) 3 6000 then s
      else (s.freeSave p id).bump 0x6070 0x0C

end Sys2Proof.Machine
end

