-- ==== Sys2Proof/Machine/Snapshots.lean ====
section
/-! DEFINITION. Fault snapshots (R471-R473). -/

namespace Sys2Proof.Machine

/-- STATE code of a queue (Table 8.3). -/
def QState.code : QState → Nat
  | .disabled => 0
  | .enabled => 1
  | .stopping => 2
  | .error => 3

/-- Insertion sort of operations by queue number, then fetch order (R471). -/
def insOp (e : Nat × Op) : List (Nat × Op) → List (Nat × Op)
  | [] => [e]
  | x :: xs =>
    if e.2.queue < x.2.queue ∨ (e.2.queue = x.2.queue ∧ e.2.fetchNo < x.2.fetchNo) then e :: x :: xs else x :: insOp e xs

/-- The entry of an operation at the trigger (Table 15.6). One that has ended has its final fields at once. -/
def snapOp (touched : Nat → Bool) (e : Nat × Op) : SnapOp :=
  let ended := e.2.st == .recordWait
  { final := if ended then e.2.status else 0xFF
    finalProgress := if ended then e.2.progress else 0
    finalDurable := if ended then e.2.durable else 0
    waits := ended, tag := e.1, q := e.2.queue, part := e.2.part, utag := e.2.utag, ring := e.2.ring, list := e.2.list
    stAt := match e.2.st with | .ready => 0 | .recordWait => 2 | _ => 1
    touched := touched e.1, quiet := e.2.quiet, progress := e.2.progress, gen := e.2.gen }

/-- Takes a snapshot (R471): covers the operations `cover` selects; the newest first, at most four held (R473). (log 34, DEDUCED) -/
def State.snapshot (s : State) (trigger trigQ : Nat) (cover : Op → Bool) (touched : Nat → Bool) : State :=
  let es := (s.q.ott.filter fun e => cover e.2).foldr insOp []
  let qs := (es.map (·.2.queue)).eraseDups
  let qe := qs.map fun n =>
    let v := s.queue n
    SnapQ.mk n v.st.code v.sqHead v.tail ((v.list.map (·.ring)).getD 0xFFFF) ((v.list.map (·.pos)).getD 0x1FFF) v.cjTail
  let sn : Snap := {
    id := s.ev.nextSnap, trigger := trigger, trigQueue := trigQ, time := s.now.toNat, eventSeq := s.ev.next
    gen := s.part.gen, queues := qe, ops := es.map (snapOp touched) }
  let lost := s.ev.snaps.length ≥ 4
  let s := { s with ev := { s.ev with snaps := (sn :: s.ev.snaps).take 4, nextSnap := s.ev.nextSnap + 1 } }
  let s := (if lost then s.bump 0x60B0 6 else s).bump 0x60B0 5
  (s.event 0x0003 { params := [sn.id, trigger, es.length] }).completeSnaps

end Sys2Proof.Machine
end

