-- ==== Sys2Proof/Machine/QueueCmds.lean ====
section
/-! DEFINITION. The commands of the queues and the OTT (08_queues.md; NOP and LIST of R269). -/

namespace Sys2Proof.Machine

/-- DESCRIPTOR_FETCH (R270): the next queue's turn of up to FETCH_BURST descriptors. -/
def execDescriptorFetch (s : State) : Res :=
  .next <| match s.nextQueue (fun q => s.fetchable q && !(s.queue q).ottStall) with
    | some q => (s.fetchBurst q (s.obj 0x1700 5 8)).rrPass q
    | none => s

/-- The queue's next descriptor would find an OTT entry. -/
def State.canFetch (s : State) (q : Nat) : Bool :=
  match s.fetchOne q with
  | .stalled _ => false
  | .got _ => true

/-- OTT_STALL_RESUME (R278): the next stalled queue by the order of R270 that finds an entry fetches again. -/
def execOttStallResume (s : State) : Res :=
  .next <| match s.nextQueue (fun q => s.fetchable q && (s.queue q).ottStall && s.canFetch q) with
    | some q => (s.fetchBurst q (s.obj 0x1700 5 8)).rrPass q
    | none => s

/-- NOP (R269): completes DONE once FENCE allows it. -/
def execNop (t : Nat) (s : State) : Res :=
  .next <| match s.runCmd t .nop with
    | some o => (s.meterOp o).endOp t stDone 0 0 0
    | none => s

/-- LIST (R269): a LIST at the head of queue `q` is opened; its members are fetched in its place. -/
def execList (q : Nat) (s : State) : Res :=
  .next <|
    let v := s.queue q
    if s.fetchable q ∧ v.list = none
        ∧ cmdOf (fld (s.readAt (q / 64) v.binding (v.sqBase.toNat + 64 * v.sqHead) 64) 0 1) = some .list then
      match s.fetchOne q with
      | .got s => s
      | .stalled s => s
    else s

/-- The tail of a queue is set (R265). -/
def State.setTail (s : State) (q idx : Nat) : State := s.setQueue q { s.queue q with tail := idx }

/-- A doorbell is ignored: cause 0x03 and BAD_DOORBELLS (R265). -/
def State.badDoorbell (s : State) (q : Nat) : State := (s.queueCause q 3).bump (pIx (q / 64) 0x21) 8

/-- SQ_TAIL_DOORBELL (R265) through function `fn` of port `port`; nothing arrives through a port whose controller is fenced (R32), or
through a function the port does not have (R355). -/
def execSqTailDoorbell (port fn q idx : Nat) (s : State) : Res :=
  .next <|
    let qn := 64 * (fn - 1) + q
    let v := s.queue qn
    if fn = 0 ∨ !s.pcieGood port ∨ !s.hasVf port (fn - 1) then s
    else if v.st ≠ .enabled ∨ v.binding ≠ port ∨ idx ≥ 2 ^ v.sqLog2 then s.badDoorbell qn
    else s.setTail qn idx

/-- Frees journal entries before `idx` (R265); beyond CJ_TAIL the host breaks R283. -/
def State.setCjHead (s : State) (q idx : Nat) : Res :=
  let v := s.queue q
  let n := 2 ^ v.cjLog2
  if (idx + n - v.cjHead) % n > (v.cjTail + n - v.cjHead) % n then .fault .hostViolation
  else .next (s.setQueue q { v with cjHead := idx })

/-- CJ_HEAD_DOORBELL (R265) through function `fn` of port `port`. -/
def execCjHeadDoorbell (port fn q idx : Nat) (s : State) : Res :=
  let qn := 64 * (fn - 1) + q
  let v := s.queue qn
  if fn = 0 ∨ !s.pcieGood port ∨ !s.hasVf port (fn - 1) then .next s
  else if v.st ≠ .enabled ∨ v.binding ≠ port ∨ idx ≥ 2 ^ v.cjLog2 then .next (s.badDoorbell qn)
  else s.setCjHead qn idx

/-- R259, R260, Table 8.3: the configuration of a queue is valid. (log 35, DEDUCED) -/
def State.queueValid (s : State) (q : Nat) : Bool :=
  let v := s.queue q
  let p := q / 64
  let sq := v.sqBase.toNat
  let cj := v.cjBase.toNat
  1 ≤ v.count && v.count ≤ 255 &&
  4 ≤ v.sqLog2 && v.sqLog2 ≤ 16 && 4 ≤ v.cjLog2 && v.cjLog2 ≤ 16 && sq % 64 == 0 && cj % 64 == 0 &&
  s.part.setup.hasQueue p (q % 64) && (mget s.part.parts p {}).st == 1 && !s.boot.stone &&
  (if v.binding ≤ 1 then spaceOf sq == 0 && spaceOf cj ≤ 1
   else v.binding == 2 && spaceOf sq == 1 && spaceOf cj == 2 && linkOf cj == v.link && s.part.setup.hasLink p v.link)

/-- QUEUE_ENABLE (R267, R264). -/
def execQueueEnable (q : Nat) (s : State) : Res :=
  .next <|
    let v := s.queue q
    if v.st ≠ .disabled then s
    else if s.queueValid q then
      s.setQueue q { v with
        st := .enabled, sqHead := 0, tail := 0, cjTail := 0, phase := true, cjHead := 0, list := none, ottStall := false
        journalFull := false, waiting := [], unsig := 0, unsigAt := none, urgent := false, dead := false, flushAt := none }
    else s.queueCause q 2

/-- QUEUE_DISABLE (R267). -/
def execQueueDisable (q : Nat) (s : State) : Res :=
  .next <|
    let v := s.queue q
    match v.st with
    | .enabled =>
      let any := s.ottCount (fun e => e.queue == q && e.src == .queue) ≠ 0
      s.setQueue q { v with st := if any then .stopping else .disabled, ottStall := false }
    | .error => s.setQueue q { v with st := .disabled }
    | _ => s

/-- QUEUE_FLUSH (R267). -/
def execQueueFlush (q : Nat) (s : State) : Res := .next (s.flushQueue q 0)

/-- The register of Table 8.3 that a write names, reserved bits dropped. -/
def Queue.setReg (v : Queue) (r : QReg) (w : Nat) : Queue :=
  match r with
  | .sqBase => { v with sqBase := BitVec.ofNat 64 w }
  | .cjBase => { v with cjBase := BitVec.ofNat 64 w }
  | .cfg => { v with
      sqLog2 := bits w 0 5, cjLog2 := bits w 8 5, defClass := bits w 16 3, binding := bits w 20 2, link := bits w 22 7 }
  | .moderation => { v with count := bits w 0 8, time := bits w 16 16 }
  | .intEnable => { v with intEnable := bit w 2 }

/-- A write of a queue register (R264); the vector's triggers are evaluated with the new values (R282). (log 35, DEDUCED) -/
def State.regWrite (s : State) (q : Nat) (r : QReg) (w : Nat) : State :=
  let v := s.queue q
  if v.st ≠ .disabled ∧ (r = .sqBase ∨ r = .cjBase ∨ r = .cfg) then (s.queueCause q 1).bump (pIx (q / 64) 0x21) 9
  else (s.setQueue q (v.setReg r w)).queueEval q

/-- QUEUE_REGISTER_WRITE (R264). -/
def execQueueRegisterWrite (q : Nat) (r : QReg) (v : W64) (s : State) : Res := .next (s.regWrite q r v.toNat)

/-- JOURNAL_FULL_RECORD_WRITE (R273): the oldest waiting record takes a freed entry. -/
def execJournalFullRecordWrite (q : Nat) (s : State) : Res :=
  .next <|
    let v := s.queue q
    match v.waiting with
    | [] => s
    | t :: ts =>
      match s.op? t with
      | none => s.setQueue q { v with waiting := ts, journalFull := !ts.isEmpty }
      | some o =>
        if v.journalFree = 0 then s else
        let s := s.setQueue q { v with waiting := ts, journalFull := !ts.isEmpty }
        let s := s.writeRecord t o
        (({ s with ev := { s.ev with snaps := s.ev.snaps.map (Snap.finish t o true false) } }).completeSnaps).release t

/-- MODERATION_TIME_TRIGGER (R282): TIME µs after the oldest unsignalled record. -/
def execModerationTimeTrigger (q : Nat) (s : State) : Res :=
  .next <|
    let v := s.queue q
    match v.unsigAt with
    | none => s
    | some t0 =>
      if v.time = 0 ∨ !v.intEnable then s else
      (s.timeTo (t0 + us v.time)).queueMsg q

/-- MSIX_UNMASK (R282, R370): the vector is unmasked with its function's MSI-X on, and a pending or held message goes out.
(log 9, DESIGN CHOICE; log 35, DEDUCED) -/
def execMsixUnmask (port fn vec : Nat) (s : State) : Res :=
  .next <|
    if !s.pcieGood port then s else
    let k := vecKey port fn vec
    let f := fnKey port fn
    let held := vec == 67 && s.q.doneHeld.contains f
    let pend := s.q.msixPend.contains k || held
    let s := { s with q := { s.q with
      msixOn := if s.q.msixOn.contains f then s.q.msixOn else s.q.msixOn ++ [f]
      msixOpen := if s.q.msixOpen.contains k then s.q.msixOpen else s.q.msixOpen ++ [k]
      msixPend := s.q.msixPend.filter (· != k)
      doneHeld := if held then s.q.doneHeld.filter (· != f) else s.q.doneHeld } }
    if pend then s.msix port fn vec else s

/-- The operations of a queue whose records can no longer be written are released (R285). -/
def State.releaseWaiting (s : State) (q : Nat) : State :=
  (s.queue q).waiting.foldl (fun s t =>
    match s.op? t with
    | some o =>
      (({ s with ev := { s.ev with snaps := s.ev.snaps.map (Snap.finish t o false false) } }).completeSnaps).release t
    | none => s) s

/-- PCIE_ERROR_RESPONSE (R285). (log 35, DEDUCED) -/
def execPcieErrorResponse (e : PcieErr) (s : State) : Res :=
  .next <|
    let s := s.bump 0x6080 6
    match e with
    | .ringFetch q =>
      let s := s.queueCause q 4
      let v := s.queue q
      if v.st = .enabled then s.setQueue q { v with st := .error } else s
    | .journal q =>
      let s := s.queueCause q 5
      let v := s.queue q
      let entering := v.st == .enabled
      let s := s.setQueue q { v with st := if entering then .error else v.st, dead := true }
      let s := if entering then s.snapshot 2 q (fun o => o.queue == q) (fun _ => false) else s
      let s := s.releaseWaiting q
      s.setQueue q { s.queue q with waiting := [], journalFull := false }
    | .operand t =>
      match s.op? t with
      | none => s
      | some o =>
        let s := s.partVec o.part 65
        if o.st = .recordWait then s else s.stopOp t stAborted true 1

end Sys2Proof.Machine
end

