-- ==== Sys2Proof/Machine/Serving.lean ====
section
/-! DEFINITION. The commands of the traffic manager's ports and its records (R326, R331, R336-R339, R342, R351-R353). -/

namespace Sys2Proof.Machine

/-! ### Serving (R326-R328, R336) -/

/-- PORT_SERVE_UNIT (R326): the rind cores of the port's segment end the work they have started (R29), and the first unit a stage yields
is served whole; a die operation is handed to its die, and units waiting for room enter. (log 41, DEDUCED; log 45, DESIGN CHOICE) -/
def execPortServeUnit (x dir : Nat) (s : State) : Res :=
  .next <|
    let sc := sched x dir
    let s := (s.rindStep (portSeg x)).countWaits sc
    match s.chooseUnit sc with
    | none => s
    | some (stage, c, sub, u, b, s) =>
      let s := (s.serve sc stage c sub u b).admitLeaf sc sub c
      match u.dieOp with
      | some (d, _) => s.kickDie d
      | none => s

/-- WAITING_UNIT_ENQUEUE (R336): units waiting at QUEUE_LIMIT enter in arrival order as space appears. -/
def execWaitingUnitEnqueue (x dir sub c : Nat) (s : State) : Res := .next (s.admitLeaf (sched x dir) sub c)

/-! ### Sampling (R338, R339) -/

/-- The bin of sample `v` under unit `u`. -/
def histBin (v u : Nat) : Nat := if v = 0 then 0 else min 15 (max 1 (Nat.log2 (v / u) + (if v < u then 0 else 1)))

/-- QUEUE_SAMPLE (R338): every leaf queue adds to its depth and delay histograms. (log 41, DEDUCED) -/
def execQueueSample (s : State) : Res :=
  .next <|
    let s := { s with tm := { s.tm with samples := s.tm.samples + 1 } }
    s.tm.leaves.foldl (fun s e =>
      match e.2.q with
      | [] => s
      | u :: _ =>
        let x := schedPort (e.1 / 520)
        let d := histBin (qLen e.2.q) (if portKind x = 1 then 1 else 256)
        let w := histBin (s.up - u.at_) (if portKind x = 1 then 1000 else 16)
        s.leafStat x (e.1 / 8 % 65) (e.1 % 8) fun t => { t with
          depthHist := if d = 0 then t.depthHist else mupd t.depthHist d 0 (· + 1)
          delayHist := if w = 0 then t.delayHist else mupd t.delayHist w 0 (· + 1) }) s

/-- LEAF_HIST of leaf (sub, c, x) (Table 10.11). -/
def State.leafHist (s : State) (x sub c : Nat) : Bytes :=
  let t := mget s.tm.stats (leafKey x sub c) {}
  let n := s.tm.samples * (if portKind x = 3 then 2 else 1)
  let bins := fun (m : Map Nat) => leBytes 4 (n - (m.map (·.2)).sum) ++
    (List.range 15).flatMap fun i => leBytes 4 (mget m (i + 1) 0)
  bins t.depthHist ++ bins t.delayHist

/-- HIST_RESET: every histogram is cleared. -/
def State.histReset (s : State) : State :=
  { s with tm := { s.tm with
      samples := 0, stats := s.tm.stats.map fun e => (e.1, { e.2 with depthHist := [], delayHist := [] }) } }

/-- LEAF_STATS of leaf (sub, c, x) (Table 10.11). -/
def State.leafStats (s : State) (x sub c : Nat) : Bytes :=
  let t := mget s.tm.stats (leafKey x sub c) {}
  leBytes 8 t.served ++ leBytes 8 t.servedLen ++ leBytes 8 t.excessLen ++ leBytes 8 t.dropReset ++ leBytes 8 t.dropOverflow ++
    leBytes 8 t.dropOther ++ leBytes 4 t.depthHwm ++ leBytes 4 t.delayHwm ++ leBytes 8 t.backpressure

/-- Reading LEAF_STATS clears its high-water marks (R339). -/
def State.clearHwm (s : State) (x sub c : Nat) : State := s.leafStat x sub c fun t => { t with depthHwm := 0, delayHwm := 0 }

/-! ### Records (Tables 10.7, 10.10, 10.12) -/

/-- The bytes of a leaf or node record; `leaf` adds the leaves' fields. -/
def recBytes (leaf : Bool) (r : LeafCfg) : Bytes :=
  leBytes 4 r.cir ++ leBytes 4 r.cbs ++ leBytes 4 r.eir ++ leBytes 4 r.ebs ++ leBytes 2 r.weight ++ leBytes 2 r.xweight ++
    leBytes 1 (r.onChange + (if leaf then 4 * r.overflow else 0)) ++ leBytes 3 0 ++
    leBytes 4 (if leaf then r.limit else 0) ++ leBytes 4 0
/-- The record 32 bytes spell. -/
def recOfBytes (b : Bytes) : LeafCfg :=
  { cir := fld b 0 4, cbs := fld b 4 4, eir := fld b 8 4, ebs := fld b 12 4, weight := fld b 16 2, xweight := fld b 18 2
    limit := fld b 24 4, overflow := b2n (bit (fld b 20 1) 2), onChange := fld b 20 1 % 4 }
/-- NODE_CFG as it reads: on HBM and flash ports only the weights. -/
def State.nodeBytes (s : State) (x c : Nat) : Bytes :=
  let r := s.nodeCfg x c
  recBytes false (if portKind x ≤ 1 then { cir := 0, cbs := 0, eir := 0, ebs := 0, weight := r.weight, xweight := r.xweight } else r)

/-- Checks of a record of 32 bytes (R329, R342, R351): an abort code or none. Reserved bits give 0x0203, ranges 0x0202. -/
def recBad (leaf : Bool) (x : Nat) (b : Bytes) : Option Nat :=
  let r := recOfBytes b
  let flash := portKind x == 1
  if fld b 20 1 ≥ 8 ∨ fld b 20 1 % 4 = 3 ∨ fld b 21 3 ≠ 0 ∨ fld b 28 4 ≠ 0 then some 0x0203
  else if !leaf ∧ (bit (fld b 20 1) 2 ∨ fld b 24 4 ≠ 0) then some 0x0203
  else if !leaf ∧ portKind x ≤ 1 ∧ (!allZero (b.take 16) ∨ fld b 20 1 ≠ 0) then some 0x0203
  else if (leaf ∨ portKind x ≥ 2) ∧ (r.cbs = 0 ∨ r.ebs = 0) then some 0x0202
  else if r.weight = 0 ∨ r.weight > 4096 ∨ r.xweight = 0 ∨ r.xweight > 4096 then some 0x0202
  else if leaf ∧ (if flash then r.limit < 8 ∨ r.limit > 65535 else r.limit < 65536) then some 0x0202
  else none

/-- Schedulers of port `x`. -/
def schedsOf (x : Nat) : List Nat := if portKind x = 3 then [x, x + 2] else [x]

/-- A leaf record is rewritten: its buckets by R331; its unchanged queue may now take more. -/
def State.putLeaf (s : State) (x sub c : Nat) (r : LeafCfg) : State :=
  let k := tokScale (portKind x == 1)
  let old := schedsOf x |>.map fun sc => (sc, s.leafQ sc sub c)
  let cfg0 := s.leafCfg x sub c
  let s := { s with tm := { s.tm with leafCfg := mset s.tm.leafCfg (leafKey x sub c) r } }
  old.foldl (fun s e =>
    let l := e.2
    let com := onChange (refill l.com k (s.scaledCir x c cfg0.cir) cfg0.cbs s.up) r.onChange k r.cbs s.up
    let exc := onChange (refill l.exc k cfg0.eir cfg0.ebs s.up) r.onChange k r.ebs s.up
    (s.setLeafQ e.1 sub c { l with com := com, exc := exc }).admitLeaf e.1 sub c) s

/-- A node record is rewritten. -/
def State.putNode (s : State) (x c : Nat) (r : LeafCfg) : State :=
  let k := tokScale (portKind x == 1)
  let cfg0 := s.nodeCfg x c
  let old := (schedsOf x).map fun sc =>
    (sc, mget s.tm.nodes (8 * sc + c) { com := fullBucket k cfg0.cbs s.up, exc := fullBucket k cfg0.ebs s.up })
  let s := { s with tm := { s.tm with nodeCfg := mset s.tm.nodeCfg (8 * x + c) r } }
  old.foldl (fun s e =>
    let com := onChange (refill e.2.com k (s.scaledCir x c cfg0.cir) cfg0.cbs s.up) r.onChange k r.cbs s.up
    let exc := onChange (refill e.2.exc k cfg0.eir cfg0.ebs s.up) r.onChange k r.ebs s.up
    { s with tm := { s.tm with nodes := mset s.tm.nodes (8 * e.1 + c) { e.2 with com := com, exc := exc } } }) s

/-- A write that R337 checks: `t` is the state after it; refused with 0x0D03, or applied with RATIO recomputed. -/
def State.checked (s t : State) (x : Nat) : Except Nat State :=
  if overcommits s t x then .error 0x0D03 else .ok (t.reRatio x)

/-- A write of LEAF_CFG (sub, c, x) (R352). -/
def State.leafWrite (s : State) (x sub c : Nat) (b : Bytes) : Except Nat State :=
  match recBad true x b with
  | some e => .error e
  | none =>
    let r := recOfBytes b
    if r.overflow = 1 ∧ c ≠ 3 then .error 0x0202 else s.checked (s.putLeaf x sub c r) x

/-- A write of NODE_CFG (c, x) (R351). -/
def State.nodeWrite (s : State) (x c : Nat) (b : Bytes) : Except Nat State :=
  match recBad false x b with
  | some e => .error e
  | none =>
    let r := recOfBytes b
    let r := if portKind x ≤ 1 then { s.nodeCfg x c with weight := r.weight, xweight := r.xweight } else r
    s.checked (s.putNode x c r) x

/-- A write of DERATE of port kind `k` (0-3): every port of the kind is checked and its RATIO recomputed. -/
def State.derateSet (s : State) (k v : Nat) : Except Nat State :=
  let t := s.setObj 0x3001 (k + 1) v
  let xs := (List.range 178).filter fun x => portKind x == k
  if xs.any fun x => overcommits s t x then .error 0x0D03 else .ok (xs.foldl State.reRatio t)

/-- The meter record (Table 10.12). -/
def meterBytes (m : Meter) (onCh : Nat) : Bytes :=
  leBytes 1 (m.mode + 4 * b2n m.ops + 8 * onCh) ++ leBytes 3 0 ++ leBytes 4 m.cir ++ leBytes 4 m.cbs ++ leBytes 4 m.pir ++
    leBytes 4 m.pbs ++ leBytes 12 0

/-- A write of METER_CFG (R353, R342, R331). -/
def State.meterWrite (s : State) (p c : Nat) (b : Bytes) : Except Nat State :=
  let f := fld b 0 1
  let oc := bits f 3 2
  if f % 4 = 3 ∨ oc = 3 ∨ f ≥ 32 ∨ fld b 1 3 ≠ 0 ∨ !allZero (slice b 20 12) then .error 0x0203
  else if fld b 12 4 < fld b 4 4 ∨ fld b 8 4 = 0 ∨ fld b 16 4 = 0 then .error 0x0202
  else
    let old := s.meter p c
    let sc0 := tokScale old.ops
    let tc := refill old.tc sc0 old.cir old.cbs s.up
    let tp := refill old.tp sc0 old.pir old.pbs s.up
    let ops := bit f 2
    let sc := tokScale ops
    let cv := fun (t : Bucket) => if ops = old.ops then t else { t with tok := t.tok / (sc0 : Int) * (sc : Int) }
    let m : Meter := {
      mode := f % 4, ops := ops, onChange := oc, cir := fld b 4 4, cbs := fld b 8 4, pir := fld b 12 4
      pbs := fld b 16 4, tc := onChange (cv tc) oc sc (fld b 8 4) s.up, tp := onChange (cv tp) oc sc (fld b 16 4) s.up }
    .ok { s with tm := { s.tm with meters := mset s.tm.meters (8 * p + c) m } }

/-- R349, item 4: the leaf and meter records of partition `p` are treated as rewritten, its deficits set to 0. -/
def State.tmResetEnd (s : State) (p : Nat) : State :=
  let s := (s.tm.leaves.map (·.1)).foldl (fun s k =>
    if k / 8 % 65 = p then let x := schedPort (k / 520); s.putLeaf x p (k % 8) (s.leafCfg x p (k % 8)) else s) s
  let s := (List.range 8).foldl (fun s c =>
    let m := s.meter p c
    let sc := tokScale m.ops
    let m := { m with
      tc := onChange (refill m.tc sc m.cir m.cbs s.up) m.onChange sc m.cbs s.up
      tp := onChange (refill m.tp sc m.pir m.pbs s.up) m.onChange sc m.pbs s.up }
    { s with tm := { s.tm with meters := mset s.tm.meters (8 * p + c) m } }) s
  { s with tm := { s.tm with rr := s.tm.rr.filter fun e => !(e.1 % 66 == p && e.1 / 66 % 9 ≠ 8) } }

end Sys2Proof.Machine
end

