-- ==== Sys2Proof/Machine/Faults.lean ====
section
/-! DEFINITION. Faults: what a fault does to the operations it touches (R256, R317, R373-R376), the records it leaves (R470, R471)
and the structures it may take with it (R74, R105, R181, R221, R488, R566). -/

namespace Sys2Proof.Machine

/-! ### Fault units (R256, R317, R374-R376) -/

/-- FAULT_UNIT of partition `p`: 0 STRICT, 1 FENCED. (log 43, DESIGN CHOICE) -/
def State.faultUnit (s : State) (p : Nat) : Nat := s.obj (pIx p 2) 1 1
/-- The job group of queue number `q` (JOB_GROUPS). -/
def State.jobGroup (s : State) (q : Nat) : Nat := fld (s.blobOf (pIx (q / 64) 2) 2) (q % 64) 1 % 16
/-- The partition record `p` run state. -/
def State.partOf (s : State) (p : Nat) : Part := mget s.part.parts p {}
/-- Stores a partition's run state. -/
def State.setPart (s : State) (p : Nat) (v : Part) : State := { s with part := { s.part with parts := mset s.part.parts p v } }
/-- JOB_HELD of partition `p`. -/
def State.jobHeld (s : State) (p : Nat) : Nat := ((s.partOf p).held.map fun g => 2 ^ g).sum

/-- Table 9.1 and R256: the operation is idempotent. A push or pull is sent again. (log 38, DEDUCED) -/
def Op.idempotent (o : Op) : Bool :=
  if o.src != .queue then true else
  match cmdOf (fld o.desc 0 1) with
  | some .copy => copyWay o.desc == .ascending &&
      !extentsMeet (fld o.desc 8 8) (extent (fld o.desc 28 4) (fld o.desc 32 4) (copyLens (bits (fld o.desc 40 1) 0 2) (fld o.desc 24 4)).1)
        (fld o.desc 16 8) (extent (fld o.desc 28 4) (fld o.desc 36 4) (copyLens (bits (fld o.desc 40 1) 0 2) (fld o.desc 24 4)).2)
  | some .sliceWrite => false
  | some .seqOpen => false
  | some .seqFork => false
  | some .chainSearch => !bit (fld o.desc 11 1) 0
  | some .gather => false
  | some .reduce => false
  | some .collect => false
  | some .attend => hBack o.arg || (!hSave o.arg && hKind o.arg ≤ 1)
  | _ => true

/-- A touched operation under FENCED (R375): an idempotent one runs again and ends REEXEC; another ends PARTIAL, or NOT_STARTED when it
had no effect. -/
def State.fencedOp (s : State) (t : Nat) : State :=
  match s.op? t with
  | none => s
  | some o =>
    if o.st = .recordWait then s
    else if o.idempotent then s.setOp t { o with touched := true }
    else
      let begun := o.progress > 0 || o.pos > 0 || (match o.st with | .finishing => true | .posted _ => true | _ => false)
      s.stopOp t (if begun then stPartial else stNotStarted) false

/-- Under STRICT every operation of the groups `gs` of partition `p` ends RESTART, and the groups are held (R376). -/
def State.strictPart (s : State) (p : Nat) (gs : List Nat) : State :=
  let ts := (s.q.ott.filter fun e => e.2.part == p && e.2.st != .recordWait && gs.contains (s.jobGroup e.2.queue)).map (·.1)
  ts.foldl (fun s t => s.stopOp t stRestart false) s

/-- The groups `gs` of partition `p` become held: their queues stop fetching. -/
def State.holdGroups (s : State) (p : Nat) (gs : List Nat) : State :=
  let v := s.partOf p
  let s := s.setPart p { v with held := v.held ++ gs.filter (!v.held.contains ·) }
  (List.range 64).foldl (fun s q =>
    if gs.contains (s.jobGroup (64 * p + q)) then s.setQueue (64 * p + q) { s.queue (64 * p + q) with held := true } else s) s

/-- The FAULT record of a partition, or of the module (R470). -/
def State.faultEvent (s : State) (cls : Nat) (p : Option Nat) (kind field unit : Nat) (ps : List Nat) : State :=
  let s := s.bump 0x60B0 4
  let s := match p with
    | some p => (s.bump (pIx p 0x26) 1).bump (pIx p 0x26) 2 (ps.headD 0)
    | none => s
  s.eventAs 0x0002 cls { part := p, unitKind := kind, field := field, unit := unit, params := ps }

/-! ### Function and port resets (R366, R367, R377, R405) -/

/-- The MSI-X table of a function is reset: MSI-X off, every vector masked, nothing pending. -/
def State.resetMsix (s : State) (k fn : Nat) : State :=
  let f := fnKey k fn
  { s with q := { s.q with
    msixOn := s.q.msixOn.filter (· != f), msixOpen := s.q.msixOpen.filter fun v => v / 128 != f
    msixPend := s.q.msixPend.filter fun v => v / 128 != f } }

/-- The endpoint of function `fn` of port `k`. -/
def fnEndpoint (k fn : Nat) : Endpoint := if fn = 0 then .pf k else .vf k (fn - 1)

/-- Function `fn` of port `k` is reset: MSI-X table and mailbox. -/
def State.resetFn (s : State) (k fn : Nat) : State := (s.resetMsix k fn).resetBox (fnEndpoint k fn)

/-- Port `k`. -/
def State.portOf (s : State) (k : Nat) : Port := mget s.part.ports k {}
/-- Stores a port. -/
def State.setPort (s : State) (k : Nat) (v : Port) : State := { s with part := { s.part with ports := mset s.part.ports k v } }

/-- A port reset of port `k` (R367): its functions are reset, its queues flushed, its virtual functions disabled. -/
def State.resetPort (s : State) (k : Nat) : State :=
  let s := (List.range 65).foldl (fun s fn => s.resetFn k fn) s
  let s := s.setPort k {}
  let qs := (s.q.queues.filter fun e => e.2.binding == k && (s.partOf (e.1 / 64)).st != 2).map (·.1)
  let live := qs.filter fun q => (s.queue q).st == .enabled || (s.queue q).st == .stopping
  let s := ((live.map (· / 64)).eraseDups).foldl (fun s p => s.setPart p { s.partOf p with fresh := true }) s
  live.foldl (fun s q => s.flushQueue q 2) s

/-- A fence that takes the controller of a PCIe port down is a port reset of it (R32, Table 11.6: link down). -/
def State.fencePcie (old s : State) : State :=
  [0, 1].foldl (fun s k => if old.pcieGood k && !s.pcieGood k then s.resetPort k else s) s

/-! ### A fault -/

/-- What the fault of a unit does to operations: their partitions' fault units (R374). -/
def State.faultOps (s : State) (ts : List Nat) (groups : List (Nat × List Nat)) : State :=
  let s := groups.foldl (fun s g => s.strictPart g.1 g.2) s
  ts.foldl State.fencedOp s

/-- A fault found in a unit (R373, R470): fenced and recorded; a snapshot when it is module-level; a FAULT record for each partition
touched; the touched operations by fault unit; then what the fence and the structures lost do. -/
def State.fault (s : State) (kind field unit origin reason : Nat) (touched : List Nat) (lost : List Lost) : State :=
  if s.covered kind field unit then s else
  let old := s
  let ts := touched.eraseDups.filter fun t => (s.op? t).any fun o => o.st != .recordWait
  let own := fun p => ts.filter fun t => (s.op? t).any fun o => o.part == p
  let ps := (ts.filterMap fun t => (s.op? t).map (·.part)).eraseDups
  let big := moduleKind kind || ps.length > 1
  let cls := if big then 6 else 5
  let groups := (ps.filter fun p => s.faultUnit p = 0).map fun p =>
    (p, ((own p).filterMap fun t => (s.op? t).map fun o => s.jobGroup o.queue).eraseDups)
  let s := s.fenceNote cls kind field unit origin reason
  let snap := big && !s.boot.stone
  let id := if snap then s.ev.nextSnap else 0
  let s := if snap then s.snapshot 1 0xFFFF (fun _ => true) (fun t => ts.contains t) else s
  let s := groups.foldl (fun s g => s.holdGroups g.1 g.2) s
  let s := ps.foldl (fun s p => s.faultEvent cls (some p) kind field unit [(own p).length, s.faultUnit p, s.jobHeld p, id]) s
  let s := if big then s.faultEvent cls none kind field unit [ts.length, 0xFF, 0, id] else s
  let s := s.faultOps (ts.filter fun t => (s.op? t).any fun o => s.faultUnit o.part != 0) groups
  lost.foldl State.loseStruct (old.fencePcie (old.fenceEffects s kind field unit))

/-- FAULT_FENCE (R373): a fault in service. (log 43, DESIGN CHOICE) -/
def execFaultFence (kind field unit reason : Nat) (touched : List Nat) (lost : List Lost) (s : State) : Res :=
  .next (s.fault kind field unit 3 reason touched lost)

/-- BIST_CORE_TEST (R441): one background test of a pith or rind core of the position `field`; a failure fences it. -/
def execBistCoreTest (rind : Bool) (field core : Nat) (pass : Bool) (s : State) : Res :=
  .next <|
    let kind := if rind then 3 else 2
    let g := segFields.findIdx (· == field)
    let real := if rind then g < 32 && core < rindCount g else pithFields.contains field && core < 3072
    if s.boot.phase ≠ 8 ∨ s.obj 0xE000 1 24 = 0 ∨ s.covered kind field core ∨ !real then s else
    let s := s.bump 0xE000 2
    if pass then s else (s.fault kind field core 2 1 [] []).bump 0xE000 3

end Sys2Proof.Machine
end

