-- ==== Sys2Proof/Machine/Resets.lean ====
section
/-! DEFINITION. Partition, function, port and queue resets (R366-R372, R77, R107, R151, R223, R257, R288, R349, R522). -/

namespace Sys2Proof.Machine

/-! ### The start of a partition reset (Table 11.7, steps 1 and 2) -/

/-- The pending and held messages of partition `p`'s functions are discarded. -/
def State.dropMessages (s : State) (p : Nat) : State :=
  let own := fun f => f == fnKey 0 (p + 1) || f == fnKey 1 (p + 1)
  { s with q := { s.q with
    msixPend := s.q.msixPend.filter fun v => !own (v / 128), doneHeld := s.q.doneHeld.filter fun f => !own f } }

/-- The contributions held for partition `p`'s sets are discarded and their rounds restart at 0 (R522). -/
def State.dropSets (s : State) (p : Nat) : State :=
  let ids := ((collSets (s.blobOf 0x1A01 1)).filter fun c => c.part == p).map CollSet.id
  { s with lk := { s.lk with
    contribs := s.lk.contribs.filter fun c => !ids.contains c.set
    spoiled := s.lk.spoiled.filter fun e => !ids.contains e.1
    rounds := s.lk.rounds.filter fun r => !ids.contains (r.1 / 2) } }

/-- The queues of partition `p` that are listed. -/
def State.queuesOf (s : State) (p : Nat) : List Nat := (s.q.queues.filter fun e => e.1 / 64 == p).map (·.1)

/-- Stops queue `qn`: QUEUE_STOPPED if it was ENABLED (R474). -/
def State.stopQueue (s : State) (qn : Nat) : State :=
  let v := s.queue qn
  if v.st = .enabled then
    let s := s.queueStopped qn 3
    s.setQueue qn { s.queue qn with st := .stopping, ottStall := false }
  else s

/-- A partition reset of `p` begins for `cause` (LAST_RESET_CAUSE); one in progress is joined (R372). -/
def State.beginReset (s : State) (p cause : Nat) : State :=
  let v := s.partOf p
  if v.st = 2 then s else
  let s := s.setPart p { v with st := 2, resetAt := s.up, cause := cause, fresh := true }
  let s := (s.queuesOf p).foldl State.stopQueue s
  let s := (((s.dropMessages p).dropHeld p).dropSets p)
  s.endSessions fun x => x.role == 1 && x.part == p

/-! ### Its end (steps 3 to 7) -/

/-- RESET_GRACE in ns. -/
def State.grace (s : State) : Nat := ms (s.obj 0x1800 4 10)

/-- An operation still in flight ends ABORTED; a COLLECT's round is discarded (R319). -/
def State.abortOp (s : State) (t : Nat) : State :=
  match s.op? t with
  | none => s
  | some o =>
    let s := match o.st with
      | .posted _ => s.dropRound (fld o.desc 8 2) o.aux
      | _ => s
    s.stopOp t stAborted true

/-- A record that waits for journal space is placed in RESET_RECORD (R368; step 5). -/
def State.flushRecord (s : State) (t : Nat) : State :=
  match s.op? t with
  | none => s
  | some o =>
    if o.st = .recordWait then
      let s := s.putResetRecord o.part (recordBytes t o false)
      (({ s with ev := { s.ev with snaps := s.ev.snaps.map (Snap.finish t o false true) } }).completeSnaps).release t
    else s

/-- Units of subscriber `p` queued or waiting on every port. -/
def State.unitsOf (s : State) (p : Nat) : Nat :=
  ((List.range 178).map fun x => ((s.portUnits x).filter (·.1 == p)).length).sum

/-- Discards the units of subscriber `p` on every port with cause RESET (R349). -/
def State.dropPart (s : State) (p : Nat) : State :=
  (List.range 178).foldl (fun s x => s.dropUnits x 3 fun sub _ => sub == p) s

/-- A queued push of a stopped plan that holds no OTT entry yet takes one and ends ABORTED (R151). (log 20, DEDUCED) -/
def State.abortJob (s : State) (p n : Nat) (j : PlanJob) : State :=
  if j.tag.isSome then s else
  match s.takeEntry (pushOp p n j) with
  | some (t, s) => s.endOp t stAborted 0 j.count 0
  | none => s

/-- Plans of partition `p` stop (R151, Table 4.7): state 2, queued pushes ended, no plan in force; staging goes on. (log 20, DEDUCED) -/
def State.stopPlans (s : State) (p : Nat) : State :=
  (List.range 8).foldl (fun s n =>
    let s := (s.plan p n).jobs.foldl (fun s j => s.abortJob p n j) s
    s.setPlan p n { s.plan p n with st := 2, inForce := [], jobs := [], pushed := [], staged := [] }) s

/-- Every sequence of partition `p` is discarded (R77). -/
def State.dropSeqs (s : State) (p : Nat) : State :=
  ((s.pg.seqs.filter fun e => e.2.part == p && !e.2.releasing).map (·.1)).foldl (fun s n => (s.discardSeq n none).2) s

/-- The saves and the attention deficit of partition `p` are freed (R257). -/
def State.dropSaves (s : State) (p : Nat) : State :=
  { s with att := { s.att with
    saves := s.att.saves.filter fun v => v.part != p, deficits := merase s.att.deficits p } }

/-- Sends reset-done on function p + 1 of port `k`, or holds it (R370). -/
def State.resetDone (s : State) (k p : Nat) : State :=
  let f := fnKey k (p + 1)
  if !s.hasVf k p then s
  else if s.q.msixOn.contains f ∧ s.q.msixOpen.contains (vecKey k (p + 1) 67) then s.msix k (p + 1) 67
  else if (mget s.part.ports k {}).inReset.contains (p + 1) then { s with q := { s.q with doneHeld := s.q.doneHeld ++ [f] } }
  else s

/-- Functions of partition `p` are no longer under function-level reset. -/
def State.clearFlr (s : State) (p : Nat) : State :=
  { s with part := { s.part with ports := s.part.ports.map fun e =>
    (e.1, { e.2 with inReset := e.2.inReset.filter (· != p + 1) }) } }

/-- Steps 3 to 7 of the reset of `p`. -/
def State.endReset (s : State) (p : Nat) : State :=
  let ts := (s.q.ott.filter fun e => e.2.part == p && e.2.st != .recordWait).map (·.1)
  let s := (ts.foldl State.abortOp s).stopPlans p
  let n := s.unitsOf p
  let s := s.dropPart p
  let s := ((s.q.ott.filter fun e => e.2.part == p).map (·.1)).foldl State.flushRecord s
  let s := { s with q := { s.q with queues := s.q.queues.filter fun e => e.1 / 64 != p } }
  let s := (((s.tmResetEnd p).dropJobs fun j => j.part == p).dropSeqs p).dropSaves p
  let v := s.partOf p
  let s := s.setPart p { v with st := if (s.part.setup.prot p).enabled then 1 else 0, held := [] }
  let s := (s.resetDone 0 p).resetDone 1 p
  let s := (s.clearFlr p).pfVec 4
  let s := s.event 0x0012 { part := some p, params := [v.cause, v.record.length, n] }
  (s.bump (pIx p 0) 3).bump 0x1800 5

/-- Operations of a flushed queue still in flight at RESET_GRACE end ABORTED, their units discarded (Table 8.5, R367). -/
def State.endFlush (s : State) (q : Nat) : State :=
  let ts := (s.q.ott.filter fun e => e.2.queue == q && e.2.src == .queue && e.2.st != .recordWait).map (·.1)
  let s := (List.range 178).foldl (fun s x => s.dropUnits x 3 fun _ u => u.tag.any ts.contains) s
  let s := ts.foldl State.abortOp s
  let s := ((s.q.ott.filter fun e => e.2.queue == q && e.2.src == .queue).map (·.1)).foldl State.flushRecord s
  let v := s.queue q
  if v.st = .stopping then s.setQueue q { v with st := .disabled, flushAt := none, waiting := [], journalFull := false } else s

/-- RESET_GRACE_EXPIRY (R369): of the reset of partition `n`, or of the flush of queue number `n`. -/
def execResetGraceExpiry (queue : Bool) (n : Nat) (s : State) : Res :=
  .next <|
    if queue then
      match (s.queue n).flushAt with
      | some t => (s.timeTo (t + s.grace)).endFlush n
      | none => s
    else if (s.partOf n).st = 2 then (s.timeTo ((s.partOf n).resetAt + s.grace)).endReset n
    else s

/-! ### Function and port resets (R366, R367, R370, R377, R405) -/

/-- PORT_RESET (R367) of port `k`; `cause` 0 fundamental reset (PERSTk_N falls), 1 hot reset, 2 link down, 3 FLR of the PF, 4 VF
Enable cleared. -/
def execPortReset (k cause : Nat) (s : State) : Res :=
  .next <| if k > 1 then s else
    let s := if cause = 0 then { s with pwr := { s.pwr with perst := s.pwr.perst.filter (· != k) } } else s
    s.resetPort k

/-- FUNCTION_LEVEL_RESET (R366): of a virtual function, a partition reset; of the physical function, a port reset. -/
def execFunctionLevelReset (k fn : Nat) (s : State) : Res :=
  .next <|
    if k > 1 then s
    else if fn = 0 then s.resetPort k
    else if !s.hasVf k (fn - 1) then s
    else
      let s := s.resetFn k fn
      let v := s.portOf k
      let s := s.setPort k { v with inReset := if v.inReset.contains fn then v.inReset else v.inReset ++ [fn] }
      s.beginReset (fn - 1) (1 + k)

end Sys2Proof.Machine
end

