-- ==== Sys2Proof/Machine/Values.lean ====
section
/-! DEFINITION. What every object of the dictionary reads (R380-R392): stored values, counters, and the derived objects of each
chapter's table. -/

namespace Sys2Proof.Machine

/-- What a reader sees of the event log, the snapshots and the partitions (R388, R468, R473). -/
structure Scope where
  all : Bool := false
  parts : Nat := 0
  module : Bool := false

/-- The scope covers partition `p`. -/
def Scope.part (c : Scope) (p : Nat) : Bool := c.all || bit c.parts p

/-! ### Start, images and the defect map (13) -/

/-- The text `t` as STRING(n). -/
def text (t : String) (n : Nat) : Bytes := padTo (t.toList.map fun c => BitVec.ofNat 8 c.toNat) n

/-- An image is intact (R436); `cap` is its slot's size. (log 11, DESIGN CHOICE) -/
def intact (cap : Nat) (b : Bytes) : Bool :=
  let n := fld b 8 4
  fld b 0 4 == 0x554C4657 && n == b.length && 576 ≤ n && n ≤ cap && fld b 12 4 == crc32c (b.drop 16) && Config.signatureGood b

/-- Bytes of slot `k` (0 A, 1 B, 2 recovery). -/
def slotCap (k : Nat) : Nat := if k = 2 then 8388608 else 25165824
/-- The alternate start controller runs the start (R35, R431). -/
def State.altStart (s : State) : Bool := !bit s.boot.ctl 0 || s.segGone 0
/-- The copy of slot A's (0) or B's (1) image that a start reads: its own device first, the other when that copy is not intact (R437). -/
def State.image (s : State) (k : Nat) : Option Bytes :=
  let cs := (mget s.boot.slots k {}).copies
  let ord := if s.altStart then [1, 0] else [0, 1]
  (ord.filterMap fun d => if bit s.boot.nor d && intact (slotCap k) (cs.getD d []) then some (cs.getD d []) else none).head?
/-- VERSION of slot `k`; 0 while no copy is intact. -/
def State.slotVersion (s : State) (k : Nat) : Nat :=
  if k = 2 then Config.recoveryVersion.toNat else ((s.image k).map fun b => fld b 4 4).getD 0
/-- SLOT_STATE of slot `k`. The recovery image was written in the factory. -/
def State.slotState (s : State) (k : Nat) : Nat :=
  if k = 2 then 2 else (mget s.boot.slots k {}).st

/-- The bytes of a defect-map entry (Table 13.10). -/
def Defect.bytes (d : Defect) : Bytes :=
  leBytes 1 d.kind ++ leBytes 1 d.origin ++ leBytes 1 d.field ++ leBytes 1 d.reason ++ leBytes 4 d.unit ++ leBytes 4 d.powerOns ++
    leBytes 4 d.uptime
/-- Leading entries of origin factory. -/
def State.factoryCount (s : State) : Nat := (s.boot.defects.takeWhile fun d => d.origin == 0).length
/-- DEFECT_MAP: header and entries (Table 13.9). -/
def State.defectMap (s : State) : Bytes :=
  let es := s.boot.defects.flatMap Defect.bytes
  let h := leBytes 4 0x44464D50 ++ leBytes 2 1 ++ leBytes 2 0 ++ leBytes 4 s.boot.defects.length ++ leBytes 4 s.factoryCount ++
    leBytes 4 s.boot.generation ++ leBytes 4 s.boot.mapSeq ++ padTo (Config.serial.take 16) 16 ++ leBytes 20 0
  h ++ leBytes 4 (crc32c (h ++ es)) ++ es

/-- An attempt entry (Table 13.14). -/
def Attempt.bytes (a : Attempt) : Bytes :=
  leBytes 4 a.no ++ leBytes 4 a.powerOns ++ leBytes 1 a.outcome ++ leBytes 1 a.phase ++ leBytes 2 a.reason ++
    leBytes 1 (a.image + 4 * b2n a.trial + 8 * b2n a.stone + 16 * b2n a.alternate + 32 * b2n a.format) ++ leBytes 3 0 ++
    leBytes 4 a.version ++ leBytes 4 a.elapsed ++ leBytes 4 a.detail ++ leBytes 4 0

/-- Which of segment `g`'s interfaces are fenced: its stack and links, or its channel groups, and its PCIe port (R23, R37). -/
def State.segOut (s : State) (g : Nat) : List Bool :=
  (match stackSegs.findIdx? (· == g) with
    | some h => (!s.stackGood h) :: (List.range 8).map fun i => !s.linkGood (8 * h + i)
    | none =>
      let f := flashSegs.findIdx (· == g)
      [!s.groupGood (2 * f), !s.groupGood (2 * f + 1)]) ++
  (if g = 28 ∨ g = 30 then [s.segFenced g 4] else [])

/-- The state of segment `g` (0x0131). (log 20, DEDUCED) -/
def State.segState (s : State) (g : Nat) : Nat :=
  if s.segGone g then 2
  else if s.segIdle g then 3
  else if (s.segOut g).all id then 2
  else if (s.segOut g).any id then 1 else 0

/-- Bytes of a start object. -/
def State.startObj (s : State) (ix sub : Nat) : Option Bytes :=
  let b := s.boot
  let lastFail := (b.attempts.find? fun a => a.outcome == 3)
  match ix, sub with
  | 0x0100, 1 => some (text "Mehrozin" 16)
  | 0x0100, 2 => some (text "Spaerhan Ulrad" 32)
  | 0x0100, 3 => some (text "UL1-W" 16)
  | 0x0100, 4 => some (padTo (Config.serial.take 16) 16)
  | 0x0100, 5 => some (leBytes 4 Config.manufactureDate.toNat)
  | 0x0100, 6 => some (leBytes 2 Config.stepping.toNat)
  | 0x0100, 7 => some (leBytes 4 (s.slotVersion b.running))
  | 0x0130, 1 => some (leBytes 4 s.pithCores)
  | 0x0130, 2 => some (leBytes 1 ((List.range 112).filter fun f => !s.fieldFenced f).length)
  | 0x0130, 3 => some (leBytes 2 s.arraysIn.length)
  | 0x0130, 4 => some (leBytes 4 ((s.arraysIn.map fun a => 4096 -
      (s.fences.filter fun d => d.kind == 5 && d.field == pithField (a / 32) && bits d.unit 16 5 == a % 32 &&
        d.unit % 65536 < 4096).length).sum))
  | 0x0130, 5 => some (leBytes 2 s.banks.length)
  | 0x0130, 6 => some (leBytes 1 s.stacks.length)
  | 0x0130, 7 => some (leBytes 8 s.t1Bytes)
  | 0x0130, 8 => some (leBytes 2 s.diesIn.length)
  | 0x0130, 9 => some (leBytes 8 s.t2UserBytes)
  | 0x0130, 10 => some (leBytes 1 ((List.range 128).filter fun n => s.linkGood n).length)
  | 0x0130, 11 => some (leBytes 8 s.t0Bytes)
  | 0x0131, g + 1 => some (leBytes 1 (s.segState g))
  | 0x0800, 1 => some (leBytes 4 b.straps)
  | 0x0800, 2 => some (leBytes 4 b.pins)
  | 0x0800, 3 => some (leBytes 1 (b2n b.fmtDone))
  | 0x0800, 4 => some (leBytes 1 (b2n b.formatReq))
  | 0x0810, 1 => some (leBytes 1 b.threshold)
  | 0x0820, 1 => some (leBytes 1 b.fails)
  | 0x0820, 2 => some (leBytes 1 ((lastFail.map (·.phase)).getD 0))
  | 0x0820, 3 => some (leBytes 2 ((lastFail.map (·.reason)).getD 0))
  | 0x0820, 4 => some (padTo ((b.attempts.take 8).flatMap Attempt.bytes) 256)
  | 0x0820, 5 => some (leBytes 4 b.powerOns)
  | 0x0820, 6 => some (leBytes 4 b.starts)
  | 0x0830, 1 => some (leBytes 1 (b2n b.stone))
  | 0x0830, 2 => some (leBytes 1 b.stoneCause)
  | 0x0840, 1 => some (leBytes 1 b.running)
  | 0x0840, 10 => some (leBytes 1 (b2n s.altStart))
  | 0x0840, 11 => some (leBytes 4 b.minEpoch)
  | 0x0840, k => if 2 ≤ k ∧ k ≤ 4 then some (leBytes 1 (s.slotState (k - 2)))
                 else if 5 ≤ k ∧ k ≤ 7 then some (leBytes 4 (s.slotVersion (k - 5))) else none
  | 0x0850, 1 => some (leBytes 1 b.phase)
  | 0x0850, k => if 2 ≤ k ∧ k ≤ 8 then some (leBytes 4 (mget b.times (k - 1) 0)) else none
  | 0x7200, 1 => some s.defectMap
  | 0x7200, 2 => some (leBytes 4 b.defects.length)
  | 0x7200, 3 => some (leBytes 4 s.factoryCount)
  | 0x7200, 4 => some (leBytes 4 b.generation)
  | 0x7200, 5 => some (leBytes 1 (b2n (bit b.nor 0) + b2n (bit b.nor 1)))
  | _, _ => none

/-! ### Module configuration (02 to 08, 10 to 12, 14, 16, 18) -/

/-- Time in ns outside LOCKED since the start (R464), and since the bound was cleared (R456). -/
def State.outsideNs (s : State) : Nat := s.clk.outside + ((s.clk.since.map fun t => s.up - t).getD 0)
def State.boundNs (s : State) : Nat := s.clk.bound + ((s.clk.since.map fun t => s.up - max t s.clk.boundSince).getD 0)

/-- MESH_STATE codes, as TS_QUALITY has them exchanged: TS_QUALITY is 0 LOCKED, 1 HOLDOVER, 2 FREE_RUN (R456). -/
def Mesh.code : Mesh → Nat
  | .freeRun => 0 | .locked => 1 | .holdover => 2
def Mesh.quality : Mesh → Nat
  | .locked => 0 | .holdover => 1 | .freeRun => 2
/-- REF_STATE codes. -/
def RefSt.code : RefSt → Nat
  | .absent => 0 | .pending => 1 | .qualified => 2 | .lost => 3
/-- State of REFCLKk. -/
def State.refSt (s : State) (k : Nat) : RefSt := (mget s.clk.refs k (.absent, 0)).1
/-- STATE of a link as software sees it. -/
def LinkSt.code : LinkSt → Nat
  | .disabled => 0 | .equalise => 1 | .exchange => 1 | .up => 2 | .down => 3 | .fenced => 4

/-- The bit set of links `ns` as BYTES(16). -/
def linkSet (ns : List Nat) : Bytes := leBytes 16 ((ns.map fun n => 2 ^ n).sum)

/-- A lease record (R523), borrowed in slot `k` or lent in slot `k`. -/
def State.leaseObj (s : State) (lent : Bool) (k sub : Nat) : Bytes :=
  let row := fun (st id notice left partner bytes used : Nat) =>
    if sub = 2 then linkSet (s.linksTo partner)
    else leBytes 1 st ++ leBytes 1 id ++ leBytes 2 notice ++ leBytes 4 (left / 1000000) ++ leBytes 8 partner ++ leBytes 8 bytes ++ leBytes 8 used
  if lent then
    match mget? s.lk.lent k with
    | some e => row (if e.revoking then 2 else 1) k e.notice (e.termEnd - s.up) e.partner e.bytes 0
    | none => leBytes (if sub = 2 then 16 else 32) 0
  else
    match mget? s.lk.leases k with
    | some e => row (if e.revoking then 2 else 1) e.id e.notice (e.termEnd - s.up) e.partner e.bytes (s.leaseUsed k)
    | none => leBytes (if sub = 2 then 16 else 32) 0

/-- Dies of channel group `g` and the erase counts of a die. -/
def State.groupDies (s : State) (g : Nat) : List Die := (List.range 32).map fun i => s.die (32 * g + i)
/-- LIFE_USED: mean erase count ÷ RATED_PE in %, rounded down (log 12), saturating at 255. -/
def State.lifeUsed (s : State) : Nat :=
  let n := 3641 * s.diesIn.length
  if n = 0 then 0 else min 255 (((s.diesIn.map fun d => (3641 - (s.die d).erases.length) * (s.die d).formatted + ((s.die d).erases.map (·.2)).sum).sum) * 100 / (n * 3000))

/-- Objects of the module configuration that are derived. -/
def State.moduleObj (s : State) (ix sub : Nat) : Option Bytes :=
  match ix, sub with
  | 0x1000, 2 => some (leBytes 4 ((s.up - s.boot.startAt) / 1000000000))
  | 0x1010, 1 => some (leBytes 1 s.canNode)
  | 0x1010, 3 => some (leBytes 1 (b2n (bit s.boot.straps 13)))
  | 0x1010, 11 => some (leBytes 2 s.dict.sessions.length)
  | 0x1100, 12 => some (leBytes 8 s.t1Pool)
  | 0x1100, 13 => some (leBytes 8 s.t0Used)
  | 0x1100, 14 => some (leBytes 8 s.t1Used)
  | 0x1100, 15 => some (leBytes 8 s.t2Used)
  | 0x1100, 16 => some (leBytes 8 s.tnUsed)
  | 0x1200, 13 => some (leBytes 1 s.media.state)
  | 0x1200, 15 => some (leBytes 1 s.lifeUsed)
  | 0x1200, 16 => some (leBytes 4 ((s.diesIn.map fun d => 64 - (s.die d).retired).sum))
  | 0x1201, 1 => some (leBytes 1 s.media.lastShutdown)
  | 0x1201, k => some (leBytes (if k = 4 ∨ k = 5 ∨ k = 7 then 8 else 4) (s.media.restored.getD (k - 2) 0))
  | 0x1320, 2 => some (leBytes 4 s.pg.frames.length)
  | 0x1320, 3 => some (leBytes 4 (s.pg.frames.filter fun e => e.2.st != .opened && e.2.refs == 0).length)
  | 0x1400, 5 => some (leBytes 4 (s.px.dir.filter fun e => e.2.st == .valid).length)
  | 0x1400, 6 => some (leBytes 4 s.px.cam.length)
  | 0x1400, 7 => some (leBytes 4 s.camCapacity)
  | 0x1400, 8 => some (leBytes 4 s.px.epoch)
  | 0x1620, 5 => some (leBytes 4 (s.ix.pips.filter fun e => e.2.st == 3).length)
  | 0x1620, 6 => some (leBytes 4 (s.ix.pips.filter fun e => !s.scoredAnalog e.2).length)
  | 0x1620, 7 => some (leBytes 2 (s.ix.arrays.filter fun e => e.2.st == 1 || e.2.st == 2).length)
  | 0x1620, 8 => some (leBytes 4 (s.ix.pips.filter fun e => e.2.st == 1).length)
  | 0x1700, 3 => some (leBytes 4 s.ottShared)
  | 0x1700, 4 => some (leBytes 4 s.q.ott.length)
  | 0x1800, 1 => some (leBytes 4 s.part.gen)
  | 0x1800, 2 => some (leBytes 1 s.partCount)
  | 0x1901, 1 => some (leBytes 1 s.clk.mesh.code)
  | 0x1901, 2 => some (leBytes 1 (s.clk.active.getD 0xFF))
  | 0x1901, 11 => some (leBytes 8 (s.outsideNs / 1000))
  | 0x1901, k => if 3 ≤ k ∧ k ≤ 6 then some (leBytes 1 (s.refSt (k - 3)).code)
                 else if 7 ≤ k ∧ k ≤ 10 then some (leBytes 4 (Config.refOffset (k - 7) s.up).toNat) else none
  | 0x1902, 1 => some (leBytes 8 s.now.toNat)
  | 0x1902, 2 => some (leBytes 1 s.clk.mesh.quality)
  | 0x1902, 3 => some (leBytes 8 (s.boundNs / 1000))
  | 0x1A00, 1 => some (leBytes 8 Config.moduleId.toNat)
  | 0x1A00, 6 => some (leBytes 1 (s.lk.links.filter fun e => e.2.st == .up).length)
  | 0x1A10, 5 => some (leBytes 8 s.lentBytes)
  | 0x1A10, 7 => some (leBytes 8 s.tnBytes)
  | 0x1B00, 11 => some (leBytes 1 ((s.pwr.states.map (·.2)).foldl max 0))
  | 0x1B00, k => some (leBytes 4 (mget s.pwr.readings k 0))
  | 0x1B01, 1 => some (leBytes 8 (s.pwr.millijoules / 1000))
  | _, _ =>
    if 0x1300 ≤ ix ∧ ix < 0x1320 then
      let n := ix - 0x1300
      let g := s.geo n
      match sub with
      | 16 => some (leBytes 2 g.w)
      | 17 => some (leBytes 4 g.sliceBytes)
      | 18 => some (leBytes 4 g.frameBytes)
      | 19 => some (leBytes 1 (s.bindings n))
      | 20 => some (leBytes 4 g.upprojBytes)
      | _ => none
    else if 0x1500 ≤ ix ∧ ix < 0x1600 then
      let d := s.part.setup.domain (ix - 0x1500)
      match sub with
      | 1 => some (leBytes 1 (b2n d.enabled))
      | 2 => some (leBytes 8 d.members)
      | 3 => some (leBytes 8 (s.saltOf s.part.setup (ix - 0x1500)))
      | _ => none
    else if 0x1600 ≤ ix ∧ ix < 0x1620 ∧ sub = 4 then some (leBytes 4 (s.projBytes (ix - 0x1600)))
    else if 0x1A20 ≤ ix ∧ ix < 0x1A40 then some (s.leaseObj (decide (0x1A30 ≤ ix)) (ix % 16) sub)
    else none

/-! ### Partitions (11) -/

/-- The register block of queue `qn` (Table 8.3). -/
def State.queueRegs (s : State) (qn : Nat) : Bytes :=
  let v := s.queue qn
  leBytes 8 v.sqBase.toNat ++ leBytes 8 v.cjBase.toNat ++
    leBytes 4 (v.sqLog2 + 2 ^ 8 * v.cjLog2 + 2 ^ 16 * v.defClass + 2 ^ 20 * v.binding + 2 ^ 22 * v.link) ++
    leBytes 4 (b2n (v.st == .enabled) + 4 * b2n v.intEnable) ++ leBytes 4 (v.count + 2 ^ 16 * v.time) ++
    leBytes 4 (v.st.code + 8 * b2n v.ottStall + 16 * b2n v.journalFull + 2 ^ 16 * v.lastError) ++
    leBytes 4 v.sqHead ++ leBytes 4 (v.cjTail + 2 ^ 16 * b2n v.phase) ++
    leBytes 4 (s.ottCount fun o => o.queue == qn && o.src == .queue) ++ leBytes 20 0

/-- LOSS_INTERVAL over the counter blocks at `a` and `b` (R485). -/
def State.lossInterval (s : State) (a b : Nat) : Bytes :=
  leBytes 8 s.now.toNat ++ leBytes 4 s.boot.starts ++ leBytes 1 (b2n s.holdover) ++ leBytes 3 0 ++
    ((List.range 11).flatMap fun i => leBytes 8 (s.count a (i + 1)).toNat) ++
    ((List.range 7).flatMap fun i => leBytes 8 (s.count b (i + 1)).toNat) ++ leBytes 32 0

/-- A restore list (Table 5.10). -/
def State.restoreList (s : State) (p : Nat) : Bytes :=
  (s.media.restoreList.filter fun e => e.part == p).flatMap fun e =>
    leBytes 3 e.seq ++ leBytes 1 e.slot ++ leBytes 4 e.length ++ leBytes 4 e.firstAbsent ++ leBytes 4 e.absentBlocks

/-- Objects of partition `p` that are not plain stored values. -/
def State.partObj (s : State) (p off sub : Nat) : Option Bytes :=
  let v := s.partOf p
  let r := s.part.setup.prot p
  match off, sub with
  | 0x00, 1 => some (leBytes 1 v.st)
  | 0x00, 4 => some (leBytes 1 v.cause)
  | 0x00, 5 => some v.record.flatten
  | 0x00, 6 => some (leBytes 4 v.record.length)
  | 0x01, 1 => some (leBytes 1 (b2n r.enabled))
  | 0x01, 2 => some (leBytes 8 r.queues)
  | 0x01, 3 => some (leBytes 8 (r.links % 2 ^ 64))
  | 0x01, 4 => some (leBytes 8 (r.links / 2 ^ 64))
  | 0x01, 5 => some (leBytes 1 r.ports)
  | 0x01, 6 => some (leBytes 4 r.quota)
  | 0x01, 7 => some (leBytes 4 r.profiles)
  | 0x01, 8 => some (leBytes 4 (s.framesHeld p))
  | 0x02, 3 => some (leBytes 2 (s.jobHeld p))
  | 0x0C, 1 => some (s.restoreList p)
  | 0x0C, 2 => some (leBytes 4 (s.media.restoreList.filter fun e => e.part == p).length)
  | 0x1C, 12 => some (leBytes 2 (s.savesLive p))
  | 0x1C, 13 => some (leBytes 8 (s.saveUsed p))
  | 0x20, q + 1 => some (s.queueRegs (64 * p + q))
  | 0x21, 1 => some (leBytes 4 (s.ottReserve p))
  | 0x21, 3 => some (leBytes 4 (s.ottCount fun o => o.part == p))
  | 0x21, 4 => some (leBytes 4 (s.obj (pIx p 0x21) 4 0))
  | 0x27, 1 => some (s.lossInterval (pIx p 0x24) (pIx p 0x25))
  | _, _ =>
    if 0x10 ≤ off ∧ off ≤ 0x17 then
      let n := mget s.tier.plans (8 * p + (off - 0x10)) {}
      match sub with
      | 2 => some (leBytes 1 n.st)
      | 3 => some (leBytes 2 n.pos)
      | _ => none
    else none

/-! ### Traffic manager and links (10, 16) -/

/-- Objects of the traffic manager. (log 41, DEDUCED) -/
def State.tmObj (s : State) (ix sub : Nat) : Option Bytes :=
  let x := sub - 1
  if ix = 0x3010 then some (leBytes 2 (mget s.tm.ratio x 32768))
  else if ix = 0x3011 then some (leBytes 4 (s.capacity x))
  else if ix = 0x3012 then some (leBytes 4 (s.portSum x))
  else if 0x3080 ≤ ix ∧ ix < 0x3088 then some (recBytes true (s.leafCfg x 64 (ix % 8)))
  else if 0x3088 ≤ ix ∧ ix < 0x3090 then some (s.leafStats x 64 (ix % 8))
  else if 0x3090 ≤ ix ∧ ix < 0x3098 then some (s.leafHist x 64 (ix % 8))
  else if 0x3100 ≤ ix ∧ ix < 0x31B2 ∧ sub = 1 then some (leBytes 1 (portKind (ix - 0x3100)))
  else if 0x3200 ≤ ix ∧ ix < 0x3790 then some (s.nodeBytes ((ix - 0x3200) / 8) (ix % 8))
  else if 0x3800 ≤ ix ∧ ix < 0x3A00 then some (recBytes true (s.leafCfg x (ix % 0x200 / 8) (ix % 8)))
  else if 0x3A00 ≤ ix ∧ ix < 0x3C00 then some (s.leafStats x (ix % 0x200 / 8) (ix % 8))
  else if 0x3C00 ≤ ix ∧ ix < 0x3E00 then some (s.leafHist x (ix % 0x200 / 8) (ix % 8))
  else if 0x3E00 ≤ ix ∧ ix < 0x4000 ∧ sub = 1 then
    let m := s.meter (ix % 0x200 / 8) (ix % 8)
    some (meterBytes m m.onChange)
  else none

/-- Objects of link `n`. -/
def State.linkObj (s : State) (n off sub : Nat) : Option Bytes :=
  let l := s.link n
  match off, sub with
  | 0, 2 => some (leBytes 1 (s.obj (lIx n 0) 2 (bits s.boot.straps 14 1)))
  | 0, 4 => some ((List.range 8).flatMap fun v => leBytes 2 (s.rxCredits n v))
  | 1, 1 => some (leBytes 1 l.st.code)
  | 1, 2 => some (leBytes 2 l.trained)
  | 1, 3 => some (leBytes 1 l.lanes)
  | 1, 4 => some (leBytes 1 l.role)
  | 1, 5 => some (leBytes 8 l.partner)
  | 1, 6 => some (leBytes 1 l.reason)
  | 1, 7 => some ((List.range 8).flatMap fun v => leBytes 2 (l.avail v))
  | 1, 8 => some (leBytes 4 l.replayUsed)
  | _, _ => none

/-! ### Events and snapshots (15) -/

/-- An event record (Table 15.2). -/
def Event.bytes (e : Event) : Bytes :=
  leBytes 8 e.seqNo ++ leBytes 8 e.time ++ leBytes 4 e.start ++ leBytes 2 e.kind ++
    leBytes 1 (e.sev + 8 * b2n e.holdover + 16 * b2n e.restored) ++ leBytes 1 e.cls ++ leBytes 1 e.part ++ leBytes 1 0 ++
    leBytes 2 e.port ++ leBytes 1 e.unitKind ++ leBytes 1 e.field ++ leBytes 2 0 ++ leBytes 4 e.unit ++
    ((List.range 7).flatMap fun i => leBytes 4 (e.params.getD i 0))

/-- The reader sees the record (R468). -/
def Scope.sees (c : Scope) (e : Event) : Bool := if e.part = 0xFF then c.module else c.part e.part

/-- EVENT_LOG for a reader, oldest first; RECENT cuts it to the newest 256. -/
def State.eventLog (s : State) (c : Scope) (recent : Bool) : Bytes :=
  let es := s.ev.log.filter c.sees
  ((if recent then es.take 256 else es).reverse).flatMap Event.bytes

/-- An operation entry of a snapshot (Table 15.6). -/
def SnapOp.bytes (o : SnapOp) : Bytes :=
  leBytes 4 (o.tag + 2 ^ 17 * o.q) ++ leBytes 4 o.utag ++ leBytes 2 o.ring ++ leBytes 2 o.list ++ leBytes 1 o.stAt ++ leBytes 1 o.final ++
    leBytes 1 (b2n o.touched + 2 * b2n o.written + 4 * b2n o.inReset + 8 * b2n o.quiet) ++ leBytes 1 0 ++ leBytes 4 o.progress ++
    leBytes 4 o.finalProgress ++ leBytes 4 o.finalDurable ++ leBytes 4 o.gen

/-- A queue entry of a snapshot (Table 15.5). -/
def SnapQ.bytes (q : SnapQ) : Bytes :=
  leBytes 2 q.q ++ leBytes 1 q.st ++ leBytes 1 0 ++ leBytes 2 q.head ++ leBytes 2 q.tail ++ leBytes 2 q.listRing ++ leBytes 2 q.listNext ++
    leBytes 2 q.cjTail ++ leBytes 2 0

/-- Entries of a snapshot without a final status. -/
def Snap.openOf (ops : List SnapOp) : Nat := (ops.filter fun o => o.final == 0xFF).length

/-- A snapshot as a reader sees it (R473, Table 15.4). -/
def Snap.bytes (n : Snap) (c : Scope) : Bytes :=
  let qs := n.queues.filter fun q => c.part (q.q / 64)
  let os := n.ops.filter fun o => c.part o.part
  leBytes 4 n.id ++ leBytes 1 n.trigger ++ leBytes 1 (if n.complete then 2 else 1) ++ leBytes 2 n.trigQueue ++ leBytes 8 n.time ++
    leBytes 8 n.eventSeq ++ leBytes 4 n.gen ++ leBytes 4 qs.length ++ leBytes 4 os.length ++ leBytes 4 (Snap.openOf os) ++ leBytes 24 0 ++
    qs.flatMap SnapQ.bytes ++ os.flatMap SnapOp.bytes

/-- Objects of the event log, the snapshots and the loss summary. -/
def State.eventObj (s : State) (c : Scope) (ix sub : Nat) : Option Bytes :=
  match ix, sub with
  | 0x6002, 1 => some (s.lossInterval 0x6000 0x6001)
  | 0x7000, 1 => some (s.eventLog c false)
  | 0x7000, 2 => some (s.eventLog c true)
  | 0x7000, 3 => some (leBytes 8 ((s.ev.log.head?.map (·.seqNo)).getD 0))
  | 0x7000, 4 => some (leBytes 8 ((s.ev.log.getLast?.map (·.seqNo)).getD 0))
  | _, _ =>
    if 0x7100 ≤ ix ∧ ix < 0x7104 then
      match s.ev.snaps.drop (ix - 0x7100), sub with
      | n :: _, 1 => some (n.bytes c)
      | n :: _, 2 => some (leBytes 4 n.id)
      | n :: _, 3 => some (leBytes 1 (if n.complete then 2 else 1))
      | n :: _, 4 => some (leBytes 4 (Snap.openOf n.ops))
      | _, _ => none
    else if 0x6100 ≤ ix ∧ ix < 0x6120 ∧ sub = 7 then some (leBytes 4 (((s.groupDies (ix - 0x6100)).map Die.eraseMax).foldl max 0))
    else if 0x6100 ≤ ix ∧ ix < 0x6120 ∧ sub = 8 then
      let ms := (s.groupDies (ix - 0x6100)).map Die.eraseMin
      some (leBytes 4 (ms.foldl min (ms.headD 0)))
    else none

/-! ### Reading -/

/-- A stored value, a counter or a constant. -/
def State.stored (s : State) (ix sub : Nat) (r : ObjRow) : Bytes :=
  match r.ty with
  | .domain => s.blobOf ix sub
  | .bytes n => padTo (s.blobOf ix sub) n
  | .string n => padTo (s.blobOf ix sub) n
  | t => if r.ctr then leBytes t.size (s.count ix sub).toNat
         else if r.acc = .const then leBytes t.size r.d else leBytes t.size (s.obj ix sub r.d)

/-- The value of object index:sub for a reader of scope `c`. -/
def State.value (s : State) (c : Scope) (ix sub : Nat) (r : ObjRow) : Bytes :=
  let d := if sub = 0 then none
    else if ix < 0x1000 ∨ ix ≥ 0x7200 then s.startObj ix sub
    else if ix < 0x2000 then s.moduleObj ix sub
    else if ix < 0x3000 then s.partObj ((ix - 0x2000) / 0x40) (ix % 0x40) sub
    else if ix < 0x4000 then s.tmObj ix sub
    else if ix < 0x5000 then s.linkObj ((ix - 0x4000) / 0x20) (ix % 0x20) sub
    else s.eventObj c ix sub
  d.getD (s.stored ix sub r)

/-- What reading object index:sub clears (R385). -/
def State.clearRead (s : State) (ix sub : Nat) : State :=
  if 0x2000 ≤ ix ∧ ix < 0x3000 ∧ ix % 0x40 = 0x21 ∧ sub = 4 then s.setObj ix 4 0
  else if 0x3088 ≤ ix ∧ ix < 0x3090 then s.clearHwm (sub - 1) 64 (ix % 8)
  else if 0x3A00 ≤ ix ∧ ix < 0x3C00 then s.clearHwm (sub - 1) (ix % 0x200 / 8) (ix % 8)
  else s

end Sys2Proof.Machine
end

