-- ==== Sys2Proof/Machine/Clocks.lean ====
section
/-! DEFINITION. Reference inputs, the oscillator mesh and the module timestamp (R449-R463). -/

namespace Sys2Proof.Machine

/-- Sets an input's state as of now. -/
def State.setRef (s : State) (k : Nat) (v : RefSt) : State := { s with clk := { s.clk with refs := mset s.clk.refs k (v, s.up) } }

/-- REF_SELECT lets input `k` be active (R450); in stone mode only REFCLK0, or REFCLK2 when S14 replaces S0 (R463). -/
def State.selectable (s : State) (k : Nat) : Bool :=
  let v := s.obj 0x1900 2 0
  if s.boot.stone then k == (if s.segGone 0 then 2 else 0) else v == 0 || k + 1 == v

/-- The input a choice falls on now: the lowest-numbered QUALIFIED one that REF_SELECT lets be active. -/
def State.choose (s : State) : Option Nat := (List.range 4).find? fun k => s.selectable k && s.refSt k == .qualified

/-- Outside LOCKED with no pull-in in progress, a pull-in to the chosen input begins (R460). -/
def State.pullIn (s : State) : State :=
  if s.clk.mesh ≠ .locked ∧ s.clk.pull = none then { s with clk := { s.clk with pull := s.choose } } else s

/-- The mesh leaves LOCKED for HOLDOVER (Table 14.5). -/
def State.enterHoldover (s : State) : State :=
  let k := s.clk.active
  let s := { s with clk := { s.clk with
    mesh := .holdover, lostRef := k, active := none, since := some s.up, holdAt := s.up, dayTold := false } }
  (s.bump 0x1903 3).event 0x0050 { params := [k.getD 0xFF] }

/-- The mesh locks to input `k` (Table 14.5). -/
def State.lockTo (s : State) (k : Nat) : State :=
  let c := s.clk
  let was := c.mesh
  let n := (c.since.map fun t => s.up - t).getD 0
  let b := (c.since.map fun t => s.up - max t c.boundSince).getD 0
  let s := { s with clk := { c with
    mesh := .locked, active := some k, pull := none, since := none, outside := c.outside + n, bound := c.bound + b } }
  if was = .holdover then
    let s := if c.lostRef = some k then s else s.bump 0x1903 4
    s.event 0x0051 { params := [k, n / 1000] }
  else s

/-- REF_EDGES_PRESENT (Table 14.4). A rind segment that is fenced has lost its REFCLK input (R462). -/
def execRefEdgesPresent (k : Nat) (s : State) : Res :=
  .next <| if k < 4 ∧ (s.refSt k = .absent ∨ s.refSt k = .lost) ∧ !s.segGone (7 * k) then s.setRef k .pending else s

/-- REF_QUALIFY_TIMER (Table 14.4): 10 ms with no loss. -/
def execRefQualifyTimer (k : Nat) (s : State) : Res :=
  .next <| if s.refSt k = .pending then
      ((s.timeTo ((mget s.clk.refs k (.absent, 0)).2 + ms 10)).setRef k .qualified).pullIn
    else s

/-- A loss condition of input `k` (Tables 14.4, 14.5; R458). -/
def State.refLost (s : State) (k : Nat) : State :=
  if s.refSt k = .pending ∨ s.refSt k = .qualified then
    let s := (s.setRef k .lost).bump 0x1903 1
    let s := if s.clk.pull = some k then { s with clk := { s.clk with pull := none } } else s
    (if s.clk.active = some k then s.enterHoldover else s).pullIn
  else s

/-- REF_LOSS (R459, R460). -/
def execRefLoss (k : Nat) (s : State) : Res := .next (s.refLost k)

/-- REF_ABSENT_TIMER (Table 14.4): no edges for 1 s. -/
def execRefAbsentTimer (k : Nat) (s : State) : Res :=
  .next <| if s.refSt k = .lost then (s.timeTo ((mget s.clk.refs k (.absent, 0)).2 + sec 1)).setRef k .absent else s

/-- MESH_PULL_IN_DONE (R460). -/
def execMeshPullInDone (s : State) : Res :=
  .next <| match s.clk.pull with
    | some k => s.lockTo k
    | none => s

/-- HOLDOVER_24H (Table 14.5): the event once. -/
def execHoldover24h (s : State) : Res :=
  .next <| if s.clk.mesh = .holdover ∧ !s.clk.dayTold then
      let s := s.timeTo (s.clk.holdAt + sec 86400)
      { s with clk := { s.clk with dayTold := true } }.event 0x0052 {}
    else s

/-- A REF_SELECT just stored takes effect (R458). -/
def State.refSelected (s : State) : State :=
  let v := s.obj 0x1900 2 0
  let keep := match s.clk.active with
    | some k => if v = 0 then s.refSt k == RefSt.qualified else v == k + 1
    | none => false
  if keep then s else
  let s := if s.clk.mesh = Mesh.locked then s.enterHoldover else s
  let s := match s.clk.pull with
    | some k => if s.selectable k then s else { s with clk := { s.clk with pull := none } }
    | none => s
  s.pullIn

/-- TIME_SET takes effect (R456). -/
def State.timeSet (s : State) (v : Nat) : State :=
  { s with now := BitVec.ofNat 64 v, clk := { s.clk with bound := 0, boundSince := s.up } }

/-- The REFCLK input of a segment's position (Table 1.2). -/
def refOf (field : Nat) : Option Nat :=
  match segFields.findIdx (· == field) with
  | 0 => some 0
  | 7 => some 1
  | 14 => some 2
  | 21 => some 3
  | _ => none

/-- POSITIONS_DECOUPLED (R462): the position is fenced as a failed field router; a rind segment loses its REFCLK input.
(log 33, DEDUCED) -/
def execPositionsDecoupled (field : Nat) (s : State) : Res :=
  .next <|
    if s.covered 1 field 0 then s else
    let s := (s.bump 0x1903 5).event 0x0053 { field := field, params := [1] }
    let s := s.fault 1 field 0 3 6 [] []
    match refOf field with
    | some k => s.refLost k
    | none => s

/-- CLOCK_FAULT (R462): the CAN FD crystal fails; CAN FD falls silent. -/
def execClockFault (s : State) : Res :=
  .next <| if s.clk.crystal then { s with clk := { s.clk with crystal := false } }.event 0x0053 { params := [0] } else s

end Sys2Proof.Machine
end

