-- ==== Sys2Proof/Machine/Writes.lean ====
section
/-! DEFINITION. What a write of every writable object checks and does (R380-R393 and each chapter's rules). A write answers an abort
code (Table 12.9) or the state after it. -/

namespace Sys2Proof.Machine

/-- The outcome of a write: an abort code, or the state after it. -/
abbrev Wrote := Except Nat State

/-- Refuses with `code` when `b` holds. -/
def refuseIf (b : Bool) (code : Nat) (k : Wrote) : Wrote := if b then .error code else k

/-! ### Types, sizes and ranges (R381, R382, R409) -/

/-- The abort code of a value wrong in length, type or range. -/
def typeBad (ix : Nat) (r : ObjRow) (v : Bytes) : Option Nat :=
  let n := leNat v
  match r.ty with
  | .domain => none
  | .string k => if v.length > k then some 0x0201 else none
  | .bytes k => if v.length ≠ k then some 0x0201 else none
  | t =>
    if v.length ≠ t.size then some 0x0201
    else if t = .bool ∧ n > 1 then some 0x0202
    else if t = .f32 ∧ isNaN32 n then some 0x0202
    else if t = .enum ∧ !r.vals.contains n then some 0x0205
    else if r.target = .profile ∧ ix < 0x1400 then none
    else if n < r.lo ∨ n > r.hi ∨ (!r.vals.isEmpty ∧ !r.vals.contains n) then some 0x0202
    else none

/-- R384: the target of an rws object is stopped. -/
def State.stopped (s : State) (ix : Nat) (t : Target) : Bool :=
  match t with
  | .profile => s.bindings (ix % 0x20) == 0
  | .queues => (s.q.queues.filter fun e => e.1 / 64 == (ix - 0x2000) / 0x40).all fun e => e.2.st == .disabled
  | _ => true

/-! ### The protection setup (R359-R364) -/

/-- Changes one entry of the setup; index:sub lies in it. -/
def Setup.put (u : Setup) (ix sub n : Nat) : Setup :=
  if ix ≥ 0x2000 then
    let p := (ix - 0x2000) / 0x40
    let r := u.prot p
    let r := match sub with
      | 1 => { r with enabled := n == 1 }
      | 2 => { r with queues := n }
      | 3 => { r with links := r.links / 2 ^ 64 * 2 ^ 64 + n }
      | 4 => { r with links := r.links % 2 ^ 64 + 2 ^ 64 * n }
      | 5 => { r with ports := n }
      | 6 => { r with quota := n }
      | _ => { r with profiles := n }
    { u with prots := mset u.prots p r }
  else
    let d := ix - 0x1500
    let e := u.domain d
    let e := match sub with
      | 1 => { e with enabled := n == 1 }
      | 2 => { e with members := n }
      | _ => { e with salt := some n }
    { u with domains := mset u.domains d e }

/-- index:sub lies in the protection setup (R359). -/
def inSetup (ix sub : Nat) : Bool :=
  (0x2000 ≤ ix && ix < 0x3000 && ix % 0x40 == 1 && 1 ≤ sub && sub ≤ 7) || (0x1500 ≤ ix && ix < 0x1600 && 1 ≤ sub && sub ≤ 3)

/-- R361 on a whole setup: the abort code of a quota sum too high, a bound profile taken away, or a partition that cannot be in service. -/
def State.setupBad (s : State) (u : Setup) : Option Nat :=
  let sum := fun (u : Setup) => ((List.range 64).map fun p => (u.prot p).quota).sum
  if sum u > s.boot.frameEntries ∧ sum u > sum s.part.setup then some 0x0D03
  else if (List.range 64).any fun p => (u.prot p).enabled && p ≥ s.partCount then some 0x0402
  else if (List.range 64).any fun p => (List.range 8).any fun sl => match s.bound p sl with
      | some n => !bit (u.prot p).profiles n && bit (s.part.setup.prot p).profiles n
      | none => false
    then some 0x0402
  else none

/-- Flushes the queues of partition `p` that `sel` selects, as FLUSH does (R364). -/
def State.flushWhere (s : State) (p : Nat) (sel : Nat → Queue → Bool) : State :=
  ((s.q.queues.filter fun e => e.1 / 64 == p && sel (e.1 % 64) e.2).map (·.1)).foldl (fun s q => s.flushQueue q 1) s

/-- What a change from setup `old` to the setup in force does to partition `p` (R364, R410). -/
def State.setupChanged (s : State) (old : Setup) (p : Nat) : State :=
  let a := old.prot p
  let b := s.part.setup.prot p
  if a = b then s else
  let lost := fun (x y n : Nat) => bit x n && !bit y n
  let s := s.flushWhere p fun q v =>
    lost a.queues b.queues q || (v.binding ≤ 1 && lost a.ports b.ports v.binding) || (v.binding == 2 && lost a.links b.links v.link)
  let s := s.endSessions fun x => x.role == 1 && x.part == p && (match x.ep with
    | .vf k _ => lost a.ports b.ports k
    | .mgmt n => lost a.links b.links n
    | _ => false)
  if a.enabled ∧ !b.enabled then s.beginReset p 4
  else if !a.enabled ∧ b.enabled ∧ (s.partOf p).st = 0 then s.setPart p { s.partOf p with st := 1 }
  else s

/-- The setup becomes `u` as one change (R362): the generation rises if anything changed, old setups stay for the operations
fetched under them. -/
def State.setSetup (s : State) (u : Setup) : State :=
  if u = s.part.setup then s else
  let old := s.part.setup
  let g := s.part.gen
  let hist := (mset s.part.hist g old).filter fun e => s.q.ott.any fun o => o.2.gen == e.1
  let s := { s with part := { s.part with setup := u, gen := (g + 1) % 2 ^ 32, hist := hist } }
  (List.range 64).foldl (fun s p => s.setupChanged old p) s

/-- A write of one entry of the setup (R359, R361). -/
def State.setupWrite (s : State) (ix sub n : Nat) : Wrote :=
  let u := s.part.setup.put ix sub n
  match s.setupBad u with
  | some e => .error e
  | none => .ok (s.setSetup u)

/-- The entries of a PROTECTION_BATCH applied in order (R363). -/
def batchApply (u : Setup) (b : Bytes) : Nat → Except Nat Setup
  | 0 => .ok u
  | n + 1 =>
    let i := b.length / 16 - (n + 1)
    let e := slice b (16 * i) 16
    let ix := fld e 0 2
    let sub := fld e 2 1
    if !allZero (slice e 3 5) then .error 0x0203
    else match findObj ix sub with
      | .error _ => .error 0x0104
      | .ok r =>
        if 0x2000 ≤ ix ∧ ix < 0x3000 ∧ ix % 0x40 = 1 ∧ sub = 8 then .error 0x0302
        else if !inSetup ix sub then .error 0x0104
        else if !allZero ((slice e 8 8).drop r.ty.size) then .error 0x0203
        else if ix ≥ 0x2000 ∧ sub = 5 ∧ fld e 8 1 > 3 then .error 0x0203
        else match typeBad ix r ((slice e 8 8).take r.ty.size) with
          | some c => .error c
          | none => batchApply (u.put ix sub (fld e 8 r.ty.size)) b n

/-- A write of PROTECTION_BATCH (R363). (log 31, DEDUCED) -/
def State.batchWrite (s : State) (b : Bytes) : Wrote :=
  if b.length % 16 ≠ 0 ∨ b.length = 0 ∨ b.length > 8192 then .error 0x0201 else
  match batchApply s.part.setup b (b.length / 16) with
  | .error c => .error c
  | .ok u => match s.setupBad u with
    | some c => .error c
    | none => .ok (s.setSetup u)

/-! ### Profiles and bindings (R64-R67, R193, R361) -/

/-- R66, R193: profile `n` may not be bound as it stands. -/
def State.unbindable (s : State) (n : Nat) : Bool :=
  let v := s.prof n
  let g := s.geo n
  let mul := fun (x lo hi : Nat) => lo ≤ x && x ≤ hi && x % 32 == 0
  let up := (s.blobOf (0x1300 + n) 15).length
  let pj := (s.proj n).length
  let bad := if g.latent then
      !(mul (v 5) 64 1024 && mul (v 6) 0 128 && 1 ≤ v 12 && v 12 ≤ 1024 && mul (v 13) 32 256 && mul (v 14) 32 256)
    else !(1 ≤ v 7 && v 7 ≤ 256 && 1 ≤ v 8 && v 8 ≤ v 7 && mul (v 9) 32 256 && mul (v 10) 32 256)
  bad || v 4 == 0 || v 4 > 256 || g.w > 2048 || (g.latent && up != 0 && up != g.upprojBytes) ||
    (pj != 0 && (pj != s.projBytes n || (v 4 + s.ixG n - 1) / s.ixG n * s.ixM n > 64))

/-- A write of slot `sl` of partition `p` (R67). -/
def State.bindWrite (s : State) (p sl n : Nat) : Wrote :=
  if n > 31 ∧ n ≠ 0xFF then .error 0x0202
  else if n = s.obj (pIx p 4) (sl + 1) 0xFF then .ok s
  else if s.pg.seqs.any (fun e => e.2.part == p && e.2.slot == sl) ∨
      (List.range 8).any (fun i => pMode (s.planObj p i) != 0 && fld (s.planObj p i) 34 1 % 8 == sl) then .error 0x0402
  else if n = 0xFF then .ok (s.setObj (pIx p 4) (sl + 1) n)
  else if !bit (s.part.setup.prot p).profiles n then .error 0x0306
  else if s.unbindable n then .error 0x0402
  else .ok (s.setObj (pIx p 4) (sl + 1) n)

/-! ### Firmware, the defect map and forensic reads (R433, R438, R439, R442) -/

/-- The slot an update goes to: the one of A and B that is not COMMITTED, A when neither is (R438). (log 32, DESIGN CHOICE) -/
def State.updateSlot (s : State) : Nat := if (mget s.boot.slots 0 {}).st = 4 then 1 else 0

/-- A write of FIRMWARE_UPDATE (R438): its slot is INVALID while the image goes to NOR, device 0 first, whose header is written last; the
response waits. (log 32, DESIGN CHOICE) -/
def State.firmwareWrite (s : State) (v : Bytes) : Wrote :=
  if s.boot.update.isSome then .error 0x0404
  else if s.boot.stone ∧ s.stacks.isEmpty then .error 0x0D04
  else if !allZero (slice v 20 44) then .error 0x0203
  else if !intact 25165824 v ∨ fld v 16 4 < s.boot.minEpoch then .error 0x0202
  else
    let k := s.updateSlot
    let spoil := fun (w : Slot) => { w with st := 1, copies := [[], w.copies.getD 1 []] }
    .ok { s with
      boot := { s.boot with slots := mupd s.boot.slots k {} spoil, update := some (k, v) }
      media := { s.media with syncAsk := 5 } }

/-- A write of FIRMWARE_ACTIVATE (R439). (log 32, DESIGN CHOICE) -/
def State.activateWrite (s : State) (k : Nat) : Wrote :=
  let sl := mget s.boot.slots k {}
  if k > 1 ∨ sl.st ≠ 2 then .error 0x0402
  else
    let back := fun (e : Nat × Slot) => if e.2.st = 3 then (e.1, { e.2 with st := 2 }) else e
    .ok { s with boot := { s.boot with slots := mset (s.boot.slots.map back) k { sl with st := 3 }, trials := 0 } }

/-- UNIT of a kind has its range (Table 13.11). -/
def unitOk (kind field unit : Nat) : Bool :=
  let pith := pithFields.contains field
  let rind := segFields.contains field
  match kind with
  | 1 => (pith || rind) && unit == 0
  | 2 => pith && unit < 3072
  | 3 => rind && unit < rindCount (segFields.findIdx (· == field))
  | 4 => unit < 16384 * 896
  | 5 => pith && unit < 2 ^ 21 && (unit % 65536 < 4096 || (32768 ≤ unit % 65536 && unit % 65536 < 32768 + 32))
  | 6 => pith && unit < 32
  | 7 => (pith || rind) && unit < 4
  | 8 => unit < 512
  | 9 => unit < 16
  | 0xA => unit < 1024
  | 0xB => unit < 32
  | 0xC => unit < 512
  | 0xD => unit < 128
  | 0xE => unit < 32
  | 0xF => unit % 256 < 32 && unit / 256 ≤ 4
  | _ => false

/-- A write of DEFECT_ADD (R441, R442): origin OWNER; the module sets ORIGIN, POWER_ON_COUNT and UPTIME. (log 32, DESIGN CHOICE) -/
def State.defectWrite (s : State) (v : Bytes) : Wrote :=
  let kind := fld v 0 1
  if fld v 1 1 ≥ 8 then .error 0x0203
  else if !unitOk kind (fld v 2 1) (fld v 4 4) ∨ fld v 3 1 = 0 ∨ fld v 3 1 > 7 then .error 0x0202
  else .ok (s.fault kind (fld v 2 1) (fld v 4 4) 4 (fld v 3 1) [] [])

/-- A write of FACTORY_TOKEN (R442): a good token removes the entries it names; their units return at the next start.
(log 11, DESIGN CHOICE) -/
def State.tokenWrite (s : State) (v : Bytes) : Wrote :=
  if !Config.tokenGood v s.boot.generation then .error 0x0202 else
  let gone := s.boot.defects.filter fun d => Config.tokenNames v d.bytes
  let b := s.boot
  .ok { s with boot := { b with
    defects := b.defects.filter fun d => !Config.tokenNames v d.bytes
    heldFences := b.heldFences ++ gone
    generation := (b.generation + 1) % 2 ^ 32
    mapSeq := b.mapSeq + 1 } }

/-- Dies that stone mode reaches (R433). -/
def State.forensicDie (s : State) (d : Nat) : Bool :=
  (!s.segGone 0 && d < 64) || (s.segGone 0 && 384 ≤ d && d < 448) || (768 ≤ d && d < 832)

/-- A trailer entry of a record (Table 5.4). -/
def Rec.entry (r : Rec) : Bytes :=
  leBytes 4 r.fid ++ leBytes 1 r.layer ++ leBytes 1 ((r.key.map MetaKey.kind).getD 0) ++ leBytes 2 r.off ++ leBytes 2 r.len ++
    leBytes 2 r.version.toNat ++ leBytes 4 0

/-- The trailer of punnet `no` (Table 5.3). -/
def Punnet.trailer (p : Punnet) (no : Nat) : Bytes :=
  let h := leBytes 4 0x50554E54 ++ leBytes 1 p.stream ++ leBytes 1 0 ++ leBytes 2 p.recs.length ++ leBytes 8 p.progSeq ++ leBytes 4 p.erases ++
    leBytes 4 ((p.prev.map fun b => pnDie no * 4096 + b).getD 0xFFFFFFFF) ++ leBytes 36 0
  let es := p.recs.flatMap Rec.entry
  h ++ leBytes 4 (crc32c (h ++ es)) ++ es

/-- Byte `j` of a record in flash: its header, the payload of a RAW record, zeros after the payload; `free` for a coded payload, a metadata
record and a handle, whose forms are internal (R130, R159). -/
def Rec.byte (r : Rec) (img : Bytes) (j : Nat) (free : BitVec 8) : BitVec 8 :=
  if r.key.isSome then free
  else if j < 32 then r.header.getD j 0
  else if j ≥ 32 + r.payload then 0
  else if r.format = 2 then img.getD (j - 32) 0 else free

/-- The 16,384 B page from byte `o` of punnet `no` on (Table 5.2), `raw` where its contents are open: a punnet the model does not know, an
internal form, a discarded record (R176). (log 17, DESIGN CHOICE) -/
def State.rawPage (s : State) (raw : Nat → BitVec 8) (no o : Nat) : Bytes :=
  match mget? s.media.punnets no with
  | none => (List.range 16384).map raw
  | some p =>
    let tr := p.trailer no
    let imgs := p.recs.map fun r => (r, if r.format = 2 then validImage (s.geo r.profile) r.data else [])
    (List.range 16384).map fun i =>
      let a := o + i
      if p.bad then raw i
      else if a ≥ 192512 then tr.getD (a - 192512) 0
      else match imgs.find? fun x => 16 * x.1.off ≤ a && a < 16 * (x.1.off + x.1.len) with
        | none => 0
        | some (r, img) =>
          if r.bad || s.media.discards.any (fun x => x.1 == no * 16384 + r.off) then raw i else r.byte img (a - 16 * r.off) (raw i)

/-- A write of ADDRESS (R433): the page, after decoding, and how it decoded. Pages are the wordlines' 16,384 B pages of each plane.
(log 17, DESIGN CHOICE) -/
def State.forensic (s : State) (v : Bytes) (o : ReadOutcome) : Wrote :=
  let die := fld v 0 2
  if fld v 7 1 ≥ 8 ∨ !allZero (slice v 8 8) then .error 0x0203
  else if fld v 2 2 > 3640 ∨ fld v 4 1 > 3 ∨ fld v 7 1 % 4 = 3 then .error 0x0202
  else if !s.boot.stone ∨ !s.forensicDie die then .error 0x0402
  else
    let st := match o with
      | .hard _ => 0
      | .retry _ => 1
      | .soft => 2
      | .uncorrectable => 3
      | .mismatch => 0
    let raw := fun (i : Nat) => Config.rawPage (leNat (v.take 8)) i
    let page := if st = 3 ∨ bit (fld v 7 1) 2 then (List.range 16384).map raw
      else s.rawPage raw (punnetNo die (fld v 2 2) (fld v 5 2)) (65536 * (fld v 7 1 % 4) + 16384 * fld v 4 1)
    .ok (((s.setBlob 0xE010 1 v).setBlob 0xE010 2 page).setObj 0xE010 3 st)

/-! ### Queues and the OTT (R264, R276, R279) -/

/-- A write of QUEUE_REGS: register writes in offset order; a register whose value it repeats is not written, read-only fields
are ignored. (log 35, DEDUCED) -/
def State.queueRegsWrite (s : State) (q : Nat) (b : Bytes) : Wrote :=
  let old := s.queueRegs q
  let cfg := fld b 0x10 4
  let ctl := fld b 0x14 4
  if bits cfg 5 3 ≠ 0 ∨ bits cfg 13 3 ≠ 0 ∨ bits cfg 19 1 ≠ 0 ∨ bits cfg 29 3 ≠ 0 ∨ ctl ≥ 8 ∨ fld b 0x19 1 ≠ 0 ∨
      bits (fld b 0x1C 4) 5 11 ≠ 0 ∨ fld b 0x1F 1 ≠ 0 ∨ bits (fld b 0x28 4) 18 14 ≠ 0 ∨ !allZero (slice b 0x2C 20) then .error 0x0203
  else if fld b 0x18 1 = 0 then .error 0x0202
  else
    let wr := fun (s : State) (off n : Nat) (r : QReg) => if fld b off n = fld old off n then s else s.regWrite q r (fld b off n)
    let s := wr (wr (wr s 0 8 .sqBase) 8 8 .cjBase) 0x10 4 .cfg
    let s := (s.regWrite q .intEnable ctl)
    let en := s.queue q |>.st
    let s := if bit ctl 0 ∧ en = .disabled then
        (match execQueueEnable q s with | .next t => t | _ => s)
      else if !bit ctl 0 ∧ (en = .enabled ∨ en = .error) then
        (match execQueueDisable q s with | .next t => t | _ => s)
      else s
    let s := if bit ctl 1 then s.flushQueue q 0 else s
    .ok (wr s 0x18 4 .moderation)

/-! ### Links (R500, R514, R517) -/

/-- ENABLE of link `n` is written `v` (R517, Table 16.18). -/
def State.linkEnabled (s : State) (n v : Nat) : State :=
  let s := s.setObj (lIx n 0) 1 v
  let l := s.link n
  if v = 0 then
    match l.st with
    | .up => s.linkDown n 5 .down
    | .equalise => s.setLink n { l with st := .down, reason := 5, since := s.up }
    | .exchange => s.setLink n { l with st := .down, reason := 5, since := s.up }
    | _ => s
  else if l.st = .disabled ∧ s.boot.phase ≥ 6 ∧ !s.boot.stone ∧ s.linkGood n then s.beginAttempt n 1
  else s

/-- A write of RX_CREDITS: at least 36 on every VL, 1,024 in all (R500). -/
def rxCreditsBad (b : Bytes) : Bool :=
  let v := (List.range 8).map fun i => fld b (2 * i) 2
  v.any (· < 36) || v.sum > 1024

/-! ### Every writable object -/

/-- A stored scalar or byte string takes its value. -/
def State.put (s : State) (ix sub : Nat) (r : ObjRow) (v : Bytes) : State :=
  match r.ty with
  | .domain => s.setBlob ix sub v
  | .bytes _ => s.setBlob ix sub v
  | .string n => s.setBlob ix sub (padTo v n)
  | _ => s.setObj ix sub (leNat v)

/-- Objects below 0x2000: start, dictionary, tiers, media, prefix store, index, clocks, lending. MEDIA_SYNC and SHUTDOWN_PREPARE are refused
while the media is not mounted (log 47, DESIGN CHOICE); their responses wait (R188). -/
def State.moduleWrite (s : State) (ix sub : Nat) (r : ObjRow) (v : Bytes) : Wrote :=
  let n := leNat v
  let keep : Wrote := .ok (s.put ix sub r v)
  match ix, sub with
  | 0x0800, 4 => .ok { s with boot := { s.boot with formatReq := n == 1 } }
  | 0x0810, 1 => .ok { s with boot := { s.boot with threshold := n } }
  | 0x0810, 2 => .ok (if n = 1 then { s with boot := { s.boot with fails := 0 } } else s)
  | 0x0840, 8 => s.firmwareWrite v
  | 0x0840, 9 => refuseIf s.boot.update.isSome 0x0404 (s.activateWrite n)
  | 0x1000, 1 => refuseIf s.boot.update.isSome 0x0404 <| .ok { s with boot := { s.boot with restartReq := n } }
  | 0x1010, 6 => .ok ((s.put ix sub r v).endSessions fun x => x.role == 0 && (match x.ep with
      | .mgmt k => k < 64 && !bit n k
      | _ => false))
  | 0x1010, 7 => .ok ((s.put ix sub r v).endSessions fun x => x.role == 0 && (match x.ep with
      | .mgmt k => k ≥ 64 && !bit n (k - 64)
      | _ => false))
  | 0x1100, k =>
    if 3 ≤ k ∧ k ≤ 8 then
      let t := s.put ix sub r v
      refuseIf ((List.range 3).any fun x => t.low x ≥ t.high x) 0x0202 (.ok t)
    else keep
  | 0x1200, 4 => refuseIf (n ≤ s.obj 0x1200 5 4) 0x0202 (.ok (s.diesIn.foldl State.upkeep (s.put ix sub r v)))
  | 0x1200, 6 => .ok (s.diesIn.foldl State.upkeep (s.put ix sub r v))
  | 0x1200, 5 => refuseIf (n ≥ s.obj 0x1200 4 12) 0x0202 keep
  | 0x1200, 11 => refuseIf (s.media.state != 2) 0x0402 (.ok { s with media := { s.media with syncAsk := n } })
  | 0x1200, 12 => refuseIf (s.media.state != 2) 0x0402 (.ok { s with media := { s.media with syncAsk := 2 * n } })
  | 0x1400, 4 => refuseIf (!(n < 256 || (0x8000 ≤ n && n < 0x8040))) 0x0202 (.ok (s.purge n).2)
  | 0x1800, 3 => s.batchWrite v
  | 0x1900, 1 => refuseIf (n % 25 != 0) 0x0202 keep
  | 0x1900, 2 => .ok (s.put ix sub r v).refSelected
  | 0x1902, 4 => .ok (s.timeSet n)
  | 0x1A01, 1 =>
    refuseIf (v.length % 32 != 0 || v.length > 32768) 0x0201
      (refuseIf (!s.collSetsOk v) 0x0202 (.ok ((s.put ix sub r v).setsChanged (s.blobOf 0x1A01 1))))
  | 0x1A10, 1 => let t := s.put ix sub r v; .ok (t.lendCheck 16).sendOffers
  | 0x1A10, 2 => refuseIf (n % 2 ^ 30 != 0) 0x0202 (let t := s.put ix sub r v; .ok (t.lendCheck 16).sendOffers)
  | 0x1A10, 6 => refuseIf (n % 2 ^ 30 != 0) 0x0202 (let t := s.put ix sub r v; .ok t.borrowCheck.borrow)
  | _, _ =>
    if 0x1300 ≤ ix ∧ ix < 0x1320 ∧ sub = 15 then
      refuseIf (v.length != 0 && v.length != (s.geo (ix - 0x1300)).upprojBytes) 0x0201 keep
    else if 0x1500 ≤ ix ∧ ix < 0x1600 then s.setupWrite ix sub n
    else if 0x1600 ≤ ix ∧ ix < 0x1620 then
      let old := if sub = 3 then s.blobOf ix 3 else leBytes r.ty.size (s.obj ix sub r.d)
      let t := s.put ix sub r v
      refuseIf (sub == 3 && v.length != 0 && v.length != s.projBytes (ix - 0x1600)) 0x0201
        (.ok (if old = v then t else (t.freePips fun y => y.profile == ix - 0x1600).dropJobs fun j => j.key.profile == ix - 0x1600))
    else keep

/-- Objects of partition `p` at offset `off`. -/
def State.partWrite (s : State) (p off sub : Nat) (r : ObjRow) (v : Bytes) : Wrote :=
  let n := leNat v
  let ix := pIx p off
  let keep : Wrote := .ok (s.put ix sub r v)
  match off, sub with
  | 0x00, _ => .ok (if n = 1 then s.beginReset p 3 else s)
  | 0x01, 5 => refuseIf (n > 3) 0x0203 (s.setupWrite ix sub n)
  | 0x01, _ => s.setupWrite ix sub n
  | 0x02, 2 => refuseIf (v.any fun b => b.toNat > 15) 0x0202 keep
  | 0x02, 4 =>
    let w := s.partOf p
    if w.st = 2 ∨ !w.held.contains n then .ok s else
    let s := s.setPart p { w with held := w.held.filter (· != n) }
    let s := (List.range 64).foldl (fun s q =>
      if s.jobGroup (64 * p + q) = n ∧ (s.queue (64 * p + q)).held then
        s.setQueue (64 * p + q) { s.queue (64 * p + q) with held := false }
      else s) s
    .ok (s.event 0x0013 { part := some p, params := [n] })
  | 0x04, _ => s.bindWrite p (sub - 1) n
  | 0x18, 1 => refuseIf (n < s.obj ix 2 16384) 0x0202 keep
  | 0x18, 2 => refuseIf (n > s.obj ix 1 32768) 0x0202 keep
  | 0x20, _ => s.queueRegsWrite (64 * p + (sub - 1)) v
  | 0x21, 1 => refuseIf (s.reserveSum - s.ottReserve p + n > 130048) 0x0D03 (refuseIf (n > s.ottCap p) 0x0202 keep)
  | 0x21, 2 => refuseIf (n < s.ottReserve p) 0x0202 keep
  | 0x21, 5 => refuseIf (n % 65536 != 0) 0x0202 keep
  | _, _ =>
    if 0x10 ≤ off ∧ off ≤ 0x17 then
      refuseIf (!v.isEmpty && v.length ≥ 64 && planReserved v) 0x0203 <|
      refuseIf (!s.planOk p v) 0x0202 (.ok (s.put ix sub r v))
    else keep

/-- Objects of the traffic manager. -/
def State.tmWrite (s : State) (ix sub : Nat) (r : ObjRow) (v : Bytes) : Wrote :=
  let n := leNat v
  let x := sub - 1
  if ix = 0x3000 then .ok (if n = 1 then s.histReset else s)
  else if ix = 0x3001 then s.derateSet x n
  else if ix = 0x3020 ∨ ix = 0x3021 then refuseIf (n == 3 && sub != 4) 0x0202 (.ok (s.put ix sub r v))
  else if 0x3080 ≤ ix ∧ ix < 0x3088 then s.leafWrite x 64 (ix % 8) v
  else if 0x3200 ≤ ix ∧ ix < 0x3790 then s.nodeWrite ((ix - 0x3200) / 8) (ix % 8) v
  else if 0x3800 ≤ ix ∧ ix < 0x3A00 then s.leafWrite x (ix % 0x200 / 8) (ix % 8) v
  else if 0x3E00 ≤ ix ∧ ix < 0x4000 then s.meterWrite (ix % 0x200 / 8) (ix % 8) v
  else .ok (s.put ix sub r v)

/-- The write of a value of the right type to object index:sub, whose entry is `r`. -/
def State.writeObj (s : State) (ix sub : Nat) (r : ObjRow) (v : Bytes) (o : ReadOutcome) : Wrote :=
  if ix < 0x2000 then s.moduleWrite ix sub r v
  else if ix < 0x3000 then s.partWrite ((ix - 0x2000) / 0x40) (ix % 0x40) sub r v
  else if ix < 0x4000 then s.tmWrite ix sub r v
  else if ix < 0x5000 then
    let n := (ix - 0x4000) / 0x20
    if sub = 1 then .ok (s.linkEnabled n (leNat v))
    else refuseIf (sub == 4 && rxCreditsBad v) 0x0202 (.ok (s.put ix sub r v))
  else match ix, sub with
    | 0x7110, _ => .ok (if leNat v = 1 ∧ !s.boot.stone then s.snapshot 3 0xFFFF (fun _ => true) (fun _ => false) else s)
    | 0x7200, 6 => s.defectWrite v
    | 0x7200, 7 => refuseIf s.boot.update.isSome 0x0404 (s.tokenWrite v)
    | 0xE010, _ => s.forensic v o
    | _, _ => .ok (s.put ix sub r v)

/-- The value of a persistent object, once written, goes to its configuration record; the response waits for it (R392). -/
def State.keepDurable (s : State) (ix sub : Nat) (r : ObjRow) : State :=
  let v := s.value { all := true, module := true } ix sub r
  let k := okey ix sub
  ({ s with media := { s.media with cfgSet := mset s.media.cfgSet k v, syncAsk := 3 } }).touch (.config k)

/-- A value cannot be made durable (R392): the media is not mounted, has no die, or no program is issued any more (R184). -/
def State.cannotKeep (s : State) : Bool := s.media.state != 2 || s.diesIn.isEmpty || s.pwr.fail

/-- One write, checked and applied as one change (R382-R384, R392, R410, R418). (log 19, DEDUCED) -/
def State.writeValue (s : State) (ix sub : Nat) (r : ObjRow) (v : Bytes) (o : ReadOutcome) : Wrote :=
  let outside := 0x2000 ≤ ix && ix < 0x3000 && ix % 0x40 != 1 && (ix - 0x2000) / 0x40 ≥ s.partCount
  if outside then .error 0x0405
  else if r.acc = .rws ∧ !s.stopped ix r.target then .error 0x0401
  else match typeBad ix r v with
    | some c => .error c
    | none =>
      let keep := persistent ix r
      if keep ∧ r.ty = .domain ∧ s.t2Used + v.length > s.t2UserBytes then .error 0x0D04
      else match s.writeObj ix sub r v o with
        | .error c => .error c
        | .ok t =>
          if keep then
            if s.cannotKeep then .error 0x0F02 else .ok (t.keepDurable ix sub r)
          else if ix = 0x1800 ∧ sub = 3 then
            let doms := ((List.range (v.length / 16)).map fun i => (fld v (16 * i) 2, fld v (16 * i + 2) 1)).filter fun e => e.1 < 0x1600
            if doms.isEmpty then .ok t
            else if s.cannotKeep then .error 0x0F02
            else .ok (doms.eraseDups.foldl (fun t e => match findObj e.1 e.2 with
              | .ok r => t.keepDurable e.1 e.2 r
              | .error _ => t) t)
          else .ok t

end Sys2Proof.Machine
end

