-- ==== Sys2Proof/Machine/Mount.lean ====
section
/-! DEFINITION. The media-mount phase: format (R182) and mount (R183-R187), with what the page tables, the prefix store, the tiers, the
index, the dictionary and the event log take back (R76, R106, R150, R222, R378, R393, R469). -/

namespace Sys2Proof.Machine

/-- Index:sub belongs to the start configuration (R392): its stored value lies in NOR too. (log 8, DEDUCED) -/
def isStartCfg (k : Nat) : Bool :=
  match findObj (k / 256) (k % 256) with
  | .ok r => r.target == .start
  | .error _ => false

/-! ### Format (R182) -/

/-- Superblock `b` of die `n` belongs to a root area (R167). -/
def isRootSb (n b : Nat) : Bool := rootDies.contains n && b < 2

/-- Die `n` after a format: retired superblocks and root areas are not erased, every other one is, and is free. -/
def Die.format (d : Die) (n : Nat) : Die :=
  let root : Map SuperB := if rootDies.contains n then [(0, { st := 4 }), (1, { st := 4 })] else []
  let old := d.sbs.filter fun b => b.2.st == 3
  let sbs := root.foldl (fun m e => if mhas m e.1 then m else mset m e.1 e.2) old
  let listed := sbs.foldl (fun m e => mset m e.1 (d.erase e.1)) d.erases
  { d with
    erases := listed.map fun e => (e.1, if mhas sbs e.1 then e.2 else e.2 + 1), formatted := d.formatted + 1
    sbs := sbs, lastSb := [], run := none, susp := none, queue := [] }

/-- The superblocks a format of dies `ns` erases. -/
def State.formatErases (s : State) (ns : List Nat) : Nat :=
  (ns.map fun n => 3641 - ((s.die n).format n).sbs.length).sum

/-- A start that formats: the media erased, the mapping, the root and PROGRAM_SEQ reset, persistent objects at their defaults, salts
derived anew; both triggers are consumed (R422). The root areas in service hold an empty root (log 19, DEDUCED). -/
def State.format (s : State) : State :=
  let dies := s.diesIn.foldl (fun m n => mset m n ((s.die n).format n)) s.media.dies
  let roots := (rootDies.filter s.dieGood).map fun n => { area := n, sb := 0, progSeq := 0, at_ := s.up : RootCp }
  let erased := (List.range 32).map fun g => (g, s.formatErases ((List.range 32).map (32 * g + ·) |>.filter s.dieGood))
  let s := erased.foldl (fun s e => (s.bump 0x6050 3 e.2).bump (0x6100 + e.1) 3 e.2) s
  { s with
    media := { dies := dies, metaNo := s.media.metaNo, roots := roots, rootAt := s.up, state := 2 }
    boot := { s.boot with formats := s.boot.formats + 1, fmtDone := true, formatReq := false } }

/-! ### Mount (R183, R185) -/

/-- The committed metadata records that can be read: of the punnets on dies in service whose trailers are trusted (R158). -/
def State.readableMeta (s : State) : List Rec :=
  s.media.punnets.flatMap fun p => if p.2.bad || !s.dieGood (pnDie p.1) then [] else p.2.recs.filter (·.key.isSome)

/-- The latest committed record of each metadata structure (R185), as the punnets hold it; a structure of whose latest record no copy can be
read is lost (R181). -/
def State.scanDur (s : State) : List DurMeta :=
  s.readableMeta.foldl (fun ds r =>
    match r.key with
    | none => ds
    | some k =>
      let v := if r.bad then .other else r.val
      match ds.find? fun m => m.key == k with
      | none => ds ++ [{ key := k, seqNo := r.seqNo, val := v }]
      | some m =>
        if m.seqNo > r.seqNo ∨ (m.seqNo = r.seqNo ∧ m.val ≠ .other) then ds
        else (ds.filter fun m => m.key != k) ++ [{ key := k, seqNo := r.seqNo, val := v }]) []

/-- The newest root checkpoint of an area whose die is in service (R183). -/
def State.newestRoot (s : State) : Option RootCp :=
  (s.media.roots.filter fun r => s.dieGood r.area).foldl (fun (acc : Option RootCp) r => match acc with
    | some a => if a.progSeq < r.progSeq then some r else acc
    | none => some r) none

/-- The durable value of a metadata structure. -/
def State.durVal (s : State) (k : MetaKey) : MetaVal := ((s.media.dur.find? fun m => m.key == k).map (·.val)).getD .gone

/-- The committed record at a place is discarded for good: its discard is committed, or it was invalid at once. -/
def State.discarded (s : State) (loc : Nat) : Bool :=
  s.media.discards.any fun x => x.1 == loc && (x.2 == 0 || s.media.dur.any fun m => m.key == .discards && m.seqNo ≥ x.2)

/-- The latest committed record of (fid, layer) after change number `stamp` on a die in service (R185), with its place. -/
def State.latestRec (s : State) (fid layer stamp : Nat) : Option (MapEnt × Rec) :=
  let all := s.media.punnets.flatMap fun p =>
    if p.2.at_ > stamp ∧ s.dieGood (pnDie p.1) ∧ !p.2.bad then
      (p.2.recs.filter fun r => r.key.isNone && r.fid == fid && r.layer == layer && !s.discarded (p.1 * 16384 + r.off)).map fun r =>
        (p.2.progSeq, ({ punnet := p.1, off := r.off, len := r.len, format := r.format } : MapEnt), r)
    else []
  (all.foldl (fun (acc : Option (Nat × MapEnt × Rec)) x => match acc with
    | some a => if x.1 ≥ a.1 then some x else acc
    | none => some x) none).map (·.2)

/-- A slice of a restored frame (R150, R185), PRESENT when its latest record passes CRC. -/
def restoredSlice (r : Option (MapEnt × Rec)) : Slice :=
  match r.filter (!·.2.bad) with
  | some (_, r) => {
      fill := r.data.length, st := .present, inT2 := true, lossy := r.format == 1, durableDone := true, version := r.version
      lastUse := 1 }
  | none => { st := .absent, lastUse := 1 }

/-- A committed leaf table recorded at change number `at_`: an entry whose FID went to another frame since is ABSENT (R39, R76). -/
def State.staleLeaves (s : State) (at_ : Nat) (es : Map Leaf) : Map Leaf :=
  es.map fun e => match s.durVal (.header e.2.fid) with
    | .header f _ => if f.stamp ≥ at_ ∧ e.2.st ≠ .absent then (e.1, { st := .absent }) else e
    | _ => e

/-- The leaf table of 256-block group `g` built anew after its loss (R74, R181). -/
def lostLeaves (q : Seq) (g : Nat) : Map Leaf :=
  ((List.range 256).map (256 * g + ·)).filterMap fun b => if 16 * b < q.length then some (b, { st := .absent }) else none

/-- Sequences with a LIVE committed record, with their committed leaf tables. -/
def State.liveSeqs (s : State) : Map Seq :=
  s.media.dur.foldl (fun m d => match d.key, d.val with
    | .seq n, .seq q =>
      if q.releasing then m else
      let es := s.media.dur.flatMap fun e => match e.key, e.val with
        | .leaf k _, .leaf es => if k = n then s.staleLeaves e.seqNo es else []
        | .leaf k g, .other => if k = n then lostLeaves q g else []
        | _, _ => []
      mset m n { q with leaves := es.foldl (fun m e => mset m e.1 e.2) [], pend := [] }
    | _, _ => m) []

/-- Committed directory entries, VALID again (R106). -/
def State.liveDir (s : State) : Map DirEnt :=
  s.media.dur.foldl (fun m d => match d.key, d.val with
    | .dir f, .dir e => mset m f { e with st := .valid, lastUse := 1 }
    | _, _ => m) []

/-- References of restored leaf entries to frame `fid`. -/
def refsTo (seqs : Map Seq) (fid : Nat) : Nat :=
  (seqs.map fun e => (e.2.leaves.filter fun l => l.2.fid == fid && l.2.st != .absent).length).sum

/-- The frames restored: referenced or keyed, with a header that is not FREE and a PRESENT slice; with the place of each slice. -/
def State.restoredFrames (s : State) (seqs : Map Seq) (dir : Map DirEnt) : Map (Frame × List (Nat × MapEnt)) :=
  s.media.dur.foldl (fun m d => match d.key, d.val with
    | .header fid, .header f _ =>
      let refs := refsTo seqs fid
      let keyed := mhas dir fid
      if refs = 0 ∧ !keyed then m else
      let rs := (List.range f.layers).map fun l => (l, s.latestRec fid l f.stamp)
      if rs.all fun r => (r.2.filter (!·.2.bad)).isNone then m else
      let f := { f with
        refs := refs, keyed := keyed, slices := rs.map fun r => (r.1, restoredSlice r.2), underRecount := false, condEpoch := 0
        st := if f.st = .condemned then .sealed else f.st }
      mset m fid (f, rs.filterMap fun r => (r.2.filter (!·.2.bad)).map fun x => (r.1, x.1))
    | _, _ => m) []

/-- The public pips whose source frames are all restored, in state COMPUTED (R222). -/
def State.restoredPips (s : State) (frames : Map (Frame × List (Nat × MapEnt))) : List Pip :=
  s.media.dur.flatMap fun d => match d.key, d.val with
    | .header _, .header _ ps =>
      (ps.filter fun p => p.sources.all (mhas frames ·)).map fun p => { p with st := 1, cols := [], passed := [], again := [], progAt := 0 }
    | _, _ => []

/-- A restored sequence's page table: a block whose frame did not survive is ABSENT (R76); LENGTH by R186. -/
def restoredSeq (frames : Map Frame) (q : Seq) : Seq :=
  let leaves := q.leaves.map fun e => if e.2.st != .absent && !mhas frames e.2.fid then (e.1, { st := LeafSt.absent }) else e
  let last := (leaves.filter fun e => e.2.st != .absent).getLast?
  { q with leaves := leaves, length := match last with
      | some e => 16 * e.1 + (mget frames e.2.fid {}).fill
      | none => 0 }

/-- A restore list entry (Table 5.10). -/
def restoreEnt (frames : Map Frame) (n : Nat) (q : Seq) : RestoreEnt :=
  let bad := (q.leaves.filter fun e => e.2.st == .absent || (mget frames e.2.fid {}).slices.any fun l => l.2.st == .absent).map (·.1)
  { part := q.part, seq := n, slot := q.slot, length := q.length, firstAbsent := bad.headD 0xFFFFFFFF, absentBlocks := bad.length }

/-- Inserts an event into a list in descending SEQUENCE order. -/
def insertEvent (e : Event) : List Event → List Event
  | [] => [e]
  | x :: xs => if e.seqNo ≥ x.seqNo then e :: x :: xs else x :: insertEvent e xs

/-- The events restored (R469), newest first. -/
def State.restoredEvents (s : State) : List Event :=
  let es := s.media.dur.filterMap fun d => match d.val with
    | .event e => some e
    | _ => none
  ((es.foldr insertEvent []).take 4096).map fun e => { e with restored := true }

/-- One persistent object takes a durable value; the start configuration has its own in NOR (R392). -/
def State.restoreObj (s : State) (k : Nat) (v : Bytes) : State :=
  let ix := k / 256
  let sub := k % 256
  if inSetup ix sub then { s with part := { s.part with setup := s.part.setup.put ix sub (leNat v) } }
  else if isStartCfg k then s
  else match findObj ix sub with
    | .ok r => if r.ty.scalar then s.setObj ix sub (leNat v) else s.setBlob ix sub v
    | .error _ => s

/-- Persistent objects take their last durable values (R393, R378). -/
def State.restoreCfg (s : State) : State :=
  s.media.dur.foldl (fun s d => match d.key, d.val with
    | .config k, .config v => s.restoreObj k v
    | _, _ => s) s

/-- A start without format mounts the media: the newer valid root, the trailers committed since, and the latest records (R183). -/
def State.mount (s : State) : State :=
  let s := { s with media := { s.media with dur := s.scanDur } }
  let seqs := s.liveSeqs
  let dir := s.liveDir
  let full := s.restoredFrames seqs dir
  let frames := full.map fun e => (e.1, e.2.1)
  let seqs := seqs.map fun e => (e.1, restoredSeq frames e.2)
  let map := full.foldl (fun m e => e.2.2.foldl (fun m x => mset m (256 * e.2.1.slot + x.1) x.2) m) ([] : Map MapEnt)
  let pips := s.restoredPips full
  let ids := List.range pips.length
  let dir := dir.filter fun e => mhas frames e.1
  let ents := seqs.map fun e => restoreEnt frames e.1 e.2
  let slices := frames.flatMap fun e => e.2.slices
  let root := (s.newestRoot.map (·.progSeq)).getD 0
  let seqNos := (s.media.punnets.filter fun p => s.dieGood (pnDie p.1) && !p.2.bad).map (·.2.progSeq)
  let outcome := [seqs.length, frames.length, (slices.filter fun l => l.2.st == .present).length,
    (slices.filter fun l => l.2.st == .absent).length, (seqNos.filter (root ≤ ·)).length, seqNos.foldl max 0]
  let evs := s.restoredEvents
  let m := s.media
  let media := { m with
    map := map, state := 2, lastShutdown := if m.quiesced then 1 else 2, quiesced := false, restored := outcome, restoreList := ents
    rootAt := s.up }
  { s.restoreCfg with
    pg := { seqs := seqs, frames := frames }
    px := { s.px with dir := dir, epoch := 1 }
    ix := { s.ix with pips := ids.zip pips, nextId := pips.length }
    media := media
    ev := { s.ev with log := s.ev.log ++ evs } }

/-- The structures that a mount found and could not restore as they were are recorded anew (R76). -/
def State.mountTouch (old s : State) : State :=
  let changed := old.media.dur.filterMap fun d => match d.key, d.val with
    | .header f, .header _ _ => if mhas s.pg.frames f then none else some d.key
    | .dir f, .dir _ => if mhas s.px.dir f then none else some d.key
    | .seq _, .seq _ => if s.metaVal d.key = d.val then none else some d.key
    | .leaf _ _, .leaf _ => if s.metaVal d.key = d.val then none else some d.key
    | _, _ => none
  changed.foldl State.touch s

/-- The media-mount phase (R182, R183). -/
def State.mediaMount (s : State) : State := if s.boot.formatting then s.format else s.mountTouch s.mount

end Sys2Proof.Machine
end

