-- ==== Sys2Proof/Machine/Start.lean ====
section
/-! DEFINITION. Starts (R421-R446): what a start finds and clears, its phases, its records, image selection and stone mode. -/

namespace Sys2Proof.Machine

/-! ### What a start clears (R366, R319, R257, R287, R348, R378, R393, R413, R463, R478, R489) -/

/-- Counters held in NOR (R447, R478, R564). -/
def norCtr (k : Nat) : Bool := k == okey 0x0830 3 || k == okey 0x1B01 2 || k == okey 0x1B01 3

/-- The default protection records (Table 11.4, R360) for `n` partitions and a frame table of `entries`. -/
def defaultProts (n entries : Nat) : Map Prot :=
  (List.range n).map fun p =>
    (p, { enabled := true, links := 2 ^ (128 * (p + 1) / n) - 2 ^ (128 * p / n), quota := entries / n })

/-- A die without what was in progress on it. -/
def Die.idle (d : Die) : Die := { d with run := none, susp := none, queue := [] }

/-- What a power loss or a restart leaves: NOR, flash, straps and pins, host memory, the sensors' last samples; all else at its reset value.
(log 25, DEDUCED; log 44, DESIGN CHOICE) -/
def State.wiped (s : State) : State :=
  let m := s.media
  let media : Media := {
    dies := m.dies.map fun e => (e.1, e.2.idle), punnets := m.punnets, map := m.map, progSeq := m.progSeq, rotate := m.rotate
    roots := m.roots, metaNo := m.metaNo, dur := m.dur, discards := m.discards
    quiesced := m.quiesced, lastShutdown := m.lastShutdown }
  let b := s.boot
  let boot := { b with
    stone := false, phase := 0, ready := false, heldFences := [], restartReq := 0, update := none, formatting := false, stoneCause := 0, startAt := s.up
    phaseAt := s.up, readyAt := 0, times := [], failed := false, waiting := false }
  let p := s.pwr
  { pending := s.pending, free := s.free, out := s.out, up := s.up
    cfg := s.cfg.filter fun e => isStartCfg e.1
    ctr := s.ctr.filter fun e => norCtr e.1
    mem := { s.mem with windows := [] }
    media := media
    boot := boot
    clk := { crystal := s.clk.crystal, since := some s.up, boundSince := s.up }
    pxb := s.pxb
    pwr := { rails := p.rails, fail := p.fail, failAt := p.failAt, tripped := p.tripped, readings := p.readings, perst := p.perst, tap := p.tap, sampleAt := s.up } }

/-! ### Images (R437, R439) -/

/-- Slot `k` can be booted: intact in a readable device. -/
def State.bootable (s : State) (k : Nat) : Bool := if k = 2 then bit s.boot.nor 0 || bit s.boot.nor 1 else (s.image k).isSome

/-- The candidates of an automatic start, in order. -/
def State.imageOrder (s : State) : List Nat :=
  let is := fun (st k : Nat) => s.slotState k == st
  let valid := ([0, 1].filter (is 2))
  let valid := if valid.length = 2 ∧ s.slotVersion 1 > s.slotVersion 0 then [1, 0] else valid
  [0, 1].filter (is 3) ++ [0, 1].filter (is 4) ++ valid ++ [2]

/-- Slots tried before the one found are marked INVALID. -/
def State.spoilSlots (s : State) (ks : List Nat) : State :=
  ks.foldl (fun s k => if k = 2 then s else
    { s with boot := { s.boot with slots := mupd s.boot.slots k {} fun v => { v with st := 1 } } }) s

/-- Selects the image of a start. (log 32, DESIGN CHOICE) -/
def State.selectImage (s : State) : Option Nat × State :=
  match bits s.boot.straps 10 2 with
  | 0 =>
    let ks := s.imageOrder
    (ks.find? s.bootable, s.spoilSlots (ks.takeWhile fun k => !s.bootable k))
  | v => (if s.bootable (v - 1) then some (v - 1) else none, s)

/-- The TRIAL slot is REJECTED. (log 32, DESIGN CHOICE) -/
def State.rejectTrial (s : State) : State :=
  { s with boot := { s.boot with
    slots := s.boot.slots.map fun e => if e.2.st = 3 then (e.1, { e.2 with st := 5 }) else e, trials := 0 } }

/-! ### Start records (R428) -/

/-- Changes the latest attempt entry; its ELAPSED is brought up to date. -/
def State.attempt (s : State) (f : Attempt → Attempt) : State :=
  match s.boot.attempts with
  | [] => s
  | a :: as => { s with boot := { s.boot with attempts := { f a with elapsed := (s.up - s.boot.startAt) / 1000000 } :: as } }

/-- What the previous attempt's end means (Table 13.3, R439): one IN_PROGRESS was interrupted, and counts unless it was a stone-mode start
(R429); a TRIAL one that was READY did not
settle. -/
def State.closeAttempt (s : State) : State :=
  match s.boot.attempts with
  | [] => s
  | a :: as =>
    if a.outcome = 0 then
      let s := { s with boot := { s.boot with
        attempts := { a with outcome := 3, reason := a.phase * 256 + 0xFE } :: as
        fails := if a.stone then s.boot.fails else min 255 (s.boot.fails + 1) } }
      if a.trial then s.rejectTrial else s
    else if a.outcome = 1 ∧ a.trial then
      if s.boot.trials + 1 ≥ 3 then s.rejectTrial else { s with boot := { s.boot with trials := s.boot.trials + 1 } }
    else s

/-- A failure (R424): recorded, counted outside stone mode; the module restarts 1 s later. (log 32, DESIGN CHOICE) -/
def State.failStart (s : State) (phase reason detail : Nat) : State :=
  let trial := (s.boot.attempts.head?.map (·.trial)).getD false
  let s := s.attempt fun a => { a with outcome := 3, phase := phase, reason := reason, detail := detail }
  let b := s.boot
  let s := { s with boot := { b with
    fails := if b.stone then b.fails else min 255 (b.fails + 1), failed := true, phaseAt := s.up, stoneNext := b.stone } }
  if trial then s.rejectTrial else s

/-! ### A start begins -/

/-- STONE_CAUSE (R429): strap, threshold or RESTART = 2, the first that holds. (log 32, DESIGN CHOICE; log 33, DEDUCED) -/
def State.stoneWhy (s : State) : Nat :=
  if bit s.boot.straps 15 then 2 else if s.boot.fails ≥ s.boot.threshold then 1 else if s.boot.stoneNext then 3 else 0

/-- Values of the start configuration, derived objects and defaults that hold from a start on (R26, R354, R360, R378, R449).
(log 8, DEDUCED) -/
def State.applyStart (s : State) : State :=
  let entries := s.obj 0x1320 1 33554432
  let n := s.boot.partCount
  let stone := s.boot.stone
  let parts : Map Part := if stone then [] else (List.range n).map fun p => (p, { st := 1 })
  { s with
    boot := { s.boot with frameEntries := entries, t0Reserve := s.obj 0x1100 2 16 }
    px := { s.px with widths := (List.range 8).map fun i => s.obj 0x1410 (i + 1) 2, hole := s.obj 0x1400 1 32 }
    clk := { s.clk with freq := if stone then 750 else s.obj 0x1900 1 1500 }
    part := { s.part with setup := { prots := defaultProts n entries }, parts := parts } }

/-- The SEQUENCE of the first event of a start (R469). -/
def State.firstEvent (s : State) : Nat :=
  if s.boot.stone ∨ s.boot.formatting then 1 else ((s.restoredEvents.head?.map (·.seqNo)).getD 0) + 1

/-- A start begins at power-good, with NOR and start controllers as given (R35, R428, R437, R446). `s` is already wiped. -/
def State.beginStart (s : State) (nor ctl : Nat) : State :=
  let s := { s with boot := { s.boot with nor := nor % 4, ctl := ctl % 4 } }
  if nor % 4 = 0 ∨ ctl % 4 = 0 then { s with boot := { s.boot with waiting := true } } else
  let s := s.closeAttempt
  let why := s.stoneWhy
  let stone := decide (why ≠ 0)
  let fmt := !stone && ((bit s.boot.straps 12 && !s.boot.fmtDone) || s.boot.formatReq)
  let (img, s) := s.selectImage
  let k := img.getD 2
  let b := s.boot
  let starts := min (2 ^ 32 - 1) (b.starts + 1)
  let a : Attempt := {
    no := starts, powerOns := b.powerOns, image := k, trial := s.slotState k == 3, stone := stone, alternate := s.altStart
    format := fmt, version := s.slotVersion k }
  let s := { s with boot := { b with
    starts := starts, stone := stone, stoneCause := why, stoneNext := false, formatting := fmt, running := k, phase := 1
    attempts := (a :: b.attempts).take 8 } }
  let s := if stone then s.bump 0x0830 3 else s
  let s := s.applyStart
  let s := { s with ev := { s.ev with next := s.firstEvent } }
  let s := if nor % 4 = 3 then s else s.event 0x0061 { params := [if nor % 4 = 1 then 1 else 0] }
  if img.isNone then s.failStart 1 0x0102 0 else s

/-- A module restart (R366, R420): everything but the straps starts anew. -/
def State.restart (s : State) : State := (s.wiped).beginStart s.boot.nor s.boot.ctl

/-- PARTITION_COUNT of a strap word (Table 13.1). -/
def strapParts (w : Nat) : Nat := if bits w 7 3 = 7 then 1 else 2 ^ bits w 7 3

/-- POWER_ON_RESET (R421, R422, R562): power-on reset deasserts; the straps are latched and a start begins.
(log 44, DESIGN CHOICE) -/
def execPowerOnReset (straps nor ctl : Nat) (s : State) : Res :=
  .next <|
    let w := straps % 2 ^ 18
    let s := s.wiped
    let b := s.boot
    let s := { s with
      boot := { b with
        straps := w, pins := w, partCount := strapParts w, fmtDone := false, powerOns := min (2 ^ 32 - 1) (b.powerOns + 1)
        stoneNext := false }
      pwr := { s.pwr with rails := true, fail := false, tripped := false } }
    let s := s.beginStart nor ctl
    if bits w 7 3 = 7 ∧ !s.boot.waiting then s.event 0x0060 { params := [w] } else s

/-- NOR_RETRY (R446): once per second, while no start could begin. -/
def execNorRetry (nor ctl : Nat) (s : State) : Res :=
  .next <| if s.boot.waiting then
      let s := s.timeTo (s.boot.phaseAt + sec 1)
      let b := s.boot
      { s with boot := { b with waiting := false, phaseAt := s.up } }.beginStart nor ctl
    else s

/-! ### Phases (R423, R430) -/

/-- The phase after `p`; in stone mode media-mount and link-train are left out. -/
def nextPhase (stone : Bool) (p : Nat) : Nat := if stone ∧ p = 4 then 7 else p + 1

/-- The next phase begins; PHASE_TIME and the attempt entry are brought up to date. -/
def State.advance (s : State) : State :=
  let p := s.boot.phase
  let n := nextPhase s.boot.stone p
  let b := s.boot
  let s := { s with boot := { b with
    phase := if b.stone ∧ p = 7 then 7 else n, times := mset b.times p ((s.up - b.phaseAt) / 1000000), phaseAt := s.up } }
  s.attempt fun a => { a with phase := s.boot.phase }

/-- What media-mount cannot trust (R158, R185): the punnet numbered `unit` (kind 0x40), whose trailer fails, or the record at place `unit`
(kind 0x41), which fails its CRC. The kinds are this model's (log 32, DESIGN CHOICE). -/
def State.distrust (s : State) (kind unit : Nat) : State :=
  let m := s.media
  let mark := fun (p : Punnet) => if kind = 0x40 then { p with bad := true }
    else { p with recs := p.recs.map fun r => if r.off = unit % 16384 then { r with bad := true } else r }
  { s with media := { m with punnets := mmod m.punnets (if kind = 0x40 then unit else unit / 16384) mark } }

/-- A unit the start found bad is fenced (R441): origin 1; media-mount also finds punnets and records that it cannot trust. -/
def State.fenceFound (s : State) (f : Sys2Proof.Found) : State :=
  if f.kind = 0x40 ∨ f.kind = 0x41 then (if s.boot.phase = 5 then s.distrust f.kind f.unit else s)
  else if s.covered f.kind f.field f.unit then s else (s.fence f.kind f.field f.unit 1 f.reason).bump 0xE000 3


/-- R427: what a normal start requires. -/
def State.enough (s : State) : Bool :=
  (((List.range 112).filter fun f => !s.fieldFenced f).length ≥ 16) && s.stacks.length ≥ 2 && !s.banks.isEmpty &&
    ((!s.segGone 0 && s.canNode != 0) || s.pcieGood 0 || s.pcieGood 1)

/-- Every link is trained, down or out of service. -/
def State.trained (s : State) : Bool := s.lk.links.all fun e => e.2.st != .equalise && e.2.st != .exchange

/-- Link-train begins: every enabled link in service begins its first attempt (Table 16.18). -/
def State.trainLinks (s : State) : State :=
  (List.range 128).foldl (fun s n =>
    if s.linkGood n then (if s.obj (lIx n 0) 1 1 = 1 then s.beginAttempt n 1 else s)
    else s.setLink n { s.link n with st := .fenced }) s

/-- Link `n` grants RX_CREDITS at dictionary-ready (R522). -/
def State.grantCredits (s : State) (n : Nat) : State :=
  if (s.link n).st = .up then
    let lim := (List.range 8).map fun v => (v, (mget (s.link n).rxLimit v 0 + s.rxCredits n v) % 65536)
    (s.setLink n { s.link n with rxLimit := lim, rxShare := s.grants n }).sendCredit n
  else s

/-- Arrays whose calibration trips start SUSPECT (R222). (log 40, DEDUCED) -/
def State.calibrateAll (s : State) : State :=
  let bad := s.arraysIn.filter s.calTrips
  let s := { s with ix := { s.ix with arrays := bad.map fun a => (a, { st := 1, suspects := [s.up] }), calAt := s.up } }
  (s.bump 0x6060 0x0F s.arraysIn.length).bump 0x6060 0x10 bad.length

/-- CAPACITY and RATIO are derived (R348). -/
def State.deriveTm (s : State) : State :=
  let rs := (List.range 178).filterMap fun x => if s.ratioOf x = 32768 then none else some (x, s.ratioOf x)
  { s with tm := { s.tm with ratio := rs } }

/-- Dictionary-ready (R413, R425, R426, R522, R106, R222): the module is in service, or ready in stone mode. -/
def State.dictionaryReady (s : State) : State :=
  let s := if s.boot.stone then s else s.calibrateAll
  let s := { s with boot := { s.boot with ready := true, readyAt := s.up } }
  let s := s.deriveTm.markRefill fun _ => true
  let s := (s.lk.links.map (·.1)).foldl State.grantCredits s
  s.attempt fun a => { a with outcome := 1 }

/-- Once port `k`'s link is up the host sets VF Enable with the NumVFs it chooses, 0 to TotalVFs (R355, R425): a free value. In stone mode
no virtual function serves (R36). (log 9, DESIGN CHOICE) -/
def State.enableVfs (s : State) (k : Nat) : State :=
  let (n, s) := s.takeFree
  s.setPort k { s.portOf k with vfs := if s.boot.stone then 0 else Config.numVfs n % (s.boot.partCount + 1) }

/-- The ports whose PERSTk_N is high train (R425, R562). (log 9, DESIGN CHOICE) -/
def State.portsUp (s : State) : State := s.pwr.perst.foldl State.enableVfs s

/-- What the completion of phase `p` leaves, before the next phase begins; `.error` names the failure's reason. (log 33, DEDUCED) -/
def State.phaseDone (s : State) (p : Nat) : Except Nat State :=
  let stone := s.boot.stone
  match p with
  | 2 => .ok (({ s with now := 0 }).portsUp)
  | 3 => if !stone ∧ !s.enough then .error 0x0302 else .ok s
  | 4 =>
    if stone then .ok s
    else if s.stacks.length < 2 then .error 0x0401
    else if s.t1Structures > s.t1Bytes then .error 0x0402
    else .ok { s with media := { s.media with state := 1 } }
  | 5 => if !s.boot.formatting ∧ s.newestRoot.isNone then .error 0x0501 else .ok s.mediaMount.trainLinks
  | 7 => .ok s.dictionaryReady
  | _ => .ok s

/-- The criterion of phase `p` that the model sees holds: the mesh is LOCKED (R463), the links have trained (Table 13.2).
(log 32, DESIGN CHOICE) -/
def State.criterion (s : State) (p : Nat) : Bool :=
  match p with
  | 2 => s.boot.stone || s.clk.mesh == .locked
  | 6 => s.trained
  | _ => true

/-- START_PHASE_COMPLETE (R423, R424, R430): the phase under way ends, early with a `reason` of Table 13.4, or with the units it
`found` bad; `detail` names the unit a failure concerns. (log 32, DESIGN CHOICE) -/
def execStartPhaseComplete (found : List Sys2Proof.Found) (reason detail : Nat) (s : State) : Res :=
  .next <|
    let p := s.boot.phase
    if p = 0 ∨ p ≥ 8 ∨ s.boot.failed ∨ s.boot.ready then s
    else
      let s := found.foldl State.fenceFound s
      if reason ≠ 0 ∧ reason / 256 = p then s.failStart p reason detail
      else if !s.criterion p then s
      else match s.phaseDone p with
        | .ok t => t.advance
        | .error e => s.failStart p e detail

/-- The budget of phase `p` in ms (Table 13.2). -/
def budget (formatting : Bool) (p : Nat) : Nat :=
  match p with
  | 1 => 500
  | 2 => 100
  | 3 => 3000
  | 4 => 2000
  | 5 => if formatting then 90000 else 40000
  | 6 => 2000
  | _ => 1000

/-- START_PHASE_BUDGET_EXPIRY (R424). -/
def execStartPhaseBudgetExpiry (s : State) : Res :=
  .next <|
    let p := s.boot.phase
    if p = 0 ∨ p ≥ 8 ∨ s.boot.failed ∨ s.boot.ready then s
    else (s.timeTo (s.boot.phaseAt + ms (budget s.boot.formatting p))).failStart p (p * 256 + 0xFF) 0

/-- START_FAIL_RESTART (R424): 1 s after a failed start. -/
def execStartFailRestart (s : State) : Res :=
  .next <| if s.boot.failed then (s.timeTo (s.boot.phaseAt + sec 1)).restart else s

/-- The TRIAL slot is COMMITTED, the COMMITTED one VALID; MIN_EPOCH rises (R439). -/
def State.commitTrial (s : State) : State :=
  let b := s.boot
  let k := b.running
  if (mget b.slots k {}).st ≠ 3 then s else
  let up := fun (e : Nat × Slot) => if e.1 = k then (e.1, { e.2 with st := 4 }) else if e.2.st = 4 then (e.1, { e.2 with st := 2 }) else e
  { s with boot := { b with
    slots := b.slots.map up, trials := 0, minEpoch := max b.minEpoch (((s.image k).map fun v => fld v 16 4).getD 0) } }

/-- START_SETTLE (Table 13.3): 60 s of continuous in-service. -/
def execStartSettle (s : State) : Res :=
  .next <|
    if s.boot.phase = 8 ∧ (s.boot.attempts.head?.map (·.outcome)) = some 1 then
      let s := s.timeTo (s.boot.readyAt + sec 60)
      let trial := (s.boot.attempts.head?.map (·.trial)).getD false
      let s := s.attempt fun a => { a with outcome := 2 }
      let s := { s with boot := { s.boot with fails := 0 } }
      if trial then s.commitTrial else s
    else s

end Sys2Proof.Machine
end

