-- ==== Sys2Proof/Machine/Requests.lean ====
section
/-! DEFINITION. ZDP requests (R386-R415): who is answered, in which order a request is checked, rights, the services of Table 12.5,
watches and segmented transfers. -/

namespace Sys2Proof.Machine

/-! ### Transports (R402-R407, R413, R415) -/

/-- Payload limit of a transport (Table 12.7). -/
def payloadLimit : Endpoint → Nat
  | .can _ => 54
  | .pf _ => 2024
  | .vf _ _ => 2024
  | .mgmt _ => 8192

/-- The module takes requests from endpoint `e` now (R403, R413, R415, R425, R431); with S0 fenced, through PCIe only (R35). (log 31, DEDUCED) -/
def State.answers (s : State) (e : Endpoint) : Bool :=
  let ph := s.boot.phase
  let open_ := if s.boot.stone then ph ≥ 7 else ph ≥ 6
  match e with
  | .can n => open_ && !s.canSilent && 1 ≤ n && n < 128 && n != s.canNode
  | .pf k => open_ && k < 2 && s.pcieGood k && (!s.boot.stone || k == 0)
  | .vf k p => s.boot.ready && !s.boot.stone && k < 2 && s.hasVf k p && s.pcieGood k
  | .mgmt n => s.boot.ready && !s.boot.stone && n < 128 && !s.segGone 0

/-! ### Rights (R386-R390) -/

/-- OBSERVER's partition set (R388). (log 31, DEDUCED) -/
def State.observed (s : State) (e : Endpoint) : Nat :=
  match e with
  | .vf _ p => 2 ^ p
  | _ => s.obj 0x1010 4 0
/-- What a session sees of logs and snapshots (R388, R468, R473). -/
def State.scopeOf (s : State) (x : Session) : Scope :=
  match x.role with
  | 0 => { all := true, module := true }
  | 1 => { parts := 2 ^ x.part, module := true }
  | _ => { parts := s.observed x.ep, module := s.obj 0x1010 5 1 == 1 }

/-- The session may read object `ix` of entry `r` (R388). -/
def State.mayRead (s : State) (x : Session) (ix : Nat) (r : ObjRow) : Bool :=
  let c := s.scopeOf x
  x.role == 0 || (!r.ownRead && (match ownerPart ix, ownerLink ix with
    | some p, _ => c.part p
    | none, some n => (List.range 64).any fun p => c.part p && s.part.setup.hasLink p n
    | none, none => c.module))

/-- The abort code that refuses a read, or the object's entry (R383, R388). (log 31, DEDUCED) -/
def State.checkRead (s : State) (x : Session) (ix sub : Nat) : Except Nat ObjRow :=
  match findObj ix sub with
  | .error c => .error c
  | .ok r => if r.acc = .wo then .error 0x0301 else if !s.mayRead x ix r then .error 0x0304 else .ok r

/-- The abort code that refuses a write, or the object's entry (R387, R389, R415, R432). (log 31, DEDUCED) -/
def State.checkWrite (s : State) (x : Session) (ix sub : Nat) : Except Nat ObjRow :=
  match findObj ix sub with
  | .error c => .error c
  | .ok r =>
    let can : Bool := match x.ep with
      | .can _ => true
      | _ => false
    if !r.writable then .error 0x0302
    else if !(x.role == 0 || (x.role == 1 && adminWrites ix r && ownerPart ix == some x.part)) then .error 0x0303
    else if x.role = 0 ∧ bit s.boot.straps 13 ∧ !can then .error 0x0305
    else if s.boot.stone ∧ !stoneWritable ix sub then .error 0x0403
    else .ok r

/-- Table 12.3: the endpoint permits the role. -/
def State.permits (s : State) (e : Endpoint) (role p : Nat) : Bool :=
  match e with
  | .can _ => true
  | .pf _ => role != 1
  | .vf k q => role == 2 || (role == 1 && p == q && bit (s.part.setup.prot p).ports k)
  | .mgmt n =>
    if role = 0 then (if n < 64 then bit (s.obj 0x1010 6 0) n else bit (s.obj 0x1010 7 0) (n - 64))
    else role == 2 || s.part.setup.hasLink p n

/-! ### Watches (R400, R401) -/

/-- A write applied to an object triggers its watches in every session. -/
def State.trigger (s : State) (ix sub : Nat) : State :=
  let hit := fun (w : Watch) => if w.index = ix ∧ w.sub = sub then { w with changes := min (2 ^ 32 - 1) (w.changes + 1) } else w
  { s with dict := { s.dict with sessions := s.dict.sessions.map fun x => { x with watches := x.watches.map hit } } }

/-! ### Answers -/

/-- What a request's service answers: an abort code, or 0 with a payload and LAST; and the state after it. -/
structure Ans where
  st : State
  code : Nat := 0
  payload : Bytes := []
  last : Bool := false

/-- The service refuses with a code. -/
def refuse (s : State) (c : Nat) : Ans := { st := s, code := c }

/-- A RESTART written takes effect after its response (R420). -/
def State.restartIfAsked (s : State) : State :=
  match s.boot.restartReq with
  | 0 => s
  | 1 => s.restart
  | _ => { s with boot := { s.boot with stoneNext := true } }.restart

/-- Sends what a service answers: the response, which a write may have wait (R188, R392), or an abort response (R394). -/
def Ans.send (a : Ans) (z : Zdp) (svc ix sub : Nat) : State :=
  let s := a.st
  if a.code ≠ 0 then s.abort z.ep svc z.tag ix sub a.code
  else
    let msg := zdpMsg (svc + 0x80) z.tag ix sub a.last a.payload
    if s.media.syncAsk = 0 then ((s.bump 0x60A0 1).zdpSend z.ep msg).restartIfAsked else s.syncBegin (some z.ep) msg

/-! ### The order of checks before a service (R394, R395, R399, R403, R404, R413) -/

/-- A read transfer that has sent its last segment is over. -/
def Xfer.over (v : Xfer) : Bool := !v.write && v.last

/-- Objects that may be read before dictionary-ready (R413). (log 31, DEDUCED) -/
def earlyRead (ix : Nat) : Bool := ix == 0x0100 || ix == 0x0130 || (0x0800 ≤ ix && ix ≤ 0x08FF)

/-- The request of a session reaches its service, or is refused before it. SEG_DATA and SEG_END of the open transfer pass; another
request closes a read transfer that is over, and is refused while a transfer is open. (log 31, DEDUCED) -/
def State.gate (s : State) (z : Zdp) (svc ix sub : Nat) (body : Session → State → Ans) : Ans :=
  if z.short then refuse s 0x0E05 else
  match s.session? z.ep with
  | none => refuse s 0x0E04
  | some _ =>
    if s.owes z.ep ∧ svc ≠ 0x24 then refuse s 0x0E08 else
    let s := s.modSession z.ep fun x => { x with lastAt := s.up }
    if !s.boot.ready ∧ svc ≠ 0x02 ∧ !(svc = 0x10 ∧ earlyRead ix) then refuse s 0x0406 else
    match s.session? z.ep with
    | none => refuse s 0x0E04
    | some x => match x.xfer with
      | none => body x s
      | some v =>
        let own := (svc = 0x22 ∨ svc = 0x23 ∨ svc = 0x24) ∧ v.index = ix ∧ v.sub = sub
        if own ∧ ¬ (v.over ∧ svc ≠ 0x22) then body x s
        else if v.over then
          let s := s.modSession z.ep fun x => { x with xfer := none }
          body { x with xfer := none } s
        else refuse s 0x0E08

/-! ### Services -/

/-- OPEN (R386, R407, R414). -/
def State.openSession (s : State) (z : Zdp) (role p : Nat) : Ans :=
  let cans := (s.dict.sessions.filter fun x => match x.ep with
    | .can _ => true
    | _ => false).length
  let isCan : Bool := match z.ep with
    | .can _ => true
    | _ => false
  if z.short then refuse s 0x0E05
  else if (s.session? z.ep).isSome then refuse s 0x0D01
  else if role > 2 then refuse s 0x0202
  else if role = 1 ∧ (p ≥ s.partCount ∨ (s.partOf p).st ≠ 1) then refuse s 0x0405
  else if role ≠ 1 ∧ p ≠ 0 then refuse s 0x0203
  else if !s.permits z.ep role p then refuse s 0x0303
  else if isCan ∧ cans ≥ 16 then refuse s 0x0D01
  else
    match (List.range 256).find? fun i => !(s.dict.sessions.any fun x => x.num == i) with
    | none => refuse s 0x0D01
    | some i =>
      let x : Session := { ep := z.ep, role := role, part := p, num := i, lastAt := s.up }
      { st := { s with dict := { s.dict with sessions := s.dict.sessions ++ [x] } }, payload := leBytes 1 i }

/-- DESCRIBE (Table 12.5): type, access, default source, flags, size. -/
def State.describeObj (s : State) (ix sub : Nat) (x : Session) : Ans :=
  match findObj ix sub with
  | .error c => refuse s c
  | .ok r =>
    if !s.mayRead x ix r then refuse s 0x0304 else
    let ownOnly := r.writable && !(adminWrites ix r)
    let flags := b2n ownOnly + 2 * b2n (persistent ix r) + 4 * b2n (!r.ctr && r.ty != .domain) + 8 * b2n r.ownRead
    { st := s
      payload := leBytes 1 r.ty.code ++ leBytes 1 r.acc.code ++ leBytes 1 r.src ++ leBytes 1 flags ++ leBytes 4 r.ty.size }

/-- READ (R385, R396). -/
def State.readObj (s : State) (ix sub : Nat) (x : Session) : Ans :=
  match s.checkRead x ix sub with
  | .error c => refuse s c
  | .ok r =>
    if r.ty = .domain ∨ r.ty.size > payloadLimit x.ep then refuse s 0x0204
    else { st := s.clearRead ix sub, payload := s.value (s.scopeOf x) ix sub r }

/-- A write of object index:sub is applied, and triggers its watches (R382, R401). -/
def State.applyWrite (s : State) (ix sub : Nat) (r : ObjRow) (v : Bytes) (o : ReadOutcome) : Ans :=
  match s.writeValue ix sub r v o with
  | .error c => refuse s c
  | .ok t => { st := t.trigger ix sub }

/-- A segmented write of the object is open in some session. -/
def State.segOpen (s : State) (ix sub : Nat) : Bool :=
  s.dict.sessions.any fun x => x.xfer.any fun v => v.write && v.index == ix && v.sub == sub

/-- WRITE (R382, R396, R410). -/
def State.writeReq (s : State) (ix sub : Nat) (v : Bytes) (o : ReadOutcome) (x : Session) : Ans :=
  match s.checkWrite x ix sub with
  | .error c => refuse s c
  | .ok r =>
    if r.ty = .domain ∨ r.ty.size > payloadLimit x.ep then refuse s 0x0204
    else if s.segOpen ix sub then refuse s 0x0404
    else s.applyWrite ix sub r v o

/-- A TOTAL that the object's entry forbids (R398). -/
def State.totalBad (s : State) (ix sub : Nat) (r : ObjRow) (total : Nat) : Bool :=
  match r.ty with
  | .domain =>
    if ix = 0x0840 then total > 25165824
    else if ix = 0x1800 then total > 8192 || total % 16 != 0
    else if ix = 0x1A01 then total > 32768 || total % 32 != 0
    else if 0x1300 ≤ ix ∧ ix < 0x1320 then total != 0 && total != (s.geo (ix - 0x1300)).upprojBytes
    else if 0x1600 ≤ ix ∧ ix < 0x1620 then total != 0 && total != s.projBytes (ix - 0x1600)
    else sub == 256
  | .string n => total > n
  | t => total != t.size

/-- A whole segmented write at once: what INIT, segments and SEG_END check and apply (R398). -/
def State.writeWhole (s : State) (ix sub : Nat) (v : Bytes) (x : Session) : Ans :=
  match s.checkWrite x ix sub with
  | .error c => refuse s c
  | .ok r =>
    if s.totalBad ix sub r v.length then refuse s 0x0201
    else if s.segOpen ix sub then refuse s 0x0404
    else s.applyWrite ix sub r v (.hard false)

/-- SEG_READ_INIT (R397): a snapshot, its length and its CRC-32C. -/
def State.segReadInit (s : State) (z : Zdp) (ix sub : Nat) (x : Session) : Ans :=
  match s.checkRead x ix sub with
  | .error c => refuse s c
  | .ok r =>
    let v := s.value (s.scopeOf x) ix sub r
    let w : Xfer := { index := ix, sub := sub, write := false, total := v.length, data := v, at_ := s.up }
    { st := (s.clearRead ix sub).modSession z.ep fun x => { x with xfer := some w, aborted := none }
      payload := leBytes 4 v.length ++ leBytes 4 (crc32c v) }

/-- SEG_WRITE_INIT (R398). -/
def State.segWriteInit (s : State) (z : Zdp) (ix sub total : Nat) (x : Session) : Ans :=
  match s.checkWrite x ix sub with
  | .error c => refuse s c
  | .ok r =>
    if s.totalBad ix sub r total then refuse s 0x0201
    else if s.segOpen ix sub then refuse s 0x0404
    else
      let w : Xfer := { index := ix, sub := sub, write := true, total := total, at_ := s.up }
      { st := s.modSession z.ep fun x => { x with xfer := some w, aborted := none } }

/-- The session's transfer ends. -/
def State.endXfer (s : State) (e : Endpoint) : State := s.modSession e fun x => { x with xfer := none }

/-- A segment or SEG_END with no transfer open: 0x0E06 in answer to a late segment of an aborted transfer, else 0x0E02. -/
def State.lateSegment (s : State) (z : Zdp) (ix sub : Nat) (x : Session) : Ans :=
  if x.aborted = some (ix, sub) then refuse (s.modSession z.ep fun x => { x with aborted := none }) 0x0E06 else refuse s 0x0E02

/-- SEG_DATA (R397, R398). Rights are checked again (R390). -/
def State.segData (s : State) (z : Zdp) (ix sub off : Nat) (data : Bytes) (x : Session) : Ans :=
  match x.xfer with
  | none => s.lateSegment z ix sub x
  | some v =>
    let seg := payloadLimit z.ep - 4
    let right := if v.write then s.checkWrite x ix sub else s.checkRead x ix sub
    match right with
    | .error c => refuse s c
    | .ok _ =>
      let s := s.modSession z.ep fun x => { x with xfer := some { v with at_ := s.up } }
      let put := fun (w : Xfer) => s.modSession z.ep fun x => { x with xfer := some { w with at_ := s.up } }
      if v.write then
        if data.length > seg then refuse s 0x0E05
        else if v.prev = some off ∧ v.data.drop off = data then { st := s }
        else if off ≠ v.done ∨ v.done + data.length > v.total then refuse (s.endXfer z.ep) 0x0E02
        else { st := put { v with data := v.data ++ data, done := v.done + data.length, prev := some off } }
      else if !data.isEmpty then refuse s 0x0201
      else if v.prev = some off ∨ (off = v.done ∧ !v.last) then
        let d := (v.data.drop off).take seg
        let done := off + d.length
        let fin := decide (done ≥ v.total)
        { st := put { v with done := done, prev := some off, last := fin }, payload := leBytes 4 off ++ d, last := fin }
      else refuse (s.endXfer z.ep) 0x0E02

/-- SEG_END (R398). -/
def State.segEnd (s : State) (z : Zdp) (ix sub check : Nat) (o : ReadOutcome) (x : Session) : Ans :=
  match x.xfer with
  | none => s.lateSegment z ix sub x
  | some v =>
    match (if v.write then s.checkWrite x ix sub else s.checkRead x ix sub) with
    | .error c => refuse s c
    | .ok r =>
      let s := s.endXfer z.ep
      if !v.write ∨ v.done < v.total then refuse s 0x0E02
      else if crc32c v.data ≠ check then refuse s 0x0E09
      else s.applyWrite ix sub r v.data o

/-- SEG_ABORT (R395): the open transfer of the object ends at once. (log 31, DEDUCED) -/
def State.segAbort (s : State) (z : Zdp) (x : Session) : Ans :=
  match x.xfer with
  | none => { st := s }
  | some v => { st := s.modSession z.ep fun x => { x with xfer := none, aborted := some (v.index, v.sub) } }

/-- WATCH (R400). -/
def State.watchObj (s : State) (z : Zdp) (ix sub : Nat) (x : Session) : Ans :=
  match s.checkRead x ix sub with
  | .error c => refuse s c
  | .ok r =>
    if r.ctr ∨ r.ty = .domain then refuse s 0x0104
    else if x.watches.any fun w => w.index == ix && w.sub == sub then { st := s }
    else if x.watches.length ≥ 32 then refuse s 0x0D02
    else
      let w : Watch := { index := ix, sub := sub, seen := s.value (s.scopeOf x) ix sub r }
      { st := s.modSession z.ep fun x => { x with watches := x.watches ++ [w] } }

/-- UNWATCH (R400). -/
def State.unwatchObj (s : State) (z : Zdp) (ix sub : Nat) : Ans :=
  match findObj ix sub with
  | .error c => refuse s c
  | .ok _ => { st := s.modSession z.ep fun x => { x with watches := x.watches.filter fun w => !(w.index == ix && w.sub == sub) } }

/-! ### Requests whole -/

/-- How a die read for a forensic write that no row describes came out: a free choice (R174). (log 17, DESIGN CHOICE) -/
def State.takeOutcome (s : State) : ReadOutcome × State :=
  let (k, s) := s.takeFree
  (match (Config.freeByte k).toNat % 4 with
    | 0 => .hard false
    | 1 => .retry 1
    | 2 => .soft
    | _ => .uncorrectable, s)

/-- A request of a session whose service is `body`. (log 31, DEDUCED) -/
def State.request (s : State) (z : Zdp) (svc ix sub : Nat) (body : Session → State → Ans) : State :=
  (s.gate z svc ix sub body).send z svc ix sub

/-- An expedited WRITE. -/
def State.zWrite (s : State) (z : Zdp) (ix sub : Nat) (v : Bytes) (o : ReadOutcome := .hard false) : State :=
  s.request z 0x11 ix sub fun x s => s.writeReq ix sub v o x
/-- The SEG_END that completes a segmented write of `v`. -/
def State.zWhole (s : State) (z : Zdp) (ix sub : Nat) (v : Bytes) : State := s.request z 0x23 ix sub fun x s => s.writeWhole ix sub v x
/-- An expedited READ. -/
def State.zRead (s : State) (z : Zdp) (ix sub : Nat) : State := s.request z 0x10 ix sub fun x s => s.readObj ix sub x

/-- The index of offset `off` of partition `p`, of link `n`; an index that no table assigns for a number out of range. -/
def pRow (p off : Nat) : Nat := if p < 64 then pIx p off else 0x5000
def lRow (n off : Nat) : Nat := if n < 128 then lIx n off else 0x5000

/-! ### Notifications and timers (R399, R401, R405, R410, R411) -/

/-- NOTIFY leaves for a session: on a mailbox it takes the slot, or waits in the queue, and the vector fires. (log 31, DEDUCED) -/
def State.notifySend (s : State) (e : Endpoint) (msg : Bytes) : State :=
  let s := s.bump 0x60A0 4
  match boxKey e with
  | none => s.zdpSend e msg
  | some k =>
    let b := s.box k
    if b.slot.isSome then s.setBox k { b with queue := b.queue ++ [msg] }
    else
      let s := s.setBox k { b with slot := some msg }
      let s := { s with out := s.out ++ [Out.zdp e msg] }
      match e with
      | .vf _ p => s.partVec p 66
      | .pf k => s.msix k 0 2
      | _ => s

/-- The watch `w` of session `x` has something to tell: its triggers, or one change of a value that no write made.
(log 31, DEDUCED) -/
def State.watchDue (s : State) (x : Session) (w : Watch) : Nat :=
  match findObj w.index w.sub with
  | .error _ => w.changes
  | .ok r => if w.changes = 0 ∧ s.value (s.scopeOf x) w.index w.sub r ≠ w.seen then 1 else w.changes

/-- A watch's NOTIFY (R401): no sooner than WATCH_HOLDOFF after its previous one. -/
def State.notifyWatch (s : State) (e : Endpoint) (ix sub : Nat) : State :=
  match s.session? e with
  | none => s
  | some x =>
    match x.watches.find? fun w => w.index == ix && w.sub == sub with
    | none => s
    | some w =>
      let n := s.watchDue x w
      if n = 0 then s else
      let s := match w.lastAt with
        | some t => s.timeTo (t + us (s.obj 0x1010 9 1000))
        | none => s
      let now := match findObj ix sub with
        | .ok r => s.value (s.scopeOf x) ix sub r
        | .error _ => w.seen
      let w' : Watch := { w with changes := 0, seen := now, lastAt := some s.up }
      let s := s.modSession e fun x => { x with watches := x.watches.map fun v => if v = w then w' else v }
      s.notifySend e (zdpMsg 0x40 0 ix sub false (leBytes 4 n))

/-- The notification slot of a mailbox is released and the next NOTIFY presented (R405). -/
def State.notifyNext (s : State) (k : Nat) : State :=
  let b := s.box k
  match b.slot, b.queue with
  | none, _ => s
  | some _, [] => s.setBox k { b with slot := none }
  | some _, m :: ms =>
    let s := s.setBox k { b with slot := some m, queue := ms }
    let e := fnEndpoint (k / 65) (k % 65)
    let s := { s with out := s.out ++ [Out.zdp e m] }
    match e with
    | .vf _ p => s.partVec p 66
    | .pf k => s.msix k 0 2
    | _ => s

/-- SEGMENT_TIMEOUT in ns. -/
def State.segTime (s : State) : Nat := ms (s.obj 0x1010 8 1000)

/-- An open transfer without a request for SEGMENT_TIMEOUT ends with 0x0E03 (R399). -/
def State.timeoutXfer (s : State) (e : Endpoint) : State :=
  match s.session? e with
  | none => s
  | some x => match x.xfer with
    | none => s
    | some v =>
      let s := (s.timeTo (v.at_ + s.segTime)).endXfer e
      if v.over then s else (s.bump 0x60A0 3).abortSend e 0 0 v.index v.sub 0x0E03

/-- A CAN FD session idle for SESSION_IDLE is closed; its transfer ends with 0x0E03 (R410). -/
def State.idleClose (s : State) (e : Endpoint) : State :=
  match s.session? e with
  | none => s
  | some x =>
    let idle := s.obj 0x1010 10 300
    if idle = 0 then s else
    let s := s.timeTo (x.lastAt + sec idle)
    let s := match x.xfer with
      | some v => if v.over then s else s.abortSend e 0 0 v.index v.sub 0x0E03
      | none => s
    s.dropSession e

end Sys2Proof.Machine
end

