-- ==== Sys2Proof/Machine/ZdpCmds.lean ====
section
/-! DEFINITION. The commands that are ZDP requests (12_dictionary.md): what each asks, and how it reaches the module. -/

namespace Sys2Proof.Machine

/-! ### What each request asks -/

/-- OTT_HWM_READ (R289, R385): the high-water mark, cleared as it is read. -/
def askOttHwmRead (z : Zdp) (p : Nat) (s : State) : State :=
  s.zRead z (pRow p 0x21) 4

/-- OTT_RESERVE_WRITE (R279). -/
def askOttReserveWrite (z : Zdp) (p : Nat) (v : Bytes) (s : State) : State :=
  s.zWrite z (pRow p 0x21) 1 v

/-- OTT_CAP_WRITE (R279). -/
def askOttCapWrite (z : Zdp) (p : Nat) (v : Bytes) (s : State) : State :=
  s.zWrite z (pRow p 0x21) 2 v

/-- MEDIA_SYNC (R188). -/
def askMediaSync (z : Zdp) (s : State) : State :=
  s.zWrite z 0x1200 11 (leBytes 1 1)

/-- SHUTDOWN_PREPARE (R188). -/
def askShutdownPrepare (z : Zdp) (s : State) : State :=
  s.zWrite z 0x1200 12 (leBytes 1 1)

/-- DOMAIN_PURGE (R107). -/
def askDomainPurge (z : Zdp) (v : Bytes) (s : State) : State :=
  s.zWrite z 0x1400 4 v

/-- SHARE_DOMAIN_WRITE (R82, R359): ENABLED, MEMBERS or SALT of a shared domain. -/
def askShareDomainWrite (z : Zdp) (d sub : Nat) (v : Bytes) (s : State) : State :=
  s.zWrite z (if d < 256 ∧ 1 ≤ sub then 0x1500 + d else 0x5000) sub v

/-- PROFILE_BINDING_WRITE (R66, R67, R361). -/
def askProfileBindingWrite (z : Zdp) (p slot : Nat) (v : Bytes) (s : State) : State :=
  s.zWrite z (pRow p 4) (slot + 1) v

/-- UPPROJ_WRITE (R65): the SEG_END of a whole UPPROJ. -/
def askUpprojWrite (z : Zdp) (n : Nat) (v : Bytes) (s : State) : State :=
  s.zWhole z (if n < 32 then 0x1300 + n else 0x5000) 15 v

/-- PROJ_WRITE (R223): the SEG_END of a whole PROJ. -/
def askProjWrite (z : Zdp) (n : Nat) (v : Bytes) (s : State) : State :=
  s.zWhole z (if n < 32 then 0x1600 + n else 0x5000) 3 v

/-- INDEX_GEOMETRY_WRITE (R223): INDEX_WIDTH or LAYER_GROUP. -/
def askIndexGeometryWrite (z : Zdp) (n sub : Nat) (v : Bytes) (s : State) : State :=
  s.zWrite z (if n < 32 ∧ (sub = 1 ∨ sub = 2) then 0x1600 + n else 0x5000) sub v

/-- PLAN_WRITE (R146, R148): the SEG_END of a whole plan. -/
def askPlanWrite (z : Zdp) (p n : Nat) (v : Bytes) (s : State) : State :=
  s.zWhole z (if n < 8 then pRow p (0x10 + n) else 0x5000) 1 v

/-- LEAF_STATS_READ (R339): the record of a leaf, whose high-water marks it clears; `p` 64 is the module. -/
def askLeafStatsRead (z : Zdp) (p c x : Nat) (s : State) : State :=
  s.zRead z (if c < 8 ∧ x < 178 then (if p < 64 then 0x3A00 + 8 * p + c else if p = 64 then 0x3088 + c else 0x5000) else 0x5000) (x + 1)

/-- LEAF_CFG_WRITE (R337, R352); `p` 64 is the module. -/
def askLeafCfgWrite (z : Zdp) (p c x : Nat) (v : Bytes) (s : State) : State :=
  s.zWrite z (if c < 8 ∧ x < 178 then (if p < 64 then 0x3800 + 8 * p + c else if p = 64 then 0x3080 + c else 0x5000) else 0x5000) (x + 1) v

/-- NODE_CFG_WRITE (R351). -/
def askNodeCfgWrite (z : Zdp) (c x : Nat) (v : Bytes) (s : State) : State :=
  s.zWrite z (if c < 8 ∧ x < 178 then 0x3200 + 8 * x + c else 0x5000) 1 v

/-- METER_CFG_WRITE (R353). -/
def askMeterCfgWrite (z : Zdp) (p c : Nat) (v : Bytes) (s : State) : State :=
  s.zWrite z (if c < 8 ∧ p < 64 then 0x3E00 + 8 * p + c else 0x5000) 1 v

/-- DERATE_WRITE (R337). -/
def askDerateWrite (z : Zdp) (kind : Nat) (v : Bytes) (s : State) : State :=
  s.zWrite z 0x3001 (kind + 1) v

/-- HIST_RESET (R338). -/
def askHistReset (z : Zdp) (s : State) : State :=
  s.zWrite z 0x3000 1 (leBytes 1 1)

/-- SNAPSHOT_REQUEST (R471). -/
def askSnapshotRequest (z : Zdp) (v : Bytes) (s : State) : State :=
  s.zWrite z 0x7110 1 v

/-- JOB_RESUME (R376). -/
def askJobResume (z : Zdp) (p : Nat) (v : Bytes) (s : State) : State :=
  s.zWrite z (pRow p 2) 4 v

/-- PARTITION_RESET (R369). -/
def askPartitionReset (z : Zdp) (p : Nat) (v : Bytes) (s : State) : State :=
  s.zWrite z (pRow p 0) 2 v

/-- PARTITION_DISABLE (R364): a write of ENABLED. -/
def askPartitionDisable (z : Zdp) (p : Nat) (v : Bytes) (s : State) : State :=
  s.zWrite z (pRow p 1) 1 v

/-- PROTECTION_WRITE (R362). -/
def askProtectionWrite (z : Zdp) (p sub : Nat) (v : Bytes) (s : State) : State :=
  s.zWrite z (pRow p 1) sub v

/-- PROTECTION_BATCH (R363): the SEG_END of a whole batch. -/
def askProtectionBatch (z : Zdp) (v : Bytes) (s : State) : State :=
  s.zWhole z 0x1800 3 v

/-- FRAME_QUOTA_WRITE (R361). -/
def askFrameQuotaWrite (z : Zdp) (p : Nat) (v : Bytes) (s : State) : State :=
  s.zWrite z (pRow p 1) 6 v

/-- ZDP_OPEN (R386). -/
def askZdpOpen (z : Zdp) (role part : Nat) (s : State) : State :=
  (s.openSession z role part).send z 0x01 0 0

/-- ZDP_CLOSE (R394): the session, its watches and a finished transfer end. -/
def askZdpClose (z : Zdp) (s : State) : State :=
  s.request z 0x02 0 0 fun _ s => { st := s.dropSession z.ep }

/-- DESCRIBE (R394). -/
def askDescribe (z : Zdp) (ix sub : Nat) (s : State) : State :=
  s.request z 0x03 ix sub fun x s => s.describeObj ix sub x

/-- READ (R396). -/
def askRead (z : Zdp) (ix sub : Nat) (s : State) : State :=
  s.zRead z ix sub

/-- WRITE (R382): of any object; how a forensic read it starts decodes is free. -/
def askWrite (z : Zdp) (ix sub : Nat) (v : Bytes) (s : State) : State :=
  (if ix = 0xE010 then s.takeOutcome.2.zWrite z ix sub v s.takeOutcome.1 else s.zWrite z ix sub v)

/-- SEG_READ_INIT (R397). -/
def askSegReadInit (z : Zdp) (ix sub : Nat) (s : State) : State :=
  s.request z 0x20 ix sub fun x s => s.segReadInit z ix sub x

/-- SEG_WRITE_INIT (R398). -/
def askSegWriteInit (z : Zdp) (ix sub total : Nat) (s : State) : State :=
  s.request z 0x21 ix sub fun x s => s.segWriteInit z ix sub total x

/-- SEG_DATA (R397, R398). -/
def askSegData (z : Zdp) (ix sub offset : Nat) (data : Bytes) (s : State) : State :=
  s.request z 0x22 ix sub fun x s => s.segData z ix sub offset data x

/-- SEG_END (R398). -/
def askSegEnd (z : Zdp) (ix sub check : Nat) (s : State) : State :=
  (if ix = 0xE010 then s.takeOutcome.2.request z 0x23 ix sub fun x t => t.segEnd z ix sub check s.takeOutcome.1 x
      else s.request z 0x23 ix sub fun x s => s.segEnd z ix sub check (.hard false) x)

/-- SEG_ABORT (R395). -/
def askSegAbort (z : Zdp) (ix sub : Nat) (s : State) : State :=
  s.request z 0x24 ix sub fun x s => s.segAbort z x

/-- WATCH (R400). -/
def askWatch (z : Zdp) (ix sub : Nat) (s : State) : State :=
  s.request z 0x30 ix sub fun x s => s.watchObj z ix sub x

/-- UNWATCH (R400). -/
def askUnwatch (z : Zdp) (ix sub : Nat) (s : State) : State :=
  s.request z 0x31 ix sub fun _ s => s.unwatchObj z ix sub

/-- KXL_OWNER_LINKS_WRITE (R410): `sub` 6 or 7. -/
def askKxlOwnerLinksWrite (z : Zdp) (sub : Nat) (v : Bytes) (s : State) : State :=
  s.zWrite z 0x1010 (if sub = 6 ∨ sub = 7 then sub else 256) v

/-- RESTART (R420, R434): it takes effect after the response. -/
def askRestart (z : Zdp) (v : Bytes) (s : State) : State :=
  s.zWrite z 0x1000 1 v

/-- START_FAIL_CLEAR (R428). -/
def askStartFailClear (z : Zdp) (v : Bytes) (s : State) : State :=
  s.zWrite z 0x0810 2 v

/-- FIRMWARE_UPDATE (R438): the SEG_END of a whole image. -/
def askFirmwareUpdate (z : Zdp) (v : Bytes) (s : State) : State :=
  s.zWhole z 0x0840 8 v

/-- FIRMWARE_ACTIVATE (R439). -/
def askFirmwareActivate (z : Zdp) (v : Bytes) (s : State) : State :=
  s.zWrite z 0x0840 9 v

/-- DEFECT_ADD (R442). -/
def askDefectAdd (z : Zdp) (v : Bytes) (s : State) : State :=
  s.zWrite z 0x7200 6 v

/-- FACTORY_TOKEN (R442): the SEG_END of a whole token. -/
def askFactoryToken (z : Zdp) (v : Bytes) (s : State) : State :=
  s.zWhole z 0x7200 7 v

/-- FORENSIC_READ (R433): a write of ADDRESS; `o` is how the page decodes. -/
def askForensicRead (z : Zdp) (v : Bytes) (o : ReadOutcome) (s : State) : State :=
  s.zWrite z 0xE010 1 v o

/-- REF_SELECT (R458). -/
def askRefSelect (z : Zdp) (v : Bytes) (s : State) : State :=
  s.zWrite z 0x1900 2 v

/-- TIME_SET (R456). -/
def askTimeSet (z : Zdp) (v : Bytes) (s : State) : State :=
  s.zWrite z 0x1902 4 v

/-- COLL_SETS_WRITE (R514, R517): the SEG_END of a whole list. -/
def askCollSetsWrite (z : Zdp) (v : Bytes) (s : State) : State :=
  s.zWhole z 0x1A01 1 v

/-- LEND_ENABLE (R511). -/
def askLendEnable (z : Zdp) (v : Bytes) (s : State) : State :=
  s.zWrite z 0x1A10 1 v

/-- LEND_BYTES (R511). -/
def askLendBytes (z : Zdp) (v : Bytes) (s : State) : State :=
  s.zWrite z 0x1A10 2 v

/-- BORROW_BYTES (R512). -/
def askBorrowBytes (z : Zdp) (v : Bytes) (s : State) : State :=
  s.zWrite z 0x1A10 6 v

/-- LINK_ENABLE (R517). -/
def askLinkEnable (z : Zdp) (n : Nat) (v : Bytes) (s : State) : State :=
  s.zWrite z (lRow n 0) 1 v

/-- A MGMT frame's request by its constructor: what it asks, once it is applied. -/
def zdpApply (i : Instr) (s : State) : State :=
  match i with
  | .ottHwmRead z p => askOttHwmRead z p s
  | .ottReserveWrite z p v => askOttReserveWrite z p v s
  | .ottCapWrite z p v => askOttCapWrite z p v s
  | .mediaSync z => askMediaSync z s
  | .shutdownPrepare z => askShutdownPrepare z s
  | .domainPurge z v => askDomainPurge z v s
  | .shareDomainWrite z d sub v => askShareDomainWrite z d sub v s
  | .profileBindingWrite z p slot v => askProfileBindingWrite z p slot v s
  | .upprojWrite z n v => askUpprojWrite z n v s
  | .projWrite z n v => askProjWrite z n v s
  | .indexGeometryWrite z n sub v => askIndexGeometryWrite z n sub v s
  | .planWrite z p n v => askPlanWrite z p n v s
  | .leafStatsRead z p c x => askLeafStatsRead z p c x s
  | .leafCfgWrite z p c x v => askLeafCfgWrite z p c x v s
  | .nodeCfgWrite z c x v => askNodeCfgWrite z c x v s
  | .meterCfgWrite z p c v => askMeterCfgWrite z p c v s
  | .derateWrite z kind v => askDerateWrite z kind v s
  | .histReset z => askHistReset z s
  | .snapshotRequest z v => askSnapshotRequest z v s
  | .jobResume z p v => askJobResume z p v s
  | .partitionReset z p v => askPartitionReset z p v s
  | .partitionDisable z p v => askPartitionDisable z p v s
  | .protectionWrite z p sub v => askProtectionWrite z p sub v s
  | .protectionBatch z v => askProtectionBatch z v s
  | .frameQuotaWrite z p v => askFrameQuotaWrite z p v s
  | .zdpOpen z role part => askZdpOpen z role part s
  | .zdpClose z => askZdpClose z s
  | .describe z ix sub => askDescribe z ix sub s
  | .read z ix sub => askRead z ix sub s
  | .write z ix sub v => askWrite z ix sub v s
  | .segReadInit z ix sub => askSegReadInit z ix sub s
  | .segWriteInit z ix sub total => askSegWriteInit z ix sub total s
  | .segData z ix sub offset data => askSegData z ix sub offset data s
  | .segEnd z ix sub check => askSegEnd z ix sub check s
  | .segAbort z ix sub => askSegAbort z ix sub s
  | .watch z ix sub => askWatch z ix sub s
  | .unwatch z ix sub => askUnwatch z ix sub s
  | .kxlOwnerLinksWrite z sub v => askKxlOwnerLinksWrite z sub v s
  | .restart z v => askRestart z v s
  | .startFailClear z v => askStartFailClear z v s
  | .firmwareUpdate z v => askFirmwareUpdate z v s
  | .firmwareActivate z v => askFirmwareActivate z v s
  | .defectAdd z v => askDefectAdd z v s
  | .factoryToken z v => askFactoryToken z v s
  | .forensicRead z v o => askForensicRead z v o s
  | .refSelect z v => askRefSelect z v s
  | .timeSet z v => askTimeSet z v s
  | .collSetsWrite z v => askCollSetsWrite z v s
  | .lendEnable z v => askLendEnable z v s
  | .lendBytes z v => askLendBytes z v s
  | .borrowBytes z v => askBorrowBytes z v s
  | .linkEnable z n v => askLinkEnable z n v s
  | _ => s

/-- A request reaches the module from its endpoint: a link's MGMT frame as R502 and R504 state, any other while its transport answers; a
busy mailbox discards it (R404). -/
def State.zdpIn (s : State) (z : Zdp) (i : Instr) (ask : State → State) : State :=
  if !s.answers z.ep ∨ ((boxKey z.ep).isSome ∧ s.owes z.ep) then s else
  match z.ep with
  | .mgmt n => s.receive n 7 (heldFrame i).2.1 i ask
  | _ => ask s

/-! ### The commands -/

/-- OTT_HWM_READ (R289, R385): the high-water mark, cleared as it is read. -/
def execOttHwmRead (z : Zdp) (p : Nat) (s : State) : Res :=
  .next (s.zdpIn z (.ottHwmRead z p) (askOttHwmRead z p))

/-- OTT_RESERVE_WRITE (R279). -/
def execOttReserveWrite (z : Zdp) (p : Nat) (v : Bytes) (s : State) : Res :=
  .next (s.zdpIn z (.ottReserveWrite z p v) (askOttReserveWrite z p v))

/-- OTT_CAP_WRITE (R279). -/
def execOttCapWrite (z : Zdp) (p : Nat) (v : Bytes) (s : State) : Res :=
  .next (s.zdpIn z (.ottCapWrite z p v) (askOttCapWrite z p v))

/-- MEDIA_SYNC (R188). -/
def execMediaSync (z : Zdp) (s : State) : Res :=
  .next (s.zdpIn z (.mediaSync z) (askMediaSync z))

/-- SHUTDOWN_PREPARE (R188). -/
def execShutdownPrepare (z : Zdp) (s : State) : Res :=
  .next (s.zdpIn z (.shutdownPrepare z) (askShutdownPrepare z))

/-- DOMAIN_PURGE (R107). -/
def execDomainPurge (z : Zdp) (v : Bytes) (s : State) : Res :=
  .next (s.zdpIn z (.domainPurge z v) (askDomainPurge z v))

/-- SHARE_DOMAIN_WRITE (R82, R359): ENABLED, MEMBERS or SALT of a shared domain. -/
def execShareDomainWrite (z : Zdp) (d sub : Nat) (v : Bytes) (s : State) : Res :=
  .next (s.zdpIn z (.shareDomainWrite z d sub v) (askShareDomainWrite z d sub v))

/-- PROFILE_BINDING_WRITE (R66, R67, R361). -/
def execProfileBindingWrite (z : Zdp) (p slot : Nat) (v : Bytes) (s : State) : Res :=
  .next (s.zdpIn z (.profileBindingWrite z p slot v) (askProfileBindingWrite z p slot v))

/-- UPPROJ_WRITE (R65): the SEG_END of a whole UPPROJ. -/
def execUpprojWrite (z : Zdp) (n : Nat) (v : Bytes) (s : State) : Res :=
  .next (s.zdpIn z (.upprojWrite z n v) (askUpprojWrite z n v))

/-- PROJ_WRITE (R223): the SEG_END of a whole PROJ. -/
def execProjWrite (z : Zdp) (n : Nat) (v : Bytes) (s : State) : Res :=
  .next (s.zdpIn z (.projWrite z n v) (askProjWrite z n v))

/-- INDEX_GEOMETRY_WRITE (R223): INDEX_WIDTH or LAYER_GROUP. -/
def execIndexGeometryWrite (z : Zdp) (n sub : Nat) (v : Bytes) (s : State) : Res :=
  .next (s.zdpIn z (.indexGeometryWrite z n sub v) (askIndexGeometryWrite z n sub v))

/-- PLAN_WRITE (R146, R148): the SEG_END of a whole plan. -/
def execPlanWrite (z : Zdp) (p n : Nat) (v : Bytes) (s : State) : Res :=
  .next (s.zdpIn z (.planWrite z p n v) (askPlanWrite z p n v))

/-- LEAF_STATS_READ (R339): the record of a leaf, whose high-water marks it clears; `p` 64 is the module. -/
def execLeafStatsRead (z : Zdp) (p c x : Nat) (s : State) : Res :=
  .next (s.zdpIn z (.leafStatsRead z p c x) (askLeafStatsRead z p c x))

/-- LEAF_CFG_WRITE (R337, R352); `p` 64 is the module. -/
def execLeafCfgWrite (z : Zdp) (p c x : Nat) (v : Bytes) (s : State) : Res :=
  .next (s.zdpIn z (.leafCfgWrite z p c x v) (askLeafCfgWrite z p c x v))

/-- NODE_CFG_WRITE (R351). -/
def execNodeCfgWrite (z : Zdp) (c x : Nat) (v : Bytes) (s : State) : Res :=
  .next (s.zdpIn z (.nodeCfgWrite z c x v) (askNodeCfgWrite z c x v))

/-- METER_CFG_WRITE (R353). -/
def execMeterCfgWrite (z : Zdp) (p c : Nat) (v : Bytes) (s : State) : Res :=
  .next (s.zdpIn z (.meterCfgWrite z p c v) (askMeterCfgWrite z p c v))

/-- DERATE_WRITE (R337). -/
def execDerateWrite (z : Zdp) (kind : Nat) (v : Bytes) (s : State) : Res :=
  .next (s.zdpIn z (.derateWrite z kind v) (askDerateWrite z kind v))

/-- HIST_RESET (R338). -/
def execHistReset (z : Zdp) (s : State) : Res :=
  .next (s.zdpIn z (.histReset z) (askHistReset z))

/-- SNAPSHOT_REQUEST (R471). -/
def execSnapshotRequest (z : Zdp) (v : Bytes) (s : State) : Res :=
  .next (s.zdpIn z (.snapshotRequest z v) (askSnapshotRequest z v))

/-- JOB_RESUME (R376). -/
def execJobResume (z : Zdp) (p : Nat) (v : Bytes) (s : State) : Res :=
  .next (s.zdpIn z (.jobResume z p v) (askJobResume z p v))

/-- PARTITION_RESET (R369). -/
def execPartitionReset (z : Zdp) (p : Nat) (v : Bytes) (s : State) : Res :=
  .next (s.zdpIn z (.partitionReset z p v) (askPartitionReset z p v))

/-- PARTITION_DISABLE (R364): a write of ENABLED. -/
def execPartitionDisable (z : Zdp) (p : Nat) (v : Bytes) (s : State) : Res :=
  .next (s.zdpIn z (.partitionDisable z p v) (askPartitionDisable z p v))

/-- PROTECTION_WRITE (R362). -/
def execProtectionWrite (z : Zdp) (p sub : Nat) (v : Bytes) (s : State) : Res :=
  .next (s.zdpIn z (.protectionWrite z p sub v) (askProtectionWrite z p sub v))

/-- PROTECTION_BATCH (R363): the SEG_END of a whole batch. -/
def execProtectionBatch (z : Zdp) (v : Bytes) (s : State) : Res :=
  .next (s.zdpIn z (.protectionBatch z v) (askProtectionBatch z v))

/-- FRAME_QUOTA_WRITE (R361). -/
def execFrameQuotaWrite (z : Zdp) (p : Nat) (v : Bytes) (s : State) : Res :=
  .next (s.zdpIn z (.frameQuotaWrite z p v) (askFrameQuotaWrite z p v))

/-- ZDP_OPEN (R386). -/
def execZdpOpen (z : Zdp) (role part : Nat) (s : State) : Res :=
  .next (s.zdpIn z (.zdpOpen z role part) (askZdpOpen z role part))

/-- ZDP_CLOSE (R394): the session, its watches and a finished transfer end. -/
def execZdpClose (z : Zdp) (s : State) : Res :=
  .next (s.zdpIn z (.zdpClose z) (askZdpClose z))

/-- DESCRIBE (R394). -/
def execDescribe (z : Zdp) (ix sub : Nat) (s : State) : Res :=
  .next (s.zdpIn z (.describe z ix sub) (askDescribe z ix sub))

/-- READ (R396). -/
def execRead (z : Zdp) (ix sub : Nat) (s : State) : Res :=
  .next (s.zdpIn z (.read z ix sub) (askRead z ix sub))

/-- WRITE (R382): of any object; how a forensic read it starts decodes is free. -/
def execWrite (z : Zdp) (ix sub : Nat) (v : Bytes) (s : State) : Res :=
  .next (s.zdpIn z (.write z ix sub v) (askWrite z ix sub v))

/-- SEG_READ_INIT (R397). -/
def execSegReadInit (z : Zdp) (ix sub : Nat) (s : State) : Res :=
  .next (s.zdpIn z (.segReadInit z ix sub) (askSegReadInit z ix sub))

/-- SEG_WRITE_INIT (R398). -/
def execSegWriteInit (z : Zdp) (ix sub total : Nat) (s : State) : Res :=
  .next (s.zdpIn z (.segWriteInit z ix sub total) (askSegWriteInit z ix sub total))

/-- SEG_DATA (R397, R398). -/
def execSegData (z : Zdp) (ix sub offset : Nat) (data : Bytes) (s : State) : Res :=
  .next (s.zdpIn z (.segData z ix sub offset data) (askSegData z ix sub offset data))

/-- SEG_END (R398). -/
def execSegEnd (z : Zdp) (ix sub check : Nat) (s : State) : Res :=
  .next (s.zdpIn z (.segEnd z ix sub check) (askSegEnd z ix sub check))

/-- SEG_ABORT (R395). -/
def execSegAbort (z : Zdp) (ix sub : Nat) (s : State) : Res :=
  .next (s.zdpIn z (.segAbort z ix sub) (askSegAbort z ix sub))

/-- WATCH (R400). -/
def execWatch (z : Zdp) (ix sub : Nat) (s : State) : Res :=
  .next (s.zdpIn z (.watch z ix sub) (askWatch z ix sub))

/-- UNWATCH (R400). -/
def execUnwatch (z : Zdp) (ix sub : Nat) (s : State) : Res :=
  .next (s.zdpIn z (.unwatch z ix sub) (askUnwatch z ix sub))

/-- KXL_OWNER_LINKS_WRITE (R410): `sub` 6 or 7. -/
def execKxlOwnerLinksWrite (z : Zdp) (sub : Nat) (v : Bytes) (s : State) : Res :=
  .next (s.zdpIn z (.kxlOwnerLinksWrite z sub v) (askKxlOwnerLinksWrite z sub v))

/-- RESTART (R420, R434): it takes effect after the response. -/
def execRestart (z : Zdp) (v : Bytes) (s : State) : Res :=
  .next (s.zdpIn z (.restart z v) (askRestart z v))

/-- START_FAIL_CLEAR (R428). -/
def execStartFailClear (z : Zdp) (v : Bytes) (s : State) : Res :=
  .next (s.zdpIn z (.startFailClear z v) (askStartFailClear z v))

/-- FIRMWARE_UPDATE (R438): the SEG_END of a whole image. -/
def execFirmwareUpdate (z : Zdp) (v : Bytes) (s : State) : Res :=
  .next (s.zdpIn z (.firmwareUpdate z v) (askFirmwareUpdate z v))

/-- FIRMWARE_ACTIVATE (R439). -/
def execFirmwareActivate (z : Zdp) (v : Bytes) (s : State) : Res :=
  .next (s.zdpIn z (.firmwareActivate z v) (askFirmwareActivate z v))

/-- DEFECT_ADD (R442). -/
def execDefectAdd (z : Zdp) (v : Bytes) (s : State) : Res :=
  .next (s.zdpIn z (.defectAdd z v) (askDefectAdd z v))

/-- FACTORY_TOKEN (R442): the SEG_END of a whole token. -/
def execFactoryToken (z : Zdp) (v : Bytes) (s : State) : Res :=
  .next (s.zdpIn z (.factoryToken z v) (askFactoryToken z v))

/-- FORENSIC_READ (R433): a write of ADDRESS; `o` is how the page decodes. (log 17, DESIGN CHOICE) -/
def execForensicRead (z : Zdp) (v : Bytes) (o : ReadOutcome) (s : State) : Res :=
  .next (s.zdpIn z (.forensicRead z v o) (askForensicRead z v o))

/-- REF_SELECT (R458). -/
def execRefSelect (z : Zdp) (v : Bytes) (s : State) : Res :=
  .next (s.zdpIn z (.refSelect z v) (askRefSelect z v))

/-- TIME_SET (R456). -/
def execTimeSet (z : Zdp) (v : Bytes) (s : State) : Res :=
  .next (s.zdpIn z (.timeSet z v) (askTimeSet z v))

/-- COLL_SETS_WRITE (R514, R517): the SEG_END of a whole list. -/
def execCollSetsWrite (z : Zdp) (v : Bytes) (s : State) : Res :=
  .next (s.zdpIn z (.collSetsWrite z v) (askCollSetsWrite z v))

/-- LEND_ENABLE (R511). -/
def execLendEnable (z : Zdp) (v : Bytes) (s : State) : Res :=
  .next (s.zdpIn z (.lendEnable z v) (askLendEnable z v))

/-- LEND_BYTES (R511). -/
def execLendBytes (z : Zdp) (v : Bytes) (s : State) : Res :=
  .next (s.zdpIn z (.lendBytes z v) (askLendBytes z v))

/-- BORROW_BYTES (R512). -/
def execBorrowBytes (z : Zdp) (v : Bytes) (s : State) : Res :=
  .next (s.zdpIn z (.borrowBytes z v) (askBorrowBytes z v))

/-- LINK_ENABLE (R517). -/
def execLinkEnable (z : Zdp) (n : Nat) (v : Bytes) (s : State) : Res :=
  .next (s.zdpIn z (.linkEnable z n v) (askLinkEnable z n v))

/-- NOTIFY (R401). -/
def execNotify (e : Endpoint) (ix sub : Nat) (s : State) : Res := .next (s.notifyWatch e ix sub)

/-- NOTIFY_ACK (R405). -/
def execNotifyAck (k fn : Nat) (s : State) : Res := .next (if k < 2 ∧ fn < 65 then s.notifyNext (fnKey k fn) else s)

/-- SEGMENT_TIMEOUT (R399). (log 42, DESIGN CHOICE) -/
def execSegmentTimeout (e : Endpoint) (s : State) : Res := .next (s.timeoutXfer e)

/-- SESSION_IDLE (R410). -/
def execSessionIdle (node : Nat) (s : State) : Res := .next (s.idleClose (.can node))

/-- CAN_FRAME_IGNORED (R402): the frame is counted. -/
def execCanFrameIgnored (s : State) : Res := .next (s.bump 0x60A0 5)

/-- CAN_BUS_OFF (R403, R411): after `millis` ms off the bus the sessions go on; a bus-off beyond SEGMENT_TIMEOUT ends their open transfers. -/
def execCanBusOff (millis : Nat) (s : State) : Res :=
  .next <|
    let s := s.timeTo (s.up + ms millis)
    if ms millis ≤ s.segTime then s else
    let end_ := fun (x : Session) => match x.ep with
      | .can _ => { x with xfer := none }
      | _ => x
    { s with dict := { s.dict with sessions := s.dict.sessions.map end_ } }

end Sys2Proof.Machine
end

