-- ==== Sys2Proof/Machine/Px.lean ====
section
/-! DEFINITION. The UL1-PX page endpoint block (17_page_endpoint.md): its links' transmit and receive sides, the delivery stream,
request and marker ports, registers, interrupt, link-down and reset. -/

namespace Sys2Proof.Machine

/-! ### Links of the block and interrupt causes -/

/-- Link `k` of the block. -/
def State.pxLink (s : State) (k : Nat) : PxLink := if k = 0 then s.pxb.link0 else s.pxb.link1
/-- The block is held in reset, or has no link `k`. -/
def State.pxOff (s : State) (k : Nat) : Bool := s.pxb.low || k > 1
/-- Stores link `k` of the block. -/
def State.setPx (s : State) (k : Nat) (l : PxLink) : State :=
  if k = 0 then { s with pxb := { s.pxb with link0 := l } } else { s with pxb := { s.pxb with link1 := l } }
/-- Stores the training and reliability state of link `k` of the block. -/
def State.setPxLk (s : State) (k : Nat) (l : Link) : State := s.setPx k { s.pxLink k with lk := l }

/-- A cause sets its IRQ_STATUS bit (R539). -/
def State.pxIrq (s : State) (b : Nat) : State :=
  if bit s.pxb.irqStatus b then s else { s with pxb := { s.pxb with irqStatus := s.pxb.irqStatus + 2 ^ b } }

/-- `n` requests or markers are rejected: REQ_REJECTED, 32 bits, wraps (R533, R536, R545). -/
def State.pxRejected (s : State) (k n : Nat) : State :=
  let l := s.pxLink k
  s.setPx k { l with rejected := (l.rejected + n) % 2 ^ 32 }

/-! ### Transmit side (R498, R503, R527, R534) -/

/-- Sends what a link can of its FIFO: frames of one VL keep their order, each needs credits and room in the 64 KiB replay buffer.
Answers the link, the frames sent and those that wait. -/
def pxSend (lk : Link) (t : Nat) (fs : List LFrame) : Link × List TxFrame × List LFrame :=
  fs.foldl (fun (acc : Link × List TxFrame × List LFrame) f =>
    let l := acc.1
    if (acc.2.2.any fun g => g.vl == f.vl) ∨ f.credits > l.avail f.vl ∨ l.replayUsed + f.len > 65536 then
      (l, acc.2.1, acc.2.2 ++ [f])
    else
      let x : TxFrame := { fseq := l.nextFseq, f := f, sentAt := t }
      let used := mset l.txUsed f.vl ((mget l.txUsed f.vl 0 + f.credits) % 65536)
      ({ l with txUsed := used, replay := l.replay ++ [x], nextFseq := (l.nextFseq + 1) % 2 ^ 24 }, acc.2.1 ++ [x], acc.2.2))
    (lk, [], [])

/-- Frames of link `k` of the block that can go out do. -/
def State.pxPump (s : State) (k : Nat) : State :=
  let l := s.pxLink k
  if l.lk.st ≠ .up then s else
  let r := pxSend l.lk s.up l.fifo
  let s := s.setPx k { l with lk := r.1, fifo := r.2.2 }
  { s with out := s.out ++ r.2.1.map fun (x : TxFrame) => Out.px k x.fseq x.f }

/-- Sends a CREDIT frame of link `k` of the block (R499). -/
def State.pxCredit (s : State) (k : Nat) : State :=
  { s with out := s.out ++ [Out.pxControl k 3 ((List.range 8).flatMap fun v => leBytes 2 (mget (s.pxLink k).lk.rxLimit v 0))] }

/-- Sends ACK(EXPECTED − 1) (R504). -/
def State.pxAck (s : State) (k : Nat) : State :=
  let l := (s.pxLink k).lk
  let s := { s with out := s.out ++ [Out.pxControl k 4 (leBytes 4 ((l.expected + 2 ^ 24 - 1) % 2 ^ 24))] }
  s.setPxLk k { l with acked := 0, ackDue := none }

/-- Sends NAK(EXPECTED), counted in NAKS_SENT. -/
def State.pxNak (s : State) (k : Nat) : State :=
  let l := s.pxLink k
  let s := { s with out := s.out ++ [Out.pxControl k 5 (leBytes 4 l.lk.expected)] }
  s.setPx k { l with lk := { l.lk with nakAt := some s.up }, naks := (l.naks + 1) % 2 ^ 32 }

/-- Returns credits of a frame that leaves the receive buffer (R498, R531). (log 24, DEDUCED) -/
def State.pxReturn (s : State) (k vl c : Nat) : State :=
  let l := (s.pxLink k).lk
  if l.st ≠ .up ∨ c = 0 then s
  else (s.setPxLk k { l with rxLimit := mset l.rxLimit vl ((mget l.rxLimit vl 0 + c) % 65536) }).pxCredit k

/-! ### Link-down (R543) -/

/-- Link `k` of the block goes down for `reason`: accepted frames stay in the stream, and their credits return no more.
(log 24, DEDUCED) -/
def State.pxDown (s : State) (k reason : Nat) : State :=
  let l := s.pxLink k
  let lk := { l.lk with
    st := .down, reason := reason, since := s.up, eqLanes := [], replay := [], replaying := false, nakAt := none, ackDue := none
    acked := 0 }
  let s := s.setPx k { l with
    lk := lk, fifo := [], downs := (l.downs + 1) % 2 ^ 32, rejected := (l.rejected + l.fifo.length) % 2 ^ 32 }
  let keep := fun (i : PxItem) => if i.link = k then { i with credits := 0 } else i
  ({ s with pxb := { s.pxb with stream := s.pxb.stream.map keep } }).pxIrq (2 * k + 1)

/-- Resends every unacknowledged frame; the link goes down when REPLAY_COUNT exceeds 8 (R505). -/
def State.pxReplay (s : State) (k : Nat) : State :=
  let l := s.pxLink k
  if l.lk.replayCount + 1 > 8 then s.pxDown k 2 else
  let again := l.lk.replay.map fun (t : TxFrame) => Out.px k t.fseq t.f
  let sent := l.lk.replay.map fun (t : TxFrame) => { t with sentAt := s.up }
  let s := { s with out := s.out ++ again }
  s.setPx k { l with
    lk := { l.lk with replayCount := l.lk.replayCount + 1, replay := sent }, replayed := (l.replayed + again.length) % 2 ^ 32 }

/-- Releases the first `n` frames of the replay buffer of link `k` (R505). -/
def State.pxRelease (s : State) (k n : Nat) : State :=
  let l := (s.pxLink k).lk
  s.setPxLk k { l with replay := l.replay.drop n, replayCount := if n = 0 then l.replayCount else 0 }

/-! ### Training (R526) -/

/-- Begins attempt `a` on link `k`: px_eq_start; RATE200, RATE_FALLBACK and RX_CREDITS are those at the training's first (R542). -/
def State.pxBegin (s : State) (k a : Nat) : State :=
  let l := s.pxLink k
  let share : Map Nat := (List.range 8).map fun v => (v, l.rx.getD v 0)
  let lk : Link := { l.lk with st := .equalise, attempt := a, since := s.up, eqLanes := [] }
  s.setPx k { l with lk := if a = 1 then
    { lk with rate := if l.rate200 then 200 else 400, fallback := l.fallback, rxShare := share } else lk }

/-- An attempt fails: the next one, or DOWN after the third. -/
def State.pxFails (s : State) (k : Nat) : State :=
  let a := (s.pxLink k).lk.attempt
  if a < 3 then s.pxBegin k (a + 1) else s.pxDown k 6

/-- The block sends a training block (Table 16.19, R526). -/
def State.pxTraining (s : State) (k : Nat) : State :=
  let l := s.pxLink k
  let rates := b2n (l.lk.rate == 400) + 2 * b2n (l.lk.rate == 200 || l.lk.fallback)
  let body := leBytes 1 0xFF ++ leBytes 1 2 ++ leBytes 1 ((l.lk.eqLanes.map fun i => 2 ^ i).sum) ++ leBytes 1 rates
    ++ leBytes 8 s.pxb.id ++ (List.range 8).flatMap (fun v => leBytes 2 (mget l.lk.rxShare v 0)) ++ leBytes 4 0
  { s with out := s.out ++ [Out.pxControl k 0xFF body] }

/-- Link `k` of the block comes UP with a module. -/
def State.pxUp (s : State) (k rate lanes partner : Nat) (limits : List Nat) : State :=
  let l := (s.pxLink k).lk
  let lim : Map Nat := (List.range 8).map fun v => (v, limits.getD v 0)
  (s.setPxLk k { l with
    st := .up, role := 1, partner := partner, trained := rate, lanes := lanes, txLimit := lim, txUsed := []
    rxLimit := l.rxShare, rxUsed := [], nextFseq := 0, expected := 0, replayCount := 0, replaying := false, replay := []
    nakAt := none, spoiled := false, acked := 0, ackDue := none, since := s.up }).pxIrq (2 * k)

/-! ### Receive side and delivery stream (R528-R531, R535, R537) -/

/-- The sink beats of `n` 64 B lines from beat `j` on of a payload whose first byte lies at `a` (R530). -/
def sinkBeats (k a : Nat) (bs : Bytes) (j : Nat) : Nat → List PxBeat
  | 0 => []
  | n + 1 =>
    let base := a / 64 * 64 + 64 * j
    let b := if j = 0 then bs.take (64 - a % 64) else (bs.drop (64 * j - a % 64)).take 64
    .sink k base (if j = 0 then a % 64 else 0) b (n == 0) :: sinkBeats k a bs (j + 1) n

/-- The beats of a RESPONSE frame (R535). -/
def respBeats (k rtag status off : Nat) (last : Bool) (bs : Bytes) (j : Nat) : Nat → List PxBeat
  | 0 => []
  | n + 1 => .resp k rtag status (off + 64 * j) ((bs.drop (64 * j)).take 64) (last && n == 0)
      :: respBeats k rtag status off last bs (j + 1) n

/-- What an accepted frame presents in the delivery stream; none: it is discarded (R528). -/
def pxBeats (k typ : Nat) (h bs : Bytes) : Option (List PxBeat) :=
  let f := fld h
  match typ with
  | 1 =>
    let a := f 8 6
    match f 0 1 % 4 with
    | 0 => if a + bs.length > 2 ^ 48 then none
      else some (if bs.isEmpty then [] else sinkBeats k a bs 0 ((a % 64 + bs.length + 63) / 64))
    | 2 => some (respBeats k (f 2 2) (f 1 1) a (bit (f 0 1) 2) bs 0 (max 1 ((bs.length + 63) / 64)))
    | _ => none
  | 9 => if f 0 1 % 16 = 3 then some [.layerEnd k (f 1 1 % 64) (f 2 1 % 8) (f 4 2) (f 8 4)] else none
  | _ => none

/-- Frames without beats at the head of the stream leave it (R530, R531). (log 24, DEDUCED) -/
def State.pxDrain (s : State) : List PxItem → State
  | [] => { s with pxb := { s.pxb with stream := [] } }
  | i :: is => if i.beats.isEmpty then (s.pxReturn i.link i.vl i.credits).pxDrain is
    else { s with pxb := { s.pxb with stream := i :: is } }

/-- The block accepts a reliable frame of `len` bytes on VL `vl` of link `k` (R504). (log 24, DEDUCED) -/
def State.pxAccept (s : State) (k vl len : Nat) : State :=
  let l := (s.pxLink k).lk
  let c := (len + 255) / 256
  let l := { l with
    expected := (l.expected + 1) % 2 ^ 24, rxUsed := mset l.rxUsed vl ((mget l.rxUsed vl 0 + c) % 65536)
    nakAt := none, spoiled := false, acked := l.acked + 1, ackDue := some (l.ackDue.getD (s.up + 500)) }
  let s := s.setPxLk k l
  if l.acked ≥ 32 then s.pxAck k else s

/-- A watch that covers a byte of the beat sets its cause (R539). -/
def State.pxWatch (s : State) (b : PxBeat) : State :=
  match b with
  | .sink _ addr first data _ =>
    let lo := addr + first
    s.pxb.watches.foldl (fun s w => if lo < w.2.2 ∧ w.2.1 < lo + data.length ∧ w.2.1 < w.2.2 then s.pxIrq (8 + w.1) else s) s
  | _ => s

/-! ### Commands -/

/-- PX_RESET (R544): `level` is the level of px_rst_n. (log 24, DEDUCED) -/
def execPxReset (level : Bool) (s : State) : Res :=
  .next (if level then { s with pxb := { s.pxb with low := false } } else { s with pxb := { low := true } })

/-- Beats of a payload (R533). -/
def beatsOf (n : Nat) : Nat := max 1 ((n + 63) / 64)

/-- Beats of requests, and markers, in a link's FIFOs (Table 17.2). -/
def fifoBeats (fs : List LFrame) : Nat := ((fs.filter fun f => f.typ == 2).map fun f => beatsOf f.payload.length).sum
def fifoMarks (fs : List LFrame) : Nat := (fs.filter fun f => f.typ == 9).length

/-- PX_REQUEST (R533, R534): a request of `beats` beats whose px_rq_len is `len`. While the request FIFO lacks room its beats do
not transfer. (log 24, DEDUCED) -/
def execPxRequest (kind len beats : Nat) (r : Req) (s : State) : Res :=
  .next <|
    let l := s.pxLink r.link
    if s.pxOff r.link then s
    else if kind = 0 ∨ 6 < kind ∨ len > l.txMax ∨ beats ≠ beatsOf len ∨ l.lk.st ≠ .up then (s.pxRejected r.link 1).pxIrq 4
    else if fifoBeats l.fifo + beats > 256 then s
    else
      let h := reqHdr kind r.colour r.part r.queue r.select r.rtag r.value r.first r.count (r.addr % 2 ^ 48)
      let f : LFrame := { typ := 2, vl := r.vl, hdr := h, payload := slice r.payload 0 len }
      (s.setPx r.link { l with fifo := l.fifo ++ [f] }).pxPump r.link

/-- PX_MARKER (R536). -/
def execPxMarker (k event part plan pos : Nat) (s : State) : Res :=
  .next <|
    let l := s.pxLink k
    if s.pxOff k then s
    else if (event ≠ 1 ∧ event ≠ 2) ∨ l.lk.st ≠ .up then (s.pxRejected k 1).pxIrq 4
    else if fifoMarks l.fifo ≥ 16 then s
    else
      let h := leBytes 1 event ++ leBytes 1 part ++ leBytes 1 plan ++ leBytes 1 0 ++ leBytes 2 (if event = 1 then 0 else pos)
        ++ leBytes 18 0
      let f : LFrame := { typ := 9, vl := 0, hdr := h }
      (s.setPx k { l with fifo := l.fifo ++ [f] }).pxPump k

/-- PX_FRAME_ACCEPT (R528): a frame of TYPE `typ` that R504 accepts. One beyond its VL's credits, out of its type's range, or of a TYPE that is no
reliable frame, takes the link down (R496). -/
def execPxFrameAccept (k typ vl : Nat) (hdr payload : Bytes) (s : State) : Res :=
  .next <|
    let lk := (s.pxLink k).lk
    let len := 36 + payload.length
    let c := (len + 255) / 256
    if s.pxOff k ∨ lk.st ≠ .up then s
    else if (mget lk.rxLimit vl 0 + 65536 - mget lk.rxUsed vl 0) % 65536 < c ∨ !([1, 2, 6, 7, 8, 9].contains typ) ∨
        vl ≥ 8 ∨ payload.length > (if typ = 6 then 8200 else 8192) then s.pxDown k 3
    else
      let s := s.pxAccept k vl len
      match pxBeats k typ hdr payload with
      | none =>
        let l := s.pxLink k
        (s.setPx k { l with discarded := (l.discarded + 1) % 2 ^ 32 }).pxReturn k vl c
      | some bs =>
        let i : PxItem := { link := k, vl := vl, credits := c, beats := bs }
        s.pxDrain (s.pxb.stream ++ [i])

/-- PX_DELIVERY_BEAT (R531): the beat at the front of the delivery stream transfers. -/
def execPxDeliveryBeat (s : State) : Res :=
  .next <|
    match s.pxb.stream with
    | [] => s
    | i :: is =>
      match i.beats with
      | [] => s.pxDrain (i :: is)
      | b :: bs => (({ s with out := s.out ++ [Out.beat b] }).pxWatch b).pxDrain ({ i with beats := bs } :: is)

/-- LINK_CTRL of link `k` is written `v` (R526, R542). (log 18, DESIGN CHOICE; log 23, DESIGN CHOICE) -/
def State.pxCtrl (s : State) (k v : Nat) : State :=
  if s.pxOff k ∨ (k = 1 ∧ !Config.twoLinks) then s else
  let l := s.pxLink k
  let s := s.setPx k { l with enable := bit v 0, rate200 := bit v 1, fallback := bit v 2 }
  if bit v 0 then (if l.lk.st = .disabled then s.pxBegin k 1 else s)
  else match l.lk.st with
    | .disabled => s
    | .down => s
    | _ => s.pxDown k 5

/-- PX_LINK_ENABLE (R526): LINK_CTRL is written `v` with ENABLE 1. (log 23, DESIGN CHOICE) -/
def execPxLinkEnable (k v : Nat) (s : State) : Res := .next (s.pxCtrl k (v / 2 * 2 + 1))

/-- PX_LINK_DISABLE (R542): LINK_CTRL is written `v` with ENABLE 0. (log 23, DESIGN CHOICE) -/
def execPxLinkDisable (k v : Nat) (s : State) : Res := .next (s.pxCtrl k (v / 2 * 2))

/-- Bits of IRQ_STATUS and IRQ_ENABLE (Table 17.11). -/
def irqBits : List Nat := [0, 1, 2, 3, 4, 8, 9, 10, 11, 12, 13, 14, 15]
/-- The bits of `v` that `irqBits` names and `sel` selects. -/
def irqMask (v : Nat) (sel : Nat → Bool) : Nat := ((irqBits.filter fun b => bit v b && sel b).map fun b => 2 ^ b).sum

/-- PX_IRQ_CLEAR (R539): a 1 clears its bit. -/
def execPxIrqClear (v : Nat) (s : State) : Res :=
  .next (if s.pxb.low then s else { s with pxb := { s.pxb with irqStatus := irqMask s.pxb.irqStatus fun b => !bit v b } })

/-- A write of a register of link `k` at `o` within its group (Table 17.11); outside its range it is ignored (R541). -/
def PxLink.write (l : PxLink) (o v : Nat) : PxLink :=
  match o with
  | 0x08 =>
    let n := v % 2 ^ 14
    if n % 64 = 0 ∧ 64 ≤ n ∧ n ≤ 8192 then { l with txMax := n } else l
  | 0x0C =>
    let n := v % 2 ^ 16
    if 100 ≤ n ∧ n ≤ 60000 then { l with retrain := n } else l
  | o =>
    if 0x10 ≤ o ∧ o ≤ 0x1C ∧ o % 4 = 0 then
      let i := (o - 0x10) / 4
      let rx := (l.rx.set (2 * i) (v % 2 ^ 16)).set (2 * i + 1) (v / 2 ^ 16 % 2 ^ 16)
      if rx.all (36 ≤ ·) ∧ rx.sum ≤ 1024 then { l with rx := rx } else l
    else l

/-- A 32-bit write of half `h` of a number. -/
def setHalf (x h v n : Nat) : Nat := if h = 0 then x / 2 ^ 32 * 2 ^ 32 + v % 2 ^ 32 else x % 2 ^ 32 + 2 ^ 32 * (v % 2 ^ n)

/-- PX_REGISTER_WRITE (R538, R541, R542, R545): reserved offsets and registers that are ro are ignored. (log 18, DESIGN CHOICE) -/
def execPxRegisterWrite (off v : Nat) (s : State) : Res :=
  .next <|
    if s.pxb.low then s
    else if off = 0x008 then { s with pxb := { s.pxb with id := setHalf s.pxb.id 0 v 32 } }
    else if off = 0x00C then { s with pxb := { s.pxb with id := setHalf s.pxb.id 1 v 32 } }
    else if off = 0x010 then { s with pxb := { s.pxb with irqStatus := irqMask s.pxb.irqStatus fun b => !bit v b } }
    else if off = 0x014 then { s with pxb := { s.pxb with irqEnable := irqMask v fun _ => true } }
    else if off = 0x040 ∨ off = 0x080 then s.pxCtrl ((off - 0x40) / 0x40) v
    else if 0x040 < off ∧ off < 0x0C0 then
      let k := (off - 0x40) / 0x40
      if k = 1 ∧ !Config.twoLinks then s else s.setPx k ((s.pxLink k).write (off % 0x40) v)
    else if 0x100 ≤ off ∧ off < 0x180 ∧ off % 4 = 0 then
      let w := (off - 0x100) / 0x10
      let o := off % 0x10
      let x := mget s.pxb.watches w (0, 0)
      let x := if o < 8 then (setHalf x.1 (o / 4) v 16, x.2) else (x.1, setHalf x.2 (o / 4 - 2) v 16)
      { s with pxb := { s.pxb with watches := mset s.pxb.watches w x } }
    else s

/-- PX_LINK_DOWN (R543): link `k` of the block, UP, goes down for a reason 1-6. (log 24, DEDUCED) -/
def execPxLinkDown (k reason : Nat) (s : State) : Res :=
  .next (if s.pxOff k ∨ (s.pxLink k).lk.st ≠ .up ∨ reason = 0 ∨ 6 < reason then s else s.pxDown k reason)

end Sys2Proof.Machine
end

