-- ==== Sys2Proof/Machine/LinkCmds.lean ====
section
/-! DEFINITION. The commands of a Kwaxel link (16_kwaxel_link.md): REQ, MARK, DATA, COLL and LEND frames, credits, acknowledgement,
replay and training, on the module's links and on those of the UL1-PX block. -/

namespace Sys2Proof.Machine

/-! ### Requests (R507, R508) -/

/-- R507: the queue a REQ of a queue kind names takes it: its link is given to PARTITION and the queue is ENABLED and bound to it. -/
def State.reqQueue (s : State) (r : Req) : Bool :=
  let v := s.queue (64 * r.part + r.queue)
  s.part.setup.hasLink r.part r.link && v.st == .enabled && v.binding == 2 && v.link == r.link

/-- A failed check on a queue kind (R265, R507). -/
def State.reqBad (s : State) (r : Req) : State := (s.badDoorbell (64 * r.part + r.queue)).reject r.link

/-- SUBMIT: its descriptors join the ring at the tail. none: held while the ring lacks room or the OTT is at its bound.
(log 21, DEDUCED) -/
def State.onSubmit (s : State) (r : Req) : Option Res :=
  let q := 64 * r.part + r.queue
  let v := s.queue q
  let n := 2 ^ v.sqLog2
  let k := r.payload.length / 64
  if !s.reqQueue r ∨ r.payload.length % 64 ≠ 0 ∨ k = 0 ∨ 128 < k then some (.next (s.reqBad r))
  else if v.ottStall ∨ k > n - 1 - (v.tail + n - v.sqHead) % n then none
  else
    let put := fun (s : State) (i : Nat) =>
      s.windowWrite r.part (offOf v.sqBase.toNat + 64 * ((v.tail + i) % n)) (slice r.payload (64 * i) 64)
    some (.next (((List.range k).foldl put s).setTail q ((v.tail + k) % n)))

/-- TAIL: sets the tail of the queue (R265). -/
def State.onTail (s : State) (r : Req) : State :=
  let q := 64 * r.part + r.queue
  if !s.reqQueue r ∨ r.value ≥ 2 ^ (s.queue q).sqLog2 then s.reqBad r else s.setTail q r.value

/-- CJ_HEAD: frees journal entries (R265). -/
def State.onCjHead (s : State) (r : Req) : Res :=
  let q := 64 * r.part + r.queue
  if !s.reqQueue r ∨ r.value ≥ 2 ^ (s.queue q).cjLog2 then .next (s.reqBad r) else s.setCjHead q r.value

/-- PULL (R140, R508): position VALUE of plan SELECT for the named blocks, one OTT entry in the REQ's class. none: no entry.
(log 20, DEDUCED; log 21, DEDUCED) -/
def State.onPull (s : State) (r : Req) : Option Res :=
  let p := r.part
  let n := r.select % 8
  let b := s.planObj p n
  let v := s.plan p n
  let total := pBlocks b
  let bad := pMode b ≠ 2 ∨ r.value ≥ pOrderLen b ∨ !s.part.setup.hasLink p r.link
  let j : PlanJob := {
    no := v.next, pos := r.value, plan := b, cls := r.vl, pull := true, pre := r.colour % 4, first := r.first
    count := if r.count = 0 then total - r.first else min r.count total }
  match s.takeEntry (pushOp p n j) with
  | none => none
  | some (t, s) =>
    if bad then
      let s := if pMode b = 0 then s.idlePlan p n else s
      some (.next ((s.endOp t stBad 0 0 0).reject r.link))
    else
      let v := s.plan p n
      let s := s.setPlan p n { v with st := 1, pos := r.value, inForce := b, staged := [], next := v.next + 1, jobs := v.jobs ++ [{ j with tag := some t }] }
      some (.next (s.stagePositions p n r.value (r.value + pStageLead b + 1)))

/-- Sends a RESPONSE of link `r.link` to a read (R507, R508). -/
def State.respond (s : State) (r : Req) (sub vl status : Nat) (bs : Bytes) : State :=
  let f : LFrame := { typ := 1, vl := vl, hdr := dataHdr 2 1 status r.rtag 0 0, payload := bs }
  (s.place (48 + r.link) sub vl { len := s.unitLen (48 + r.link) f.len, frame := some f }).2

/-- R262, R507: a range of the operand window that a REQ may reach. -/
def State.reqWindow (s : State) (r : Req) (n : Nat) : Bool :=
  s.part.setup.hasLink r.part r.link && r.addr + n ≤ s.windowBytes r.part

/-- WINDOW_WRITE. -/
def State.onWindowWrite (s : State) (r : Req) : State :=
  if s.reqWindow r r.payload.length then s.windowWrite r.part r.addr r.payload else s.reject r.link

/-- WINDOW_READ. (log 21, DEDUCED) -/
def State.onWindowRead (s : State) (r : Req) : State :=
  if s.reqWindow r r.count ∧ 1 ≤ r.count ∧ r.count ≤ 8192 then s.respond r r.part r.vl 0 (rdN (s.window r.part) r.addr r.count)
  else (s.respond r r.part r.vl stProt []).reject r.link

/-- The byte at `a` of a lent lease; bytes the borrower has not written are left unspecified (R511). (log 22, DESIGN CHOICE) -/
def Lent.byte (e : Lent) (a : Nat) : Byte := (mget? e.mem a).getD (Config.freeByte ((e.order + 1) * 2 ^ 64 + a))

/-- The lent lease that a frame of link `n` may name: one of the link's partner. (log 21, DEDUCED) -/
def State.lentTo (s : State) (n id : Nat) : Option Lent := (mget? s.lk.lent id).filter fun e => e.partner == (s.link n).partner

/-- HBM traffic of a lent lease: the module subscriber in class 5 (R511). -/
def State.lentUnits (s : State) (e : Lent) (a n : Nat) : State := s.hbmUnits (2 ^ 32 + e.order) (a / 2 ^ 20) 64 5 0 n

/-- LEASE_READ (R508, R512). (log 21, DEDUCED) -/
def State.onLeaseRead (s : State) (r : Req) : State :=
  match s.lentTo r.link r.select with
  | some e =>
    if r.addr + r.count ≤ e.bytes ∧ 1 ≤ r.count ∧ r.count ≤ 8192 then
      (s.lentUnits e r.addr r.count).respond r 64 5 0 ((List.range r.count).map fun i => e.byte (r.addr + i))
    else (s.respond r 64 5 stLease []).reject r.link
  | none => (s.respond r 64 5 stLease []).reject r.link

/-! ### DATA frames (R497, R508, R512) -/

/-- Every read of slice (fid, layer) for `tag` under slot `k` has its data: the slice's bytes reach the operation, and a T1 copy is
placed; a copy read for a revocation moves to T1, or to T2 where T1 is at its high watermark, and leaves the lease (R145). -/
def State.leaseGot (s : State) (r : LeaseRd) : State :=
  let here := fun (x : LeaseRd) => x.tag == r.tag && x.fid == r.fid && x.layer == r.layer && x.slot == r.slot
  let rds := (s.lk.reads.map (·.2)).filter here
  if rds.any fun x => !x.done then s else
  let s := { s with lk := { s.lk with reads := s.lk.reads.filter fun e => !here e.2 } }
  match s.frame? r.fid with
  | none => s
  | some f =>
    let bad := ((rds.map (·.bad)).find? (· != 0)).getD 0
    let bs := (sortBy (fun (a b : LeaseRd) => a.off < b.off) rds).flatMap (·.data)
    let d := ofImage (s.frameGeo f) (f.slice r.layer).fill bs
    match r.tag with
    | some t =>
      let s := s.arrive t r.fid r.layer bad (if bad = 0 then d else [])
      let by_ := (((s.op? t).map fun o => (o.part, o.cls)).getD (f.creator, 5))
      if bad = 0 then s.promoteRead r.fid r.layer by_.1 by_.2 r.version d else s
    | none =>
      if bad ≠ 0 then s else
      let l := f.slice r.layer
      let moving := ((mget? s.lk.leases r.slot).any (·.revoking)) && l.heldN && l.lender == r.slot
      let s := if moving ∧ s.atHigh 1 ∧ !bit f.flags fNoFlash ∧ l.inTN then s.startWriteBack r.fid r.layer false true
        else s.promoteRead r.fid r.layer f.creator 5 r.version d
      let l := s.sliceOf r.fid r.layer
      if moving ∧ (l.inT0 ∨ l.inT1 ∨ l.inT2) then (s.loseTN r.fid r.layer).leaseCheck r.slot else s

/-- A RESPONSE frame of link `n` (R508). -/
def State.onResponse (s : State) (n rtag status : Nat) (last : Bool) (d : Bytes) : State :=
  match mget? s.lk.reads rtag with
  | some r =>
    if r.link ≠ n ∨ r.done then s.reject n else
    let r := { r with data := r.data ++ d, done := last || status != 0, bad := if status ≠ 0 then status else r.bad }
    let s := { s with lk := { s.lk with reads := mset s.lk.reads rtag r } }
    if r.done then s.leaseGot r else s
  | none => s.reject n

/-- A LEASE write (R512): accepted only for an ACTIVE lease of the sending module, inside its bytes. -/
def State.onLeaseWrite (s : State) (n id a : Nat) (d : Bytes) : State :=
  match s.lentTo n id with
  | some e =>
    if e.revoking ∨ a + d.length > e.bytes then s.reject n else
    let m := ((List.range d.length).zip d).foldl (fun m x => mset m (a + x.1) x.2) e.mem
    ({ s with lk := { s.lk with lent := mset s.lk.lent id { e with mem := m } } }).lentUnits e a d.length
  | none => s.reject n

/-! ### LEND frames (R511, R512, Table 16.12) -/

/-- OFFER: what the partner on link `n` can lend; a shortfall is asked for. -/
def State.onOfferFrame (s : State) (n bytes : Nat) : State :=
  ({ s with lk := { s.lk with offers := mset s.lk.offers n bytes } }).borrow

/-- REQUEST: GRANT of the smaller of the bytes wanted and on offer, or DENY. -/
def State.onRequest (s : State) (n bytes : Nat) : State :=
  let z := min bytes s.onOffer / 2 ^ 30 * 2 ^ 30
  match lowFree s.lk.lent 16 with
  | some id =>
    if z = 0 then s.sendLend n 4 0 0 0 0 else
    let term := s.obj 0x1A10 3 60000
    let notice := s.obj 0x1A10 4 20
    let e : Lent := {
      partner := (s.link n).partner, bytes := z, termEnd := s.up + ms term, notice := notice, order := s.lk.lentNo }
    let s := { s with lk := { s.lk with lent := mset s.lk.lent id e, lentNo := s.lk.lentNo + 1 } }
    ((s.sendLend n 3 id term notice z).leaseEvent (0x100 + id) 6 z).sendOffers
  | none => s.sendLend n 4 0 0 0 0

/-- The lender slot of a lease by its lender's LEASE_ID. -/
def State.slotOf (s : State) (n id : Nat) : Option (Nat × Lease) :=
  s.lk.leases.find? fun e => e.2.partner == (s.link n).partner && e.2.id == id

/-- GRANT: a new lease in the lowest free slot, or a new term. -/
def State.onGrant (s : State) (n id term notice bytes : Nat) : State :=
  match s.slotOf n id with
  | some (k, e) =>
    if e.revoking then s else
    ({ s with lk := { s.lk with
      leases := mset s.lk.leases k { e with termAt := s.up, termEnd := s.up + ms term, notice := notice, asked := false } } }).leaseEvent
      k 2 e.bytes
  | none =>
    match s.lk.asked, lowFree s.lk.leases 16 with
    | some _, some k =>
      let e : Lease := {
        id := id, partner := (s.link n).partner, bytes := bytes, termAt := s.up, termEnd := s.up + ms term, notice := notice }
      (({ s with lk := { s.lk with leases := mset s.lk.leases k e, asked := none } }).leaseEvent k 1 bytes).borrow
    | _, _ => s.reject n

/-- RENEW: a new term of an ACTIVE lease; one being revoked is ignored (R517); any other is denied. -/
def State.onRenew (s : State) (n id : Nat) : State :=
  match s.lentTo n id with
  | some e =>
    if e.revoking then s else
    let term := s.obj 0x1A10 3 60000
    let notice := s.obj 0x1A10 4 20
    let e := { e with termEnd := s.up + ms term, notice := notice }
    ({ s with lk := { s.lk with lent := mset s.lk.lent id e } }).sendLend n 3 id term notice e.bytes
  | none => s.sendLend n 4 id 0 0 0

/-- REVOKE: the lease becomes REVOKING until its notice ends. -/
def State.onRevoke (s : State) (n id notice : Nat) : State :=
  match s.slotOf n id with
  | some (k, _) => s.revokeLease k (s.up + ms notice)
  | none => s

/-- RELEASED: the lent bytes return to T1. -/
def State.onReleased (s : State) (n id : Nat) : State :=
  match s.lentTo n id with
  | some _ => s.endLent id
  | none => s

/-- The effect of a LEND frame of KIND `kind` on link `n`. -/
def State.onLend (s : State) (n : Nat) (i : Instr) : State :=
  let s := s.linkCount n 0x14
  match i with
  | .offer _ b => s.onOfferFrame n b
  | .request _ b => s.onRequest n b
  | .grant _ id t k b => s.onGrant n id t k b
  | .deny _ id => if (s.slotOf n id).any (·.2.asked) ∨ s.lk.asked ≠ some n then s else { s with lk := { s.lk with asked := none } }
  | .renew _ id => s.onRenew n id
  | .revoke _ id k => s.onRevoke n id k
  | .released _ id => s.onReleased n id
  | _ => s

/-! ### Applying frames -/

/-- The COLL frame a command stands for. -/
def collOf (vl set member kind : Nat) (fp32 : Bool) (part round off total : Nat) (d : Bytes) : LFrame :=
  { typ := 7, vl := vl, hdr := collHdr set member kind part round off total fp32, payload := d }

/-- What a received frame does when it is applied; none: it cannot be applied yet (R502). -/
def State.applyFrame (s : State) (i : Instr) : Option Res :=
  match i with
  | .submit r => s.onSubmit r
  | .tail r => some (.next (s.onTail r))
  | .cjHead r => some (s.onCjHead r)
  | .pull r => s.onPull r
  | .windowWrite r => some (.next (s.onWindowWrite r))
  | .windowRead r => some (.next (s.onWindowRead r))
  | .leaseRead r => some (.next (s.onLeaseRead r))
  | .markStepBegin n p k => some (.next (s.mark n p k 1 0))
  | .markStart n p k i => some (.next (s.mark n p k 2 i))
  | .collFrame n vl set m kind fp p rd off total d => (s.collFrame n (collOf vl set m kind fp p rd off total d)).map .next
  | .dataResponse n _ rtag st _ last d => some (.next (s.onResponse n rtag st last d))
  | .leaseWrite n _ id a d => some (.next (s.onLeaseWrite n id a d))
  | .sinkFrameReject n _ _ _ => some (.next (s.reject n))
  | .offer n _ => some (.next (s.onLend n i))
  | .request n _ => some (.next (s.onLend n i))
  | .grant n _ _ _ _ => some (.next (s.onLend n i))
  | .deny n _ => some (.next (s.onLend n i))
  | .renew n _ => some (.next (s.onLend n i))
  | .revoke n _ _ => some (.next (s.onLend n i))
  | .released n _ => some (.next (s.onLend n i))
  | i => some (.next (zdpApply i s))

/-- A frame arrives on link `n`. (log 7, DEDUCED) -/
def State.frameIn (s : State) (n : Nat) (i : Instr) : Res :=
  s.receiveRes n (heldFrame i).1 (heldFrame i).2.1 i fun s => s.applyFrame i

/-- Applies the frames held back on VL `vl` of link `n` from the front until one cannot be applied (R502). -/
def State.applyHeld (s : State) (n vl : Nat) : Nat → Res
  | 0 => .next s
  | k + 1 =>
    match (s.link n).held.find? fun h => (heldFrame h).1 == vl with
    | none => .next s
    | some i =>
      match s.applyFrame i with
      | none => .next s
      | some (.next t) =>
        let l := t.link n
        let t := t.setLink n { l with held := l.held.erase i }
        let t := if l.st = .up then t.returnCredits n vl (((heldFrame i).2.1 + 255) / 256) else t
        t.applyHeld n vl k
      | some r => r

/-- Applies held frames on the VLs `vs` in turn. -/
def State.applyVls (s : State) (n : Nat) : List Nat → Res
  | [] => .next s
  | v :: vs => match s.applyHeld n v (s.link n).held.length with
    | .next t => t.applyVls n vs
    | r => r

/-- SUBMIT (R266, R278, R507). -/
def execSubmit (r : Req) (s : State) : Res := s.frameIn r.link (.submit r)
/-- TAIL (R265, R507). -/
def execTail (r : Req) (s : State) : Res := s.frameIn r.link (.tail r)
/-- CJ_HEAD (R265, R507). -/
def execCjHead (r : Req) (s : State) : Res := s.frameIn r.link (.cjHead r)
/-- PULL (R140, R507, R508). -/
def execPull (r : Req) (s : State) : Res := s.frameIn r.link (.pull r)
/-- WINDOW_WRITE (R507, R508). -/
def execWindowWrite (r : Req) (s : State) : Res := s.frameIn r.link (.windowWrite r)
/-- WINDOW_READ (R507, R508). -/
def execWindowRead (r : Req) (s : State) : Res := s.frameIn r.link (.windowRead r)
/-- LEASE_READ (R507, R512). -/
def execLeaseRead (r : Req) (s : State) : Res := s.frameIn r.link (.leaseRead r)
/-- REQ_HELD_APPLY (R266, R502): held frames of a link are applied as far as room allows. -/
def execReqHeldApply (n : Nat) (s : State) : Res := s.applyVls n [0, 1, 2, 3, 4, 5, 6, 7]
/-- MARK STEP_BEGIN (R509). -/
def execMarkStepBegin (n p k : Nat) (s : State) : Res := s.frameIn n (.markStepBegin n p k)
/-- MARK START (R509). -/
def execMarkStart (n p k i : Nat) (s : State) : Res := s.frameIn n (.markStart n p k i)
/-- DATA RESPONSE (R508). -/
def execDataResponse (n vl rtag status addr : Nat) (last : Bool) (d : Bytes) (s : State) : Res :=
  s.frameIn n (.dataResponse n vl rtag status addr last d)
/-- DATA LEASE write (R512). -/
def execLeaseWrite (n vl id a : Nat) (d : Bytes) (s : State) : Res := s.frameIn n (.leaseWrite n vl id a d)
/-- DATA SINK at the module (R497): discarded and counted. -/
def execSinkFrameReject (n vl a : Nat) (d : Bytes) (s : State) : Res := s.frameIn n (.sinkFrameReject n vl a d)
/-- COLL_FRAME (R515). -/
def execCollFrame (n vl set member kind : Nat) (fp32 : Bool) (p round off total : Nat) (d : Bytes) (s : State) : Res :=
  s.frameIn n (.collFrame n vl set member kind fp32 p round off total d)
/-- OFFER (R511, R512). -/
def execOffer (n b : Nat) (s : State) : Res := s.frameIn n (.offer n b)
/-- REQUEST (R511). -/
def execRequest (n b : Nat) (s : State) : Res := s.frameIn n (.request n b)
/-- GRANT (R512). -/
def execGrant (n id term notice b : Nat) (s : State) : Res := s.frameIn n (.grant n id term notice b)
/-- DENY (R511). (log 21, DEDUCED) -/
def execDeny (n id : Nat) (s : State) : Res := s.frameIn n (.deny n id)
/-- RENEW (R511, R517). -/
def execRenew (n id : Nat) (s : State) : Res := s.frameIn n (.renew n id)
/-- REVOKE (R145, R512). -/
def execRevoke (n id notice : Nat) (s : State) : Res := s.frameIn n (.revoke n id notice)
/-- RELEASED (R511). -/
def execReleased (n id : Nat) (s : State) : Res := s.frameIn n (.released n id)

/-! ### Timers of lending -/

/-- LEND_OFFER_PERIOD (R511): every 100 ms OFFER goes to every module partner. -/
def execLendOfferPeriod (s : State) : Res :=
  .next <|
    let s := s.timeTo (s.lk.offerAt + ms 100)
    ({ s with lk := { s.lk with offerAt := s.up } }).sendOffers

/-- LEASE_RENEW_TIMER (R512): half the term of the lease in slot `k` has passed. -/
def execLeaseRenewTimer (k : Nat) (s : State) : Res :=
  .next <|
    match mget? s.lk.leases k with
    | none => s
    | some e =>
      if e.revoking ∨ e.asked then s else
      let s := s.timeTo (e.termAt + (e.termEnd - e.termAt) / 2)
      let s := { s with lk := { s.lk with leases := mset s.lk.leases k { e with asked := true } } }
      match s.linksTo e.partner with
      | x :: _ => s.sendLend x 5 e.id 0 0 0
      | [] => s

/-- LEASE_TERM_END (Table 16.12): no renewal by NOTICE_MS before the term ends. (log 22, DESIGN CHOICE) -/
def execLeaseTermEnd (k : Nat) (s : State) : Res :=
  .next <|
    match mget? s.lk.leases k with
    | none => s
    | some e => if e.revoking then s else (s.timeTo (e.termEnd - ms e.notice)).revokeLease k e.termEnd

/-- LEASE_NOTICE_END (R145, R511, Table 16.12): the notice of the borrowed lease in slot `k`, or of the lent lease `k`, ends. A lent lease
whose term ran out unrenewed ends too. (log 22, DESIGN CHOICE) -/
def execLeaseNoticeEnd (lent : Bool) (k : Nat) (s : State) : Res :=
  .next <|
    if lent then
      match mget? s.lk.lent k with
      | none => s
      | some e => (s.timeTo (if e.revoking then e.noticeEnd else e.termEnd)).endLent k
    else
      match mget? s.lk.leases k with
      | none => s
      | some e =>
        if !e.revoking then s else
        let s := s.timeTo e.noticeEnd
        let s := match s.linksTo e.partner with
          | x :: _ => s.sendLend x 7 e.id 0 0 0
          | [] => s
        s.endLease k stLease 4

/-! ### Credits, acknowledgement and replay (R498-R505) -/

/-- Limits of a CREDIT frame or a training block by VL. -/
def limitMap (ls : List Nat) : Map Nat := (List.range 8).map fun v => (v, ls.getD v 0 % 65536)

/-- The number of frames of a replay buffer up to and including FSEQ `f`. -/
def ackedBy (r : List TxFrame) (f : Nat) : Option Nat := (r.findIdx? fun t => t.fseq == f).map (· + 1)

/-- CREDIT (R499): the transmitter takes the limits as current. -/
def execCredit (e : LinkEnd) (ls : List Nat) (s : State) : Res :=
  .next <|
    match e with
    | .module n =>
      let l := s.link n
      if l.st = .up then s.setLink n { l with txLimit := limitMap ls } else s
    | .block k =>
      let l := (s.pxLink k).lk
      if s.pxOff k ∨ l.st ≠ .up then s else (s.setPxLk k { l with txLimit := limitMap ls }).pxPump k

/-- CREDIT_PERIOD (R499). -/
def execCreditPeriod (e : LinkEnd) (s : State) : Res :=
  .next <|
    match e with
    | .module n => if (s.link n).st = .up then s.sendCredit n else s
    | .block k => if s.pxOff k ∨ (s.pxLink k).lk.st ≠ .up then s else s.pxCredit k

/-- ACK (Table 16.6): frames up to FSEQ `f` are released. -/
def execAck (e : LinkEnd) (f : Nat) (s : State) : Res :=
  .next <|
    match e with
    | .module n =>
      match ackedBy (s.link n).replay f with
      | some k => s.releaseFrames n k
      | none => s
    | .block k =>
      match ackedBy (s.pxLink k).lk.replay f with
      | some i => if s.pxOff k then s else (s.pxRelease k i).pxPump k
      | none => s

/-- ACK_DELAY_EXPIRY (R504). (log 42, DESIGN CHOICE) -/
def execAckDelayExpiry (e : LinkEnd) (s : State) : Res :=
  .next <|
    match e with
    | .module n =>
      match (s.link n).ackDue with
      | some t => (s.timeTo t).sendAck n
      | none => s
    | .block k =>
      match (s.pxLink k).lk.ackDue with
      | some t => if s.pxOff k then s else (s.timeTo t).pxAck k
      | none => s

/-- NAK (Table 16.6): frames before FSEQ `f` are released and the rest replayed; a NAK of no unacknowledged frame is ignored. NAKs are
counted. -/
def execNak (e : LinkEnd) (f : Nat) (s : State) : Res :=
  .next <|
    match e with
    | .module n =>
      if (s.link n).st ≠ .up then s else
      let s := s.linkCount n 9
      match (s.link n).replay.findIdx? fun t => t.fseq == f with
      | some k =>
        let c := (s.link n).replayCount
        let s := s.releaseFrames n k
        (s.setLink n { s.link n with replayCount := c }).replayAll n
      | none => s
    | .block k =>
      if s.pxOff k ∨ (s.pxLink k).lk.st ≠ .up then s else
      match (s.pxLink k).lk.replay.findIdx? fun t => t.fseq == f with
      | some i =>
        let c := (s.pxLink k).lk.replayCount
        let s := s.pxRelease k i
        ((s.setPxLk k { (s.pxLink k).lk with replayCount := c }).pxReplay k).pxPump k
      | none => s

/-- A NAK may be sent now (Table 16.5). (log 23, DESIGN CHOICE) -/
def Link.mayNak (l : Link) (t : Nat) : Bool := match l.nakAt with | none => true | some a => a + us 4 ≤ t

/-- FRAME_DISCARDED (Table 16.5): `cause` 0 CRC, 1 uncorrectable codeword, 2 FSEQ ahead of EXPECTED, 3 a duplicate.
(log 7, DEDUCED) -/
def execFrameDiscarded (e : LinkEnd) (cause : Nat) (s : State) : Res :=
  .next <|
    match e with
    | .module n =>
      let l := s.link n
      if l.st ≠ .up then s
      else if cause = 3 then s.sendAck n
      else
        let s := if cause = 0 then s.linkCount n 7 else if cause = 1 then s.linkCount n 6 else s
        let s := s.setLink n { l with spoiled := l.spoiled || cause ≤ 1 }
        if l.mayNak s.up then s.sendNak n else s
    | .block k =>
      let x := s.pxLink k
      if s.pxOff k ∨ x.lk.st ≠ .up then s
      else if cause = 3 then s.pxAck k
      else
        let s := s.setPx k { x with crcDiscards := if cause = 0 then (x.crcDiscards + 1) % 2 ^ 32 else x.crcDiscards }
        if x.lk.mayNak s.up then s.pxNak k else s

/-- REPLAY_TIMEOUT (Table 16.6): the oldest unacknowledged frame was sent 4 µs ago. -/
def execReplayTimeout (e : LinkEnd) (s : State) : Res :=
  .next <|
    match e with
    | .module n =>
      match (s.link n).replay with
      | [] => s
      | t :: _ => ((s.timeTo (t.sentAt + us 4)).linkCount n 0x0B).replayAll n
    | .block k =>
      match (s.pxLink k).lk.replay with
      | [] => s
      | t :: _ => if s.pxOff k then s else (s.timeTo (t.sentAt + us 4)).pxReplay k

/-! ### Training (Table 16.18) -/

/-- Lanes of link `n` that can carry data: those that equalised and are in service. (log 23, DESIGN CHOICE) -/
def State.goodLanes (s : State) (n : Nat) (ls : List Nat) : List Nat :=
  (List.range 4).filter fun i => ls.contains i && !s.fencedUnit 0xC (4 * n + i)

/-- A lane pair of a link's own lanes. -/
def hasPair (ls : List Nat) : Bool := (ls.contains 0 && ls.contains 1) || (ls.contains 2 && ls.contains 3)

/-- A link leaves EQUALISE with the lanes `ls`. -/
def State.equalised (s : State) (e : LinkEnd) (ls : List Nat) : State :=
  match e with
  | .module n =>
    let l := s.link n
    if l.st ≠ .equalise then s else
    let s := s.setLink n { l with eqLanes := s.goodLanes n ls }
    if hasPair (s.link n).eqLanes then (s.setLink n { s.link n with st := .exchange }).sendTraining n else s.attemptFails n
  | .block k =>
    let l := (s.pxLink k).lk
    if s.pxOff k ∨ l.st ≠ .equalise then s else
    let own := (List.range 4).filter fun i => ls.contains i
    let s := s.setPxLk k { l with eqLanes := own }
    if hasPair own then (s.setPxLk k { (s.pxLink k).lk with st := .exchange }).pxTraining k else s.pxFails k

/-- EQUALISATION_DONE: 802.3ck training ended on every lane, and succeeded on `ls`. -/
def execEqualisationDone (e : LinkEnd) (ls : List Nat) (s : State) : Res := .next (s.equalised e ls)

/-- When the attempt of a link began, while it trains. -/
def State.trainSince (s : State) (e : LinkEnd) : Option Nat :=
  let l := match e with
    | .module n => s.link n
    | .block k => (s.pxLink k).lk
  if l.st = .equalise ∨ l.st = .exchange then some l.since else none

/-- EQUALISE_TIMEOUT: 300 ms without equalisation on every lane; which lanes equalised is the PHY's, a free value.
(log 23, DESIGN CHOICE) -/
def execEqualiseTimeout (e : LinkEnd) (s : State) : Res :=
  .next <|
    match s.trainSince e with
    | none => s
    | some t =>
      let (h, s) := (s.timeTo (t + ms 300)).takeFree
      let m := (Config.freeByte h).toNat % 15
      s.equalised e ((List.range 4).filter fun i => bit m i)

/-- TRAINING_BLOCK (R521): 8 identical blocks of the partner with SEEN set bring the link UP from EXCHANGE; a block while UP takes
it down and training begins (R517). -/
def execTrainingBlock (e : LinkEnd) (role lanes rates id : Nat) (ls : List Nat) (s : State) : Res :=
  .next <|
    let his := (List.range 4).filter fun i => bit lanes i
    match e with
    | .module n =>
      let l := s.link n
      if l.st = .up then (s.linkDown n 4 .down).beginAttempt n 1
      else if l.st ≠ .exchange then s
      else match chooseRate l.eqLanes his l.rate l.fallback rates with
        | some (rate, mask) => s.linkUp n rate mask role id (ls.flatMap (leBytes 2))
        | none => s.attemptFails n
    | .block k =>
      let x := s.pxLink k
      if s.pxOff k then s
      else if x.lk.st = .up then (s.pxDown k 4).pxBegin k 1
      else if x.lk.st ≠ .exchange then s
      else if role ≠ 1 then s.pxFails k
      else match chooseRate x.lk.eqLanes his x.lk.rate x.lk.fallback rates with
        | some (rate, mask) => s.pxUp k rate mask id ls
        | none => s.pxFails k

/-- TRAINING_ATTEMPT_TIMEOUT: an attempt reaches 500 ms. -/
def execTrainingAttemptTimeout (e : LinkEnd) (s : State) : Res :=
  .next <|
    match s.trainSince e with
    | none => s
    | some t =>
      let s := s.timeTo (t + ms 500)
      match e with
      | .module n => s.attemptFails n
      | .block k => if s.pxOff k then s else s.pxFails k

/-- RETRAIN_INTERVAL: a DOWN link with ENABLE 1 trains again. -/
def execRetrainInterval (e : LinkEnd) (s : State) : Res :=
  .next <|
    match e with
    | .module n =>
      let l := s.link n
      if l.st = .down ∧ s.obj (lIx n 0) 1 1 = 1 then (s.timeTo (l.since + ms (s.obj 0x1A00 5 1000))).beginAttempt n 1 else s
    | .block k =>
      let x := s.pxLink k
      if !s.pxOff k ∧ x.lk.st = .down ∧ x.enable then (s.timeTo (x.lk.since + ms x.retrain)).pxBegin k 1 else s

/-- A link that is UP goes down for `reason`. -/
def State.cutLink (s : State) (e : LinkEnd) (reason : Nat) : State :=
  match e with
  | .module n => if (s.link n).st = .up then s.linkDown n reason .down else s
  | .block k => if s.pxOff k ∨ (s.pxLink k).lk.st ≠ .up then s else s.pxDown k reason

/-- LOSS_OF_LOCK (R518): codeword lock or the signal is lost. -/
def execLossOfLock (e : LinkEnd) (s : State) : Res := .next (s.cutLink e 1)

/-- PROTOCOL_FRAME (R496). (log 7, DEDUCED) -/
def execProtocolFrame (e : LinkEnd) (s : State) : Res := .next (s.cutLink e 3)

end Sys2Proof.Machine
end

