-- ==== Sys2Proof/Machine/Power.lean ====
section
/-! DEFINITION. Power, sensors, pins, the PCIe ports' links, the operand windows as a host reaches them, and the TAP
(18_module_interface.md, R323, R356). -/

namespace Sys2Proof.Machine

/-! ### Power (R552, R559, R561) -/

/-- An ENVIRONMENT event of severity `sev` (R564): PF vector 0, counted in ENV_EVENTS. -/
def State.envEvent (s : State) (sev : Nat) (ps : List Nat) : State :=
  (((s.logEvent 0x0070 sev 9 { params := ps }).pfVec 0).bump 0x1B01 4)

/-- Power-fail is asserted, once (R552, R559): no new program or erase (R184), and an event with the input in mV.
(log 25, DEDUCED) -/
def State.powerFailed (s : State) (mv : Nat) : State :=
  if s.pwr.fail ∨ !s.pwr.rails then s
  else (({ s with pwr := { s.pwr with fail := true, failAt := s.up } }).bump 0x1B01 2).envEvent 2 [11, mv]

/-- The rails are off: a power loss. (log 25, DEDUCED) -/
def State.railsOff (s : State) : State :=
  let s := s.wiped
  { s with pwr := { s.pwr with rails := false, fail := false, tap := {} } }

/-- POWER_FAIL (R552): the input stays below 46 V, or PWRFAIL_N is low; `mv` is the input in mV. (log 25, DEDUCED) -/
def execPowerFail (mv : Nat) (s : State) : Res := .next (s.powerFailed mv)

/-- POWER_RETURN (R559): the input is above 47.0 V for 100 ms after a power-fail, with the rails still on. -/
def execPowerReturn (s : State) : Res :=
  .next <|
    if s.pwr.fail ∧ s.pwr.rails ∧ !s.pwr.tripped then
      let s := s.timeTo (s.pwr.failAt + ms 100)
      ({ s with pwr := { s.pwr with fail := false } }).restart
    else s

/-- INPUT_FALLS_BELOW_40V (R552): after power-fail, the rails go off. -/
def execInputFallsBelow40V (s : State) : Res :=
  .next (if s.pwr.fail ∧ s.pwr.rails then s.railsOff else s)

/-- PORST_ASSERT (R559): PORST_N low for 1 ms acts as a power loss; the rails stay on. -/
def execPorstAssert (s : State) : Res := .next (if s.pwr.rails then s.wiped else s)

/-- A trip acts as for power-fail and switches the rails off, to stay off (R561). -/
def State.tripOff (s : State) : State :=
  let s := s.powerFailed (mget s.pwr.readings 1 0)
  let s := { s with media := { s.media with quiesced := false } }
  let s := s.railsOff
  { s with pwr := { s.pwr with tripped := true, tripAt := none } }

/-- A trip under way ends once its MEDIA_SYNC is done or 100 ms have passed; seen every 10 ms (R561). (log 25, DESIGN CHOICE) -/
def State.tripGo (s : State) : State :=
  match s.pwr.tripAt with
  | some t => if s.media.syncs.any (·.kind == 4) ∧ s.up < t + ms 90 then s else s.tripOff
  | none => s

/-- A sensor reaches its trip point (R561); under a power-fail no MEDIA_SYNC is made (R559). (log 25, DEDUCED) -/
def State.trip (s : State) (code value : Nat) : State :=
  if s.pwr.tripped ∨ !s.pwr.rails then s else
  let s := (s.envEvent 4 [12, value, code]).bump 0x1B01 3
  let s := { s with pwr := { s.pwr with tripped := true, tripAt := some s.up } }
  if s.media.state = 2 ∧ !s.pwr.fail then { s with media := { s.media with syncAsk := 4 } }.syncBegin none [] else s.tripOff

/-! ### Sensors (R558, R560, Table 18.7) -/

/-- Maximum input power in thirds of a W (Table 18.3): stone mode, or full load at mesh frequency `f` in MHz. (log 25, DEDUCED) -/
def powerRow3 (stone : Bool) (f : Nat) : Int := if stone then 5400 else 40200 + 32 * ((f : Int) - 750)

/-- The level that reading `v` of a sensor has when its thresholds are drawn in by `h` hysteresis steps (0 or 1): 0 normal,
1 WARNING, 2 CRITICAL. -/
def sensorLevel (code : Nat) (v : Int) (stone fail : Bool) (f : Nat) (h : Int) : Nat :=
  let lv := fun (w c : Bool) => if c then 2 else if w then 1 else 0
  let hot := fun (w c : Int) => lv (decide (if h = 0 then w ≤ v else w - 200 < v)) (decide (if h = 0 then c ≤ v else c - 200 < v))
  match code with
  | 1 => lv (v < 48500 + 200 * h || 53500 - 200 * h < v) ((v < 48000 + 200 * h || 54000 - 200 * h < v) && !fail)
  | 3 =>
    let p := powerRow3 stone f
    lv (decide (p * (95 - h) < 300 * v)) (decide (p * (100 - h) < 300 * v))
  | 4 => lv (decide (if h = 0 then 3300 ≤ v else 3200 < v)) (decide (3500 - 100 * h < v))
  | 6 => lv (decide (v < 42000 + 1000 * h)) (decide (v < 40000 + 1000 * h))
  | 7 => hot 9000 10000
  | 8 => hot 8500 9500
  | 9 => hot 7000 8000
  | _ => 0

/-- The state a sensor takes: worse at once, better only when inside the threshold by the hysteresis. (log 26, DESIGN CHOICE) -/
def sensorState (old code : Nat) (v : Int) (stone fail : Bool) (f : Nat) : Nat :=
  max (sensorLevel code v stone fail f 0) (min old (sensorLevel code v stone fail f 1))

/-- Trip points in 0.01 °C. -/
def tripPoint (code : Nat) : Option Int :=
  match code with
  | 7 => some 11000
  | 8 => some 10500
  | 9 => some 9000
  | _ => none

/-- A reading as an object and an event carry it: 32 bits, two's complement. (log 26, DESIGN CHOICE) -/
def reading32 (v : Int) : Nat := (v % 2 ^ 32).toNat

/-- A sensor takes state `st`; a change is recorded (R558). (log 26, DESIGN CHOICE) -/
def State.sensorTo (s : State) (code st : Nat) : State :=
  if mget s.pwr.states code 0 = st then s else
  let states := if st = 0 then merase s.pwr.states code else mset s.pwr.states code st
  ({ s with pwr := { s.pwr with states := states } }).envEvent (if st = 2 then 4 else 2) [code, mget s.pwr.readings code 0]

/-- One sensor's sample (R558, R560). A failed sensor reads 0x7FFFFFFF and stays in WARNING until the next start.
(log 26, DESIGN CHOICE) -/
def State.sample (s : State) (x : Sample) : State :=
  let c := x.code
  let put := fun (s : State) (v : Nat) => { s with pwr := { s.pwr with readings := mset s.pwr.readings c v } }
  match x.value with
  | none =>
    if s.pwr.broken.contains c then s else
    let s := put s 0x7FFFFFFF
    let s := { s with pwr := { s.pwr with broken := s.pwr.broken ++ [c], states := mset s.pwr.states c 1 } }
    s.envEvent 2 [c, 0x7FFFFFFF]
  | some v =>
    if s.pwr.broken.contains c then s else
    let s := put s (reading32 v)
    s.sensorTo c (sensorState (mget s.pwr.states c 0) c v s.boot.stone s.pwr.fail s.clk.freq)

/-- The value a sample's trip goes by: its own, or for a failed sensor the hottest of its neighbours. -/
def State.tripValue (s : State) (x : Sample) : Int :=
  match x.value with
  | some v => if s.pwr.broken.contains x.code then x.near else v
  | none => x.near

/-- A sample at or above its trip point. -/
def State.trips (s : State) (x : Sample) : Bool := (tripPoint x.code).any fun t => t ≤ s.tripValue x

/-- SENSOR_SAMPLE (R558): every 10 ms each sensor is sampled; the input power adds to ENERGY. (log 26, DESIGN CHOICE) -/
def execSensorSample (rs : List Sample) (s : State) : Res :=
  .next <|
    if !s.pwr.rails then s else
    let s := s.timeTo (s.pwr.sampleAt + ms 10)
    let s := rs.foldl State.sample s
    let w := if s.pwr.broken.contains 3 then 0 else mget s.pwr.readings 3 0
    let s := { s with pwr := { s.pwr with sampleAt := s.up, millijoules := s.pwr.millijoules + 10 * w } }
    let s := s.tripGo
    match rs.find? s.trips with
    | some x => s.trip x.code (reading32 (s.tripValue x))
    | none => s

/-- MOD_ALERT_N is low (R556). -/
def State.modAlert (s : State) : Bool := s.pwr.states.any fun e => e.2 != 0
/-- MOD_INSERVICE is released (R556). -/
def State.modInService (s : State) : Bool := s.boot.phase == 8 && !s.boot.stone

/-! ### PCIe ports (R323, R355, R356, R562) -/

/-- PERST_RELEASE (R562): PERSTk_N rises; the port trains now, or at the end of mesh-lock. -/
def execPerstRelease (k : Nat) (s : State) : Res :=
  .next <|
    if k > 1 ∨ s.pwr.perst.contains k then s else
    let s := { s with pwr := { s.pwr with perst := s.pwr.perst ++ [k] } }
    if s.boot.phase ≥ 3 then s.enableVfs k else s

/-- PCIE_RENEGOTIATION (R323): `lanes` lanes at `gts` GT/s are negotiated on port `k`; capacity and degradation ratio follow. -/
def execPcieRenegotiation (k lanes gts : Nat) (s : State) : Res :=
  .next <|
    if k > 1 ∨ 16 < lanes ∨ 64 < gts then s else
    let s := { s with tm := { s.tm with lanes := mset s.tm.lanes k lanes, gts := mset s.tm.gts k gts } }
    let s := if s.pwr.perst.contains k ∧ s.boot.phase ≥ 3 then s.enableVfs k else s
    s.reRatio (176 + k)

/-- OPERAND_WINDOW_ACCESS (R356): a read of `n` bytes, or a write of `data`, at offset `off` of BAR2 of virtual function `fn`. Bytes at or
above OPERAND_WINDOW_BYTES read 0 and are not written, and the access is counted. (log 28, DEDUCED) -/
def execOperandWindowAccess (k fn off n : Nat) (data : Option Bytes) (s : State) : Res :=
  .next <|
    if fn = 0 ∨ k > 1 ∨ !s.hasVf k (fn - 1) ∨ !s.pcieGood k then s else
    let p := fn - 1
    let w := s.windowBytes p
    let m := match data with
      | some d => d.length
      | none => n
    let s := if off + m > w then s.bump (pIx p 0) 7 else s
    match data with
    | some d => s.windowWrite p off (d.take (w - off))
    | none =>
      let bs := rdN (s.window p) off (min n (w - off))
      { s with out := s.out ++ [Out.read k fn (bs ++ List.replicate (n - bs.length) 0)] }

/-! ### The TAP (R550) -/

/-- The state after a rising edge of TCK (IEEE 1149.1). (log 10, PRESUMED; log 27, PRESUMED) -/
def tapNext : TapSt → Bool → TapSt
  | .reset, m => if m then .reset else .idle
  | .idle, m => if m then .selDr else .idle
  | .selDr, m => if m then .selIr else .capDr
  | .capDr, m => if m then .ex1Dr else .shDr
  | .shDr, m => if m then .ex1Dr else .shDr
  | .ex1Dr, m => if m then .upDr else .pauDr
  | .pauDr, m => if m then .ex2Dr else .pauDr
  | .ex2Dr, m => if m then .upDr else .shDr
  | .upDr, m => if m then .selDr else .idle
  | .selIr, m => if m then .reset else .capIr
  | .capIr, m => if m then .ex1Ir else .shIr
  | .shIr, m => if m then .ex1Ir else .shIr
  | .ex1Ir, m => if m then .upIr else .pauIr
  | .pauIr, m => if m then .ex2Ir else .pauIr
  | .ex2Ir, m => if m then .upIr else .shIr
  | .upIr, m => if m then .selDr else .idle

/-- `n` bits of a number, the least significant first. -/
def bitList (v : Nat) : Nat → List Bool
  | 0 => []
  | n + 1 => (v % 2 == 1) :: bitList (v / 2) n

/-- The number whose bits are `bs`, the least significant first. -/
def bitNum : List Bool → Nat
  | [] => 0
  | b :: bs => b2n b + 2 * bitNum bs

/-- A shift register takes TDI at its most significant end. -/
def shiftIn (r : List Bool) (tdi : Bool) : List Bool := r.tail ++ [tdi]

/-- Capture-DR: the register that the instruction in force selects; `cells` are the boundary cells' pins. (log 27, PRESUMED) -/
def tapCapture (ir : Nat) (cells : List Bool) : List Bool :=
  if ir = 0x01 then bitList 0x1C510A4F 32 else if ir = 0x00 ∨ ir = 0x02 then cells else [false]

/-- A rising edge of TCK: the action of the state it leaves, then the next state. (log 10, PRESUMED; log 27, PRESUMED) -/
def Tap.rise (t : Tap) (tms tdi : Bool) (cells : List Bool) : Tap :=
  let t := match t.st with
    | .capDr => { t with dr := tapCapture t.ir cells }
    | .shDr => { t with dr := shiftIn t.dr tdi }
    | .capIr => { t with irShift := bitList 1 8 }
    | .shIr => { t with irShift := shiftIn t.irShift tdi }
    | _ => t
  let n := tapNext t.st tms
  { t with st := n, ir := if n = .reset then 0x01 else t.ir }

/-- A falling edge of TCK: TDO, and the update registers. (log 10, PRESUMED; log 27, PRESUMED) -/
def Tap.fall (t : Tap) : Tap :=
  match t.st with
  | .shDr => { t with tdo := t.dr.headD false }
  | .shIr => { t with tdo := t.irShift.headD false }
  | .upIr => { t with ir := bitNum t.irShift }
  | .upDr => if t.ir = 0x00 ∨ t.ir = 0x02 then { t with update := t.dr } else t
  | _ => t

/-- TAP_CONTROLLER (R550): an edge of TCK, or TRST_N low. What the boundary cells see of the pins is a free value. The TAP exists on S0
only and is gone with it (R35).
(log 10, PRESUMED; log 27, PRESUMED) -/
def execTapController (ev : TapEv) (s : State) : Res :=
  .next <|
    if s.segGone 0 then s else
    let put := fun (s : State) (t : Tap) => { s with pwr := { s.pwr with tap := t } }
    let t := s.pwr.tap
    match ev with
    | .trst => put s { t with st := .reset, ir := 0x01 }
    | .rise tms tdi =>
      let (h, s) := s.takeFree
      put s (t.rise tms tdi ((List.range Config.boundaryLen).map (Config.boundary h)))
    | .fall =>
      let t := t.fall
      let s := put s t
      if t.st = .shDr ∨ t.st = .shIr then { s with out := s.out ++ [Out.tdo t.tdo] } else s

end Sys2Proof.Machine
end

