-- ==== Sys2Proof/Machine/Dispatch.lean ====
section
/-! DEFINITION. The effect of every command: one arm for each row of the table. -/

namespace Sys2Proof.Machine

/-- The effect of a command on everything but the queue. -/
def exec (i : Instr) (s : State) : Host.Outcome State Fault Refusal :=
  match i with
  | .descriptorFetch => Sys2Proof.Machine.execDescriptorFetch s
  | .ottStallResume => Sys2Proof.Machine.execOttStallResume s
  | .copy tag => Sys2Proof.Machine.execCopy tag s
  | .sliceWrite tag => Sys2Proof.Machine.execSliceWrite tag s
  | .sliceRead tag => Sys2Proof.Machine.execSliceRead tag s
  | .stage tag => Sys2Proof.Machine.execStage tag s
  | .seqOpen tag => Sys2Proof.Machine.execSeqOpen tag s
  | .seqFork tag => Sys2Proof.Machine.execSeqFork tag s
  | .seqTruncate tag => Sys2Proof.Machine.execSeqTruncate tag s
  | .seqDiscard tag => Sys2Proof.Machine.execSeqDiscard tag s
  | .chainSearchProbe tag => Sys2Proof.Machine.execChainSearchProbe tag s
  | .chainSearchAttach tag => Sys2Proof.Machine.execChainSearchAttach tag s
  | .maskedSearch tag => Sys2Proof.Machine.execMaskedSearch tag s
  | .purgePrivate tag => Sys2Proof.Machine.execPurgePrivate tag s
  | .inspectSeq tag => Sys2Proof.Machine.execInspectSeq tag s
  | .inspectFrame tag => Sys2Proof.Machine.execInspectFrame tag s
  | .pipInspect tag => Sys2Proof.Machine.execPipInspect tag s
  | .indexQuery tag => Sys2Proof.Machine.execIndexQuery tag s
  | .attendForward tag => Sys2Proof.Machine.execAttendForward tag s
  | .attendBackward tag => Sys2Proof.Machine.execAttendBackward tag s
  | .attendDispatch => Sys2Proof.Machine.execAttendDispatch s
  | .saveDiscard tag => Sys2Proof.Machine.execSaveDiscard tag s
  | .saveExpiry p id => Sys2Proof.Machine.execSaveExpiry p id s
  | .gather tag => Sys2Proof.Machine.execGather tag s
  | .reduce tag => Sys2Proof.Machine.execReduce tag s
  | .collect tag => Sys2Proof.Machine.execCollect tag s
  | .collectTimeout tag => Sys2Proof.Machine.execCollectTimeout tag s
  | .nop tag => Sys2Proof.Machine.execNop tag s
  | .list q => Sys2Proof.Machine.execList q s
  | .sqTailDoorbell port fn q idx => Sys2Proof.Machine.execSqTailDoorbell port fn q idx s
  | .cjHeadDoorbell port fn q idx => Sys2Proof.Machine.execCjHeadDoorbell port fn q idx s
  | .queueEnable q => Sys2Proof.Machine.execQueueEnable q s
  | .queueDisable q => Sys2Proof.Machine.execQueueDisable q s
  | .queueFlush q => Sys2Proof.Machine.execQueueFlush q s
  | .queueRegisterWrite q r v => Sys2Proof.Machine.execQueueRegisterWrite q r v s
  | .journalFullRecordWrite q => Sys2Proof.Machine.execJournalFullRecordWrite q s
  | .moderationTimeTrigger q => Sys2Proof.Machine.execModerationTimeTrigger q s
  | .msixUnmask port fn vec => Sys2Proof.Machine.execMsixUnmask port fn vec s
  | .pcieErrorResponse e => Sys2Proof.Machine.execPcieErrorResponse e s
  | .ottHwmRead z p => Sys2Proof.Machine.execOttHwmRead z p s
  | .ottReserveWrite z p v => Sys2Proof.Machine.execOttReserveWrite z p v s
  | .ottCapWrite z p v => Sys2Proof.Machine.execOttCapWrite z p v s
  | .camPlace fid => Sys2Proof.Machine.execCamPlace fid s
  | .mapCacheWaitResume tag => Sys2Proof.Machine.execMapCacheWaitResume tag s
  | .suspendHoldoffExpiry die => Sys2Proof.Machine.execSuspendHoldoffExpiry die s
  | .pageReadDone die o => Sys2Proof.Machine.execPageReadDone die o s
  | .punnetFlushTimer key => Sys2Proof.Machine.execPunnetFlushTimer key s
  | .punnetProgramDone die pass => Sys2Proof.Machine.execPunnetProgramDone die pass s
  | .superblockEraseDone die pass => Sys2Proof.Machine.execSuperblockEraseDone die pass s
  | .retentionRefresh die sb hotSteps => Sys2Proof.Machine.execRetentionRefresh die sb hotSteps s
  | .rootCheckpoint => Sys2Proof.Machine.execRootCheckpoint s
  | .mediaSync z => Sys2Proof.Machine.execMediaSync z s
  | .shutdownPrepare z => Sys2Proof.Machine.execShutdownPrepare z s
  | .ageTick => Sys2Proof.Machine.execAgeTick s
  | .freeCommitStep2 fid layer => Sys2Proof.Machine.execFreeCommitStep2 fid layer s
  | .writebackDelayExpiry fid layer => Sys2Proof.Machine.execWritebackDelayExpiry fid layer s
  | .writebackComplete fid layer => Sys2Proof.Machine.execWritebackComplete fid layer s
  | .allocWaitResume tag => Sys2Proof.Machine.execAllocWaitResume tag s
  | .allocWaitTimeout tag => Sys2Proof.Machine.execAllocWaitTimeout tag s
  | .deferredRelease seq block => Sys2Proof.Machine.execDeferredRelease seq block s
  | .referenceRecount => Sys2Proof.Machine.execReferenceRecount s
  | .frameRecountDone fid => Sys2Proof.Machine.execFrameRecountDone fid s
  | .camScrub bank rows => Sys2Proof.Machine.execCamScrub bank rows s
  | .camBankRefill bank => Sys2Proof.Machine.execCamBankRefill bank s
  | .domainPurge z v => Sys2Proof.Machine.execDomainPurge z v s
  | .shareDomainWrite z d sub v => Sys2Proof.Machine.execShareDomainWrite z d sub v s
  | .profileBindingWrite z p slot v => Sys2Proof.Machine.execProfileBindingWrite z p slot v s
  | .upprojWrite z n v => Sys2Proof.Machine.execUpprojWrite z n v s
  | .projWrite z n v => Sys2Proof.Machine.execProjWrite z n v s
  | .indexGeometryWrite z n sub v => Sys2Proof.Machine.execIndexGeometryWrite z n sub v s
  | .planWrite z p n v => Sys2Proof.Machine.execPlanWrite z p n v s
  | .markStepBegin link p n => Sys2Proof.Machine.execMarkStepBegin link p n s
  | .markStart link p n j => Sys2Proof.Machine.execMarkStart link p n j s
  | .pushBegin p n => Sys2Proof.Machine.execPushBegin p n s
  | .pushComplete p n => Sys2Proof.Machine.execPushComplete p n s
  | .pipComputeDone seq span item group => Sys2Proof.Machine.execPipComputeDone seq span item group s
  | .pipProgramBatchDone array codes => Sys2Proof.Machine.execPipProgramBatchDone array codes s
  | .arrayCalibration array => Sys2Proof.Machine.execArrayCalibration array s
  | .arrayReprogramStart array => Sys2Proof.Machine.execArrayReprogramStart array s
  | .arrayReprogramDone array => Sys2Proof.Machine.execArrayReprogramDone array s
  | .pipRefresh array col => Sys2Proof.Machine.execPipRefresh array col s
  | .portServeUnit x dir => Sys2Proof.Machine.execPortServeUnit x dir s
  | .waitingUnitEnqueue x dir sub c => Sys2Proof.Machine.execWaitingUnitEnqueue x dir sub c s
  | .queueSample => Sys2Proof.Machine.execQueueSample s
  | .leafStatsRead z p c x => Sys2Proof.Machine.execLeafStatsRead z p c x s
  | .leafCfgWrite z p c x v => Sys2Proof.Machine.execLeafCfgWrite z p c x v s
  | .nodeCfgWrite z c x v => Sys2Proof.Machine.execNodeCfgWrite z c x v s
  | .meterCfgWrite z p c v => Sys2Proof.Machine.execMeterCfgWrite z p c v s
  | .derateWrite z kind v => Sys2Proof.Machine.execDerateWrite z kind v s
  | .histReset z => Sys2Proof.Machine.execHistReset z s
  | .faultFence kind field unit reason touched lost => Sys2Proof.Machine.execFaultFence kind field unit reason touched lost s
  | .snapshotRequest z v => Sys2Proof.Machine.execSnapshotRequest z v s
  | .jobResume z p v => Sys2Proof.Machine.execJobResume z p v s
  | .partitionReset z p v => Sys2Proof.Machine.execPartitionReset z p v s
  | .functionLevelReset port fn => Sys2Proof.Machine.execFunctionLevelReset port fn s
  | .partitionDisable z p v => Sys2Proof.Machine.execPartitionDisable z p v s
  | .resetGraceExpiry queue n => Sys2Proof.Machine.execResetGraceExpiry queue n s
  | .portReset port cause => Sys2Proof.Machine.execPortReset port cause s
  | .protectionWrite z p sub v => Sys2Proof.Machine.execProtectionWrite z p sub v s
  | .protectionBatch z v => Sys2Proof.Machine.execProtectionBatch z v s
  | .frameQuotaWrite z p v => Sys2Proof.Machine.execFrameQuotaWrite z p v s
  | .zdpOpen z role part => Sys2Proof.Machine.execZdpOpen z role part s
  | .zdpClose z => Sys2Proof.Machine.execZdpClose z s
  | .describe z ix sub => Sys2Proof.Machine.execDescribe z ix sub s
  | .read z ix sub => Sys2Proof.Machine.execRead z ix sub s
  | .write z ix sub v => Sys2Proof.Machine.execWrite z ix sub v s
  | .segReadInit z ix sub => Sys2Proof.Machine.execSegReadInit z ix sub s
  | .segWriteInit z ix sub total => Sys2Proof.Machine.execSegWriteInit z ix sub total s
  | .segData z ix sub offset data => Sys2Proof.Machine.execSegData z ix sub offset data s
  | .segEnd z ix sub check => Sys2Proof.Machine.execSegEnd z ix sub check s
  | .segAbort z ix sub => Sys2Proof.Machine.execSegAbort z ix sub s
  | .watch z ix sub => Sys2Proof.Machine.execWatch z ix sub s
  | .unwatch z ix sub => Sys2Proof.Machine.execUnwatch z ix sub s
  | .notify ep ix sub => Sys2Proof.Machine.execNotify ep ix sub s
  | .notifyAck port fn => Sys2Proof.Machine.execNotifyAck port fn s
  | .segmentTimeout ep => Sys2Proof.Machine.execSegmentTimeout ep s
  | .sessionIdle node => Sys2Proof.Machine.execSessionIdle node s
  | .kxlOwnerLinksWrite z sub v => Sys2Proof.Machine.execKxlOwnerLinksWrite z sub v s
  | .canFrameIgnored => Sys2Proof.Machine.execCanFrameIgnored s
  | .canBusOff millis => Sys2Proof.Machine.execCanBusOff millis s
  | .powerOnReset straps nor ctl => Sys2Proof.Machine.execPowerOnReset straps nor ctl s
  | .startPhaseComplete found reason detail => Sys2Proof.Machine.execStartPhaseComplete found reason detail s
  | .startPhaseBudgetExpiry => Sys2Proof.Machine.execStartPhaseBudgetExpiry s
  | .startFailRestart => Sys2Proof.Machine.execStartFailRestart s
  | .startSettle => Sys2Proof.Machine.execStartSettle s
  | .norRetry nor ctl => Sys2Proof.Machine.execNorRetry nor ctl s
  | .restart z v => Sys2Proof.Machine.execRestart z v s
  | .startFailClear z v => Sys2Proof.Machine.execStartFailClear z v s
  | .firmwareUpdate z v => Sys2Proof.Machine.execFirmwareUpdate z v s
  | .firmwareActivate z v => Sys2Proof.Machine.execFirmwareActivate z v s
  | .defectAdd z v => Sys2Proof.Machine.execDefectAdd z v s
  | .factoryToken z v => Sys2Proof.Machine.execFactoryToken z v s
  | .forensicRead z v o => Sys2Proof.Machine.execForensicRead z v o s
  | .bistCoreTest rind field core pass => Sys2Proof.Machine.execBistCoreTest rind field core pass s
  | .refEdgesPresent k => Sys2Proof.Machine.execRefEdgesPresent k s
  | .refQualifyTimer k => Sys2Proof.Machine.execRefQualifyTimer k s
  | .refLoss k => Sys2Proof.Machine.execRefLoss k s
  | .refAbsentTimer k => Sys2Proof.Machine.execRefAbsentTimer k s
  | .meshPullInDone => Sys2Proof.Machine.execMeshPullInDone s
  | .holdover24h => Sys2Proof.Machine.execHoldover24h s
  | .refSelect z v => Sys2Proof.Machine.execRefSelect z v s
  | .timeSet z v => Sys2Proof.Machine.execTimeSet z v s
  | .positionsDecoupled field => Sys2Proof.Machine.execPositionsDecoupled field s
  | .clockFault => Sys2Proof.Machine.execClockFault s
  | .submit r => Sys2Proof.Machine.execSubmit r s
  | .tail r => Sys2Proof.Machine.execTail r s
  | .cjHead r => Sys2Proof.Machine.execCjHead r s
  | .pull r => Sys2Proof.Machine.execPull r s
  | .windowWrite r => Sys2Proof.Machine.execWindowWrite r s
  | .windowRead r => Sys2Proof.Machine.execWindowRead r s
  | .leaseRead r => Sys2Proof.Machine.execLeaseRead r s
  | .reqHeldApply link => Sys2Proof.Machine.execReqHeldApply link s
  | .dataResponse link vl rtag status addr last data => Sys2Proof.Machine.execDataResponse link vl rtag status addr last data s
  | .leaseWrite link vl lease addr data => Sys2Proof.Machine.execLeaseWrite link vl lease addr data s
  | .sinkFrameReject link vl addr data => Sys2Proof.Machine.execSinkFrameReject link vl addr data s
  | .credit e limits => Sys2Proof.Machine.execCredit e limits s
  | .creditPeriod e => Sys2Proof.Machine.execCreditPeriod e s
  | .ack e fseq => Sys2Proof.Machine.execAck e fseq s
  | .ackDelayExpiry e => Sys2Proof.Machine.execAckDelayExpiry e s
  | .nak e fseq => Sys2Proof.Machine.execNak e fseq s
  | .frameDiscarded e cause => Sys2Proof.Machine.execFrameDiscarded e cause s
  | .replayTimeout e => Sys2Proof.Machine.execReplayTimeout e s
  | .collFrame link vl set member kind fp32 part round offset total data => Sys2Proof.Machine.execCollFrame link vl set member kind fp32 part round offset total data s
  | .collSetsWrite z v => Sys2Proof.Machine.execCollSetsWrite z v s
  | .offer link bytes => Sys2Proof.Machine.execOffer link bytes s
  | .lendOfferPeriod => Sys2Proof.Machine.execLendOfferPeriod s
  | .request link bytes => Sys2Proof.Machine.execRequest link bytes s
  | .grant link id term notice bytes => Sys2Proof.Machine.execGrant link id term notice bytes s
  | .deny link id => Sys2Proof.Machine.execDeny link id s
  | .renew link id => Sys2Proof.Machine.execRenew link id s
  | .revoke link id notice => Sys2Proof.Machine.execRevoke link id notice s
  | .released link id => Sys2Proof.Machine.execReleased link id s
  | .leaseRenewTimer slot => Sys2Proof.Machine.execLeaseRenewTimer slot s
  | .leaseTermEnd slot => Sys2Proof.Machine.execLeaseTermEnd slot s
  | .leaseNoticeEnd lent k => Sys2Proof.Machine.execLeaseNoticeEnd lent k s
  | .lendEnable z v => Sys2Proof.Machine.execLendEnable z v s
  | .lendBytes z v => Sys2Proof.Machine.execLendBytes z v s
  | .borrowBytes z v => Sys2Proof.Machine.execBorrowBytes z v s
  | .linkEnable z n v => Sys2Proof.Machine.execLinkEnable z n v s
  | .equalisationDone e lanes => Sys2Proof.Machine.execEqualisationDone e lanes s
  | .trainingBlock e role lanes rates id limits => Sys2Proof.Machine.execTrainingBlock e role lanes rates id limits s
  | .trainingAttemptTimeout e => Sys2Proof.Machine.execTrainingAttemptTimeout e s
  | .retrainInterval e => Sys2Proof.Machine.execRetrainInterval e s
  | .lossOfLock e => Sys2Proof.Machine.execLossOfLock e s
  | .pxReset level => Sys2Proof.Machine.execPxReset level s
  | .pxRequest kind len beats r => Sys2Proof.Machine.execPxRequest kind len beats r s
  | .pxMarker k event part plan pos => Sys2Proof.Machine.execPxMarker k event part plan pos s
  | .pxFrameAccept k typ vl hdr payload => Sys2Proof.Machine.execPxFrameAccept k typ vl hdr payload s
  | .pxDeliveryBeat => Sys2Proof.Machine.execPxDeliveryBeat s
  | .pxLinkEnable k v => Sys2Proof.Machine.execPxLinkEnable k v s
  | .pxLinkDisable k v => Sys2Proof.Machine.execPxLinkDisable k v s
  | .pxIrqClear v => Sys2Proof.Machine.execPxIrqClear v s
  | .pxRegisterWrite off v => Sys2Proof.Machine.execPxRegisterWrite off v s
  | .pxLinkDown k reason => Sys2Proof.Machine.execPxLinkDown k reason s
  | .powerFail millivolts => Sys2Proof.Machine.execPowerFail millivolts s
  | .powerReturn => Sys2Proof.Machine.execPowerReturn s
  | .porstAssert => Sys2Proof.Machine.execPorstAssert s
  | .perstRelease port => Sys2Proof.Machine.execPerstRelease port s
  | .sensorSample rs => Sys2Proof.Machine.execSensorSample rs s
  | .inputFallsBelow40V => Sys2Proof.Machine.execInputFallsBelow40V s
  | .protocolFrame e => Sys2Proof.Machine.execProtocolFrame e s
  | .pcieRenegotiation port lanes gts => Sys2Proof.Machine.execPcieRenegotiation port lanes gts s
  | .tapController ev => Sys2Proof.Machine.execTapController ev s
  | .operandWindowAccess port fn off n data => Sys2Proof.Machine.execOperandWindowAccess port fn off n data s
  | .equaliseTimeout e => Sys2Proof.Machine.execEqualiseTimeout e s

end Sys2Proof.Machine
end

