-- ==== Sys2Proof/Machine/Views.lean ====
section
/-! DEFINITION. What the statements of Certificates/Slice0 look at: views of the state and of what leaves the module, and the conditions under
which a frame, a request or an operation reaches its own effect. -/

namespace Sys2Proof.Machine

/-- The 64 B-aligned address of a sink beat. -/
def PxBeat.base : PxBeat → Option Nat
  | .sink _ addr _ _ _ => some addr
  | _ => none

/-- The bytes that a beat enables, each with its address. -/
def PxBeat.enables : PxBeat → List (Nat × Byte)
  | .sink _ addr first data _ => ((List.range data.length).zip data).map fun e => (addr + first + e.1, e.2)
  | _ => []

/-! ### BAR0 of a function (Tables 8.2, 11.2, 12.8) -/

/-- The mailbox registers of function `f` (Table 12.8) at endpoint `ep`: MB_STATUS, RESPONSE and NOTIFY_SLOT. What the host left in REQUEST is none of
the module's state: its bytes are free (log 48, DESIGN CHOICE). -/
def State.mailboxRegs (s : State) (ep : Endpoint) (f : Nat) : Bytes :=
  let b := s.box f
  let busy := s.owes ep || (f % 65 == 0 && s.boot.phase < (if s.boot.stone then 7 else 6))
  ((List.range 0x7F0).map Config.freeByte) ++ leBytes 4 0 ++
    leBytes 4 (b2n busy + 2 * b2n (b.ready && !busy) + 4 * b2n b.slot.isSome + 8 * b2n (s.session? ep).isSome) ++ leBytes 8 0 ++
    padTo (b.response.take 0x7F0) 0x7F0 ++ padTo ((b.slot.getD []).take 12) 12 ++ leBytes 4 0

/-- Entry `v` of the MSI-X table of function `fn` of port `k`: the message address and data the host gave it, which no command carries and which are
free (log 48, DESIGN CHOICE), and Vector Control with its mask bit. -/
def State.msixEntry (s : State) (k fn v : Nat) : Bytes :=
  let e := vecKey k fn v
  ((List.range 12).map fun i => Config.freeByte (16 * e + i)) ++ leBytes 4 (b2n (!s.q.msixOpen.contains e))

/-- The MSI-X table of a function with `n` vectors at 0x8000, and its pending-bit array at 0xC000, 8 B for each 64 vectors. -/
def State.msixTable (s : State) (k fn n : Nat) : Bytes := (List.range n).flatMap (s.msixEntry k fn)
def State.msixPba (s : State) (k fn n : Nat) : Bytes :=
  leBytes (8 * ((n + 63) / 64)) ((List.range n).map fun v => b2n (s.q.msixPend.contains (vecKey k fn v)) * 2 ^ v).sum

/-- BAR0 of a function as a host read finds it (R263, R357): the virtual function of partition `fn` − 1, or with `fn` 0 the physical one; reserved
offsets read 0. -/
def State.bar0 (s : State) (k fn : Nat) : Bytes :=
  let box := padTo (s.mailboxRegs (if fn = 0 then .pf k else .vf k (fn - 1)) (fnKey k fn)) 0x1000
  let n := if fn = 0 then 8 else 68
  let q := fun (i : Nat) => 64 * (fn - 1) + i
  let regs := if fn = 0 then padTo [] 0x2000 else
    padTo (padTo ((List.range 64).flatMap fun i => s.queueRegs (q i)) 0x1000 ++
      ((List.range 64).flatMap fun i => leBytes 8 (s.queue (q i)).tail) ++
      (List.range 64).flatMap fun i => leBytes 8 (s.queue (q i)).cjHead) 0x2000
  padTo (padTo (padTo (regs ++ box) 0x8000 ++ s.msixTable k fn n) 0xC000 ++ s.msixPba k fn n) 0x10000

/-! ### Registers and signals of the UL1-PX block (Tables 17.4, 17.6, 17.8, 17.11) -/

/-- LINK_STATUS of link `k` of the block: STATE, AT_200, ACTIVE_LANES, LAST_DOWN_REASON and PARTNER_ROLE. -/
def State.pxStatus (s : State) (k : Nat) : Nat :=
  let l := (s.pxLink k).lk
  l.st.code + 8 * b2n (l.trained == 200) + 16 * l.lanes + 2 ^ 8 * l.reason + 2 ^ 12 * l.role

/-- Register `o` of link `k` within its group. -/
def State.pxLinkReg (s : State) (k o : Nat) : Nat :=
  let l := s.pxLink k
  match o with
  | 0x00 => b2n l.enable + 2 * b2n l.rate200 + 4 * b2n l.fallback
  | 0x04 => s.pxStatus k
  | 0x08 => l.txMax
  | 0x0C => l.retrain
  | 0x20 => l.lk.partner % 2 ^ 32
  | 0x24 => l.lk.partner / 2 ^ 32
  | 0x28 => l.crcDiscards
  | 0x2C => l.naks
  | 0x30 => l.replayed
  | 0x34 => l.downs
  | 0x38 => l.rejected
  | 0x3C => l.discarded
  | o => if 0x10 ≤ o ∧ o < 0x20 ∧ o % 4 = 0 then l.rx.getD ((o - 0x10) / 2) 0 + 2 ^ 16 * l.rx.getD ((o - 0x10) / 2 + 1) 0 else 0

/-- The register at offset `off` of the block as a read finds it (R538, R545); reserved offsets, and the registers of a link that was not
built, read 0. -/
def State.pxReg (s : State) (off : Nat) : Nat :=
  let b := s.pxb
  match off with
  | 0x000 => 0x50580100
  | 0x004 => if Config.twoLinks then 2 else 1
  | 0x008 => b.id % 2 ^ 32
  | 0x00C => b.id / 2 ^ 32
  | 0x010 => b.irqStatus
  | 0x014 => b.irqEnable
  | _ =>
    if 0x040 ≤ off ∧ off < 0x080 then s.pxLinkReg 0 (off - 0x040)
    else if 0x080 ≤ off ∧ off < 0x0C0 then (if Config.twoLinks then s.pxLinkReg 1 (off - 0x080) else 0)
    else if 0x100 ≤ off ∧ off < 0x180 then
      let w := mget b.watches ((off - 0x100) / 0x10) (0, 0)
      match off % 0x10 with
      | 0x0 => w.1 % 2 ^ 32
      | 0x4 => w.1 / 2 ^ 32
      | 0x8 => w.2 % 2 ^ 32
      | 0xC => w.2 / 2 ^ 32
      | _ => 0
    else 0

/-- px_irq (R539). -/
def State.pxIrqOut (s : State) : Bool := irqBits.any fun b => bit s.pxb.irqStatus b && bit s.pxb.irqEnable b

/-- px_rq_ready for a beat of link `k`, and px_mk_ready (R534, R544): their FIFOs have room. -/
def State.pxRqReady (s : State) (k : Nat) : Bool := !s.pxOff k && fifoBeats (s.pxLink k).fifo < 256
def State.pxMkReady (s : State) (k : Nat) : Bool := !s.pxOff k && fifoMarks (s.pxLink k).fifo < 16

/-! ### Frames and requests that are accepted -/

/-- Frame `i` of `len` bytes on VL `vl` of link `n` is taken: the link is UP, the frame is in its type's range, the VL has its credits, and no
earlier frame of the VL is held back (R496, R502, R504). -/
def State.takesFrame (s : State) (n vl len : Nat) (i : Instr) : Prop :=
  (s.link n).st = .up ∧ frameFits i vl len = true ∧ s.hasCredits n vl len = true ∧
    ((s.link n).held.any fun h => (heldFrame h).1 == vl) = false

/-- The state once R504 has accepted a frame of `len` bytes on VL `vl` of link `n`. -/
def State.accepted (s : State) (n vl len : Nat) : State := (s.accept n vl len).getD s

/-- The credits of a frame that was applied return, while its link is UP (R498). -/
def State.givesBack (t : State) (n vl len : Nat) : State :=
  if (t.link n).st = .up then t.returnCredits n vl ((len + 255) / 256) else t

/-- The ZDP request `i` from `z` reaches the module: its transport answers, its mailbox is not busy, and a link's MGMT frame is taken; `u` is
the state then. -/
def State.hears (s : State) (z : Zdp) (i : Instr) (u : State) : Prop :=
  s.answers z.ep = true ∧ ((boxKey z.ep).isSome = true → s.owes z.ep = false) ∧ match z.ep with
    | .mgmt n => s.takesFrame n 7 (heldFrame i).2.1 i ∧ u = s.accepted n 7 (heldFrame i).2.1
    | _ => u = s

/-- What is left of the request `i` once it is answered: the credits of a link's MGMT frame return. -/
def State.heard (t : State) (z : Zdp) (i : Instr) : State :=
  match z.ep with
  | .mgmt n => t.givesBack n 7 (heldFrame i).2.1
  | _ => t

/-- The endpoint's session `x` is there to be served: the request is whole, no response is owed, the dictionary is ready, and no transfer is open; `v`
is the state in which its service runs. -/
def State.serves (u : State) (z : Zdp) (x : Session) (v : State) : Prop :=
  z.short = false ∧ u.owes z.ep = false ∧ u.boot.ready = true ∧ (u.session? z.ep).isSome = true ∧
    v = u.modSession z.ep (fun y => { y with lastAt := u.up }) ∧ v.session? z.ep = some x ∧ x.xfer = none

/-- The response a served request sends. -/
def State.answer (t : State) (z : Zdp) (svc ix sub : Nat) (payload : Bytes := []) : State :=
  Ans.send { st := t, payload := payload } z svc ix sub

/-- A write of `v` to object index:sub passes every check before its value's (R382-R390, R396, R404): `r` is the object's entry. -/
def State.mayWrite (s : State) (x : Session) (ix sub : Nat) (r : ObjRow) : Prop :=
  s.checkWrite x ix sub = .ok r ∧ r.ty ≠ .domain ∧ r.ty.size ≤ payloadLimit x.ep ∧ s.segOpen ix sub = false

/-- The same for a whole segmented write of `n` bytes (R398). -/
def State.mayWriteWhole (s : State) (x : Session) (ix sub n : Nat) (r : ObjRow) : Prop :=
  s.checkWrite x ix sub = .ok r ∧ s.totalBad ix sub r n = false ∧ s.segOpen ix sub = false

/-- The commands that are the write of one object: the requester, whether the write is segmented, the object's index and subindex as the
spec's tables give them, the value, and for a forensic read how the page decodes. -/
def namedWrite (i : Instr) : Option (Zdp × Bool × Nat × Nat × Bytes × ReadOutcome) :=
  let w := fun (c : Prop) [Decidable c] (z : Zdp) (ix sub : Nat) (v : Bytes) => if c then some (z, false, ix, sub, v, ReadOutcome.hard false) else none
  let b := fun (c : Prop) [Decidable c] (z : Zdp) (ix sub : Nat) (v : Bytes) => if c then some (z, true, ix, sub, v, ReadOutcome.hard false) else none
  match i with
  | .ottReserveWrite z p v => w (p < 64) z (0x2021 + 0x40 * p) 1 v
  | .ottCapWrite z p v => w (p < 64) z (0x2021 + 0x40 * p) 2 v
  | .mediaSync z => w True z 0x1200 11 [1]
  | .shutdownPrepare z => w True z 0x1200 12 [1]
  | .domainPurge z v => w True z 0x1400 4 v
  | .shareDomainWrite z d sub v => w (d < 256 ∧ 1 ≤ sub) z (0x1500 + d) sub v
  | .profileBindingWrite z p slot v => w (p < 64) z (0x2004 + 0x40 * p) (slot + 1) v
  | .upprojWrite z n v => b (n < 32) z (0x1300 + n) 15 v
  | .projWrite z n v => b (n < 32) z (0x1600 + n) 3 v
  | .indexGeometryWrite z n sub v => w (n < 32 ∧ (sub = 1 ∨ sub = 2)) z (0x1600 + n) sub v
  | .planWrite z p n v => b (p < 64 ∧ n < 8) z (0x2010 + 0x40 * p + n) 1 v
  | .leafCfgWrite z p c x v => w (p < 65 ∧ c < 8 ∧ x < 178) z (if p < 64 then 0x3800 + 8 * p + c else 0x3080 + c) (x + 1) v
  | .nodeCfgWrite z c x v => w (c < 8 ∧ x < 178) z (0x3200 + 8 * x + c) 1 v
  | .meterCfgWrite z p c v => w (c < 8 ∧ p < 64) z (0x3E00 + 8 * p + c) 1 v
  | .derateWrite z kind v => w True z 0x3001 (kind + 1) v
  | .histReset z => w True z 0x3000 1 [1]
  | .snapshotRequest z v => w True z 0x7110 1 v
  | .jobResume z p v => w (p < 64) z (0x2002 + 0x40 * p) 4 v
  | .partitionReset z p v => w (p < 64) z (0x2000 + 0x40 * p) 2 v
  | .partitionDisable z p v => w (p < 64) z (0x2001 + 0x40 * p) 1 v
  | .protectionWrite z p sub v => w (p < 64) z (0x2001 + 0x40 * p) sub v
  | .protectionBatch z v => b True z 0x1800 3 v
  | .frameQuotaWrite z p v => w (p < 64) z (0x2001 + 0x40 * p) 6 v
  | .kxlOwnerLinksWrite z sub v => w (sub = 6 ∨ sub = 7) z 0x1010 sub v
  | .restart z v => w True z 0x1000 1 v
  | .startFailClear z v => w True z 0x0810 2 v
  | .firmwareUpdate z v => b True z 0x0840 8 v
  | .firmwareActivate z v => w True z 0x0840 9 v
  | .defectAdd z v => w True z 0x7200 6 v
  | .factoryToken z v => b True z 0x7200 7 v
  | .forensicRead z v o => some (z, false, 0xE010, 1, v, o)
  | .refSelect z v => w True z 0x1900 2 v
  | .timeSet z v => w True z 0x1902 4 v
  | .collSetsWrite z v => b True z 0x1A01 1 v
  | .lendEnable z v => w True z 0x1A10 1 v
  | .lendBytes z v => w True z 0x1A10 2 v
  | .borrowBytes z v => w True z 0x1A10 6 v
  | .linkEnable z n v => w (n < 128) z (0x4000 + 0x20 * n) 1 v
  | .write z ix sub v => w (ix ≠ 0xE010) z ix sub v
  | _ => none

end Sys2Proof.Machine
end

