-- ==== Sys2Proof/Safety.lean ====
section
/-! DEFINITION. What a safe step is, and the canonical form of the block's memories. -/

namespace Sys2Proof.Machine

/-- A step is safe when the block goes on. -/
def Safe (s : State) : Prop := ∃ t, step s = .next t

/-- Every memory of the block is in canonical form: host memory behind both ports, and each operand window. -/
def State.MemOk (s : State) : Prop :=
  Memory.wf s.mem.host0 = true ∧ Memory.wf s.mem.host1 = true ∧ ∀ e ∈ s.mem.windows, Memory.wf e.2 = true

/-- The parts of the state: its fields. -/
inductive Fld where
  | pending | free | out | up | now | cfg | ctr | blob | pg | px | tier | media | q | mem | tm | part | ev | dict | boot
  | clk | lk | ix | att | pxb | pwr
  deriving DecidableEq, Repr

/-- Two states agree on a part. -/
def Fld.same (f : Fld) (s t : State) : Prop :=
  match f with
  | .pending => t.pending = s.pending
  | .free => t.free = s.free
  | .out => t.out = s.out
  | .up => t.up = s.up
  | .now => t.now = s.now
  | .cfg => t.cfg = s.cfg
  | .ctr => t.ctr = s.ctr
  | .blob => t.blob = s.blob
  | .pg => t.pg = s.pg
  | .px => t.px = s.px
  | .tier => t.tier = s.tier
  | .media => t.media = s.media
  | .q => t.q = s.q
  | .mem => t.mem = s.mem
  | .tm => t.tm = s.tm
  | .part => t.part = s.part
  | .ev => t.ev = s.ev
  | .dict => t.dict = s.dict
  | .boot => t.boot = s.boot
  | .clk => t.clk = s.clk
  | .lk => t.lk = s.lk
  | .ix => t.ix = s.ix
  | .att => t.att = s.att
  | .pxb => t.pxb = s.pxb
  | .pwr => t.pwr = s.pwr

/-- All parts of the state. -/
def Fld.all : List Fld :=
  [.pending, .free, .out, .up, .now, .cfg, .ctr, .blob, .pg, .px, .tier, .media, .q, .mem, .tm, .part, .ev, .dict, .boot,
    .clk, .lk, .ix, .att, .pxb, .pwr]

/-- Every part but those in `l`. -/
def Fld.but (l : List Fld) : List Fld := Fld.all.filter fun f => !l.contains f

/-- The parts of the state a command can change; it changes no other part, and none changes the queue of waiting commands. -/
def writes (c : Instr) : List Fld :=
  match c with
  | .descriptorFetch | .ottStallResume => [.free, .out, .cfg, .ctr, .pg, .media, .q, .mem, .tm, .part, .ev, .lk]
  | .copy _ => [.out, .ctr, .pg, .media, .q, .mem, .tm, .part, .ev, .lk]
  | .sliceWrite _ => Fld.but [.pending, .up, .now, .cfg, .blob, .dict, .boot, .clk, .att, .pxb, .pwr]
  | .sliceRead _ => [.free, .out, .ctr, .pg, .media, .q, .mem, .tm, .part, .ev, .lk]
  | .stage _ => [.free, .out, .ctr, .pg, .tier, .media, .q, .mem, .tm, .part, .ev, .lk]
  | .seqOpen _ | .seqFork _ => [.free, .out, .ctr, .pg, .media, .q, .mem, .tm, .part, .ev, .lk]
  | .seqTruncate _ | .seqDiscard _ | .chainSearchProbe _ | .chainSearchAttach _ =>
    [.out, .ctr, .pg, .px, .tier, .media, .q, .mem, .tm, .part, .ev, .lk, .ix]
  | .maskedSearch _ => [.out, .ctr, .pg, .media, .q, .mem, .tm, .part, .ev, .lk]
  | .purgePrivate _ => [.out, .ctr, .pg, .px, .tier, .media, .q, .mem, .tm, .part, .ev, .lk, .ix]
  | .inspectSeq _ | .inspectFrame _ | .pipInspect _ => [.out, .ctr, .pg, .media, .q, .mem, .tm, .part, .ev, .lk]
  | .indexQuery _ | .attendForward _ => Fld.but [.pending, .up, .now, .cfg, .blob, .clk, .pxb, .pwr]
  | .attendBackward _ => [.free, .out, .ctr, .pg, .media, .q, .mem, .tm, .part, .ev, .lk, .att]
  | .attendDispatch => [.free, .out, .ctr, .pg, .tier, .media, .q, .mem, .tm, .part, .ev, .lk, .att]
  | .saveDiscard _ => [.out, .ctr, .pg, .media, .q, .mem, .tm, .part, .ev, .lk, .att]
  | .saveExpiry _ _ => [.ctr, .att]
  | .gather _ | .reduce _ | .collect _ => [.out, .ctr, .pg, .media, .q, .mem, .tm, .part, .ev, .lk]
  | .collectTimeout _ => [.out, .up, .now, .ctr, .pg, .media, .q, .mem, .tm, .part, .ev, .lk]
  | .nop _ => [.out, .ctr, .pg, .media, .q, .mem, .tm, .part, .ev, .lk]
  | .list _ => [.free, .out, .cfg, .ctr, .pg, .media, .q, .mem, .tm, .part, .ev, .lk]
  | .sqTailDoorbell _ _ _ _ | .cjHeadDoorbell _ _ _ _ | .queueEnable _ => [.out, .ctr, .media, .q, .ev]
  | .queueDisable _ => [.q]
  | .queueFlush _ | .queueRegisterWrite _ _ _ => [.out, .ctr, .media, .q, .ev]
  | .journalFullRecordWrite _ => [.out, .ctr, .pg, .media, .q, .mem, .tm, .ev, .lk]
  | .moderationTimeTrigger _ => [.out, .up, .now, .ctr, .q]
  | .msixUnmask _ _ _ => [.out, .ctr, .q]
  | .pcieErrorResponse _ => [.out, .ctr, .pg, .media, .q, .mem, .tm, .part, .ev, .lk, .att]
  | .ottHwmRead _ _ | .ottReserveWrite _ _ _ | .ottCapWrite _ _ _ => Fld.but [.pending, .up, .pxb]
  | .camPlace _ => [.ctr, .px]
  | .mapCacheWaitResume _ => [.q]
  | .suspendHoldoffExpiry _ => [.up, .now, .ctr, .media]
  | .pageReadDone _ _ => Fld.but [.pending, .up, .now, .cfg, .blob, .clk, .pxb, .pwr]
  | .punnetFlushTimer _ => [.up, .now, .ctr, .media, .tm]
  | .punnetProgramDone _ _ | .superblockEraseDone _ _ => Fld.but [.pending, .up, .now, .cfg, .blob, .clk, .pxb, .pwr]
  | .retentionRefresh _ _ _ => [.ctr, .media, .tm]
  | .rootCheckpoint => [.up, .now, .ctr, .media, .tm]
  | .mediaSync _ | .shutdownPrepare _ => Fld.but [.pending, .up, .pxb]
  | .ageTick => Fld.but [.pending, .cfg, .blob, .mem, .part, .clk, .att, .pxb, .pwr]
  | .freeCommitStep2 _ _ => [.ctr, .pg, .px, .tier, .media, .ix]
  | .writebackDelayExpiry _ _ => [.free, .ctr, .pg, .tier, .media, .tm]
  | .writebackComplete _ _ => [.free, .out, .ctr, .pg, .tier, .media, .tm, .dict, .boot]
  | .allocWaitResume _ => Fld.but [.pending, .up, .now, .cfg, .blob, .dict, .boot, .clk, .att, .pxb, .pwr]
  | .allocWaitTimeout _ => [.out, .up, .now, .ctr, .pg, .media, .q, .mem, .tm, .part, .ev, .lk]
  | .deferredRelease _ _ | .referenceRecount | .frameRecountDone _ => [.ctr, .pg, .px, .tier, .media, .ix]
  | .camScrub _ _ => Fld.but [.pending, .up, .now, .cfg, .blob, .clk, .pxb, .pwr]
  | .camBankRefill _ => [.ctr, .px, .tm]
  | .domainPurge _ _ | .shareDomainWrite _ _ _ _ | .profileBindingWrite _ _ _ _ | .upprojWrite _ _ _
  | .projWrite _ _ _ | .indexGeometryWrite _ _ _ _ | .planWrite _ _ _ _ | .markStepBegin _ _ _ | .markStart _ _ _ _ =>
    Fld.but [.pending, .up, .pxb]
  | .pushBegin _ _ => [.free, .out, .cfg, .ctr, .pg, .tier, .media, .q, .mem, .tm, .part, .ev, .lk]
  | .pushComplete _ _ => [.out, .ctr, .pg, .tier, .media, .q, .mem, .tm, .part, .ev, .lk]
  | .pipComputeDone _ _ _ _ => [.free, .ctr, .media, .q, .tm, .lk, .ix]
  | .pipProgramBatchDone _ _ => Fld.but [.pending, .up, .now, .cfg, .blob, .clk, .pxb, .pwr]
  | .arrayCalibration _ => Fld.but [.pending, .cfg, .blob, .clk, .pxb, .pwr]
  | .arrayReprogramStart _ => [.out, .ctr, .media, .q, .ev, .ix]
  | .arrayReprogramDone _ => [.ctr, .ix]
  | .pipRefresh _ _ => [.up, .now, .ix]
  | .portServeUnit _ _ => [.out, .ctr, .media, .tm, .lk]
  | .waitingUnitEnqueue _ _ _ _ | .queueSample => [.tm]
  | .leafStatsRead _ _ _ _ | .leafCfgWrite _ _ _ _ _ | .nodeCfgWrite _ _ _ _ | .meterCfgWrite _ _ _ _
  | .derateWrite _ _ _ | .histReset _ => Fld.but [.pending, .up, .pxb]
  | .faultFence _ _ _ _ _ _ => Fld.but [.pending, .up, .now, .cfg, .blob, .clk, .pxb, .pwr]
  | .snapshotRequest _ _ | .jobResume _ _ _ | .partitionReset _ _ _ => Fld.but [.pending, .up, .pxb]
  | .functionLevelReset _ _ => [.out, .ctr, .media, .q, .tm, .part, .ev, .dict, .lk]
  | .partitionDisable _ _ _ => Fld.but [.pending, .up, .pxb]
  | .resetGraceExpiry _ _ => Fld.but [.pending, .blob, .dict, .boot, .clk, .pxb, .pwr]
  | .portReset _ _ => [.out, .ctr, .media, .q, .part, .ev, .dict, .pwr]
  | .protectionWrite _ _ _ _ | .protectionBatch _ _ | .frameQuotaWrite _ _ _ | .zdpOpen _ _ _ | .zdpClose _
  | .describe _ _ _ | .read _ _ _ | .write _ _ _ _ | .segReadInit _ _ _ | .segWriteInit _ _ _ _ | .segData _ _ _ _ _
  | .segEnd _ _ _ _ | .segAbort _ _ _ | .watch _ _ _ | .unwatch _ _ _ => Fld.but [.pending, .up, .pxb]
  | .notify _ _ _ => [.out, .up, .now, .ctr, .q, .tm, .dict]
  | .notifyAck _ _ => [.out, .ctr, .q, .dict]
  | .segmentTimeout _ | .sessionIdle _ => [.out, .up, .now, .ctr, .tm, .dict]
  | .kxlOwnerLinksWrite _ _ _ => Fld.but [.pending, .up, .pxb]
  | .canFrameIgnored => [.ctr]
  | .canBusOff _ => [.up, .now, .dict]
  | .powerOnReset _ _ _ => Fld.but [.pending, .free, .up, .pxb]
  | .startPhaseComplete _ _ _ => Fld.but [.pending, .up, .clk, .pxb, .pwr]
  | .startPhaseBudgetExpiry => [.up, .now, .boot]
  | .startFailRestart => Fld.but [.pending, .free, .pxb]
  | .startSettle => [.up, .now, .boot]
  | .norRetry _ _ => [.out, .up, .now, .ctr, .px, .media, .q, .part, .ev, .boot, .clk]
  | .restart _ _ | .startFailClear _ _ | .firmwareUpdate _ _ | .firmwareActivate _ _ | .defectAdd _ _
  | .factoryToken _ _ | .forensicRead _ _ _ => Fld.but [.pending, .up, .pxb]
  | .bistCoreTest _ _ _ _ => Fld.but [.pending, .up, .now, .cfg, .blob, .clk, .pxb, .pwr]
  | .refEdgesPresent _ => [.clk]
  | .refQualifyTimer _ => [.up, .now, .clk]
  | .refLoss _ => [.out, .ctr, .media, .q, .ev, .clk]
  | .refAbsentTimer _ => [.up, .now, .clk]
  | .meshPullInDone => [.out, .ctr, .media, .q, .ev, .clk]
  | .holdover24h => [.out, .up, .now, .ctr, .media, .q, .ev, .clk]
  | .refSelect _ _ | .timeSet _ _ => Fld.but [.pending, .up, .pxb]
  | .positionsDecoupled _ => Fld.but [.pending, .up, .now, .cfg, .blob, .pxb, .pwr]
  | .clockFault => [.out, .ctr, .media, .q, .ev, .clk]
  | .submit _ | .tail _ | .cjHead _ | .pull _ | .windowWrite _ | .windowRead _ | .leaseRead _ | .reqHeldApply _
  | .dataResponse _ _ _ _ _ _ _ | .leaseWrite _ _ _ _ _ | .sinkFrameReject _ _ _ _ => Fld.but [.pending, .up, .pxb]
  | .credit _ _ => [.out, .lk, .pxb]
  | .creditPeriod _ => [.out]
  | .ack _ _ => [.out, .ctr, .pg, .media, .q, .mem, .tm, .part, .ev, .lk, .pxb]
  | .ackDelayExpiry _ => [.out, .up, .now, .lk, .pxb]
  | .nak _ _ => Fld.but [.pending, .up, .now, .cfg, .blob, .px, .boot, .clk, .ix, .pwr]
  | .frameDiscarded _ _ => [.out, .ctr, .lk, .pxb]
  | .replayTimeout _ => Fld.but [.pending, .cfg, .blob, .px, .boot, .clk, .ix, .pwr]
  | .collFrame _ _ _ _ _ _ _ _ _ _ _ | .collSetsWrite _ _ | .offer _ _ => Fld.but [.pending, .up, .pxb]
  | .lendOfferPeriod => [.up, .now, .ctr, .tm, .lk]
  | .request _ _ | .grant _ _ _ _ _ | .deny _ _ | .renew _ _ | .revoke _ _ _ | .released _ _ =>
    Fld.but [.pending, .up, .pxb]
  | .leaseRenewTimer _ => [.up, .now, .ctr, .tm, .lk]
  | .leaseTermEnd _ | .leaseNoticeEnd _ _ => [.free, .out, .up, .now, .ctr, .pg, .tier, .media, .q, .tm, .ev, .lk]
  | .lendEnable _ _ | .lendBytes _ _ | .borrowBytes _ _ | .linkEnable _ _ _ => Fld.but [.pending, .up, .pxb]
  | .equalisationDone _ _ | .trainingBlock _ _ _ _ _ _ => Fld.but [.pending, .up, .now, .cfg, .blob, .clk, .pwr]
  | .trainingAttemptTimeout _ => Fld.but [.pending, .cfg, .blob, .clk, .pwr]
  | .retrainInterval _ => [.up, .now, .lk, .pxb]
  | .lossOfLock _ => Fld.but [.pending, .up, .now, .cfg, .blob, .px, .boot, .clk, .ix, .pwr]
  | .pxReset _ => [.pxb]
  | .pxRequest _ _ _ _ | .pxMarker _ _ _ _ _ | .pxFrameAccept _ _ _ _ _ | .pxDeliveryBeat => [.out, .pxb]
  | .pxLinkEnable _ _ | .pxLinkDisable _ _ | .pxIrqClear _ | .pxRegisterWrite _ _ | .pxLinkDown _ _ => [.pxb]
  | .powerFail _ => [.out, .ctr, .media, .q, .ev, .pwr]
  | .powerReturn => Fld.but [.pending, .free, .pxb]
  | .porstAssert => Fld.but [.pending, .free, .out, .up, .pxb]
  | .perstRelease _ => [.free, .part, .pwr]
  | .sensorSample _ => Fld.but [.pending, .pxb]
  | .inputFallsBelow40V => Fld.but [.pending, .free, .out, .up, .pxb]
  | .protocolFrame _ => Fld.but [.pending, .up, .now, .cfg, .blob, .px, .boot, .clk, .ix, .pwr]
  | .pcieRenegotiation _ _ _ => [.free, .out, .ctr, .media, .q, .tm, .part, .ev]
  | .tapController _ => [.free, .out, .pwr]
  | .operandWindowAccess _ _ _ _ _ => [.out, .ctr, .mem]
  | .equaliseTimeout _ => Fld.but [.pending, .cfg, .blob, .clk, .pwr]

end Sys2Proof.Machine
end

