-- ==== Sys2Proof/Certificates/Slice0/Obligations.lean ====
section
/-! DEFINITION. The statements for the provers. -/

open Sys2Proof Sys2Proof.Machine

/-! ### The machine -/

/-- A step takes the command at the front of the queue and runs it on the state with the queue's rest. -/
def Obligations.stepRunsTheFrontCommand : Prop :=
  ∀ (c : Instr) (cs : List Instr) (s : State), step { s with pending := c :: cs } = exec c { s with pending := cs }

/-- On an empty queue 1 ns passes and nothing else changes (log 3: the model's choice). -/
def Obligations.emptyQueueLetsTimePass : Prop :=
  ∀ s : State, s.pending = [] → step s = .next { s with up := s.up + 1, now := s.now + 1 }

/-- The memories have their canonical form after reset. What reset leaves (R421) of a factory-fresh module (log 44): power-on reset is
asserted, nothing waits, no queue, operation, sequence, page, session, link, plan, pip or save is there, the counters are 0, and the UL1-PX
block is as px_rst_n leaves it. -/
def Obligations.resetLeavesItsValues : Prop :=
  (State.reset.MemOk) ∧
  (State.reset.pending = [] ∧ State.reset.boot.phase = 0 ∧ State.reset.boot.ready = false ∧ State.reset.boot.fails = 0 ∧
    State.reset.q.queues = [] ∧ State.reset.q.ott = [] ∧ State.reset.pg.seqs = [] ∧ State.reset.pg.frames = [] ∧ State.reset.dict.sessions = [] ∧
    State.reset.lk.links = [] ∧ State.reset.ctr = [] ∧ State.reset.ix.pips = [] ∧ State.reset.att.saves = [] ∧
    (State.reset.link 0).st = .disabled ∧ (State.reset.queue 0).st = .disabled ∧ State.reset.clk.mesh ≠ .locked ∧
    State.reset.pxb.irqStatus = 0 ∧ (State.reset.pxLink 0).txMax = 2048 ∧ (State.reset.pxLink 0).retrain = 1000)

/-- Every step keeps the canonical form of host memory and of the operand windows, and never runs the clock back. -/
def Obligations.stepsKeepMemoriesCanonical : Prop :=
  ∀ s t : State, s.MemOk → step s = .next t → t.MemOk ∧ s.up ≤ t.up

/-- The frame of every command: a command that ends changes no part of the state outside `writes c`. -/
def Obligations.commandsChangeOnlyTheirParts : Prop :=
  ∀ (c : Instr) (s t : State), exec c s = .next t → ∀ f : Fld, f ∉ writes c → f.same s t

/-! ### The UL1-PX page endpoint block (17_page_endpoint.md) -/

/-- Table 17.11, R539, R541, R544: PX_RESET (px_rst_n) puts every register, FIFO and link of the block to its reset value and holds it
there, or releases it; writing 1 to a bit of IRQ_STATUS clears that bit alone; a write of each other writable register takes its value, and
a write of an offset that has none changes nothing. -/
def Obligations.pxRegistersAndReset : Prop :=
  (∀ s : State,
    exec (.pxReset false) s = .next { s with pxb := { low := true } } ∧
    exec (.pxReset true) s = .next { s with pxb := { s.pxb with low := false } }) ∧
  (∀ (s : State) (v : Nat), s.pxb.low = false →
    ∃ t, exec (.pxIrqClear v) s = .next t ∧ exec (.pxRegisterWrite 0x010 v) s = .next t ∧
      t = { s with pxb := { s.pxb with irqStatus := t.pxb.irqStatus } } ∧
      ∀ b ∈ irqBits, bit t.pxb.irqStatus b = (bit s.pxb.irqStatus b && !bit v b)) ∧
  (∀ (s : State) (v : Nat), s.pxb.low = false →
    exec (.pxRegisterWrite 0x008 v) s = .next { s with pxb := { s.pxb with id := setHalf s.pxb.id 0 v 32 } } ∧
    exec (.pxRegisterWrite 0x00C v) s = .next { s with pxb := { s.pxb with id := setHalf s.pxb.id 1 v 32 } } ∧
    exec (.pxRegisterWrite 0x014 v) s = .next { s with pxb := { s.pxb with irqEnable := irqMask v fun _ => true } } ∧
    (∀ k : Nat, k < 2 → (k = 1 → Config.twoLinks = true) →
      exec (.pxRegisterWrite (0x40 + 0x40 * k) v) s = .next (s.pxCtrl k v) ∧
      exec (.pxRegisterWrite (0x48 + 0x40 * k) v) s = .next (s.setPx k
        { s.pxLink k with txMax := if v % 2 ^ 14 % 64 = 0 ∧ 64 ≤ v % 2 ^ 14 ∧ v % 2 ^ 14 ≤ 8192 then v % 2 ^ 14 else (s.pxLink k).txMax }) ∧
      exec (.pxRegisterWrite (0x4C + 0x40 * k) v) s = .next (s.setPx k
        { s.pxLink k with retrain := if 100 ≤ v % 2 ^ 16 ∧ v % 2 ^ 16 ≤ 60000 then v % 2 ^ 16 else (s.pxLink k).retrain })) ∧
    (∀ off : Nat, off < 8 ∨ 0x180 ≤ off → exec (.pxRegisterWrite off v) s = .next s))

/-- R533, R534: a request whose KIND, length and beats are right joins the request FIFO of a link that is UP, and what the link's credits
and replay buffer allow goes out; any other is counted in REQ_REJECTED with IRQ bit 4 (REQ_REJECT). R536: a marker of event 1 or 2 becomes
one MARK frame on VL 0, with POSITION 0 for STEP_BEGIN; a marker with event 0 or 3, or for a link that is not UP, is discarded and counted. -/
def Obligations.pxRequestsAndMarkersJoinTheFifo : Prop :=
  (∀ (s : State) (kind len beats : Nat) (r : Req), s.pxOff r.link = false →
    (1 ≤ kind → kind ≤ 6 → len ≤ (s.pxLink r.link).txMax → beats = max 1 ((len + 63) / 64) → (s.pxLink r.link).lk.st = .up →
      fifoBeats (s.pxLink r.link).fifo + beats ≤ 256 →
      exec (.pxRequest kind len beats r) s = .next ((s.setPx r.link { s.pxLink r.link with fifo := (s.pxLink r.link).fifo ++
        [{ typ := 2, vl := r.vl, payload := slice r.payload 0 len
           hdr := reqHdr kind r.colour r.part r.queue r.select r.rtag r.value r.first r.count (r.addr % 2 ^ 48) }] }).pxPump r.link)) ∧
    (kind = 0 ∨ 6 < kind ∨ (s.pxLink r.link).txMax < len ∨ beats ≠ max 1 ((len + 63) / 64) ∨ (s.pxLink r.link).lk.st ≠ .up →
      exec (.pxRequest kind len beats r) s = .next ((s.setPx r.link { s.pxLink r.link with
        rejected := ((s.pxLink r.link).rejected + 1) % 2 ^ 32 }).pxIrq 4))) ∧
  (∀ (s : State) (k event part plan pos : Nat), s.pxOff k = false →
    (event = 1 ∨ event = 2 → (s.pxLink k).lk.st = .up → fifoMarks (s.pxLink k).fifo < 16 →
      exec (.pxMarker k event part plan pos) s = .next ((s.setPx k { s.pxLink k with fifo := (s.pxLink k).fifo ++
        [{ typ := 9, vl := 0, hdr := leBytes 1 event ++ leBytes 1 part ++ leBytes 1 plan ++ leBytes 1 0 ++
             leBytes 2 (if event = 1 then 0 else pos) ++ leBytes 18 0 }] }).pxPump k)) ∧
    (event = 0 ∨ event = 3 ∨ (s.pxLink k).lk.st ≠ .up →
      exec (.pxMarker k event part plan pos) s = .next ((s.setPx k { s.pxLink k with
        rejected := ((s.pxLink k).rejected + 1) % 2 ^ 32 }).pxIrq 4)))

/-- R530: the beats of a SINK frame with ADDR a and payload `bs`: their addresses rise in steps of 64 from a with bits 5:0 cleared up to the
beat that holds the last byte, and the bytes they enable are exactly those of `bs` at a and up. No payload, no beat. -/
def Obligations.sinkFramesBecomeBeats : Prop :=
  ∀ (k : Nat) (h bs : Bytes), fld h 0 1 % 4 = 0 → fld h 8 6 + bs.length ≤ 2 ^ 48 →
    ∃ beats, pxBeats k 1 h bs = some beats ∧
      (bs = [] → beats = []) ∧
      (bs ≠ [] →
        beats.map PxBeat.base = (List.range ((fld h 8 6 + bs.length - 1) / 64 - fld h 8 6 / 64 + 1)).map
          (fun i => some (fld h 8 6 / 64 * 64 + 64 * i)) ∧
        beats.flatMap PxBeat.enables = ((List.range bs.length).zip bs).map (fun e => (fld h 8 6 + e.1, e.2)))

/-- R496, R504, R528, R531: a frame in its type's range that fits its VL's credits is accepted; its beats join the end of the delivery
stream, with the credits that return when the last has gone; a frame of no use to the block is counted in FRAMES_DISCARDED and its credits
return at once; a frame beyond its credits, out of its type's range, or of a TYPE that is no reliable frame takes the link down. -/
def Obligations.pxFramesJoinTheStream : Prop :=
  ∀ (s : State) (k typ vl : Nat) (h bs : Bytes), s.pxOff k = false → (s.pxLink k).lk.st = .up →
    let c := (36 + bs.length + 255) / 256
    let room := (mget (s.pxLink k).lk.rxLimit vl 0 + 65536 - mget (s.pxLink k).lk.rxUsed vl 0) % 65536
    let fits := typ ∈ [1, 2, 6, 7, 8, 9] ∧ vl < 8 ∧ bs.length ≤ (if typ = 6 then 8200 else 8192)
    (fits → c ≤ room → ∀ bts, pxBeats k typ h bs = some bts →
      exec (.pxFrameAccept k typ vl h bs) s = .next ((s.pxAccept k vl (36 + bs.length)).pxDrain
        ((s.pxAccept k vl (36 + bs.length)).pxb.stream ++ [{ link := k, vl := vl, credits := c, beats := bts }]))) ∧
    (fits → c ≤ room → pxBeats k typ h bs = none →
      exec (.pxFrameAccept k typ vl h bs) s = .next (((s.pxAccept k vl (36 + bs.length)).setPx k
        { (s.pxAccept k vl (36 + bs.length)).pxLink k with
          discarded := (((s.pxAccept k vl (36 + bs.length)).pxLink k).discarded + 1) % 2 ^ 32 }).pxReturn k vl c)) ∧
    (room < c ∨ ¬ fits → exec (.pxFrameAccept k typ vl h bs) s = .next (s.pxDown k 3))

/-- R531, R539: the beat at the front of the delivery stream leaves the module first, sets the cause of every watch it falls under, and is
gone from the stream. -/
def Obligations.pxBeatsLeaveInOrder : Prop :=
  ∀ (s : State) (i : PxItem) (is : List PxItem) (b : PxBeat) (bs : List PxBeat), s.pxb.stream = i :: is → i.beats = b :: bs →
    exec .pxDeliveryBeat s =
      .next (({ s with out := s.out ++ [Out.beat b] }.pxWatch b).pxDrain ({ i with beats := bs } :: is)) ∧
    ({ s with out := s.out ++ [Out.beat b] }.pxWatch b).out = s.out ++ [Out.beat b]

/-- R526, R542, R543: LINK_CTRL. ENABLE 1 on a DISABLED link begins the first training attempt; ENABLE 0 takes a link that trains or is UP
down with reason 5; a link that is UP goes down for the reason it is cut. R543: what a link-down of the block leaves: the link is DOWN for
its reason, its FIFO and replay buffer are empty, what waited in the FIFO is counted in REQ_REJECTED, LINK_DOWNS counts, IRQ bit 2k+1 is
set, and the frames accepted keep their beats. -/
def Obligations.pxLinksAreControlled : Prop :=
  (∀ (s : State) (k v : Nat), s.pxOff k = false → (k = 1 → Config.twoLinks = true) →
    let on := { s.pxLink k with enable := true, rate200 := bit (v / 2 * 2 + 1) 1, fallback := bit (v / 2 * 2 + 1) 2 }
    let off := { s.pxLink k with enable := false, rate200 := bit (v / 2 * 2) 1, fallback := bit (v / 2 * 2) 2 }
    ((s.pxLink k).lk.st = .disabled →
      exec (.pxLinkEnable k v) s = .next ((s.setPx k on).pxBegin k 1) ∧ exec (.pxLinkDisable k v) s = .next (s.setPx k off)) ∧
    ((s.pxLink k).lk.st = .up ∨ (s.pxLink k).lk.st = .equalise ∨ (s.pxLink k).lk.st = .exchange →
      exec (.pxLinkEnable k v) s = .next (s.setPx k on) ∧
      exec (.pxLinkDisable k v) s = .next ((s.setPx k off).pxDown k 5)) ∧
    (∀ r : Nat, (s.pxLink k).lk.st = .up → 1 ≤ r → r ≤ 6 → exec (.pxLinkDown k r) s = .next (s.pxDown k r))) ∧
  (∀ (s : State) (k r : Nat), k < 2 →
    ((s.pxDown k r).pxLink k).lk.st = .down ∧ ((s.pxDown k r).pxLink k).lk.reason = r ∧
    ((s.pxDown k r).pxLink k).lk.replay = [] ∧ ((s.pxDown k r).pxLink k).fifo = [] ∧
    ((s.pxDown k r).pxLink k).downs = ((s.pxLink k).downs + 1) % 2 ^ 32 ∧
    ((s.pxDown k r).pxLink k).rejected = ((s.pxLink k).rejected + (s.pxLink k).fifo.length) % 2 ^ 32 ∧
    bit (s.pxDown k r).pxb.irqStatus (2 * k + 1) = true ∧
    (s.pxDown k r).pxb.stream.map (·.beats) = s.pxb.stream.map (·.beats) ∧
    (s.pxDown k r).pxLink (1 - k) = s.pxLink (1 - k))

/-! ### Both ends of a Kwaxel link (16_kwaxel_link.md, R526, R543) -/

/-- R499: an UP link takes the limits of a CREDIT frame as current, and a CREDIT period sends its own. Table 16.6, R504: an ACK of FSEQ `f`
releases the frames of the replay buffer up to and including it, one that names no frame releases none; ACK_DELAY after an acceptance
ACK(EXPECTED − 1) goes out and the count of unacknowledged frames starts anew. -/
def Obligations.creditsAndAcksMove : Prop :=
  (∀ (s : State) (ls : List Nat),
    (∀ n : Nat, (s.link n).st = .up →
      exec (.credit (.module n) ls) s = .next (s.setLink n { s.link n with txLimit := limitMap ls }) ∧
      exec (.creditPeriod (.module n)) s = .next { s with out := s.out ++
        [Out.control n 3 ((List.range 8).flatMap fun v => leBytes 2 (mget (s.link n).rxLimit v 0))] }) ∧
    (∀ k : Nat, s.pxOff k = false → (s.pxLink k).lk.st = .up →
      exec (.credit (.block k) ls) s = .next ((s.setPxLk k { (s.pxLink k).lk with txLimit := limitMap ls }).pxPump k) ∧
      exec (.creditPeriod (.block k)) s = .next { s with out := s.out ++
        [Out.pxControl k 3 ((List.range 8).flatMap fun v => leBytes 2 (mget (s.pxLink k).lk.rxLimit v 0))] }) ∧
    (∀ v : Nat, v < 8 → mget (limitMap ls) v 0 = ls.getD v 0 % 65536)) ∧
  (∀ (s : State) (f : Nat),
    (∀ n i : Nat, (s.link n).replay.findIdx? (fun t => t.fseq == f) = some i →
      exec (.ack (.module n) f) s = .next (s.releaseFrames n (i + 1))) ∧
    (∀ n : Nat, (s.link n).replay.findIdx? (fun t => t.fseq == f) = none → exec (.ack (.module n) f) s = .next s) ∧
    (∀ k i : Nat, s.pxOff k = false → (s.pxLink k).lk.replay.findIdx? (fun t => t.fseq == f) = some i →
      exec (.ack (.block k) f) s = .next ((s.setPxLk k { (s.pxLink k).lk with
        replay := (s.pxLink k).lk.replay.drop (i + 1), replayCount := 0 }).pxPump k)) ∧
    (∀ n t : Nat, (s.link n).ackDue = some t →
      exec (.ackDelayExpiry (.module n)) s = .next ({ s.timeTo t with out := s.out ++
        [Out.control n 4 (leBytes 4 (((s.link n).expected + 2 ^ 24 - 1) % 2 ^ 24))] }.setLink n
          { s.link n with acked := 0, ackDue := none })) ∧
    (∀ k t : Nat, s.pxOff k = false → (s.pxLink k).lk.ackDue = some t →
      exec (.ackDelayExpiry (.block k)) s = .next ({ s.timeTo t with out := s.out ++
        [Out.pxControl k 4 (leBytes 4 (((s.pxLink k).lk.expected + 2 ^ 24 - 1) % 2 ^ 24))] }.setPxLk k
          { (s.pxLink k).lk with acked := 0, ackDue := none })))

/-- Tables 16.5, 16.6, R505: a NAK of FSEQ `f` releases the frames before it and resends the rest; 4 µs without an ACK of the oldest frame
resends all; a bad frame is answered with NAK(EXPECTED), a duplicate with an ACK. R505, R543 on the block: a NAK, a replay timeout and a bad
frame at a link of the UL1-PX block that is UP. -/
def Obligations.framesAreResentAtBothEnds : Prop :=
  (∀ (s : State) (n f : Nat), (s.link n).st = .up →
    (∀ i : Nat, (s.link n).replay.findIdx? (fun t => t.fseq == f) = some i →
      exec (.nak (.module n) f) s = .next ((((s.linkCount n 9).releaseFrames n i).setLink n
        { ((s.linkCount n 9).releaseFrames n i).link n with replayCount := (s.link n).replayCount }).replayAll n)) ∧
    ((s.link n).replay.findIdx? (fun t => t.fseq == f) = none → exec (.nak (.module n) f) s = .next (s.linkCount n 9)) ∧
    (∀ (t : TxFrame) (ts : List TxFrame), (s.link n).replay = t :: ts →
      exec (.replayTimeout (.module n)) s = .next (((s.timeTo (t.sentAt + us 4)).linkCount n 0x0B).replayAll n)) ∧
    exec (.frameDiscarded (.module n) 3) s = .next (s.sendAck n) ∧
    ((s.link n).mayNak s.up = true →
      exec (.frameDiscarded (.module n) 0) s =
        .next (((s.linkCount n 7).setLink n { s.link n with spoiled := true }).sendNak n) ∧
      exec (.frameDiscarded (.module n) 1) s =
        .next (((s.linkCount n 6).setLink n { s.link n with spoiled := true }).sendNak n) ∧
      exec (.frameDiscarded (.module n) 2) s = .next ((s.setLink n (s.link n)).sendNak n))) ∧
  (∀ (s : State) (k f : Nat), s.pxOff k = false → (s.pxLink k).lk.st = .up →
    (∀ i : Nat, (s.pxLink k).lk.replay.findIdx? (fun t => t.fseq == f) = some i →
      exec (.nak (.block k) f) s = .next ((((s.pxRelease k i).setPxLk k
        { ((s.pxRelease k i).pxLink k).lk with replayCount := (s.pxLink k).lk.replayCount }).pxReplay k).pxPump k)) ∧
    (∀ (t : TxFrame) (ts : List TxFrame), (s.pxLink k).lk.replay = t :: ts →
      exec (.replayTimeout (.block k)) s = .next ((s.timeTo (t.sentAt + us 4)).pxReplay k)) ∧
    exec (.frameDiscarded (.block k) 3) s = .next (s.pxAck k) ∧
    ((s.pxLink k).lk.mayNak s.up = true →
      exec (.frameDiscarded (.block k) 0) s = .next ((s.setPx k { s.pxLink k with
        crcDiscards := ((s.pxLink k).crcDiscards + 1) % 2 ^ 32 }).pxNak k)))

/-- R505, R503: what a replay of a module link leaves: within REPLAY_LIMIT every unacknowledged frame goes out again in order, none is lost,
and REPLAY_COUNT rises; beyond it the link goes down with reason 2. -/
def Obligations.replaysSendEveryFrameAgain : Prop :=
  ∀ (s : State) (n : Nat),
    ((s.link n).replayCount < 8 →
      (s.replayAll n).out = s.out ++ (s.link n).replay.map (fun t => Out.frame n t.fseq t.f) ∧
      ((s.replayAll n).link n).replayCount = (s.link n).replayCount + 1 ∧
      ((s.replayAll n).link n).replay.map (fun t => (t.fseq, t.f, t.tag)) = (s.link n).replay.map (fun t => (t.fseq, t.f, t.tag)) ∧
      ((s.replayAll n).link n).st = (s.link n).st) ∧
    (8 ≤ (s.link n).replayCount → s.replayAll n = s.linkDown n 2 .down)

/-- Table 16.18, R521, R526: training. Lanes that equalise with a pair to use bring a link to EXCHANGE and its training block goes out;
blocks of the partner bring it UP at the rate both reach; a block while UP takes it down and training begins anew. Table 16.18: the timers
of training. 300 ms without equalisation goes on with the lanes the PHY reports then (log 23, the model's choice: a free value), an attempt
ends at 500 ms, and a link that is DOWN with ENABLE 1 trains again after RETRAIN_INTERVAL. R518, R496, R522: an UP link that loses lock goes
down with reason 1, one that receives a frame it must not with reason 3, at either end. -/
def Obligations.linksTrainAndGoDown : Prop :=
  (∀ (s : State) (lanes : List Nat),
    (∀ n : Nat, (s.link n).st = .equalise → hasPair (s.goodLanes n lanes) = true →
      exec (.equalisationDone (.module n) lanes) s = .next
        ((s.setLink n { s.link n with eqLanes := s.goodLanes n lanes, st := .exchange }).sendTraining n)) ∧
    (∀ n : Nat, (s.link n).st = .equalise → hasPair (s.goodLanes n lanes) = false →
      exec (.equalisationDone (.module n) lanes) s =
        .next ((s.setLink n { s.link n with eqLanes := s.goodLanes n lanes }).attemptFails n)) ∧
    (∀ (n role l rates id rate mask : Nat) (ls : List Nat), (s.link n).st = .exchange →
      chooseRate (s.link n).eqLanes ((List.range 4).filter fun i => bit l i) (s.link n).rate (s.link n).fallback rates =
        some (rate, mask) →
      exec (.trainingBlock (.module n) role l rates id ls) s = .next (s.linkUp n rate mask role id (ls.flatMap (leBytes 2)))) ∧
    (∀ (n role l rates id : Nat) (ls : List Nat), (s.link n).st = .up →
      exec (.trainingBlock (.module n) role l rates id ls) s = .next ((s.linkDown n 4 .down).beginAttempt n 1)) ∧
    (∀ (k l rates id rate mask : Nat) (ls : List Nat), s.pxOff k = false → (s.pxLink k).lk.st = .exchange →
      chooseRate (s.pxLink k).lk.eqLanes ((List.range 4).filter fun i => bit l i) (s.pxLink k).lk.rate
        (s.pxLink k).lk.fallback rates = some (rate, mask) →
      exec (.trainingBlock (.block k) 1 l rates id ls) s = .next (s.pxUp k rate mask id ls))) ∧
  (∀ (s : State),
    (∀ n : Nat, (s.link n).st = .equalise →
      exec (.equaliseTimeout (.module n)) s = .next ((s.timeTo ((s.link n).since + ms 300)).takeFree.2.equalised (.module n)
        ((List.range 4).filter fun i => bit ((Config.freeByte (s.timeTo ((s.link n).since + ms 300)).free).toNat % 15) i))) ∧
    (∀ n : Nat, (s.link n).st = .equalise ∨ (s.link n).st = .exchange →
      exec (.trainingAttemptTimeout (.module n)) s = .next ((s.timeTo ((s.link n).since + ms 500)).attemptFails n)) ∧
    (∀ n : Nat, (s.link n).st = .down → s.obj (lIx n 0) 1 1 = 1 →
      exec (.retrainInterval (.module n)) s =
        .next ((s.timeTo ((s.link n).since + ms (s.obj 0x1A00 5 1000))).beginAttempt n 1)) ∧
    (∀ k : Nat, s.pxOff k = false → (s.pxLink k).lk.st = .down → (s.pxLink k).enable = true →
      exec (.retrainInterval (.block k)) s =
        .next ((s.timeTo ((s.pxLink k).lk.since + ms (s.pxLink k).retrain)).pxBegin k 1))) ∧
  (∀ (s : State),
    (∀ n : Nat, (s.link n).st = .up →
      exec (.lossOfLock (.module n)) s = .next (s.linkDown n 1 .down) ∧
      exec (.protocolFrame (.module n)) s = .next (s.linkDown n 3 .down)) ∧
    (∀ k : Nat, s.pxOff k = false → (s.pxLink k).lk.st = .up →
      exec (.lossOfLock (.block k)) s = .next (s.pxDown k 1) ∧ exec (.protocolFrame (.block k)) s = .next (s.pxDown k 3)))

/-- R511, R512, Table 16.12: the timers of lending: OFFER every 100 ms, RENEW at half the term, revocation when the notice would outlast the
term, and the end of a notice at the borrower and at the lender. -/
def Obligations.lendingTimersRun : Prop :=
  ∀ (s : State),
    exec .lendOfferPeriod s = .next ({ s.timeTo (s.lk.offerAt + ms 100) with
      lk := { s.lk with offerAt := (s.timeTo (s.lk.offerAt + ms 100)).up } }.sendOffers) ∧
    (∀ (k : Nat) (e : Lease), mget? s.lk.leases k = some e →
      (e.revoking = false → e.asked = false → ∀ (x : Nat) (xs : List Nat), s.linksTo e.partner = x :: xs →
        exec (.leaseRenewTimer k) s = .next ({ s.timeTo (e.termAt + (e.termEnd - e.termAt) / 2) with
          lk := { s.lk with leases := mset s.lk.leases k { e with asked := true } } }.sendLend x 5 e.id 0 0 0)) ∧
      (e.revoking = false →
        exec (.leaseTermEnd k) s = .next ((s.timeTo (e.termEnd - ms e.notice)).revokeLease k e.termEnd)) ∧
      (e.revoking = true → s.linksTo e.partner = [] →
        exec (.leaseNoticeEnd false k) s = .next ((s.timeTo e.noticeEnd).endLease k stLease 4)) ∧
      (e.revoking = true → ∀ (x : Nat) (xs : List Nat), s.linksTo e.partner = x :: xs →
        exec (.leaseNoticeEnd false k) s = .next (((s.timeTo e.noticeEnd).sendLend x 7 e.id 0 0 0).endLease k stLease 4))) ∧
    (∀ (k : Nat) (e : Lent), mget? s.lk.lent k = some e →
      exec (.leaseNoticeEnd true k) s = .next ((s.timeTo (if e.revoking then e.noticeEnd else e.termEnd)).endLent k))

/-! ### Frames that arrive on a module link (R496-R517) -/

/-- R504, R498: what accepting a frame does to its link: EXPECTED rises by 1 modulo 2^24, the VL's credits used rise by one for every 256 B
begun, a NAK is answered, and the frames and bytes received are counted; nothing but the link, the counters and an ACK frame changes. -/
def Obligations.acceptedFramesAreCounted : Prop :=
  ∀ (s u : State) (n vl len : Nat), s.accept n vl len = some u →
    (s.link n).st = .up ∧ (u.link n).st = .up ∧
    (u.link n).expected = ((s.link n).expected + 1) % 2 ^ 24 ∧
    mget (u.link n).rxUsed vl 0 = (mget (s.link n).rxUsed vl 0 + (len + 255) / 256) % 65536 ∧
    (u.link n).nakAt = none ∧ (u.link n).replay = (s.link n).replay ∧ (u.link n).held = (s.link n).held ∧
    ((s.link n).acked < 31 → u.out = s.out) ∧
    (31 ≤ (s.link n).acked → u.out = s.out ++ [Out.control n 4 (leBytes 4 ((s.link n).expected % 2 ^ 24))]) ∧
    u.mem = s.mem ∧ u.q = s.q ∧ u.lk = { s.lk with links := u.lk.links }

/-- R265, R266, R507: the queue requests of a link-bound queue that are good: SUBMIT writes its descriptors into the ring at the tail and
moves the tail past them; TAIL and CJ_HEAD set the tail and the journal head. R266, R278, R502: a SUBMIT that finds no room in its ring, or
whose queue waits for the OTT, is held back and its credits with it. -/
def Obligations.queueFramesAreAppliedOrHeld : Prop :=
  ∀ (s : State) (r : Req), s.reqQueue r = true →
    let len := 36 + r.payload.length
    let u := s.accepted r.link r.vl len
    let q := 64 * r.part + r.queue
    let v := s.queue q
    (∀ k : Nat, s.takesFrame r.link r.vl len (.submit r) → r.payload.length = 64 * k → 1 ≤ k → k ≤ 128 → v.ottStall = false →
      k ≤ 2 ^ v.sqLog2 - 1 - (v.tail + 2 ^ v.sqLog2 - v.sqHead) % 2 ^ v.sqLog2 →
      exec (.submit r) s = .next ((((List.range k).foldl (fun (w : State) (i : Nat) =>
        w.windowWrite r.part (offOf v.sqBase.toNat + 64 * ((v.tail + i) % 2 ^ v.sqLog2)) (slice r.payload (64 * i) 64)) u).setTail q
          ((v.tail + k) % 2 ^ v.sqLog2)).givesBack r.link r.vl len)) ∧
    (s.takesFrame r.link r.vl len (.tail r) → r.value < 2 ^ v.sqLog2 →
      exec (.tail r) s = .next ((u.setQueue q { v with tail := r.value }).givesBack r.link r.vl len)) ∧
    (s.takesFrame r.link r.vl len (.cjHead r) → r.value < 2 ^ v.cjLog2 →
      (r.value + 2 ^ v.cjLog2 - v.cjHead) % 2 ^ v.cjLog2 ≤ (v.cjTail + 2 ^ v.cjLog2 - v.cjHead) % 2 ^ v.cjLog2 →
      exec (.cjHead r) s = .next ((u.setQueue q { v with cjHead := r.value }).givesBack r.link r.vl len)) ∧
    (∀ k : Nat, s.takesFrame r.link r.vl len (.submit r) → r.payload.length = 64 * k → 1 ≤ k → k ≤ 128 →
      v.ottStall = true ∨ 2 ^ v.sqLog2 - 1 - (v.tail + 2 ^ v.sqLog2 - v.sqHead) % 2 ^ v.sqLog2 < k →
      exec (.submit r) s = .next (((u.setLink r.link { u.link r.link with held := (s.link r.link).held ++ [.submit r] }).linkCount
        r.link 0x10).bump 0x6080 7))

/-- R140, R277, R507, R508, R512: PULL, WINDOW_WRITE, WINDOW_READ and LEASE_READ that are good. A window write stores its payload at ADDR; a
read is answered with a RESPONSE. A PULL of a plan in pull mode that may take an OTT entry takes one: its plan becomes active at the position
pulled (log 20, DEDUCED), the job waits behind the plan's others, and the slices of the position and the ones STAGE_LEAD ahead are staged;
while its class and partition may take none, the PULL is held back. -/
def Obligations.dataRequestsAndPullsAreApplied : Prop :=
  ∀ (s : State) (r : Req), s.part.setup.hasLink r.part r.link = true →
    let len := 36 + r.payload.length
    let u := s.accepted r.link r.vl len
    let n := r.select % 8
    let b := s.planObj r.part n
    let j : PlanJob := {
      no := (s.plan r.part n).next, pos := r.value, plan := b, cls := r.vl, pull := true, pre := r.colour % 4
      first := r.first, count := if r.count = 0 then pBlocks b - r.first else min r.count (pBlocks b) }
    (s.takesFrame r.link r.vl len (.windowWrite r) → r.addr + r.payload.length ≤ s.windowBytes r.part →
      exec (.windowWrite r) s = .next ((u.windowWrite r.part r.addr r.payload).givesBack r.link r.vl len)) ∧
    (s.takesFrame r.link r.vl len (.windowRead r) → r.addr + r.count ≤ s.windowBytes r.part → 1 ≤ r.count → r.count ≤ 8192 →
      exec (.windowRead r) s =
        .next ((u.respond r r.part r.vl 0 (rdN (s.window r.part) r.addr r.count)).givesBack r.link r.vl len)) ∧
    (∀ e : Lent, s.takesFrame r.link r.vl len (.leaseRead r) → s.lentTo r.link r.select = some e → r.addr + r.count ≤ e.bytes →
      1 ≤ r.count → r.count ≤ 8192 →
      exec (.leaseRead r) s = .next (((u.lentUnits e r.addr r.count).respond r 64 5 0
        ((List.range r.count).map fun i => e.byte (r.addr + i))).givesBack r.link r.vl len)) ∧
    (s.takesFrame r.link r.vl len (.pull r) → pMode b = 2 → r.value < pOrderLen b →
      (∀ t : Nat, (s.ottKind r.part r.vl).isSome = true → t < 131072 → s.op? t = none →
        ∃ (t : Nat) (w : State), u.takeEntry (pushOp r.part n j) = some (t, w) ∧ s.op? t = none ∧
          let v := w.plan r.part n
          exec (.pull r) s = .next (((w.setPlan r.part n { v with
            st := 1, pos := r.value, inForce := b, staged := [], next := v.next + 1
            jobs := v.jobs ++ [{ j with tag := some t }] }).stagePositions r.part n r.value (r.value + pStageLead b + 1)).givesBack
              r.link r.vl len)) ∧
      (s.ottKind r.part r.vl = none → exec (.pull r) s = .next (((u.setLink r.link { u.link r.link with
        held := (s.link r.link).held ++ [.pull r] }).linkCount r.link 0x10).bump 0x6080 7)))

/-- R509, R515, R508, R512, R497: MARK, COLL and DATA frames. A STEP_BEGIN of a plan in cadence mode brings the object as written into force
and begins its step, a START of a position of the plan in force starts it, a mark the plan ignores is counted; a contribution that its round
admits joins it and may complete its COLLECT; a RESPONSE goes to the read it answers, a LEASE write to the lent bytes, and a SINK frame is
discarded and counted. -/
def Obligations.streamFramesAreApplied : Prop :=
  ∀ (s : State) (n : Nat),
    (∀ p k : Nat, s.takesFrame n 0 36 (.markStepBegin n p k) →
      let u := (s.accepted n 0 36).linkCount n 0x12
      (s.part.setup.hasLink p n = true → s.suppressed p = false → pMode (s.planObj p k) = 1 →
        exec (.markStepBegin n p k) s = .next ((u.stepBegin p k).givesBack n 0 36)) ∧
      (s.part.setup.hasLink p n = false ∨ s.suppressed p = true →
        exec (.markStepBegin n p k) s = .next ((u.linkCount n 0x13).givesBack n 0 36))) ∧
    (∀ p k i : Nat, s.takesFrame n 0 36 (.markStart n p k i) →
      let u := (s.accepted n 0 36).linkCount n 0x12
      (s.part.setup.hasLink p n = true → s.suppressed p = false → pMode (s.livePlan p k) = 1 → i < pOrderLen (s.livePlan p k) →
        exec (.markStart n p k i) s = .next ((u.startPos p k i).givesBack n 0 36)) ∧
      (pMode (s.livePlan p k) ≠ 1 ∨ pOrderLen (s.livePlan p k) ≤ i →
        exec (.markStart n p k i) s = .next ((u.linkCount n 0x13).givesBack n 0 36))) ∧
    (∀ (vl set m kind : Nat) (fp : Bool) (p rd off total : Nat) (d : Bytes) (e : CollSet),
      s.takesFrame n vl (36 + d.length) (.collFrame n vl set m kind fp p rd off total d) →
      set < 2 ^ 16 → m < 16 → kind < 4 → rd < 2 ^ 32 → off < 2 ^ 48 → total < 2 ^ 32 →
      s.collSet set = some e → e.root = true → bit e.members m = true → s.posted set ≤ rd →
      (s.lk.contribs.any fun c => c.set == set && c.member == m && c.round == rd && c.full) = false →
      s.collHeld e.part + d.length ≤ s.obj 0x1A01 2 67108864 →
      let c : Contrib := { set := set, member := m, round := rd, kind := kind, fp32 := fp, total := total }
      let w := (s.accepted n vl (36 + d.length)).addPart c off d (some n)
      let x := if w.lk.contribs.any (fun g => g.set == set && g.member == m && g.round == rd && g.full) then w.linkCount n 0x15 else w
      exec (.collFrame n vl set m kind fp p rd off total d) s = .next ((x.contribFull set m rd).givesBack n vl (36 + d.length))) ∧
    (∀ (vl rtag st a : Nat) (last : Bool) (d : Bytes), s.takesFrame n vl (36 + d.length) (.dataResponse n vl rtag st a last d) →
      exec (.dataResponse n vl rtag st a last d) s =
        .next (((s.accepted n vl (36 + d.length)).onResponse n rtag st last d).givesBack n vl (36 + d.length))) ∧
    (∀ (vl id a : Nat) (d : Bytes) (e : Lent), s.takesFrame n vl (36 + d.length) (.leaseWrite n vl id a d) →
      s.lentTo n id = some e → e.revoking = false → a + d.length ≤ e.bytes →
      let u := s.accepted n vl (36 + d.length)
      exec (.leaseWrite n vl id a d) s = .next (({ u with lk := { u.lk with lent := mset u.lk.lent id { e with
        mem := ((List.range d.length).zip d).foldl (fun (m : Map Byte) (x : Nat × Byte) => mset m (a + x.1) x.2) e.mem } } }.lentUnits
          e a d.length).givesBack n vl (36 + d.length))) ∧
    (∀ (vl a : Nat) (d : Bytes), s.takesFrame n vl (36 + d.length) (.sinkFrameReject n vl a d) →
      exec (.sinkFrameReject n vl a d) s =
        .next (((s.accepted n vl (36 + d.length)).linkCount n 0x11).givesBack n vl (36 + d.length)))

/-- R511, R512, R517: the LEND frames. OFFER notes what the partner offers; REQUEST is answered with a GRANT of a lease of the lower of the
bytes wanted and on offer, or a DENY; GRANT opens a lease in the lowest free slot, or renews one; RENEW starts a new term; REVOKE starts the
notice; RELEASED ends a lent lease. -/
def Obligations.lendFramesAreApplied : Prop :=
  ∀ (s : State) (n : Nat),
    let u := (s.accepted n 7 36).linkCount n 0x14
    let takes := fun i => s.takesFrame n 7 36 i
    (∀ b : Nat, takes (.offer n b) → exec (.offer n b) s = .next (({ u with
      lk := { u.lk with offers := mset u.lk.offers n b } }.borrow).givesBack n 7 36)) ∧
    (∀ b : Nat, takes (.request n b) →
      let z := min b s.onOffer / 2 ^ 30 * 2 ^ 30
      (z = 0 ∨ lowFree s.lk.lent 16 = none →
        exec (.request n b) s = .next ((u.sendLend n 4 0 0 0 0).givesBack n 7 36)) ∧
      (∀ id : Nat, z ≠ 0 → lowFree s.lk.lent 16 = some id →
        let term := s.obj 0x1A10 3 60000
        let e : Lent := { partner := (s.link n).partner, bytes := z, termEnd := s.up + ms term, notice := s.obj 0x1A10 4 20, order := s.lk.lentNo }
        exec (.request n b) s = .next (((({ u with lk := { u.lk with lent := mset u.lk.lent id e, lentNo := u.lk.lentNo + 1 } }.sendLend
          n 3 id term (s.obj 0x1A10 4 20) z).leaseEvent (0x100 + id) 6 z).sendOffers).givesBack n 7 36))) ∧
    (∀ id term notice b k x : Nat, takes (.grant n id term notice b) → s.slotOf n id = none → s.lk.asked = some x →
      lowFree s.lk.leases 16 = some k →
      exec (.grant n id term notice b) s = .next (((({ u with lk := { u.lk with
        leases := mset u.lk.leases k { id := id, partner := (s.link n).partner, bytes := b, termAt := s.up, termEnd := s.up + ms term, notice := notice }
        asked := none } }.leaseEvent k 1 b).borrow)).givesBack n 7 36)) ∧
    (∀ (id term notice b k : Nat) (e : Lease), takes (.grant n id term notice b) → s.slotOf n id = some (k, e) → e.revoking = false →
      exec (.grant n id term notice b) s = .next ((({ u with lk := { u.lk with
        leases := mset u.lk.leases k { e with termAt := s.up, termEnd := s.up + ms term, notice := notice, asked := false } } }.leaseEvent
          k 2 e.bytes)).givesBack n 7 36)) ∧
    (∀ id : Nat, takes (.deny n id) → s.lk.asked = some n → (s.slotOf n id).any (·.2.asked) = false →
      exec (.deny n id) s = .next (({ u with lk := { u.lk with asked := none } }).givesBack n 7 36)) ∧
    (∀ (id : Nat) (e : Lent), takes (.renew n id) → s.lentTo n id = some e → e.revoking = false →
      exec (.renew n id) s = .next (({ u with lk := { u.lk with lent := mset u.lk.lent id { e with
        termEnd := s.up + ms (s.obj 0x1A10 3 60000), notice := s.obj 0x1A10 4 20 } } }.sendLend n 3 id (s.obj 0x1A10 3 60000)
          (s.obj 0x1A10 4 20) e.bytes).givesBack n 7 36)) ∧
    (∀ (id notice k : Nat) (e : Lease), takes (.revoke n id notice) → s.slotOf n id = some (k, e) →
      exec (.revoke n id notice) s = .next ((u.revokeLease k (s.up + ms notice)).givesBack n 7 36)) ∧
    (∀ (id : Nat) (e : Lent), takes (.released n id) → s.lentTo n id = some e →
      exec (.released n id) s = .next ((u.endLent id).givesBack n 7 36))

/-- R502: REQ_HELD_APPLY applies the frame held on a link once it can be applied, drops it from the held frames and returns its credits; a
frame that still cannot be applied stays. A SUBMIT held back for want of room is applied once its ring has room: its descriptors stand in
the ring and the tail moves past them. -/
def Obligations.heldFramesAreApplied : Prop :=
  (∀ (s : State) (n : Nat) (i : Instr), (s.link n).held = [i] → (heldFrame i).1 < 8 →
    (∀ t : State, s.applyFrame i = some (.next t) → (t.link n).held = [i] →
      exec (.reqHeldApply n) s = .next ((t.setLink n { t.link n with held := [] }).givesBack n (heldFrame i).1 (heldFrame i).2.1)) ∧
    (s.applyFrame i = none → exec (.reqHeldApply n) s = .next s)) ∧
  (∀ (s : State) (n k : Nat) (r : Req), (s.link n).held = [.submit r] → r.vl < 8 → s.reqQueue r = true →
    let q := 64 * r.part + r.queue
    let v := s.queue q
    r.payload.length = 64 * k → 1 ≤ k → k ≤ 128 → v.ottStall = false →
    k ≤ 2 ^ v.sqLog2 - 1 - (v.tail + 2 ^ v.sqLog2 - v.sqHead) % 2 ^ v.sqLog2 →
    let t := ((List.range k).foldl (fun (w : State) (i : Nat) =>
      w.windowWrite r.part (offOf v.sqBase.toNat + 64 * ((v.tail + i) % 2 ^ v.sqLog2)) (slice r.payload (64 * i) 64)) s).setTail q
        ((v.tail + k) % 2 ^ v.sqLog2)
    exec (.reqHeldApply n) s =
      .next ((t.setLink n { s.link n with held := [] }).givesBack n r.vl (36 + r.payload.length)))

/-- R283, R20: a journal head beyond CJ_TAIL, by doorbell or by frame, is the host's violation, and the block stops there; so does it apply
to no other command than CJ_HEAD_DOORBELL, CJ_HEAD and the frames held back, and no command is refused. -/
def Obligations.onlyJournalHeadsStop : Prop :=
  (∀ (c : Instr) (s : State), (∀ port fn q idx, c ≠ .cjHeadDoorbell port fn q idx) → (∀ r, c ≠ .cjHead r) → (∀ n, c ≠ .reqHeldApply n) →
    ∃ t, exec c s = .next t) ∧
  (∀ (c : Instr) (s : State) (r : Refusal), exec c s ≠ .refused r) ∧
  (∀ (s : State) (port fn q idx : Nat), fn ≠ 0 → s.pcieGood port = true → s.hasVf port (fn - 1) = true →
    let v := s.queue (64 * (fn - 1) + q)
    v.st = .enabled → v.binding = port → idx < 2 ^ v.cjLog2 →
    (v.cjTail + 2 ^ v.cjLog2 - v.cjHead) % 2 ^ v.cjLog2 < (idx + 2 ^ v.cjLog2 - v.cjHead) % 2 ^ v.cjLog2 →
    exec (.cjHeadDoorbell port fn q idx) s = .fault .hostViolation)

/-! ### Queues, the OTT and completion records (08_queues.md) -/

/-- R264, R265, R267: what a host commands of a queue. A good doorbell sets the tail or the journal head; a bad one is counted with cause
0x03; a valid queue is ENABLED empty with PHASE 1, an invalid one reports cause 0x02; a disable stops it, at once when nothing is in flight;
an address or CFG write to a queue that is not DISABLED reports cause 0x01. A written register's vector is evaluated anew (R282). -/
def Obligations.queueCommandsAct : Prop :=
  ∀ (s : State) (port fn k idx : Nat), fn ≠ 0 → s.pcieGood port = true → s.hasVf port (fn - 1) = true →
    let q := 64 * (fn - 1) + k
    let v := s.queue q
    (v.st = .enabled → v.binding = port → idx < 2 ^ v.sqLog2 →
      exec (.sqTailDoorbell port fn k idx) s = .next (s.setQueue q { v with tail := idx })) ∧
    (v.st = .enabled → v.binding = port → idx < 2 ^ v.cjLog2 →
      (idx + 2 ^ v.cjLog2 - v.cjHead) % 2 ^ v.cjLog2 ≤ (v.cjTail + 2 ^ v.cjLog2 - v.cjHead) % 2 ^ v.cjLog2 →
      exec (.cjHeadDoorbell port fn k idx) s = .next (s.setQueue q { v with cjHead := idx })) ∧
    (v.st ≠ .enabled ∨ v.binding ≠ port ∨ 2 ^ v.sqLog2 ≤ idx →
      exec (.sqTailDoorbell port fn k idx) s = .next ((s.queueCause q 3).bump (pIx (q / 64) 0x21) 8)) ∧
    (v.st = .disabled → s.queueValid q = true →
      exec (.queueEnable q) s = .next (s.setQueue q { v with
        st := .enabled, sqHead := 0, tail := 0, cjTail := 0, phase := true, cjHead := 0, list := none, ottStall := false
        journalFull := false, waiting := [], unsig := 0, unsigAt := none, urgent := false, dead := false, flushAt := none })) ∧
    (v.st = .disabled → s.queueValid q = false → exec (.queueEnable q) s = .next (s.queueCause q 2)) ∧
    (v.st = .enabled → exec (.queueDisable q) s = .next (s.setQueue q { v with
      st := if s.ottCount (fun e => e.queue == q && e.src == .queue) ≠ 0 then .stopping else .disabled, ottStall := false })) ∧
    (v.st = .error → exec (.queueDisable q) s = .next (s.setQueue q { v with st := .disabled })) ∧
    exec (.queueFlush q) s = .next (s.flushQueue q 0) ∧
    (∀ (r : QReg) (w : W64), v.st = .disabled →
      exec (.queueRegisterWrite q r w) s = .next ((s.setQueue q (v.setReg r w.toNat)).queueEval q)) ∧
    (∀ w : W64, v.st ≠ .disabled →
      exec (.queueRegisterWrite q .sqBase w) s = .next ((s.queueCause q 1).bump (pIx (q / 64) 0x21) 9) ∧
      exec (.queueRegisterWrite q .cjBase w) s = .next ((s.queueCause q 1).bump (pIx (q / 64) 0x21) 9) ∧
      exec (.queueRegisterWrite q .cfg w) s = .next ((s.queueCause q 1).bump (pIx (q / 64) 0x21) 9) ∧
      exec (.queueRegisterWrite q .moderation w) s = .next ((s.setQueue q (v.setReg .moderation w.toNat)).queueEval q) ∧
      exec (.queueRegisterWrite q .intEnable w) s = .next ((s.setQueue q (v.setReg .intEnable w.toNat)).queueEval q))

/-- R268-R270, R278: a fetch turn takes up to FETCH_BURST descriptors of the queue whose turn it is; a stalled queue resumes once it finds
an entry; a LIST at a queue's head that passes its checks is opened, and its members stand in its place. -/
def Obligations.descriptorsAreFetched : Prop :=
  ∀ (s : State) (q : Nat),
    (s.nextQueue (fun q => s.fetchable q && !(s.queue q).ottStall) = some q →
      exec .descriptorFetch s = .next ((s.fetchBurst q (s.obj 0x1700 5 8)).rrPass q)) ∧
    (s.nextQueue (fun q => s.fetchable q && (s.queue q).ottStall && s.canFetch q) = some q →
      exec .ottStallResume s = .next ((s.fetchBurst q (s.obj 0x1700 5 8)).rrPass q)) ∧
    (let v := s.queue q
      let at_ := v.sqBase.toNat + 64 * v.sqHead
      let d := s.readAt (q / 64) v.binding at_ 64
      s.fetchable q = true → v.list = none → cmdOf (fld d 0 1) = some .list →
      s.badDesc s.part.setup (q / 64) v.binding .list d = none →
      exec (.list q) s = .next ((((s.fetchUnits (q / 64) v.binding v.defClass at_ 64).setQueue q { v with
        sqHead := (v.sqHead + 1) % 2 ^ v.sqLog2
        list := some { addr := fld d 8 8, count := fld d 16 2, pos := 0, ring := v.sqHead }, ottStall := false }).bump 0x6080 1)))

/-- R268, R276, R277: what fetching a plain descriptor that passes its checks and finds an OTT entry does: SQ_HEAD moves past it, and the
entry taken holds the operation of that descriptor under the protection generation in force. The descriptor's read goes through its port's
scheduler (R31). -/
def Obligations.fetchesTakeAnEntry : Prop :=
  ∀ (s t : State) (q : Nat) (c : Cmd) (n : Nat),
    let v := s.queue q
    let at_ := v.sqBase.toNat + 64 * v.sqHead
    let d := s.readAt (q / 64) v.binding at_ 64
    v.list = none → cmdOf (fld d 0 1) = some c → c ≠ .list → c ≠ .attend → c ≠ .indexQuery →
    s.badDesc s.part.setup (q / 64) v.binding c d = none →
    s.takeEntry (opOf q v d v.sqHead 0x1FFF) = some (n, t) →
    s.fetchOne q = .got (((t.setQueue q { v with
      sqHead := (v.sqHead + 1) % 2 ^ v.sqLog2, ottStall := false }).bump 0x6080 1).fetchUnits (q / 64) v.binding (classOf v d) at_ 64) ∧
    ∃ k, s.ottKind (q / 64) (classOf v d) = some k ∧ s.op? n = none ∧
      t.op? n = some { opOf q v d v.sqHead 0x1FFF with kind := k, gen := s.part.gen, fetchNo := s.q.fetchNo }

/-- R272, R273, Table 8.7: the end of an operation whose queue is ENABLED with a journal in host memory and a free entry. Its 32 B record
stands at CJ_TAIL, with the time of the end (R271), no other byte of host memory changes, CJ_TAIL moves on, PHASE turns at the end of the ring, and the
OTT entry is free. -/
def Obligations.endedOperationsLeaveARecord : Prop :=
  ∀ (s : State) (t : Nat) (o : Op) (st det pr du : Nat), s.MemOk → s.op? t = some o → o.src = .queue →
    let v := s.queue o.queue
    let r : Op := { o with
      status := o.final st, detail := det, progress := pr, durable := du, endedAt := s.now, heldOver := s.holdover
      asks := [], got := [], pins := [] }
    let a := offOf (v.cjBase.toNat + 32 * v.cjTail)
    let u := s.endOp t st det pr du
    (o.quiet && o.final st == stDone) = false → v.dead = false → v.st = .enabled → v.binding ≤ 1 → 0 < v.journalFree →
    s.journalBlocked o.queue = false → s.pcieGood v.binding = true → spaceOf (v.cjBase.toNat + 32 * v.cjTail) = 0 →
    u.op? t = none ∧
    rdN (u.host v.binding) a 32 = recordBytes t r v.phase ∧
    (∀ (k x : Nat), k ≤ 1 → k ≠ v.binding ∨ x < a ∨ a + 32 ≤ x → rd (u.host k) x = rd (s.host k) x) ∧
    u.mem.windows = s.mem.windows ∧
    (u.queue o.queue).cjTail = (if v.cjTail + 1 = 2 ^ v.cjLog2 then 0 else v.cjTail + 1) ∧
    (u.queue o.queue).phase = (v.phase != decide (v.cjTail + 1 = 2 ^ v.cjLog2)) ∧
    (u.queue o.queue).cjHead = v.cjHead ∧ (u.queue o.queue).sqHead = v.sqHead ∧ (u.queue o.queue).st = .enabled

/-- R273: an operation that ends while its journal is full keeps its entry, waits at the end of the queue's waiting records, and is counted;
no byte of memory changes. -/
def Obligations.fullJournalsHoldRecords : Prop :=
  ∀ (s : State) (t : Nat) (o : Op) (st det pr du : Nat), s.op? t = some o → o.src = .queue →
    let v := s.queue o.queue
    let r : Op := { o with
      status := o.final st, detail := det, progress := pr, durable := du, endedAt := s.now, heldOver := s.holdover
      asks := [], got := [], pins := [] }
    let u := s.endOp t st det pr du
    (o.quiet && o.final st == stDone) = false → v.dead = false → v.st = .enabled → v.journalFree = 0 →
    s.journalBlocked o.queue = false →
    u.op? t = some { r with st := .recordWait } ∧ (u.queue o.queue).waiting = v.waiting ++ [t] ∧ (u.queue o.queue).journalFull = true ∧ u.mem = s.mem

/-- R273, R282, R285, R370: a freed journal entry takes the oldest waiting record; TIME after the oldest unsignalled record its vector goes
out; an unmasked vector sends what was pending; a PCIe error response stops a queue or ends the operation it met. -/
def Obligations.recordsAndVectorsFollow : Prop :=
  ∀ (s : State) (q : Nat),
    let v := s.queue q
    (∀ (t : Nat) (ts : List Nat) (o : Op), v.waiting = t :: ts → s.op? t = some o → 0 < v.journalFree →
      let w := (s.setQueue q { v with waiting := ts, journalFull := !ts.isEmpty }).writeRecord t o
      exec (.journalFullRecordWrite q) s =
        .next (({ w with ev := { w.ev with snaps := w.ev.snaps.map (Snap.finish t o true false) } }.completeSnaps).release t)) ∧
    (∀ t0 : Nat, v.unsigAt = some t0 → v.time ≠ 0 → v.intEnable = true → s.suppressed (q / 64) = false → s.hasVf v.binding (q / 64) = true →
      exec (.moderationTimeTrigger q) s = .next (((s.timeTo (t0 + us v.time)).setQueue q { v with
        unsig := 0, unsigAt := none, urgent := false }).msix v.binding (q / 64 + 1) (q % 64))) ∧
    (∀ port fn vec : Nat, s.pcieGood port = true → s.q.msixPend.contains (vecKey port fn vec) = false → vec ≠ 67 →
      ∃ t, exec (.msixUnmask port fn vec) s = .next t ∧ t.out = s.out ∧ vecKey port fn vec ∈ t.q.msixOpen ∧
        fnKey port fn ∈ t.q.msixOn) ∧
    (∀ port fn vec : Nat, s.pcieGood port = true → s.q.msixPend.contains (vecKey port fn vec) = true →
      ∃ t, exec (.msixUnmask port fn vec) s = .next t ∧ t.out = s.out ++ [Out.msix port fn vec] ∧
        vecKey port fn vec ∉ t.q.msixPend) ∧
    (v.st = .enabled → exec (.pcieErrorResponse (.ringFetch q)) s = .next (((s.bump 0x6080 6).queueCause q 4).setQueue q
      { ((s.bump 0x6080 6).queueCause q 4).queue q with st := .error })) ∧
    (∀ (t : Nat) (o : Op), s.op? t = some o → o.st ≠ .recordWait →
      exec (.pcieErrorResponse (.operand t)) s =
        .next (if isAttend o then ((s.bump 0x6080 6).partVec o.part 65).stopAttend t o stAborted true 1
          else ((s.bump 0x6080 6).partVec o.part 65).endOp t stAborted 1 o.done o.durable))

/-! ### Operations (02_pages.md, 03_prefix_store.md, 06_relevance_index.md, 07_attention.md, 09_commands.md) -/

/-- R269, R294-R297: a NOP that FENCE lets run completes DONE; a COPY moves its rows in the order its overlap asks for, and refuses a
destination that overlaps itself (ALIAS) or an overlap too large to stage. R147, R298-R301, R565: SLICE_WRITE writes its slices in order,
one that waited for space tries again or, at its deadline, ends PARTIAL with DETAIL 8; SLICE_READ delivers and STAGE stages once the slices
they read have arrived. -/
def Obligations.dataOperationsRun : Prop :=
  (∀ (s : State) (t : Nat) (o : Op),
    (s.runCmd t .nop = some o → exec (.nop t) s = .next ((s.meterOp o).endOp t stDone 0 0 0)) ∧
    (s.runCmd t .copy = some o →
      (copyWay o.desc = .ascending → exec (.copy t) s = .next ((s.copyRows t o false).2.2.2.finishUnits t stDone
        (s.copyRows t o false).2.1 (s.copyRows t o false).2.2.1 (s.copyRows t o false).1)) ∧
      (copyWay o.desc = .descending → exec (.copy t) s = .next (((s.bump 0x6090 2).copyRows t o true).2.2.2.finishUnits t stDone
        ((s.bump 0x6090 2).copyRows t o true).2.1 ((s.bump 0x6090 2).copyRows t o true).2.2.1 ((s.bump 0x6090 2).copyRows t o true).1)) ∧
      (copyWay o.desc = .staged → exec (.copy t) s = .next (((s.bump 0x6090 3).copyRows t o false).2.2.2.finishUnits t stStaged
        ((s.bump 0x6090 3).copyRows t o false).2.1 ((s.bump 0x6090 3).copyRows t o false).2.2.1 ((s.bump 0x6090 3).copyRows t o false).1)) ∧
      (copyWay o.desc = .alias_ → exec (.copy t) s = .next ((s.bump 0x6090 4).endOp t stAlias 0 0 0)) ∧
      (copyWay o.desc = .tooLarge → exec (.copy t) s = .next (s.endOp t stBad 5 0 0)))) ∧
  (∀ (s : State) (t : Nat) (o : Op),
    (s.runCmd t .sliceWrite = some o → (s.seqOf o.part (dSeq o.desc)).isSome = true →
      exec (.sliceWrite t) s = .next (s.sliceWrites t (2 * writeCount o.desc + 2))) ∧
    (∀ dl : Nat, s.op? t = some o → o.st = .allocWait dl →
      exec (.allocWaitResume t) s = .next ((s.setOp t { o with st := .ready }).sliceWrites t (2 * writeCount o.desc + 2)) ∧
      exec (.allocWaitTimeout t) s =
        .next (((s.timeTo dl).bump 0x6040 0x0D).finishOp t stPartial 8 o.progress o.durable 0 o.slices)) ∧
    (s.runCmd t .sliceRead = some o →
      let r := s.fetchSlices t o.cls 0 (s.rangeSlices t (dSeq o.desc) (fld o.desc 12 2) (fld o.desc 16 4) [fld o.desc 20 1])
      exec (.sliceRead t) s = .next (if r.1 then (r.2.op? t).elim r.2 fun p => r.2.sliceReadDone t p else r.2)) ∧
    (s.runCmd t .stage = some o →
      let m := if o.aux = 0 then s.stageMeter o (s.rangeSlices t (dSeq o.desc) (fld o.desc 12 2) (fld o.desc 16 4)
        ((List.range (fld o.desc 21 2)).map (· + fld o.desc 20 1))) else (o.todo, o.aux == 2, s)
      let v := (m.2.2.op? t).elim m.2.2 fun p => m.2.2.setOp t { p with aux := if m.2.1 then 2 else 1, todo := m.1 }
      let r := v.fetchSlices t o.cls 0 m.1
      exec (.stage t) s = .next (if r.1 then (r.2.op? t).elim r.2 fun p => r.2.stageDone t p m.1 m.2.1 else r.2)))

/-- R81: which share domain an open names, and what it gets; `d` is SHARE_DOMAIN. -/
def Obligations.openNamesItsDomain : Prop :=
  ∀ (u : Setup) (p d : Nat), p < 64 →
    (d = 0xFFFF ∨ d = 0x8000 + p → openDomain u p d = some (0x8000 + p)) ∧
    (d < 256 → (u.domain d).enabled = true → bit (u.domain d).members p = true → openDomain u p d = some d) ∧
    (¬ (d = 0xFFFF ∨ d = 0x8000 + p) → ¬ (d < 256 ∧ (u.domain d).enabled = true ∧ bit (u.domain d).members p = true) →
      openDomain u p d = none) ∧
    ∀ (s : State) (t : Nat) (o : Op), s.runCmd t .seqOpen = some o → openDomain ((s.meterOp o).setupOf o.gen) o.part (fld o.desc 18 2) = none →
      exec (.seqOpen t) s = .next ((s.meterOp o).endOp t 0x22 0 0 0)

/-- R302: SEQ_OPEN in a domain it may name and a profile slot that is bound assigns a free SEQ and writes its record: LIVE, LENGTH 0, no
block; PROGRESS is the SEQ. An empty slot gives PROFILE_MISMATCH, no free SEQ gives NOT_STARTED with DETAIL 6. -/
def Obligations.openAssignsASequence : Prop :=
  ∀ (s : State) (t d : Nat) (o : Op), s.runCmd t .seqOpen = some o →
    let w := s.meterOp o
    openDomain (w.setupOf o.gen) o.part (fld o.desc 18 2) = some d →
    (w.bound o.part (fld o.desc 16 1 % 8) = none → exec (.seqOpen t) s = .next (w.endOp t 0x23 0 0 0)) ∧
    ((w.bound o.part (fld o.desc 16 1 % 8)).isSome = true →
      ((∃ n : Nat, n < 2 ^ 24 ∧ w.seq? n = none ∧ w.seqNamed n = false) →
        ∃ (n : Nat) (x : State), w.freeSeq = some (n, x) ∧ n < 2 ^ 24 ∧ w.seq? n = none ∧ w.seqNamed n = false ∧
        exec (.seqOpen t) s = .next (((x.setSeq n { part := o.part, slot := fld o.desc 16 1 % 8, domain := d, length := 0 }).touch
          (.seq n)).endOp t 0 0 n 0)) ∧
      ((∀ n : Nat, n < 2 ^ 24 → (w.seq? n).isSome = true ∨ w.seqNamed n = true) → exec (.seqOpen t) s = .next (w.endOp t 0x02 6 0 0)))

/-- R303, R304, R77: a fork copies the source's record, its pending keys and its leaf entries up to the length asked for into a free SEQ, and
ends ABSENT where a frame it would share is under recount (R74); a truncation releases the blocks beyond the new length; a discard
releases all. PROGRESS is the new SEQ, or the references released. A LENGTH beyond the sequence's is refused (R291). -/
def Obligations.sequencesForkAndEnd : Prop :=
  ∀ (s : State) (t : Nat) (o : Op) (q : Seq),
    let w := s.meterOp o
    let n := dSeq o.desc
    let l := fld o.desc 12 4
    let m := if l = 0 then q.length else l
    w.seqOf o.part n = some q →
    (s.runCmd t .seqFork = some o → m ≤ q.length → w.forkBlocked q m = false →
      (∃ k : Nat, k < 2 ^ 24 ∧ w.seq? k = none ∧ w.seqNamed k = false) →
      ∃ (k : Nat) (x : State), w.freeSeq = some (k, x) ∧ k < 2 ^ 24 ∧ w.seq? k = none ∧ w.seqNamed k = false ∧
      exec (.seqFork t) s = .next (((q.leaves.filter fun e => e.1 < (m + 15) / 16).foldl (fun s e => s.forkLeaf n k e.1 e.2)
        ((x.setSeq k { part := o.part, slot := q.slot, domain := q.domain, length := m, pend := q.pend.filter fun e => e.1 < m / 16 }).touch
          (.seq k))).endOp t stDone 0 k 0)) ∧
    (s.runCmd t .seqFork = some o → m ≤ q.length → w.forkBlocked q m = true →
      exec (.seqFork t) s = .next (w.endOp t stAbsent 0 0 0)) ∧
    (s.runCmd t .seqFork = some o → q.length < m → exec (.seqFork t) s = .next (w.endOp t stBad 0x800C 0 0)) ∧
    (s.runCmd t .seqTruncate = some o → l ≤ q.length →
      let x := (w.cutLeaves n ((l + 15) / 16) (some t)).2.dropPend n (· ≥ l / 16)
      exec (.seqTruncate t) s = .next (((x.seq? n).elim x fun y => (x.setSeq n { y with length := l }).touch (.seq n)).endOp t stDone 0
        (w.cutLeaves n ((l + 15) / 16) (some t)).1 0)) ∧
    (s.runCmd t .seqTruncate = some o → q.length < l → exec (.seqTruncate t) s = .next (w.endOp t stBad 0x800C 0 0)) ∧
    (s.runCmd t .seqDiscard = some o →
      exec (.seqDiscard t) s = .next ((w.discardSeq n (some t)).2.endOp t stDone 0 (w.discardSeq n (some t)).1 0))

/-- R93, R107, R305-R308: the searches and inspections. Each writes its result where its descriptor says and ends with what it counts. -/
def Obligations.searchesAnswer : Prop :=
  ∀ (s : State) (t : Nat) (o : Op),
    let w := s.meterOp o
    let n := dSeq o.desc
    (∀ (q : Seq) (c : Chain), s.chainCmd t 0 = some o → w.seqOf o.part n = some q → w.chain o = some c →
      exec (.chainSearchProbe t) s = .next (c.s.probeDone t o c.hits c.keys)) ∧
    (∀ (q : Seq) (c : Chain), s.chainCmd t 1 = some o → w.seqOf o.part n = some q → w.chain o = some c →
      exec (.chainSearchAttach t) s = .next (c.s.attachDone t o c.hits c.keys)) ∧
    (s.runCmd t .maskedSearch = some o →
      let a := (w.readIn o 0 (fld o.desc 8 8) 96).1
      let x := (w.readIn o 0 (fld o.desc 8 8) 96).2
      maskedReserved a = none → fld a 72 2 ≤ fld a 74 2 →
      let all := sortBy (fun (x y : Nat × DirEnt) => maskedBefore x.2 y.2)
        (x.px.dir.filter fun e => maskedHit (x.setupOf o.gen) o.part a e.2)
      let r := x.writeOut t o 0 (fld o.desc 16 8) (maskedResult all.length (all.take (fld o.desc 24 2)))
      exec (.maskedSearch t) s = .next (r.2.2.finishOut t stDone 0 (all.take (fld o.desc 24 2)).length r.1 r.2.1)) ∧
    (s.runCmd t .purgePrivate = some o →
      exec (.purgePrivate t) s = .next ((w.purge (0x8000 + o.part)).2.endOp t stDone 0 (min (w.purge (0x8000 + o.part)).1 (2 ^ 32 - 1)) 0)) ∧
    (∀ q : Seq, s.runCmd t .inspectSeq = some o → w.seqOf o.part n = some q →
      let r := w.writeOut t o 0 (fld o.desc 24 8) (seqBytes n q ++ (List.range (fld o.desc 20 2)).flatMap
        fun i => leBytes 8 (leafWord (mget? q.leaves (fld o.desc 16 4 + i))))
      exec (.inspectSeq t) s = .next (r.2.2.finishOut t stDone 0 (fld o.desc 20 2) r.1 r.2.1)) ∧
    (∀ q : Seq, s.runCmd t .inspectFrame = some o → w.seqOf o.part n = some q →
      let r := w.writeOut t o 0 (fld o.desc 24 8) ((List.range (fld o.desc 20 2)).flatMap fun i => w.frameRecord t n
        (roundUp (320 + 16 * (w.seqGeo o.part n).layers) 64) (fld o.desc 16 4 + i))
      exec (.inspectFrame t) s = .next (r.2.2.finishOut t stDone 0 (fld o.desc 20 2) r.1 r.2.1)) ∧
    (∀ q : Seq, s.runCmd t .pipInspect = some o → w.seqOf o.part n = some q →
      let r := w.writeOut t o 0 (fld o.desc 24 8) ((List.range (fld o.desc 20 2)).flatMap fun i =>
        w.pipEntry n ((w.bound o.part q.slot).getD 0) (fld o.desc 11 1) (bit (fld o.desc 12 1) 0) (fld o.desc 16 4 + i))
      exec (.pipInspect t) s = .next (r.2.2.finishOut t stDone 0 (fld o.desc 20 2) r.1 r.2.1)) ∧
    (∀ q : Seq, s.runCmd t .indexQuery = some o → w.seqOf o.part n = some q →
      (w.proj ((w.bound o.part q.slot).getD 0)).isEmpty = false →
      (fld o.desc 24 8 = 0 → exec (.indexQuery t) s = .next (w.queryDone t o n ((w.bound o.part q.slot).getD 0)
        (if fld o.desc 12 4 = 0 then q.length else min (fld o.desc 12 4) q.length) none)) ∧
      (∀ mk : Mask, fld o.desc 24 8 ≠ 0 → w.readMask o (fld o.desc 24 8) 1 = some mk →
        exec (.indexQuery t) s = .next (w.queryDone t o n ((w.bound o.part q.slot).getD 0)
          (if fld o.desc 12 4 = 0 then q.length else min (fld o.desc 12 4) q.length) (some mk))))

/-- R225-R255, R309: attention. The dispatch takes the head of the queue whose turn it is; an ATTEND whose slices have arrived computes and
sends its outputs, and until then waits for them; a backward whose forward has not filled its save waits for that; SAVE_DISCARD frees a save that
no backward reads, and SAVE_EXPIRY one that is SAVE_HOLD age ticks old. R242, R243: the dispatch of the next ATTEND: by
deficit round robin over the partitions' attention queues, with at most two commands mapped; the head of the chosen queue is dispatched, and
a queue left empty loses its deficit. -/
def Obligations.attentionIsDispatchedAndRuns : Prop :=
  (∀ (s : State) (t : Nat) (o : Op),
    (s.attendAt t false = some o →
      let b := s.forwardBegun t o
      let r := b.2.2.fetchSlices t 1 (o.todo.headD (0, 0)).2 b.2.1
      exec (.attendForward t) s =
        .next (if r.1 then (r.2.op? t).elim r.2 fun p => r.2.forwardDone t p (o.todo.headD (0, 0)).2 b.1 else r.2)) ∧
    (∀ v : Save, s.attendAt t true = some o → s.takenSave t = some v → v.entries ≠ [] →
      let b := s.backwardBegun t o v
      let r := b.2.2.fetchSlices t 1 (o.todo.headD (0, 0)).2 b.2.1
      exec (.attendBackward t) s =
        .next (if r.1 then (r.2.op? t).elim r.2 fun p => r.2.backwardDone t p v (o.todo.headD (0, 0)).2 b.2.1 b.1 else r.2)) ∧
    (∀ v : Save, s.attendAt t true = some o → s.takenSave t = some v → v.entries = [] → exec (.attendBackward t) s = .next s) ∧
    (∀ v : Save, s.runCmd t .saveDiscard = some o → (s.meterOp o).save? o.part (fld o.desc 8 2 % 4096) = some v → v.readers = [] →
      exec (.saveDiscard t) s = .next (((s.meterOp o).freeSave o.part (fld o.desc 8 2 % 4096)).endOp t stDone 0 1 0)) ∧
    (s.runCmd t .saveDiscard = some o → (s.meterOp o).save? o.part (fld o.desc 8 2 % 4096) = none →
      exec (.saveDiscard t) s = .next ((s.meterOp o).endOp t stDone 0 0 0)) ∧
    (∀ (p id : Nat) (v : Save), s.save? p id = some v → s.obj (pIx p 0x1C) 3 6000 ≤ s.ageOf v.epoch →
      exec (.saveExpiry p id) s = .next ((s.freeSave p id).bump 0x6070 0x0C))) ∧
  (∀ (s : State) (p : Nat) (ds : Map Nat) (e : Nat × Op) (es : List (Nat × Op)),
    let qs := (List.range 64).map fun p => (p, s.attendQueue p)
    let live := s.att.deficits.filter fun d => qs.any fun e => e.1 == d.1 && !e.2.isEmpty
    let ms := rotateTo (·.1) s.att.turn
      (qs.map fun e => (e.1, e.2.head?.map (·.2.aux), s.obj (pIx e.1 0x1C) 1 16 * 4096, e.2.isEmpty))
    s.boot.stone = false → (s.q.ott.filter fun e => isMapped e.2).length < 2 → qs.any (fun e => !e.2.isEmpty) = true →
    dwrr ms (ms.head?.map (·.1)) live 16385 = some (p, ds) → s.attendQueue p = e :: es →
    let u := { s with att := { s.att with deficits := ds, turn := p } }.dispatchOp e.1 e.2
    exec .attendDispatch s = .next (if (u.attendQueue p).isEmpty then { u with att := { u.att with deficits := merase u.att.deficits p } } else u))

/-- R310-R312: collectives. GATHER and REDUCE contribute their bytes to the set's next round; COLLECT takes a round and waits for its
contributions; at its timeout it ends PARTIAL with what came. -/
def Obligations.collectivesRun : Prop :=
  ∀ (s : State) (t : Nat) (o : Op),
    (s.runCmd t .gather = some o → exec (.gather t) s =
      .next (s.contribOp t o 0 (((s.collSet (fld o.desc 8 2)).map CollSet.member).getD 0) (fld o.desc 32 8) false)) ∧
    (s.runCmd t .reduce = some o → exec (.reduce t) s =
      .next (s.contribOp t o 1 (fld o.desc 10 1 % 16) 0 (bit (fld o.desc 11 1) 0))) ∧
    (∀ e : CollSet, s.runCmd t .collect = some o → (s.meterOp o).opSet o (fld o.desc 8 2) = some e →
      fld o.desc 11 1 ≤ (if e.root then popcount e.members else 0) →
      let w := s.meterOp o
      let k := w.posted (fld o.desc 8 2)
      exec (.collect t) s = .next (({ w with lk := { w.lk with rounds := mset w.lk.rounds (2 * fld o.desc 8 2) (k + 1) } }.setOp t
        { o with st := .posted (if fld o.desc 12 2 = 0 then none else some (w.up + ms (fld o.desc 12 2))), aux := k }).tryCollect t)) ∧
    (∀ e : CollSet, s.runCmd t .collect = some o → (s.meterOp o).opSet o (fld o.desc 8 2) = some e →
      (if e.root then popcount e.members else 0) < fld o.desc 11 1 → exec (.collect t) s = .next ((s.meterOp o).endOp t stBad 0 0 0)) ∧
    (∀ dl : Nat, s.op? t = some o → o.st = .posted (some dl) →
      let w := ((s.timeTo dl).bump 0x6090 8).roundOf o
      exec (.collectTimeout t) s = .next (w.2.endCollect t o w.1 stPartial 9))

/-! ### Flash media, tiers and the prefix store (03_prefix_store.md, 04_tiers.md, 05_flash_media.md) -/

/-- R158, R167, R168-R175, R178, R179, R181: the die operations end. The last page read of a record that decodes and passes its CRC brings its
slice to the operation that asked and to the tiers; one of no use drops the T2 copy it was the current one of and reports MEDIA; a map page is
loaded, or fails; a read for a relocation moves its record on. A programmed punnet commits, and then what waits for it goes on; a root
checkpoint takes its place; a failed program's records are programmed elsewhere. An erased superblock is free and its punnets are gone; a
failure retires the superblock. Then the die goes on. R161, R166, R169, R173: the timers of the media: an open punnet is flushed DURABLE_FLUSH
after its oldest durable record or META_FLUSH after its oldest metadata, whichever is sooner, the METADATA stream META_FLUSH after its oldest
change, or at once when it no longer fits one punnet (log 19); a lookup goes on once a map page can be evicted; a deferred suspend is issued
12 µs after the resume; a superblock past its retention limit moves; a root checkpoint is made. -/
def Obligations.mediaOperationsAndTimersRun : Prop :=
  (∀ (s : State) (n : Nat) (op : DieOp), (s.die n).run = some op →
    let u := s.setDie n { s.die n with run := none }
    let src := (op.recs.filterMap fun r => r.src.map fun x => pnDie (x / 16384)).eraseDups
    (∀ out : ReadOutcome, op.kind = 0 →
      let w := (u.countOutcome n op out).readUpkeep n (pnSb op.punnet) out
      let bad : Bool := out == .uncorrectable || out == .mismatch
      let k := (op.tag, op.punnet * 16384 + op.off)
      let x := { w with media := { w.media with spoiled := w.media.spoiled.filter (· != k) } }
      (∀ p : Nat, op.page = some p →
        exec (.pageReadDone n out) s = .next (((if bad then w.pageFailed op p else w.pageLoaded p).upkeep n).kickDie n)) ∧
      (op.page = none → op.last = false → exec (.pageReadDone n out) s = .next
        (((if bad then { w with media := { w.media with spoiled := w.media.spoiled ++ [k] } } else w).upkeep n).kickDie n)) ∧
      (op.page = none → op.last = true → op.move = true →
        exec (.pageReadDone n out) s = .next (((x.moveDone op (bad || w.media.spoiled.contains k)).upkeep n).kickDie n)) ∧
      (∀ (r : Rec) (t : Nat), op.page = none → op.last = true → op.move = false → x.readRec op = some r → op.tag = some t →
        ((bad || w.media.spoiled.contains k) = false → exec (.pageReadDone n out) s =
          .next ((((x.arrive t op.fid op.layer 0 r.data).promoteRead op.fid op.layer op.sub op.cls r.version r.data).upkeep n).kickDie n)) ∧
        ((bad || w.media.spoiled.contains k) = true →
          let cur := x.stillMapped op && r.version == (x.sliceOf op.fid op.layer).version
          exec (.pageReadDone n out) s = .next ((((if cur then x.loseT2 op.fid op.layer else x).arrive t op.fid op.layer stMedia []).upkeep
            n).kickDie n)))) ∧
    (op.kind = 1 → op.root = none → exec (.punnetProgramDone n true) s =
      .next ((((n :: src).eraseDups.foldl State.upkeep
        (((((u.bump 0x6050 2).bump (0x6100 + n / 32) 2).commitPunnet op).settleDurable).drainLeases)).syncStep).kickDie n)) ∧
    (∀ cp : RootCp, op.kind = 1 → op.root = some cp → exec (.punnetProgramDone n true) s =
      .next ((((n :: src).eraseDups.foldl State.upkeep
        (((u.bump 0x6050 2).bump (0x6100 + n / 32) 2).commitRoot cp)).syncStep).kickDie n)) ∧
    (op.kind = 1 → exec (.punnetProgramDone n false) s =
      .next ((((n :: src).eraseDups.foldl State.upkeep
        (((u.bump 0x6050 0x12).retireSb n (pnSb op.punnet)).reprogram op)).syncStep).kickDie n)) ∧
    (op.kind = 2 → exec (.superblockEraseDone n false) s = .next (((u.bump 0x6050 0x13).retireSb n (pnSb op.punnet)).kickDie n)) ∧
    (op.kind = 2 → ∃ w t : State, exec (.superblockEraseDone n true) s = .next t ∧
      t = (((w.bump 0x6050 3).bump (0x6100 + n / 32) 3).retryPrograms.upkeep n).kickDie n ∧
      mget? (w.die n).sbs (pnSb op.punnet) = none ∧ (w.die n).erase (pnSb op.punnet) = (s.die n).erase (pnSb op.punnet) + 1 ∧
      (∀ p ∈ w.media.punnets, ¬ (pnDie p.1 = n ∧ pnSb p.1 = pnSb op.punnet)) ∧
      (∀ p ∈ s.media.punnets, ¬ (pnDie p.1 = n ∧ pnSb p.1 = pnSb op.punnet) → p ∈ w.media.punnets))) ∧
  (∀ (s : State) (n : Nat),
    (∀ (o : OpenP) (t : Nat), mget? s.media.openP n = some o →
      ((o.oldestDurable.map fun t => t + us (s.obj 0x1200 1 100)).toList ++
        (o.oldestMeta.map fun t => t + ms (s.obj 0x1200 2 100)).toList).min? = some t →
      exec (.punnetFlushTimer (some n)) s = .next ((s.timeTo t).closePunnet n)) ∧
    (∀ m r, s.media.metaSince = m :: r →
      let full := !(packMeta s.metaRec {} s.media.metaPend).2.isEmpty
      (full = false → exec (.punnetFlushTimer none) s =
        .next ((s.timeTo (m.2 + ms (s.obj 0x1200 2 100))).closeAllMeta s.media.metaPend.length)) ∧
      (full = true → exec (.punnetFlushTimer none) s = .next s.closeMeta)) ∧
    (∀ o : Op, s.op? n = some o → o.st = .mapWait → (sweep s.pageKept s.media.cache s.media.hand 262144).1.isSome = true →
      exec (.mapCacheWaitResume n) s = .next (s.setOp n { o with st := .ready })) ∧
    (∀ (o : DieOp) (t : Nat), (s.die n).run = some o → o.resumedAt = some t → o.deferred = true →
      exec (.suspendHoldoffExpiry n) s = .next ((s.timeTo (t + us 12)).kickDie n)) ∧
    (∀ (sb hot : Nat) (b : SuperB), mget? (s.die n).sbs sb = some b → b.st = 2 →
      s.obj 0x1200 7 90 * 24 * 3600 * sec 1 / 2 ^ hot < s.up - b.progAt → s.relocating n sb = false →
      exec (.retentionRefresh n sb hot) s = .next ((s.relocate n sb).bump 0x6050 0x0F)) ∧
    (s.media.state = 2 → exec .rootCheckpoint s = .next (s.timeTo (s.media.rootAt + sec (s.obj 0x1200 3 60))).checkpoint))

/-- R131: the record of a slice is LOSSY_FP8 (format 1) only when its profile stores BF16, its frame is SEALED, and FLAGS has neither EXACT
nor DURABLE; in every other case it is LOSSLESS (0) or RAW (2). R129, R130: it names its slice and VERSION, and its CRC is that of the valid
rows' image of the slice it restores. -/
def Obligations.lossyRecordsAreAllowed : Prop :=
  ∀ (s : State) (fid layer : Nat) (f : Frame) (r : Rec), s.recOf fid f layer = some r →
    ((s.frameGeo f).fp8 = false ∧ f.st = .sealed ∧ bit f.flags 1 = false ∧ bit f.flags 2 = false → r.format = 1) ∧
    (¬ ((s.frameGeo f).fp8 = false ∧ f.st = .sealed ∧ bit f.flags 1 = false ∧ bit f.flags 2 = false) → r.format = 0 ∨ r.format = 2) ∧
    r.fid = fid ∧ r.layer = layer ∧ r.version = (f.slice layer).version ∧ r.crc = crc32c (validImage (s.frameGeo f) r.data)

/-- R100, R101, R120-R127: ageing and write-back: the age tick, step 2 of a free commit, a write-back whose delay ran out or whose program
committed. R57, R74, R88, R103, R106, R567: releases, recounts and the CAM. -/
def Obligations.tiersReferencesAndCamFollow : Prop :=
  (∀ (s : State) (fid layer : Nat),
    (let w := s.timeTo (s.px.tickAt + ms s.px.tickIv)
     let e := if (w.px.epoch + 1) % 2 ^ 32 = 0 then 1 else (w.px.epoch + 1) % 2 ^ 32
     let x := { w with px := { w.px with epoch := e, tickAt := w.up, tickIv := w.obj 0x1100 1 10 } }
     let y := ((x.px.commits.foldl State.frameStep1 x).commitSlices).condemnFrames
     exec .ageTick s = .next
      ((((((((y.agePressure 0).agePressure 1).agePressure 2).lendCheck 16).retryWaits).retryPrograms).indexTick).syncStep)) ∧
    exec (.freeCommitStep2 fid (some layer)) s = .next (s.sliceStep2 fid layer) ∧
    exec (.freeCommitStep2 fid none) s = .next (s.frameStep2 fid) ∧
    (∀ f : Frame, s.frame? fid = some f → (f.slice layer).st = .present → (f.slice layer).dirtyLow = true → f.st = .sealed →
      bit f.flags fNoFlash = false → s.obj 0x1100 9 50 ≤ s.ageOf (f.slice layer).lastWrite →
      exec (.writebackDelayExpiry fid layer) s = .next (s.startWriteBack fid layer false false)) ∧
    exec (.writebackComplete fid layer) s = .next (s.endWriteBack fid layer).syncStep) ∧
  (∀ (s : State) (n k : Nat),
    exec (.deferredRelease n k) s =
      .next ((s.pg.releases.filter fun r => r.seq == n && r.block == k && r.waits.isEmpty && !r.lost).foldl State.applyRelease s) ∧
    (let w := (s.pg.releases.filter fun r => r.lost && !((s.frame? r.fid).any (·.underRecount))).foldl State.ownRelease s
     exec .referenceRecount s = .next (w.pg.frames.foldl (fun s f =>
       if f.2.underRecount then s else s.unrefs f.1 (f.2.refs - s.refsOf f.1)) w)) ∧
    (∀ f : Frame, s.frame? n = some f → f.underRecount = true →
      let w := s.setFrame n { f with refs := s.refsOf n + 1, underRecount := false }
      let w := { w with pg := { w.pg with releases := w.pg.releases.filter fun r => !(r.lost && r.fid == n) } }
      exec (.frameRecountDone n) s = .next (((w.pg.releases.filter fun r => r.fid == n && r.waits.isEmpty).foldl
        State.applyRelease w).unref n)) ∧
    (n ∈ s.px.placing →
      exec (.camPlace n) s = .next ({ s with px := { s.px with placing := s.px.placing.filter (· != n) } }.placeKey n)) ∧
    (∀ rows : List Nat, s.bankGood n = true →
      exec (.camScrub n rows) s =
        .next ((rows.filter fun r => r < 16384 && !s.rowFenced n r).foldl (fun s r => s.scrubRow n r) s)) ∧
    (let mine := fun (f : Nat) => (mget? s.px.dir f).any fun d => s.camBank d.key == some n
     let hits := fun (f : Nat) => ((mget? s.px.dir f).map (·.hits)).getD 0
     let w := { s with px := { s.px with refill := s.px.refill.filter (!mine ·) } }
     exec (.camBankRefill n) s = .next ((sortBy (fun (a b : Nat) => hits a > hits b) (s.px.refill.filter mine)).foldl
       (fun s f => (s.hbmUnits f 0 64 6 0 192).placeKey f) w)))

/-! ### The index, plans and the traffic manager (04_tiers.md, 06_relevance_index.md, 10_traffic_manager.md) -/

/-- R194-R198, R206-R220, Table 6.5: pips and arrays. A computation whose reads have ended stores its pip, and waits for them until then; an
item without one is looked up first. A batch ends with the verify codes its iterations read: its columns pass or fail, and the next batch
starts. A pip or a reference column 72 h old joins a batch in place. An array in service is calibrated 20 s after its last calibration, and
becomes SUSPECT when that trips; a SUSPECT one is reprogrammed, and goes back into service with a calibration that does not trip. -/
def Obligations.indexFollows : Prop :=
  ∀ (s : State) (n a : Nat),
    (∀ (span : Bool) (item y : Nat),
      let mine := fun (j : PipJob) => j.seq == n && j.key.span == span && j.item == item && j.key.group == y
      (∀ j : PipJob, s.ix.jobs.find? mine = some j →
        (∀ v : List Nat, j.todo = [] → s.pipReading j = false → (s.dropJobs (· == j)).jobVec j = some v →
          exec (.pipComputeDone n span item y) s = .next ((s.dropJobs (· == j)).newPip j v)) ∧
        (j.todo = [] → s.pipReading j = false → (s.dropJobs (· == j)).jobVec j = none →
          exec (.pipComputeDone n span item y) s = .next (s.dropJobs (· == j))) ∧
        (j.todo = [] → s.pipReading j = true → exec (.pipComputeDone n span item y) s = .next s) ∧
        (j.todo ≠ [] → exec (.pipComputeDone n span item y) s = .next s.pipRetry)) ∧
      (∀ (q : Seq) (k : PipKey) (fs : List Nat), s.ix.jobs.find? mine = none → s.seq? n = some q → s.pipNeed n q span item y = some (k, fs) →
        let w := s.pipLook n q item k fs
        exec (.pipComputeDone n span item y) s = .next ((w.ix.jobs.find? mine).elim w w.pipEnd))) ∧
    (∀ codes : List (List (List Int)), (s.anArray a).busy = true →
      let v := s.anArray a
      let w := (s.setArray a { v with batch := [], refRun := [] }).refsDone a v.refRun
      let x := (v.batch.zip (batchFails (v.batch.map (s.columnTargets a)) codes)).foldl (fun s e => s.partDone a e) w
      exec (.pipProgramBatchDone a codes) s = .next (v.batch.foldl (fun s e => s.startFor e.1) (x.startBatch a))) ∧
    (∀ (col i : Nat) (p : Pip), col < 4096 → s.columnPip a col = some (i, p) → p.st = 3 → p.again = [] →
      exec (.pipRefresh a col) s =
        .next (((s.timeTo (sec (p.progAt + 72 * 3600))).setPip i { p with again := List.range p.m }).startFor i)) ∧
    (∀ g : Nat, g < 32 → s.arrayGood a = true → (s.anArray a).refRun.contains g = false → (s.anArray a).refWait.contains g = false →
      exec (.pipRefresh a (4096 + g)) s = .next (((s.timeTo (sec (s.refAt a g + 72 * 3600))).setArray a { s.anArray a with
        refWait := (s.anArray a).refWait ++ [g] }).startBatch a)) ∧
    (let v := s.anArray a
     s.arrayGood a = true → v.st = 0 ∨ (v.st = 2 ∧ v.reprogrammed = true) →
     let w := s.timeTo (v.calAt.getD s.ix.calAt + sec 20)
     let x := (w.setArray a { v with cal := v.cal + 1, calAt := some w.up, reprogrammed := false }).bump 0x6060 0x0F
     exec (.arrayCalibration a) s =
       .next (if x.calTrips a then x.suspect a else if v.st = 2 then (x.arrayTo a 0).startBatch a else x)) ∧
    ((s.anArray a).st = 1 → exec (.arrayReprogramStart a) s =
      .next ((s.setArray a { s.anArray a with reprogrammed := false }).arrayTo a 2)) ∧
    ((s.anArray a).st = 2 → (s.anArray a).reprogrammed = false →
      exec (.arrayReprogramDone a) s = .next (((s.ix.pips.filter fun e => e.2.cols.any fun c => c.1 == a).map (·.1)).foldl
        (fun s i => s.rewritten a i) ((s.setArray a { s.anArray a with reprogrammed := true }).refsDone a (List.range 32))))

/-- R138, R142, R313, R326, R336, R338: a plan's next position begins, a pulled one whose reads ended or else the first push in the order of
steps and positions: it takes its entry, its slices are read, and what is there goes out over the plan's usable links; one that can deliver
nothing ends at once. It completes once no tile of it is queued. A port's rind cores end their work and the port serves the unit its stages
choose (log 45); units that waited for room enter; every leaf queue is sampled. -/
def Obligations.positionsAndPortsAreServed : Prop :=
  ∀ (s : State) (p n x dir : Nat),
    (∀ j : PlanJob,
      let w := (s.cleanJobs p n).stageWaiting p n
      let js := (w.plan p n).jobs.filter fun j => !j.begun
      ((js.find? fun j => j.pull && w.jobReady j).orElse fun _ => firstPush js) = some j → w.jobReady j = true →
      (∀ (t : Nat) (y : State), w.jobEntry p n j = some (t, y) →
        let k := (y.jobTagged p n t j).1
        let z := (y.jobTagged p n t j).2
        let r := z.fetchSlices t k.cls 0 (z.pushReads p t k)
        (∀ st : Nat, z.jobBad p k = some st → exec (.pushBegin p n) s = .next ((z.endJob p n k.no).endOp t st 0 k.count 0)) ∧
        (z.jobBad p k = none → exec (.pushBegin p n) s =
          .next (if r.1 then (r.2.op? t).elim (r.2.endJob p n k.no) fun o => r.2.sendJob p n t k o else r.2))) ∧
      (w.jobEntry p n j = none → exec (.pushBegin p n) s = .next w)) ∧
    (∀ (j : PlanJob) (t : Nat),
      let w := s.cleanJobs p n
      (w.plan p n).jobs.find? (fun j => j.begun) = some j → j.tag = some t →
      j.links.any (fun x => (w.unitTags (48 + x)).contains t) = false →
      exec (.pushComplete p n) s =
        .next (((w.layerEnd p n j (j.absent ++ j.other).eraseDups.length).endJob p n j.no).recordJob t j)) ∧
    (∀ (stage c sub : Nat) (b : Bool) (u : TUnit) (w : State),
      let sc := sched x dir
      ((s.rindStep (portSeg x)).countWaits sc).chooseUnit sc = some (stage, c, sub, u, b, w) →
      (u.dieOp = none → exec (.portServeUnit x dir) s = .next ((w.serve sc stage c sub u b).admitLeaf sc sub c)) ∧
      (∀ (d : Nat) (op : DieOp), u.dieOp = some (d, op) →
        exec (.portServeUnit x dir) s = .next (((w.serve sc stage c sub u b).admitLeaf sc sub c).kickDie d))) ∧
    (((s.rindStep (portSeg x)).countWaits (sched x dir)).chooseUnit (sched x dir) = none →
      exec (.portServeUnit x dir) s = .next ((s.rindStep (portSeg x)).countWaits (sched x dir))) ∧
    (∀ sub c : Nat, exec (.waitingUnitEnqueue x dir sub c) s = .next (s.admitLeaf (sched x dir) sub c)) ∧
    (∃ t, exec .queueSample s = .next t ∧ t.tm.samples = s.tm.samples + 1)

/-! ### Faults and resets (11_partitions.md, 13_start_and_stone_mode.md) -/

/-- R366, R367, R369, R372: resets. A function-level reset of a virtual function begins the reset of its partition and is no second one
while one runs; a reset of a port resets every function of it and takes its virtual functions away; RESET_GRACE after its begin a
partition's reset ends: the partition has no saved attention, no function under function-level reset, and is ENABLED (1) or DISABLED (0)
again. -/
def Obligations.resetsRunTheirSteps : Prop :=
  ∀ (s : State) (k p : Nat), k < 2 →
    (s.hasVf k p = true → (s.partOf p).st ≠ 2 →
      ∃ t, exec (.functionLevelReset k (p + 1)) s = .next t ∧ (t.partOf p).st = 2 ∧ (t.partOf p).resetAt = s.up ∧
        (t.partOf p).cause = 1 + k ∧ ∀ j, j ≠ p → t.partOf j = s.partOf j) ∧
    exec (.functionLevelReset k 0) s = .next (s.resetPort k) ∧
    (∀ cause : Nat, cause ≠ 0 → exec (.portReset k cause) s = .next (s.resetPort k)) ∧
    exec (.portReset k 0) s = .next ({ s with pwr := { s.pwr with perst := s.pwr.perst.filter (· != k) } }.resetPort k) ∧
    (∀ q : Nat, (s.resetPort k).hasVf k q = false) ∧
    ((s.partOf p).st = 2 → ∃ t, exec (.resetGraceExpiry false p) s = .next t ∧
      t = (s.timeTo ((s.partOf p).resetAt + ms (s.obj 0x1800 4 10))).endReset p ∧ (t.partOf p).st ≠ 2 ∧ ∀ v ∈ t.att.saves, v.part ≠ p) ∧
    (∀ (q f : Nat), (s.queue q).flushAt = some f →
      exec (.resetGraceExpiry true q) s = .next ((s.timeTo (f + ms (s.obj 0x1800 4 10))).endFlush q))

/-- R373, R376, R441, R442: a fault of a unit that is already out of service changes nothing; of any other unit it enters the defect map for
good and takes the unit out of service, then ends the operations it touched by fault unit. A background test of a core that passes only
counts; a core that its position does not have is not tested (Table 1.3, R23). -/
def Obligations.faultsFenceTheirUnit : Prop :=
  ∀ (s : State) (kind field unit reason : Nat) (touched : List Nat) (lost : List Lost),
    (s.covered kind field unit = true → exec (.faultFence kind field unit reason touched lost) s = .next s) ∧
    (s.covered kind field unit = false →
      ∃ t, exec (.faultFence kind field unit reason touched lost) s = .next t ∧ t = s.fault kind field unit 3 reason touched lost ∧
        (∀ d ∈ s.fences, d ∈ t.fences) ∧
        ∃ d ∈ t.fences, d.kind = kind ∧ d.field = field ∧ d.unit = unit ∧ d.origin = 3 ∧ d.reason = reason) ∧
    (∀ rind : Bool,
      let k := if rind then 3 else 2
      let g := segFields.findIdx (· == field)
      let real := if rind then g < 32 && unit < rindCount g else pithFields.contains field && unit < 3072
      (s.boot.phase = 8 → s.obj 0xE000 1 24 ≠ 0 → s.covered k field unit = false → real = true →
        exec (.bistCoreTest rind field unit true) s = .next (s.bump 0xE000 2) ∧
        exec (.bistCoreTest rind field unit false) s = .next (((s.bump 0xE000 2).fault k field unit 2 1 [] []).bump 0xE000 3)) ∧
      (∀ pass : Bool, real = false → exec (.bistCoreTest rind field unit pass) s = .next s))

/-! ### Clocks (14_clocks.md) -/

/-- Table 14.4: the states of a reference input. Edges make an ABSENT or LOST input PENDING; 10 ms without a loss QUALIFIED, and outside
LOCKED a pull-in begins; a loss makes it LOST, and the mesh enters HOLDOVER exactly when it was the active one; 1 s without edges makes it
ABSENT. Table 14.5, R459-R462: the mesh locks to the input it pulls in to; 24 h of holdover are told once; a failed crystal, and positions
of the mesh that decouple, are recorded, and the position is fenced as a failed field router. -/
def Obligations.clocksFollowTheirTables : Prop :=
  (∀ (s : State) (k : Nat),
    (k < 4 → s.refSt k = .absent ∨ s.refSt k = .lost → s.segGone (7 * k) = false →
      ∃ t, exec (.refEdgesPresent k) s = .next t ∧ t.refSt k = .pending ∧ t.clk = { s.clk with refs := t.clk.refs }) ∧
    (s.refSt k = .pending → ∃ t, exec (.refQualifyTimer k) s = .next t ∧ t.refSt k = .qualified ∧
      t.up = max s.up ((mget s.clk.refs k (.absent, 0)).2 + ms 10) ∧ (s.clk.mesh = .locked ∨ s.clk.pull.isSome = true → t.clk.pull = s.clk.pull) ∧
      (s.clk.mesh ≠ .locked → s.clk.pull = none → t.clk.pull = t.choose)) ∧
    (s.refSt k = .lost → ∃ t, exec (.refAbsentTimer k) s = .next t ∧ t.refSt k = .absent ∧
      t.clk = { s.clk with refs := t.clk.refs }) ∧
    (s.refSt k = .pending ∨ s.refSt k = .qualified → ∃ t, exec (.refLoss k) s = .next t ∧ t.refSt k = .lost ∧ t.clk.pull ≠ some k ∧
      (s.clk.active = some k → t.clk.mesh = .holdover ∧ t.clk.active = none) ∧
      (s.clk.active ≠ some k → t.clk.mesh = s.clk.mesh ∧ t.clk.active = s.clk.active))) ∧
  (∀ (s : State),
    (∀ k : Nat, s.clk.pull = some k → ∃ t, exec .meshPullInDone s = .next t ∧ t.clk.mesh = .locked ∧ t.clk.active = some k ∧
      t.clk.pull = none ∧ t.now = s.now ∧ (s.clk.mesh ≠ .holdover → t.ev = s.ev)) ∧
    (s.clk.mesh = .holdover → s.clk.dayTold = false → exec .holdover24h s = .next
      (State.event { s.timeTo (s.clk.holdAt + sec 86400) with clk := { s.clk with dayTold := true } } 0x0052 {})) ∧
    (s.clk.mesh ≠ .holdover ∨ s.clk.dayTold = true → exec .holdover24h s = .next s) ∧
    (s.clk.crystal = true →
      exec .clockFault s = .next ({ s with clk := { s.clk with crystal := false } }.event 0x0053 { params := [0] })) ∧
    (∀ field : Nat, s.covered 1 field 0 = false →
      let u := ((s.bump 0x1903 5).event 0x0053 { field := field, params := [1] }).fault 1 field 0 3 6 [] []
      (refOf field = none → exec (.positionsDecoupled field) s = .next u) ∧
      (∀ k : Nat, refOf field = some k → exec (.positionsDecoupled field) s = .next (u.refLost k))))

/-! ### Starts and power (13_start_and_stone_mode.md, 18_module_interface.md) -/

/-- R421, R422, R428, R446: power-on reset latches the straps, counts a power-on, and begins a start at its first phase; with no NOR device
or no start controller none begins, and one is tried again each second. R423, R424, R427, R430, Tables 13.2, 13.4: a phase whose criterion
holds ends in the next; one that names a reason of its own fails the start, one that overruns its budget fails with reason 0xFF of the
phase, and 1 s after a failure the module restarts. 60 s in service settle the start. -/
def Obligations.startsBeginAndRun : Prop :=
  (∀ (s : State) (straps nor ctl : Nat), straps < 2 ^ 18 → nor < 4 → ctl < 4 →
    ∃ t, exec (.powerOnReset straps nor ctl) s = .next t ∧ t.boot.straps = straps ∧ t.boot.partCount = strapParts straps ∧
      t.boot.powerOns = min (2 ^ 32 - 1) (s.boot.powerOns + 1) ∧ t.pwr.rails = true ∧ t.pwr.fail = false ∧ t.boot.ready = false ∧
      (nor ≠ 0 → ctl ≠ 0 → t.boot.phase = 1 ∧ t.boot.starts = min (2 ^ 32 - 1) (s.boot.starts + 1) ∧ t.boot.waiting = false) ∧
      (nor = 0 ∨ ctl = 0 → t.boot.phase = 0 ∧ t.boot.starts = s.boot.starts ∧ t.boot.waiting = true) ∧
      (t.boot.waiting = true → exec (.norRetry nor ctl) t = .next ({ t.timeTo (t.boot.phaseAt + sec 1) with boot := { t.boot with
        waiting := false, phaseAt := (t.timeTo (t.boot.phaseAt + sec 1)).up } }.beginStart nor ctl))) ∧
  (∀ (s : State) (found : List Sys2Proof.Found) (reason detail : Nat),
    let p := s.boot.phase
    let u := found.foldl State.fenceFound s
    (1 ≤ p → p < 8 → s.boot.failed = false → s.boot.ready = false →
      (reason ≠ 0 → reason / 256 = p → exec (.startPhaseComplete found reason detail) s = .next (u.failStart p reason detail)) ∧
      (∀ t : State, reason = 0 → u.criterion p = true → u.phaseDone p = .ok t →
        exec (.startPhaseComplete found reason detail) s = .next t.advance ∧
        t.advance.boot.phase = if t.boot.stone ∧ t.boot.phase = 7 then 7 else if t.boot.stone ∧ t.boot.phase = 4 then 7 else t.boot.phase + 1) ∧
      (∀ e : Nat, reason = 0 → u.criterion p = true → u.phaseDone p = .error e →
        exec (.startPhaseComplete found reason detail) s = .next (u.failStart p e detail)) ∧
      exec .startPhaseBudgetExpiry s = .next ((s.timeTo (s.boot.phaseAt + ms (budget s.boot.formatting p))).failStart p (p * 256 + 0xFF) 0)) ∧
    (s.failStart p reason detail).boot.failed = true ∧
    (s.boot.stone = false → (s.failStart p reason detail).boot.fails = min 255 (s.boot.fails + 1)) ∧
    (s.boot.stone = true → (s.failStart p reason detail).boot.fails = s.boot.fails) ∧
    (s.boot.failed = true → exec .startFailRestart s = .next (s.timeTo (s.boot.phaseAt + sec 1)).restart) ∧
    (p = 8 → (s.boot.attempts.head?.map (·.outcome)) = some 1 → ∃ t, exec .startSettle s = .next t ∧ t.boot.fails = 0 ∧
      t.boot.attempts.head?.map (·.outcome) = some 2 ∧ t.up = max s.up (s.boot.readyAt + sec 60)))

/-- R552, R559: power. A power-fail is asserted once, with the rails on, and the module goes on; below 40 V the rails go off; a return of
the input restarts the module; PORST_N wipes it and leaves the rails on. What a loss of power wipes: every queue, operation, sequence, page
and directory entry, the tiers, the traffic manager and the index; what it keeps: flash, the start records, host memory and the sensors (log
25). -/
def Obligations.powerFailsAndReturns : Prop :=
  ∀ (s : State) (mv : Nat),
    (s.pwr.fail = false → s.pwr.rails = true → ∃ t, exec (.powerFail mv) s = .next t ∧ t.pwr.fail = true ∧ t.pwr.failAt = s.up ∧
      t.pwr.rails = true ∧ t.boot = s.boot) ∧
    (s.pwr.fail = true → exec (.powerFail mv) s = .next s) ∧
    (s.pwr.fail = true → s.pwr.rails = true → ∃ t, exec .inputFallsBelow40V s = .next t ∧ t.pwr.rails = false ∧ t.boot.phase = 0 ∧
      t.q = {} ∧ t.media.punnets = s.media.punnets) ∧
    (s.pwr.fail = true → s.pwr.rails = true → s.pwr.tripped = false → exec .powerReturn s =
 .next (State.restart { s.timeTo (s.pwr.failAt + ms 100) with pwr := { s.pwr with fail := false } })) ∧
    (s.pwr.rails = true → exec .porstAssert s = .next s.wiped) ∧
    (s.wiped.q = {} ∧ s.wiped.pg = {} ∧ s.wiped.px = {} ∧ s.wiped.tier = {} ∧ s.wiped.tm = {} ∧ s.wiped.ix = {} ∧ s.wiped.att = {} ∧
      s.wiped.lk = {} ∧ s.wiped.boot.phase = 0 ∧ s.wiped.mem.windows = [] ∧
      s.wiped.mem.host0 = s.mem.host0 ∧ s.wiped.mem.host1 = s.mem.host1 ∧ s.wiped.media.punnets = s.media.punnets ∧
      s.wiped.media.roots = s.media.roots ∧ s.wiped.boot.attempts = s.boot.attempts ∧ s.wiped.boot.powerOns = s.boot.powerOns ∧
      s.wiped.pwr.rails = s.pwr.rails ∧ s.wiped.pwr.readings = s.pwr.readings ∧ s.wiped.up = s.up)

/-- R558, R560, R561: a sample of the sensors moves time to its 10 ms, adds the input power to ENERGY, and a sensor at its trip point
trips the module: with the media mounted and no power-fail a MEDIA_SYNC begins first, and the rails go off once it is done or 100 ms have
passed; otherwise at once. A failed sensor reads 0x7FFFFFFF. That the end of a MEDIA_SYNC is seen at the next sample is log 25, the model's
choice. -/
def Obligations.sensorsAreSampled : Prop :=
  ∀ (s : State) (rs : List Sample), s.pwr.rails = true →
    let u := rs.foldl State.sample (s.timeTo (s.pwr.sampleAt + ms 10))
    let w := State.tripGo { u with pwr := { u.pwr with
      sampleAt := u.up, millijoules := u.pwr.millijoules + 10 * (if u.pwr.broken.contains 3 then 0 else mget u.pwr.readings 3 0) } }
    (rs.find? w.trips = none → exec (.sensorSample rs) s = .next w) ∧
    (∀ x : Sample, rs.find? w.trips = some x → exec (.sensorSample rs) s = .next (w.trip x.code (reading32 (w.tripValue x)))) ∧
    (∀ code value : Nat, s.pwr.tripped = false →
      (s.media.state ≠ 2 ∨ s.pwr.fail = true →
        (s.trip code value).pwr.rails = false ∧ (s.trip code value).pwr.tripped = true ∧ (s.trip code value).boot.phase = 0) ∧
      (s.media.state = 2 → s.pwr.fail = false → ∃ v : State, v.pwr = { s.pwr with tripped := true, tripAt := some s.up } ∧
        v.boot = s.boot ∧ v.media.syncAsk = 4 ∧ s.trip code value = v.syncBegin none [])) ∧
    (s.pwr.tripAt = none → s.tripGo = s) ∧
    (∀ at0 : Nat, s.pwr.tripAt = some at0 → ((s.media.syncs.any fun y => y.kind == 4) = true → s.up < at0 + ms 90 → s.tripGo = s) ∧
      ((s.media.syncs.any fun y => y.kind == 4) = false ∨ at0 + ms 90 ≤ s.up →
        s.tripGo.pwr.rails = false ∧ s.tripGo.pwr.tripped = true ∧ s.tripGo.pwr.tripAt = none ∧ s.tripGo.boot.phase = 0)) ∧
    (∀ (c : Nat) (n : Int), s.pwr.broken.contains c = false → ∃ t, s.sample { code := c, value := none, near := n } = t ∧
      mget t.pwr.readings c 0 = 0x7FFFFFFF ∧ mget t.pwr.states c 0 = 1 ∧ c ∈ t.pwr.broken) ∧
    (∀ (c : Nat) (n v : Int), s.pwr.broken.contains c = false →
      mget (s.sample { code := c, value := some v, near := n }).pwr.readings c 0 = (v % 2 ^ 32).toNat)

/-- R356, R323, R562, R550: the pins a host reaches. A read of an operand window answers its bytes, and 0 beyond it; a write stores the
bytes inside it; PERSTk_N high trains the port from mesh-lock on; a new rate of a port's link sets its lanes; the TAP steps on each edge of
TCK. An operand window behind a fenced PCIe controller answers nothing (R32), and a module whose S0 is gone has no TAP (R35). How many
virtual functions the host enables once a port trains is free (log 9), and what the boundary cells see is log 10: the model's choices. -/
def Obligations.portsAndTapAnswer : Prop :=
  ∀ (s : State) (k p : Nat), k < 2 →
    (∀ off n : Nat, s.hasVf k p = true → s.pcieGood k = true → off + n ≤ s.windowBytes p →
      exec (.operandWindowAccess k (p + 1) off n none) s =
        .next { s with out := s.out ++ [Out.read k (p + 1) (rdN (s.window p) off n)] }) ∧
    (∀ off n : Nat, s.hasVf k p = true → s.pcieGood k = true → s.windowBytes p < off + n → ∃ bs t, bs.length = n ∧
      exec (.operandWindowAccess k (p + 1) off n none) s = .next t ∧ t.out = s.out ++ [Out.read k (p + 1) bs] ∧
      t.mem = s.mem ∧ ∀ i, i < n → s.windowBytes p ≤ off + i → bs[i]? = some 0) ∧
    (∀ (off : Nat) (d : Bytes), s.hasVf k p = true → s.pcieGood k = true → off + d.length ≤ s.windowBytes p →
      exec (.operandWindowAccess k (p + 1) off 0 (some d)) s = .next (s.windowWrite p off d)) ∧
    (∀ (off : Nat) (d : Bytes), s.hasVf k p = true → s.pcieGood k = true → s.windowBytes p < off + d.length →
      exec (.operandWindowAccess k (p + 1) off 0 (some d)) s =
        .next ((s.bump (pIx p 0) 7).windowWrite p off (d.take (s.windowBytes p - off)))) ∧
    (∀ (fn off n : Nat) (d : Option Bytes), fn = 0 ∨ s.hasVf k (fn - 1) = false ∨ s.pcieGood k = false →
      exec (.operandWindowAccess k fn off n d) s = .next s) ∧
    (s.pwr.perst.contains k = false → s.boot.phase < 3 →
      exec (.perstRelease k) s = .next { s with pwr := { s.pwr with perst := s.pwr.perst ++ [k] } }) ∧
    (s.pwr.perst.contains k = false → 3 ≤ s.boot.phase →
      exec (.perstRelease k) s = .next ({ s with pwr := { s.pwr with perst := s.pwr.perst ++ [k] } }.enableVfs k)) ∧
    (∀ lanes gts : Nat, lanes ≤ 16 → gts ≤ 64 →
      ∃ t, exec (.pcieRenegotiation k lanes gts) s = .next t ∧ mget t.tm.lanes k 0 = lanes ∧ mget t.tm.gts k 0 = gts ∧
        (k ∉ s.pwr.perst ∨ s.boot.phase < 3 → t.part = s.part) ∧
        (k ∈ s.pwr.perst → 3 ≤ s.boot.phase → t.part = (s.enableVfs k).part)) ∧
    (∃ n : Nat, (s.enableVfs k).portOf k = { s.portOf k with vfs := n } ∧ (s.boot.stone = true → n = 0) ∧ n ≤ s.boot.partCount) ∧
    (s.segGone 0 = true → ∀ ev : TapEv, exec (.tapController ev) s = .next s) ∧
    (s.segGone 0 = false →
      (∃ t, exec (.tapController .trst) s = .next t ∧ t.pwr.tap.st = .reset ∧ t.pwr.tap.ir = 1 ∧ t.boot = s.boot) ∧
      (∀ tms tdi : Bool, exec (.tapController (.rise tms tdi)) s = .next { s with free := s.free + 1, pwr := { s.pwr with
        tap := s.pwr.tap.rise tms tdi ((List.range Config.boundaryLen).map (Config.boundary s.free)) } }) ∧
      (∃ t, exec (.tapController .fall) s = .next t ∧ t.pwr.tap = s.pwr.tap.fall ∧
        t.out = if s.pwr.tap.fall.st = .shDr ∨ s.pwr.tap.fall.st = .shIr then s.out ++ [Out.tdo s.pwr.tap.fall.tdo] else s.out))
/-! ### The Zaxoraduff dictionary (12_dictionary.md) -/

/-- R394, R402-R407, R413: a request whose endpoint the module answers does what its command asks, and a link's MGMT frame gives its credits
back; one from an endpoint the module does not answer, or at a mailbox that is busy, changes nothing. This holds for each of the 53 request commands. -/
def Obligations.requestsReachTheModule : Prop :=
  ∀ (i : Instr) (z : Zdp) (n : Nat), zdpOf i = some (z, n) → ∀ s u : State,
    (s.hears z i u → exec i s = .next ((zdpApply i u).heard z i)) ∧ (s.answers z.ep = false → exec i s = .next s) ∧
    ((boxKey z.ep).isSome = true → s.owes z.ep = true → exec i s = .next s)

/-- R382, R394, R396, R398, R401: the commands that write one object. A request that is served, whose session may write the object and whose
value passes, applies the value, triggers the watches on the object and is answered with its service's response; one whose value is refused
is answered with the abort code and changes no object. The commands: OTT_RESERVE_WRITE, OTT_CAP_WRITE, MEDIA_SYNC, SHUTDOWN_PREPARE,
DOMAIN_PURGE, SHARE_DOMAIN_WRITE, PROFILE_BINDING_WRITE, UPPROJ_WRITE, PROJ_WRITE, INDEX_GEOMETRY_WRITE, PLAN_WRITE, LEAF_CFG_WRITE,
NODE_CFG_WRITE, METER_CFG_WRITE, DERATE_WRITE, HIST_RESET, SNAPSHOT_REQUEST, JOB_RESUME, PARTITION_RESET, PARTITION_DISABLE,
PROTECTION_WRITE, PROTECTION_BATCH, FRAME_QUOTA_WRITE, KXL_OWNER_LINKS_WRITE, RESTART, START_FAIL_CLEAR, FIRMWARE_UPDATE, FIRMWARE_ACTIVATE,
DEFECT_ADD, FACTORY_TOKEN, FORENSIC_READ, REF_SELECT, TIME_SET, COLL_SETS_WRITE, LEND_ENABLE, LEND_BYTES, BORROW_BYTES, LINK_ENABLE, WRITE. -/
def Obligations.namedWritesAreAnswered : Prop :=
  ∀ (i : Instr) (z : Zdp) (whole : Bool) (ix sub : Nat) (v : Bytes) (o : ReadOutcome), namedWrite i = some (z, whole, ix, sub, v, o) →
    ∀ (s u w : State) (x : Session) (r : ObjRow), s.hears z i u → u.serves z x w →
      (if whole = true then w.mayWriteWhole x ix sub v.length r else w.mayWrite x ix sub r) →
      (∀ t : State, w.writeValue ix sub r v o = .ok t →
        exec i s = .next (((t.trigger ix sub).answer z (if whole then 0x23 else 0x11) ix sub).heard z i)) ∧
      (∀ c : Nat, c ≠ 0 → w.writeValue ix sub r v o = .error c →
        exec i s = .next ((w.abort z.ep (if whole then 0x23 else 0x11) z.tag ix sub c).heard z i))

/-- R382, R384, R392: the checks of a value, in their order: a partition that does not exist, a target that is not stopped, the length, and
the range; a value that passes is written, and a persistent object keeps it, unless it cannot be made durable (0x0F02) or does not fit
(0x0D04). The response leaves at once, or waits where the write says so. -/
def Obligations.valuesAreCheckedAndKept : Prop :=
  ∀ (s : State) (ix sub : Nat) (r : ObjRow) (v : Bytes) (o : ReadOutcome),
    let outside := decide (0x2000 ≤ ix ∧ ix < 0x3000 ∧ ix % 0x40 ≠ 1 ∧ s.partCount ≤ (ix - 0x2000) / 0x40)
    (outside = true → s.writeValue ix sub r v o = .error 0x0405) ∧
    (outside = false → r.acc = .rws → s.stopped ix r.target = false → s.writeValue ix sub r v o = .error 0x0401) ∧
    (outside = false → (r.acc = .rws → s.stopped ix r.target = true) →
      (r.ty.scalar = true → v.length ≠ r.ty.size → s.writeValue ix sub r v o = .error 0x0201) ∧
      (∀ n : Nat, r.ty = .bytes n → v.length ≠ n → s.writeValue ix sub r v o = .error 0x0201) ∧
      (∀ n : Nat, r.ty = .string n → n < v.length → s.writeValue ix sub r v o = .error 0x0201) ∧
      (typeBad ix r v = none → persistent ix r = false → ¬ (ix = 0x1800 ∧ sub = 3) →
        s.writeValue ix sub r v o = s.writeObj ix sub r v o) ∧
      (typeBad ix r v = none → persistent ix r = true → r.ty = .domain → s.t2UserBytes < s.t2Used + v.length →
        s.writeValue ix sub r v o = .error 0x0D04) ∧
      (∀ t : State, typeBad ix r v = none → persistent ix r = true → (r.ty = .domain → s.t2Used + v.length ≤ s.t2UserBytes) →
        s.writeObj ix sub r v o = .ok t →
        (s.media.state = 2 → s.diesIn ≠ [] → s.pwr.fail = false → s.writeValue ix sub r v o = .ok (t.keepDurable ix sub r)) ∧
        (s.media.state ≠ 2 ∨ s.diesIn = [] ∨ s.pwr.fail = true → s.writeValue ix sub r v o = .error 0x0F02))) ∧
    (∃ t, s.keepDurable ix sub r = t ∧ t.media.syncAsk = 3 ∧
      mget? t.media.cfgSet (okey ix sub) = some (s.value { all := true, module := true } ix sub r) ∧
      t.media.metaPend = (s.media.metaPend.filter fun e => e.1 != .config (okey ix sub)) ++ [(.config (okey ix sub), s.media.metaNo)]) ∧
    (∀ (z : Zdp) (svc : Nat) (d : Bytes), (s.media.syncAsk = 0 →
        s.answer z svc ix sub d = ((s.bump 0x60A0 1).zdpSend z.ep (zdpMsg (svc + 0x80) z.tag ix sub false d)).restartIfAsked) ∧
      (s.media.syncAsk ≠ 0 → s.answer z svc ix sub d = s.syncBegin (some z.ep) (zdpMsg (svc + 0x80) z.tag ix sub false d)))

/-- R188, R392, R411, R438: the responses that wait. One waits for the metadata changes that were open when its write was applied, a
MEDIA_SYNC and a SHUTDOWN_PREPARE for all of them, after SHUTDOWN_PREPARE has stopped fetching and written every DIRTY_LOW slice back; then it
leaves, unless its session is gone. SHUTDOWN_PREPARE writes a root checkpoint last and quiesces the media. A firmware image goes to NOR
device 0, then to device 1, after which its slot is VALID; that it takes one look of the waiting responses per device is log 32, and what a
look is log 19: the model's choices. -/
def Obligations.waitingResponsesLeave : Prop :=
  ∀ (s : State) (w : SyncWait),
    (∀ e : Endpoint, w.ep = some e → (s.session? e).isSome = true →
      s.syncEnd w = ((if w.kind = 3 then s.bump 0x60A0 6 else s).bump 0x60A0 1).zdpSend e w.msg) ∧
    (w.ep = none ∨ (∃ e, w.ep = some e ∧ s.session? e = none) → s.syncEnd w = if w.kind = 3 then s.bump 0x60A0 6 else s) ∧
    (w.kind = 1 ∨ w.kind = 3 ∨ w.kind = 4 → w.stage = 1 →
      ((∀ m ∈ w.marks, m.2 < s.durNo m.1) → s.syncOne w = s.syncEnd { w with stage := 3 }) ∧
      (∀ m ∈ w.marks, s.durNo m.1 ≤ m.2 → (s.syncGo w).1 = w)) ∧
    (w.kind = 2 → w.stage = 1 → (∀ m ∈ w.marks, m.2 < s.durNo m.1) → s.syncGo w = ({ w with stage := 2 }, s.checkpoint)) ∧
    (w.stage = 2 → (s.dieOps.any fun o => o.2.root.isSome) = false →
      s.syncGo w = ({ w with stage := 3 }, { s with media := { s.media with state := 3, quiesced := true } })) ∧
    (w.stage = 0 → (s.writeBackAll.dirtySlices = [] → s.syncGo w = s.writeBackAll.syncMeta w) ∧
      (s.writeBackAll.dirtySlices ≠ [] → s.syncGo w = (w, s.writeBackAll))) ∧
    ((s.syncMeta w).1 = { w with stage := 1, marks := s.openMarks }) ∧
    (∀ msg : Bytes, s.media.syncAsk = 2 → ∃ v : State, v.q = { s.q with fetchStopped := true } ∧ v.media.syncAsk = 0 ∧
      v.media.syncs = s.media.syncs ++ [{ kind := 2, ep := w.ep, msg := msg, stage := 0 }] ∧ s.syncBegin w.ep msg = v.syncStep) ∧
    (∀ (k : Nat) (v : Bytes), s.boot.update = some (k, v) →
      (mget (s.programImage 0).boot.slots k {}).copies = [v, []] ∧ (s.programImage 0).boot.update = some (k, v) ∧
      ∃ x, (mget (s.programImage 1).boot.slots k {}).copies = [x, v] ∧ (mget (s.programImage 1).boot.slots k {}).st = 2 ∧
        (s.programImage 1).boot.update = none)

/-- What the write of each module-level object that a command names does (R65, R82, R107, R188, R223, R363, R410, R420, R428, R433, R438,
R439, R442, R456, R458, R471, R511, R514). The responses to MEDIA_SYNC, SHUTDOWN_PREPARE and FIRMWARE_UPDATE wait; that the first two are
refused while the media is not mounted is log 47, the model's choice. -/
def Obligations.moduleWritesTakeEffect : Prop :=
  ∀ (s : State) (r : ObjRow) (v : Bytes) (o : ReadOutcome),
    let n := leNat v
    s.writeObj 0x1200 11 r v o = 
      (if s.media.state ≠ 2 then .error 0x0402 else .ok { s with media := { s.media with syncAsk := n } }) ∧
    s.writeObj 0x1200 12 r v o = 
      (if s.media.state ≠ 2 then .error 0x0402 else .ok { s with media := { s.media with syncAsk := 2 * n } }) ∧
    (n < 256 ∨ (0x8000 ≤ n ∧ n < 0x8040) → s.writeObj 0x1400 4 r v o = .ok (s.purge n).2) ∧
    (∀ d sub : Nat, d < 256 → 1 ≤ sub → sub ≤ 3 → s.setupBad (s.part.setup.put (0x1500 + d) sub n) = none →
      s.writeObj (0x1500 + d) sub r v o = .ok (s.setSetup (s.part.setup.put (0x1500 + d) sub n))) ∧
    (∀ k : Nat, k < 32 → v.length = 0 ∨ v.length = (s.geo k).upprojBytes →
      s.writeObj (0x1300 + k) 15 r v o = .ok (s.put (0x1300 + k) 15 r v)) ∧
    (∀ k : Nat, k < 32 → v.length = 0 ∨ v.length = s.projBytes k → s.blobOf (0x1600 + k) 3 ≠ v →
      s.writeObj (0x1600 + k) 3 r v o = .ok (((s.put (0x1600 + k) 3 r v).freePips fun y => y.profile == k).dropJobs fun j => j.key.profile == k)) ∧
    (∀ k sub : Nat, k < 32 → sub = 1 ∨ sub = 2 → leBytes r.ty.size (s.obj (0x1600 + k) sub r.d) ≠ v →
      s.writeObj (0x1600 + k) sub r v o = .ok (((s.put (0x1600 + k) sub r v).freePips fun y => y.profile == k).dropJobs fun j => j.key.profile == k)) ∧
    s.writeObj 0x1800 3 r v o = s.batchWrite v ∧
    s.writeObj 0x1010 6 r v o = .ok ((s.put 0x1010 6 r v).endSessions fun x => x.role == 0 && (match x.ep with
      | .mgmt k => k < 64 && !bit n k
      | _ => false)) ∧
    s.writeObj 0x1010 7 r v o = .ok ((s.put 0x1010 7 r v).endSessions fun x => x.role == 0 && (match x.ep with
      | .mgmt k => k ≥ 64 && !bit n (k - 64)
      | _ => false)) ∧
    (s.boot.update = none → s.writeObj 0x1000 1 r v o = .ok { s with boot := { s.boot with restartReq := n } }) ∧
    s.writeObj 0x0810 2 r v o = .ok { s with boot := { s.boot with fails := if n = 1 then 0 else s.boot.fails } } ∧
    (s.boot.update = none → (s.boot.stone = true → s.stacks ≠ []) → allZero (slice v 20 44) = true →
      (intact 25165824 v = false ∨ fld v 16 4 < s.boot.minEpoch → s.writeObj 0x0840 8 r v o = .error 0x0202) ∧
      (intact 25165824 v = true → s.boot.minEpoch ≤ fld v 16 4 → ∃ t, s.writeObj 0x0840 8 r v o = .ok t ∧
        t.boot.update = some (s.updateSlot, v) ∧ (mget t.boot.slots s.updateSlot {}).st = 1 ∧ t.media.syncAsk = 5)) ∧
    (s.boot.update ≠ none → s.writeObj 0x0840 8 r v o = .error 0x0404 ∧ s.writeObj 0x0840 9 r v o = .error 0x0404 ∧
      s.writeObj 0x1000 1 r v o = .error 0x0404 ∧ s.writeObj 0x7200 7 r v o = .error 0x0404) ∧
    (s.boot.update = none → n ≤ 1 → (mget s.boot.slots n {}).st = 2 → ∃ t, s.writeObj 0x0840 9 r v o = .ok t ∧
      (mget t.boot.slots n {}).st = 3 ∧ t.boot.trials = 0) ∧
    s.writeObj 0x7110 1 r v o =
      .ok (if n = 1 ∧ s.boot.stone = false then s.snapshot 3 0xFFFF (fun _ => true) (fun _ => false) else s) ∧
    (fld v 1 1 < 8 → unitOk (fld v 0 1) (fld v 2 1) (fld v 4 4) = true → 1 ≤ fld v 3 1 → fld v 3 1 ≤ 7 →
      s.writeObj 0x7200 6 r v o = .ok (s.fault (fld v 0 1) (fld v 2 1) (fld v 4 4) 4 (fld v 3 1) [] [])) ∧
    (s.boot.update = none → ∃ t, s.writeObj 0x7200 7 r v o = (if Config.tokenGood v s.boot.generation = true then .ok t else .error 0x0202) ∧
      t.boot.defects = (s.boot.defects.filter fun d => !Config.tokenNames v d.bytes) ∧
      (∀ d ∈ s.fences, d ∈ t.fences) ∧ t.boot.generation = (s.boot.generation + 1) % 2 ^ 32) ∧
    (s.boot.stone = true → s.forensicDie (fld v 0 2) = true → fld v 2 2 ≤ 3640 → fld v 4 1 ≤ 3 → fld v 7 1 < 8 → fld v 7 1 % 4 ≠ 3 →
      allZero (slice v 8 8) = true → ∃ t, s.writeObj 0xE010 1 r v o = .ok t ∧ t.media = s.media) ∧
    s.writeObj 0x1900 2 r v o = .ok (s.put 0x1900 2 r v).refSelected ∧
    (∃ t, s.writeObj 0x1902 4 r v o = .ok t ∧ t.now = BitVec.ofNat 64 n ∧ t.up = s.up ∧ t.clk.mesh = s.clk.mesh) ∧
    (v.length % 32 = 0 → v.length ≤ 32768 → s.collSetsOk v = true →
      s.writeObj 0x1A01 1 r v o = .ok ((s.put 0x1A01 1 r v).setsChanged (s.blobOf 0x1A01 1))) ∧
    s.writeObj 0x1A10 1 r v o = .ok ((s.put 0x1A10 1 r v).lendCheck 16).sendOffers ∧
    (n % 2 ^ 30 = 0 → s.writeObj 0x1A10 2 r v o = .ok ((s.put 0x1A10 2 r v).lendCheck 16).sendOffers ∧
      s.writeObj 0x1A10 6 r v o = .ok (s.put 0x1A10 6 r v).borrowCheck.borrow)

/-- What the write of each object of a partition, of the traffic manager and of a link that a command names does (R66, R67, R146, R279,
R337, R338, R351-R353, R361, R362, R364, R369, R376, R517). -/
def Obligations.partitionWritesTakeEffect : Prop :=
  ∀ (s : State) (r : ObjRow) (v : Bytes) (o : ReadOutcome) (p : Nat), p < 64 →
    let n := leNat v
    (n = 1 → s.writeObj (0x2000 + 0x40 * p) 2 r v o = .ok (s.beginReset p 3)) ∧
    (n ≠ 1 → s.writeObj (0x2000 + 0x40 * p) 2 r v o = .ok s) ∧
    (∀ sub : Nat, 1 ≤ sub → sub ≤ 7 → (sub = 5 → n ≤ 3) → s.setupBad (s.part.setup.put (0x2001 + 0x40 * p) sub n) = none →
      s.writeObj (0x2001 + 0x40 * p) sub r v o = .ok (s.setSetup (s.part.setup.put (0x2001 + 0x40 * p) sub n))) ∧
    ((s.part.setup.put (0x2001 + 0x40 * p) 6 n).prot p = { s.part.setup.prot p with quota := n } ∧
      (s.part.setup.put (0x2001 + 0x40 * p) 1 n).prot p = { s.part.setup.prot p with enabled := n == 1 }) ∧
    ((s.partOf p).st ≠ 2 → (s.partOf p).held.contains n = true → ∃ t, s.writeObj (0x2002 + 0x40 * p) 4 r v o = .ok t ∧
      (t.partOf p).held = (s.partOf p).held.filter (· != n) ∧ t.pg = s.pg ∧ t.mem = s.mem) ∧
    (∀ sl : Nat, s.writeObj (0x2004 + 0x40 * p) (sl + 1) r v o = s.bindWrite p sl n) ∧
    (∀ k : Nat, k < 8 → v = [] ∨ v.length < 64 ∨ planReserved v = false → s.planOk p v = true →
      s.writeObj (0x2010 + 0x40 * p + k) 1 r v o = .ok (s.put (0x2010 + 0x40 * p + k) 1 r v)) ∧
    (s.reserveSum - s.ottReserve p + n ≤ 130048 → n ≤ s.ottCap p →
      s.writeObj (0x2021 + 0x40 * p) 1 r v o = .ok (s.put (0x2021 + 0x40 * p) 1 r v)) ∧
    (s.ottReserve p ≤ n → s.writeObj (0x2021 + 0x40 * p) 2 r v o = .ok (s.put (0x2021 + 0x40 * p) 2 r v)) ∧
    s.writeObj 0x3000 1 r v o = .ok (if n = 1 then s.histReset else s) ∧
    (∀ k : Nat, s.writeObj 0x3001 (k + 1) r v o = s.derateSet k n) ∧
    (∀ c x : Nat, c < 8 → x < 178 →
      s.writeObj (0x3800 + 8 * p + c) (x + 1) r v o = s.leafWrite x p c v ∧ s.writeObj (0x3080 + c) (x + 1) r v o = s.leafWrite x 64 c v ∧
      s.writeObj (0x3200 + 8 * x + c) 1 r v o = s.nodeWrite x c v ∧ s.writeObj (0x3E00 + 8 * p + c) 1 r v o = s.meterWrite p c v) ∧
    (∀ k : Nat, k < 128 → s.writeObj (0x4000 + 0x20 * k) 1 r v o = .ok (s.linkEnabled k n))

/-- R385, R388, R394, R396: reads. A request that may read its object is answered with the value, and an object cleared by reading is
cleared; DESCRIBE answers type, access, source, flags and size. -/
def Obligations.readsAnswerTheirValue : Prop :=
  ∀ (s u w : State) (z : Zdp) (x : Session) (r : ObjRow) (ix sub : Nat),
    (s.hears z (.read z ix sub) u → u.serves z x w → w.checkRead x ix sub = .ok r → r.ty ≠ .domain → r.ty.size ≤ payloadLimit x.ep →
      exec (.read z ix sub) s =
        .next (((w.clearRead ix sub).answer z 0x10 ix sub (w.value (w.scopeOf x) ix sub r)).heard z (.read z ix sub))) ∧
    (∀ p : Nat, p < 64 → s.hears z (.ottHwmRead z p) u → u.serves z x w → w.checkRead x (0x2021 + 0x40 * p) 4 = .ok r →
      exec (.ottHwmRead z p) s = .next (((w.setObj (0x2021 + 0x40 * p) 4 0).answer z 0x10 (0x2021 + 0x40 * p) 4
        (w.value (w.scopeOf x) (0x2021 + 0x40 * p) 4 r)).heard z (.ottHwmRead z p))) ∧
    (∀ p c k : Nat, p < 64 → c < 8 → k < 178 → s.hears z (.leafStatsRead z p c k) u → u.serves z x w →
      w.checkRead x (0x3A00 + 8 * p + c) (k + 1) = .ok r → r.ty ≠ .domain → r.ty.size ≤ payloadLimit x.ep →
      exec (.leafStatsRead z p c k) s = .next (((w.clearHwm k p c).answer z 0x10 (0x3A00 + 8 * p + c) (k + 1)
        (w.value (w.scopeOf x) (0x3A00 + 8 * p + c) (k + 1) r)).heard z (.leafStatsRead z p c k))) ∧
    (s.hears z (.describe z ix sub) u → u.serves z x w → findObj ix sub = .ok r → w.mayRead x ix r = true →
      exec (.describe z ix sub) s = .next ((w.answer z 0x03 ix sub (leBytes 1 r.ty.code ++ leBytes 1 r.acc.code ++ leBytes 1 r.src ++
        leBytes 1 (b2n (r.writable && !adminWrites ix r) + 2 * b2n (persistent ix r) + 4 * b2n (!r.ctr && r.ty != .domain) +
          8 * b2n r.ownRead) ++ leBytes 4 r.ty.size)).heard z (.describe z ix sub)))

/-- R386 with Table 12.3: which endpoint may hold which role, the refusal of any other, and the session that a good OPEN begins: of the role
and partition it names, with the lowest free number. -/
def Obligations.openHoldsThePermittedRole : Prop :=
  ∀ (s : State) (p k : Nat),
    (∀ role n : Nat, s.permits (.can n) role p = true) ∧
    (∀ role : Nat, s.permits (.pf k) role p = true ↔ role ≠ 1) ∧
    (∀ role q : Nat, role ≤ 2 → (s.permits (.vf k q) role p = true ↔
      role = 2 ∨ (role = 1 ∧ p = q ∧ bit (s.part.setup.prot p).ports k = true))) ∧
    (∀ role n : Nat, role ≤ 2 → (s.permits (.mgmt n) role p = true ↔
      (role = 0 ∧ (if n < 64 then bit (s.obj 0x1010 6 0) n else bit (s.obj 0x1010 7 0) (n - 64)) = true) ∨
      (role = 1 ∧ s.part.setup.hasLink p n = true) ∨ role = 2)) ∧
    ∀ (z : Zdp) (role : Nat) (u : State), s.hears z (.zdpOpen z role p) u → z.short = false → u.session? z.ep = none → role ≤ 2 →
      (role = 1 → p < u.partCount ∧ (u.partOf p).st = 1) → (role ≠ 1 → p = 0) →
      (u.permits z.ep role p = false → exec (.zdpOpen z role p) s = .next ((u.abort z.ep 0x01 z.tag 0 0 0x0303).heard z (.zdpOpen z role p))) ∧
      (∀ i : Nat, u.permits z.ep role p = true →
        (u.dict.sessions.filter fun x => match x.ep with
          | .can _ => true
          | _ => false).length < 16 →
        ((List.range 256).find? fun i => !(u.dict.sessions.any fun x => x.num == i)) = some i →
        exec (.zdpOpen z role p) s = .next ((State.answer { u with dict := { u.dict with sessions := u.dict.sessions ++
          [{ ep := z.ep, role := role, part := p, num := i, lastAt := u.up }] } } z 0x01 0 0 (leBytes 1 i)).heard z (.zdpOpen z role p)))

/-- R394, R400: CLOSE ends the session with its watches. WATCH of an object that is readable and no counter and no DOMAIN adds a watch, up
to 32 in the session; beyond them it is refused with 0x0D02, and for a counter or DOMAIN with 0x0104. UNWATCH takes the watch away. -/
def Obligations.sessionsCloseAndWatch : Prop :=
  ∀ (s u w : State) (z : Zdp) (x : Session) (r : ObjRow) (ix sub : Nat), u.serves z x w →
    (s.hears z (.zdpClose z) u → exec (.zdpClose z) s = .next (((w.dropSession z.ep).answer z 0x02 0 0).heard z (.zdpClose z))) ∧
    (w.dropSession z.ep).session? z.ep = none ∧
    (s.hears z (.watch z ix sub) u → w.checkRead x ix sub = .ok r →
      (r.ctr = true ∨ r.ty = .domain → exec (.watch z ix sub) s = .next ((w.abort z.ep 0x30 z.tag ix sub 0x0104).heard z (.watch z ix sub))) ∧
      (r.ctr = false → r.ty ≠ .domain → (x.watches.any fun y => y.index == ix && y.sub == sub) = false →
        (32 ≤ x.watches.length → exec (.watch z ix sub) s = .next ((w.abort z.ep 0x30 z.tag ix sub 0x0D02).heard z (.watch z ix sub))) ∧
        (x.watches.length < 32 → exec (.watch z ix sub) s = .next (((w.modSession z.ep fun y => { y with
          watches := y.watches ++ [{ index := ix, sub := sub, seen := w.value (w.scopeOf x) ix sub r }] }).answer z 0x30 ix sub).heard z
            (.watch z ix sub))))) ∧
    (s.hears z (.unwatch z ix sub) u → findObj ix sub = .ok r →
      exec (.unwatch z ix sub) s = .next (((w.modSession z.ep fun y => { y with
        watches := y.watches.filter fun y => !(y.index == ix && y.sub == sub) }).answer z 0x31 ix sub).heard z (.unwatch z ix sub)))

/-- R395, R397, R398: segmented transfers. An INIT opens the session's transfer with the snapshot and its CRC-32C, or with the length to
come; a segment carries the next bytes; the SEG_END of a whole write whose CRC agrees applies the value; SEG_ABORT ends the transfer. -/
def Obligations.transfersCarryTheirObject : Prop :=
  ∀ (s u w : State) (z : Zdp) (x : Session) (r : ObjRow) (ix sub : Nat),
    (s.hears z (.segReadInit z ix sub) u → u.serves z x w → w.checkRead x ix sub = .ok r →
      let v := w.value (w.scopeOf x) ix sub r
      exec (.segReadInit z ix sub) s = .next ((((w.clearRead ix sub).modSession z.ep fun x => { x with
        xfer := some { index := ix, sub := sub, write := false, total := v.length, data := v, at_ := w.up }, aborted := none }).answer z 0x20
          ix sub (leBytes 4 v.length ++ leBytes 4 (crc32c v))).heard z (.segReadInit z ix sub))) ∧
    (∀ total : Nat, s.hears z (.segWriteInit z ix sub total) u → u.serves z x w → w.mayWriteWhole x ix sub total r →
      exec (.segWriteInit z ix sub total) s = .next (((w.modSession z.ep fun x => { x with
        xfer := some { index := ix, sub := sub, write := true, total := total, at_ := w.up }, aborted := none }).answer z 0x21 ix sub).heard z
          (.segWriteInit z ix sub total))) ∧
    (∀ (y : Session) (v : Xfer), z.short = false → u.owes z.ep = false → u.boot.ready = true → (u.session? z.ep).isSome = true →
      w = u.modSession z.ep (fun y => { y with lastAt := u.up }) → w.session? z.ep = some y → y.xfer = some v → v.index = ix → v.sub = sub →
      (∀ d : Bytes, s.hears z (.segData z ix sub v.done d) u → v.write = true → w.checkWrite y ix sub = .ok r → v.prev ≠ some v.done →
        d.length ≤ payloadLimit z.ep - 4 → v.done + d.length ≤ v.total →
        exec (.segData z ix sub v.done d) s = .next ((((w.modSession z.ep fun x => { x with xfer := some { v with at_ := w.up } }).modSession z.ep
          fun x => { x with xfer := some { v with data := v.data ++ d, done := v.done + d.length, prev := some v.done, at_ := w.up } }).answer z
            0x22 ix sub).heard z (.segData z ix sub v.done d))) ∧
      (∀ (c : Nat) (t : State), s.hears z (.segEnd z ix sub c) u → ix ≠ 0xE010 → v.write = true → w.checkWrite y ix sub = .ok r →
        v.done = v.total → crc32c v.data = c → (w.endXfer z.ep).writeValue ix sub r v.data (.hard false) = .ok t →
        exec (.segEnd z ix sub c) s = .next (((t.trigger ix sub).answer z 0x23 ix sub).heard z (.segEnd z ix sub c))) ∧
      (s.hears z (.segAbort z ix sub) u → v.over = false →
        exec (.segAbort z ix sub) s = .next (((w.modSession z.ep fun x => { x with xfer := none, aborted := some (ix, sub) }).answer z 0x24
          ix sub).heard z (.segAbort z ix sub))))

/-- R399, R401-R403, R405, R410, R411: what the dictionary does unasked. A watch that has changes tells their number in one NOTIFY, at most
once in WATCH_HOLDOFF, with TAG 0 (log 31); an acknowledged mailbox presents its next; a stalled transfer ends with 0x0E03 and an idle CAN
FD session closes. -/
def Obligations.notificationsAndTimersRun : Prop :=
  ∀ (s : State) (e : Endpoint) (x : Session),
    (s.session? e = some x → ∀ (ix sub : Nat) (y : Watch), (x.watches.find? fun y => y.index == ix && y.sub == sub) = some y →
      (s.watchDue x y = 0 → exec (.notify e ix sub) s = .next s) ∧
      (∀ r : ObjRow, s.watchDue x y ≠ 0 → y.lastAt = none → findObj ix sub = .ok r →
        exec (.notify e ix sub) s = .next ((s.modSession e fun z => { z with watches := z.watches.map fun v => if v = y then { y with
          changes := 0, seen := s.value (s.scopeOf x) ix sub r, lastAt := some s.up } else v }).notifySend e
            (zdpMsg 0x40 0 ix sub false (leBytes 4 (s.watchDue x y)))))) ∧
    (∀ k fn : Nat, k < 2 → fn < 65 → ∀ b : Mailbox, mget s.dict.boxes (fnKey k fn) {} = b →
      (∀ m : Bytes, b.slot = some m → b.queue = [] →
        exec (.notifyAck k fn) s = .next (s.setBox (fnKey k fn) { b with slot := none })) ∧
      (b.slot = none → exec (.notifyAck k fn) s = .next s)) ∧
    (∀ v : Xfer, s.session? e = some x → x.xfer = some v → v.over = false →
      exec (.segmentTimeout e) s = .next ((((s.timeTo (v.at_ + ms (s.obj 0x1010 8 1000))).modSession e fun x => { x with
        xfer := none }).bump 0x60A0 3).abortSend e 0 0 v.index v.sub 0x0E03)) ∧
    (∀ n : Nat, s.session? (.can n) = some x → x.xfer = none → s.obj 0x1010 10 300 ≠ 0 →
      exec (.sessionIdle n) s = .next ((s.timeTo (x.lastAt + sec (s.obj 0x1010 10 300))).dropSession (.can n))) ∧
    exec .canFrameIgnored s = .next (s.bump 0x60A0 5) ∧
    (∀ m : Nat, m ≤ s.obj 0x1010 8 1000 → exec (.canBusOff m) s = .next (s.timeTo (s.up + ms m))) ∧
    (∀ m : Nat, s.obj 0x1010 8 1000 < m → ∃ t, exec (.canBusOff m) s = .next t ∧ t.up = s.up + ms m ∧
      ∀ y ∈ t.dict.sessions, ∀ n : Nat, y.ep = .can n → y.xfer = none)

/-! ### Operand windows (11_partitions.md) -/

/-- R356, R508: a write of the bytes `d` at offset `off` of a partition's operand window, by the host's BAR2 or by a WINDOW_WRITE frame:
each byte of `d` reads back from its offset, every other byte of the window reads as before, and every other window and host memory are
unchanged. -/
def Obligations.windowWritesStoreTheirBytes : Prop :=
  ∀ (s : State) (p off : Nat) (d : Bytes), s.MemOk → off + d.length ≤ s.windowBytes p →
    let stored := fun (t : State) =>
      (∀ i : Nat, (h : i < d.length) → rd (t.window p) (off + i) = d[i]) ∧
      (∀ a : Nat, a < off ∨ off + d.length ≤ a → rd (t.window p) a = rd (s.window p) a) ∧
      (∀ q : Nat, q ≠ p → t.window q = s.window q) ∧ t.mem.host0 = s.mem.host0 ∧ t.mem.host1 = s.mem.host1
    (∀ k : Nat, k < 2 → s.hasVf k p = true → s.pcieGood k = true → ∃ t, exec (.operandWindowAccess k (p + 1) off 0 (some d)) s = .next t ∧ stored t) ∧
    (∀ (r : Req) (u : State), r.part = p → r.addr = off → r.payload = d → s.takesFrame r.link r.vl (36 + d.length) (.windowWrite r) →
      u = s.accepted r.link r.vl (36 + d.length) → u.part.setup.hasLink p r.link = true → ∃ t, exec (.windowWrite r) s = .next t ∧ stored t)
end

