-- ==== Sys2Proof/Laws/Exec.lean ====
section
/-! SUPPORT. Each command runs its meaning: one equation per arm of `exec`. -/

namespace Sys2Proof.Machine

@[simp] theorem exec_descriptorFetch (s : State) : exec .descriptorFetch s = execDescriptorFetch s := rfl
@[simp] theorem exec_ottStallResume (s : State) : exec .ottStallResume s = execOttStallResume s := rfl
@[simp] theorem exec_copy (tag : Nat) (s : State) : exec (.copy tag) s = execCopy tag s := rfl
@[simp] theorem exec_sliceWrite (tag : Nat) (s : State) : exec (.sliceWrite tag) s = execSliceWrite tag s := rfl
@[simp] theorem exec_sliceRead (tag : Nat) (s : State) : exec (.sliceRead tag) s = execSliceRead tag s := rfl
@[simp] theorem exec_stage (tag : Nat) (s : State) : exec (.stage tag) s = execStage tag s := rfl
@[simp] theorem exec_seqOpen (tag : Nat) (s : State) : exec (.seqOpen tag) s = execSeqOpen tag s := rfl
@[simp] theorem exec_seqFork (tag : Nat) (s : State) : exec (.seqFork tag) s = execSeqFork tag s := rfl
@[simp] theorem exec_seqTruncate (tag : Nat) (s : State) : exec (.seqTruncate tag) s = execSeqTruncate tag s := rfl
@[simp] theorem exec_seqDiscard (tag : Nat) (s : State) : exec (.seqDiscard tag) s = execSeqDiscard tag s := rfl
@[simp] theorem exec_chainSearchProbe (tag : Nat) (s : State) : exec (.chainSearchProbe tag) s = execChainSearchProbe tag s := rfl
@[simp] theorem exec_chainSearchAttach (tag : Nat) (s : State) : exec (.chainSearchAttach tag) s = execChainSearchAttach tag s := rfl
@[simp] theorem exec_maskedSearch (tag : Nat) (s : State) : exec (.maskedSearch tag) s = execMaskedSearch tag s := rfl
@[simp] theorem exec_purgePrivate (tag : Nat) (s : State) : exec (.purgePrivate tag) s = execPurgePrivate tag s := rfl
@[simp] theorem exec_inspectSeq (tag : Nat) (s : State) : exec (.inspectSeq tag) s = execInspectSeq tag s := rfl
@[simp] theorem exec_inspectFrame (tag : Nat) (s : State) : exec (.inspectFrame tag) s = execInspectFrame tag s := rfl
@[simp] theorem exec_pipInspect (tag : Nat) (s : State) : exec (.pipInspect tag) s = execPipInspect tag s := rfl
@[simp] theorem exec_indexQuery (tag : Nat) (s : State) : exec (.indexQuery tag) s = execIndexQuery tag s := rfl
@[simp] theorem exec_attendForward (tag : Nat) (s : State) : exec (.attendForward tag) s = execAttendForward tag s := rfl
@[simp] theorem exec_attendBackward (tag : Nat) (s : State) : exec (.attendBackward tag) s = execAttendBackward tag s := rfl
@[simp] theorem exec_attendDispatch (s : State) : exec .attendDispatch s = execAttendDispatch s := rfl
@[simp] theorem exec_saveDiscard (tag : Nat) (s : State) : exec (.saveDiscard tag) s = execSaveDiscard tag s := rfl
@[simp] theorem exec_saveExpiry (p id : Nat) (s : State) : exec (.saveExpiry p id) s = execSaveExpiry p id s := rfl
@[simp] theorem exec_gather (tag : Nat) (s : State) : exec (.gather tag) s = execGather tag s := rfl
@[simp] theorem exec_reduce (tag : Nat) (s : State) : exec (.reduce tag) s = execReduce tag s := rfl
@[simp] theorem exec_collect (tag : Nat) (s : State) : exec (.collect tag) s = execCollect tag s := rfl
@[simp] theorem exec_collectTimeout (tag : Nat) (s : State) : exec (.collectTimeout tag) s = execCollectTimeout tag s := rfl
@[simp] theorem exec_nop (tag : Nat) (s : State) : exec (.nop tag) s = execNop tag s := rfl
@[simp] theorem exec_list (q : Nat) (s : State) : exec (.list q) s = execList q s := rfl
@[simp] theorem exec_sqTailDoorbell (port fn q idx : Nat) (s : State) : exec (.sqTailDoorbell port fn q idx) s = execSqTailDoorbell port fn q idx s := rfl
@[simp] theorem exec_cjHeadDoorbell (port fn q idx : Nat) (s : State) : exec (.cjHeadDoorbell port fn q idx) s = execCjHeadDoorbell port fn q idx s := rfl
@[simp] theorem exec_queueEnable (q : Nat) (s : State) : exec (.queueEnable q) s = execQueueEnable q s := rfl
@[simp] theorem exec_queueDisable (q : Nat) (s : State) : exec (.queueDisable q) s = execQueueDisable q s := rfl
@[simp] theorem exec_queueFlush (q : Nat) (s : State) : exec (.queueFlush q) s = execQueueFlush q s := rfl
@[simp] theorem exec_queueRegisterWrite (q : Nat) (r : QReg) (v : W64) (s : State) : exec (.queueRegisterWrite q r v) s = execQueueRegisterWrite q r v s := rfl
@[simp] theorem exec_journalFullRecordWrite (q : Nat) (s : State) : exec (.journalFullRecordWrite q) s = execJournalFullRecordWrite q s := rfl
@[simp] theorem exec_moderationTimeTrigger (q : Nat) (s : State) : exec (.moderationTimeTrigger q) s = execModerationTimeTrigger q s := rfl
@[simp] theorem exec_msixUnmask (port fn vec : Nat) (s : State) : exec (.msixUnmask port fn vec) s = execMsixUnmask port fn vec s := rfl
@[simp] theorem exec_pcieErrorResponse (e : PcieErr) (s : State) : exec (.pcieErrorResponse e) s = execPcieErrorResponse e s := rfl
@[simp] theorem exec_ottHwmRead (z : Zdp) (p : Nat) (s : State) : exec (.ottHwmRead z p) s = execOttHwmRead z p s := rfl
@[simp] theorem exec_ottReserveWrite (z : Zdp) (p : Nat) (v : Bytes) (s : State) : exec (.ottReserveWrite z p v) s = execOttReserveWrite z p v s := rfl
@[simp] theorem exec_ottCapWrite (z : Zdp) (p : Nat) (v : Bytes) (s : State) : exec (.ottCapWrite z p v) s = execOttCapWrite z p v s := rfl
@[simp] theorem exec_camPlace (fid : Nat) (s : State) : exec (.camPlace fid) s = execCamPlace fid s := rfl
@[simp] theorem exec_mapCacheWaitResume (tag : Nat) (s : State) : exec (.mapCacheWaitResume tag) s = execMapCacheWaitResume tag s := rfl
@[simp] theorem exec_suspendHoldoffExpiry (die : Nat) (s : State) : exec (.suspendHoldoffExpiry die) s = execSuspendHoldoffExpiry die s := rfl
@[simp] theorem exec_pageReadDone (die : Nat) (o : ReadOutcome) (s : State) : exec (.pageReadDone die o) s = execPageReadDone die o s := rfl
@[simp] theorem exec_punnetFlushTimer (key : Option Nat) (s : State) : exec (.punnetFlushTimer key) s = execPunnetFlushTimer key s := rfl
@[simp] theorem exec_punnetProgramDone (die : Nat) (pass : Bool) (s : State) : exec (.punnetProgramDone die pass) s = execPunnetProgramDone die pass s := rfl
@[simp] theorem exec_superblockEraseDone (die : Nat) (pass : Bool) (s : State) : exec (.superblockEraseDone die pass) s = execSuperblockEraseDone die pass s := rfl
@[simp] theorem exec_retentionRefresh (die sb hotSteps : Nat) (s : State) : exec (.retentionRefresh die sb hotSteps) s = execRetentionRefresh die sb hotSteps s := rfl
@[simp] theorem exec_rootCheckpoint (s : State) : exec .rootCheckpoint s = execRootCheckpoint s := rfl
@[simp] theorem exec_mediaSync (z : Zdp) (s : State) : exec (.mediaSync z) s = execMediaSync z s := rfl
@[simp] theorem exec_shutdownPrepare (z : Zdp) (s : State) : exec (.shutdownPrepare z) s = execShutdownPrepare z s := rfl
@[simp] theorem exec_ageTick (s : State) : exec .ageTick s = execAgeTick s := rfl
@[simp] theorem exec_freeCommitStep2 (fid : Nat) (layer : Option Nat) (s : State) : exec (.freeCommitStep2 fid layer) s = execFreeCommitStep2 fid layer s := rfl
@[simp] theorem exec_writebackDelayExpiry (fid layer : Nat) (s : State) : exec (.writebackDelayExpiry fid layer) s = execWritebackDelayExpiry fid layer s := rfl
@[simp] theorem exec_writebackComplete (fid layer : Nat) (s : State) : exec (.writebackComplete fid layer) s = execWritebackComplete fid layer s := rfl
@[simp] theorem exec_allocWaitResume (tag : Nat) (s : State) : exec (.allocWaitResume tag) s = execAllocWaitResume tag s := rfl
@[simp] theorem exec_allocWaitTimeout (tag : Nat) (s : State) : exec (.allocWaitTimeout tag) s = execAllocWaitTimeout tag s := rfl
@[simp] theorem exec_deferredRelease (seq block : Nat) (s : State) : exec (.deferredRelease seq block) s = execDeferredRelease seq block s := rfl
@[simp] theorem exec_referenceRecount (s : State) : exec .referenceRecount s = execReferenceRecount s := rfl
@[simp] theorem exec_frameRecountDone (fid : Nat) (s : State) : exec (.frameRecountDone fid) s = execFrameRecountDone fid s := rfl
@[simp] theorem exec_camScrub (bank : Nat) (rows : List Nat) (s : State) : exec (.camScrub bank rows) s = execCamScrub bank rows s := rfl
@[simp] theorem exec_camBankRefill (bank : Nat) (s : State) : exec (.camBankRefill bank) s = execCamBankRefill bank s := rfl
@[simp] theorem exec_domainPurge (z : Zdp) (v : Bytes) (s : State) : exec (.domainPurge z v) s = execDomainPurge z v s := rfl
@[simp] theorem exec_shareDomainWrite (z : Zdp) (d sub : Nat) (v : Bytes) (s : State) : exec (.shareDomainWrite z d sub v) s = execShareDomainWrite z d sub v s := rfl
@[simp] theorem exec_profileBindingWrite (z : Zdp) (p slot : Nat) (v : Bytes) (s : State) : exec (.profileBindingWrite z p slot v) s = execProfileBindingWrite z p slot v s := rfl
@[simp] theorem exec_upprojWrite (z : Zdp) (n : Nat) (v : Bytes) (s : State) : exec (.upprojWrite z n v) s = execUpprojWrite z n v s := rfl
@[simp] theorem exec_projWrite (z : Zdp) (n : Nat) (v : Bytes) (s : State) : exec (.projWrite z n v) s = execProjWrite z n v s := rfl
@[simp] theorem exec_indexGeometryWrite (z : Zdp) (n sub : Nat) (v : Bytes) (s : State) : exec (.indexGeometryWrite z n sub v) s = execIndexGeometryWrite z n sub v s := rfl
@[simp] theorem exec_planWrite (z : Zdp) (p n : Nat) (v : Bytes) (s : State) : exec (.planWrite z p n v) s = execPlanWrite z p n v s := rfl
@[simp] theorem exec_markStepBegin (link p n : Nat) (s : State) : exec (.markStepBegin link p n) s = execMarkStepBegin link p n s := rfl
@[simp] theorem exec_markStart (link p n j : Nat) (s : State) : exec (.markStart link p n j) s = execMarkStart link p n j s := rfl
@[simp] theorem exec_pushBegin (p n : Nat) (s : State) : exec (.pushBegin p n) s = execPushBegin p n s := rfl
@[simp] theorem exec_pushComplete (p n : Nat) (s : State) : exec (.pushComplete p n) s = execPushComplete p n s := rfl
@[simp] theorem exec_pipComputeDone (seq : Nat) (span : Bool) (item group : Nat) (s : State) : exec (.pipComputeDone seq span item group) s = execPipComputeDone seq span item group s := rfl
@[simp] theorem exec_pipProgramBatchDone (array : Nat) (codes : List (List (List Int))) (s : State) : exec (.pipProgramBatchDone array codes) s = execPipProgramBatchDone array codes s := rfl
@[simp] theorem exec_arrayCalibration (array : Nat) (s : State) : exec (.arrayCalibration array) s = execArrayCalibration array s := rfl
@[simp] theorem exec_arrayReprogramStart (array : Nat) (s : State) : exec (.arrayReprogramStart array) s = execArrayReprogramStart array s := rfl
@[simp] theorem exec_arrayReprogramDone (array : Nat) (s : State) : exec (.arrayReprogramDone array) s = execArrayReprogramDone array s := rfl
@[simp] theorem exec_pipRefresh (array col : Nat) (s : State) : exec (.pipRefresh array col) s = execPipRefresh array col s := rfl
@[simp] theorem exec_portServeUnit (x dir : Nat) (s : State) : exec (.portServeUnit x dir) s = execPortServeUnit x dir s := rfl
@[simp] theorem exec_waitingUnitEnqueue (x dir sub c : Nat) (s : State) : exec (.waitingUnitEnqueue x dir sub c) s = execWaitingUnitEnqueue x dir sub c s := rfl
@[simp] theorem exec_queueSample (s : State) : exec .queueSample s = execQueueSample s := rfl
@[simp] theorem exec_leafStatsRead (z : Zdp) (p c x : Nat) (s : State) : exec (.leafStatsRead z p c x) s = execLeafStatsRead z p c x s := rfl
@[simp] theorem exec_leafCfgWrite (z : Zdp) (p c x : Nat) (v : Bytes) (s : State) : exec (.leafCfgWrite z p c x v) s = execLeafCfgWrite z p c x v s := rfl
@[simp] theorem exec_nodeCfgWrite (z : Zdp) (c x : Nat) (v : Bytes) (s : State) : exec (.nodeCfgWrite z c x v) s = execNodeCfgWrite z c x v s := rfl
@[simp] theorem exec_meterCfgWrite (z : Zdp) (p c : Nat) (v : Bytes) (s : State) : exec (.meterCfgWrite z p c v) s = execMeterCfgWrite z p c v s := rfl
@[simp] theorem exec_derateWrite (z : Zdp) (kind : Nat) (v : Bytes) (s : State) : exec (.derateWrite z kind v) s = execDerateWrite z kind v s := rfl
@[simp] theorem exec_histReset (z : Zdp) (s : State) : exec (.histReset z) s = execHistReset z s := rfl
@[simp] theorem exec_faultFence (kind field unit reason : Nat) (touched : List Nat) (lost : List Lost) (s : State) : exec (.faultFence kind field unit reason touched lost) s = execFaultFence kind field unit reason touched lost s := rfl
@[simp] theorem exec_snapshotRequest (z : Zdp) (v : Bytes) (s : State) : exec (.snapshotRequest z v) s = execSnapshotRequest z v s := rfl
@[simp] theorem exec_jobResume (z : Zdp) (p : Nat) (v : Bytes) (s : State) : exec (.jobResume z p v) s = execJobResume z p v s := rfl
@[simp] theorem exec_partitionReset (z : Zdp) (p : Nat) (v : Bytes) (s : State) : exec (.partitionReset z p v) s = execPartitionReset z p v s := rfl
@[simp] theorem exec_functionLevelReset (port fn : Nat) (s : State) : exec (.functionLevelReset port fn) s = execFunctionLevelReset port fn s := rfl
@[simp] theorem exec_partitionDisable (z : Zdp) (p : Nat) (v : Bytes) (s : State) : exec (.partitionDisable z p v) s = execPartitionDisable z p v s := rfl
@[simp] theorem exec_resetGraceExpiry (queue : Bool) (n : Nat) (s : State) : exec (.resetGraceExpiry queue n) s = execResetGraceExpiry queue n s := rfl
@[simp] theorem exec_portReset (port cause : Nat) (s : State) : exec (.portReset port cause) s = execPortReset port cause s := rfl
@[simp] theorem exec_protectionWrite (z : Zdp) (p sub : Nat) (v : Bytes) (s : State) : exec (.protectionWrite z p sub v) s = execProtectionWrite z p sub v s := rfl
@[simp] theorem exec_protectionBatch (z : Zdp) (v : Bytes) (s : State) : exec (.protectionBatch z v) s = execProtectionBatch z v s := rfl
@[simp] theorem exec_frameQuotaWrite (z : Zdp) (p : Nat) (v : Bytes) (s : State) : exec (.frameQuotaWrite z p v) s = execFrameQuotaWrite z p v s := rfl
@[simp] theorem exec_zdpOpen (z : Zdp) (role part : Nat) (s : State) : exec (.zdpOpen z role part) s = execZdpOpen z role part s := rfl
@[simp] theorem exec_zdpClose (z : Zdp) (s : State) : exec (.zdpClose z) s = execZdpClose z s := rfl
@[simp] theorem exec_describe (z : Zdp) (ix sub : Nat) (s : State) : exec (.describe z ix sub) s = execDescribe z ix sub s := rfl
@[simp] theorem exec_read (z : Zdp) (ix sub : Nat) (s : State) : exec (.read z ix sub) s = execRead z ix sub s := rfl
@[simp] theorem exec_write (z : Zdp) (ix sub : Nat) (v : Bytes) (s : State) : exec (.write z ix sub v) s = execWrite z ix sub v s := rfl
@[simp] theorem exec_segReadInit (z : Zdp) (ix sub : Nat) (s : State) : exec (.segReadInit z ix sub) s = execSegReadInit z ix sub s := rfl
@[simp] theorem exec_segWriteInit (z : Zdp) (ix sub total : Nat) (s : State) : exec (.segWriteInit z ix sub total) s = execSegWriteInit z ix sub total s := rfl
@[simp] theorem exec_segData (z : Zdp) (ix sub offset : Nat) (data : Bytes) (s : State) : exec (.segData z ix sub offset data) s = execSegData z ix sub offset data s := rfl
@[simp] theorem exec_segEnd (z : Zdp) (ix sub check : Nat) (s : State) : exec (.segEnd z ix sub check) s = execSegEnd z ix sub check s := rfl
@[simp] theorem exec_segAbort (z : Zdp) (ix sub : Nat) (s : State) : exec (.segAbort z ix sub) s = execSegAbort z ix sub s := rfl
@[simp] theorem exec_watch (z : Zdp) (ix sub : Nat) (s : State) : exec (.watch z ix sub) s = execWatch z ix sub s := rfl
@[simp] theorem exec_unwatch (z : Zdp) (ix sub : Nat) (s : State) : exec (.unwatch z ix sub) s = execUnwatch z ix sub s := rfl
@[simp] theorem exec_notify (ep : Endpoint) (ix sub : Nat) (s : State) : exec (.notify ep ix sub) s = execNotify ep ix sub s := rfl
@[simp] theorem exec_notifyAck (port fn : Nat) (s : State) : exec (.notifyAck port fn) s = execNotifyAck port fn s := rfl
@[simp] theorem exec_segmentTimeout (ep : Endpoint) (s : State) : exec (.segmentTimeout ep) s = execSegmentTimeout ep s := rfl
@[simp] theorem exec_sessionIdle (node : Nat) (s : State) : exec (.sessionIdle node) s = execSessionIdle node s := rfl
@[simp] theorem exec_kxlOwnerLinksWrite (z : Zdp) (sub : Nat) (v : Bytes) (s : State) : exec (.kxlOwnerLinksWrite z sub v) s = execKxlOwnerLinksWrite z sub v s := rfl
@[simp] theorem exec_canFrameIgnored (s : State) : exec .canFrameIgnored s = execCanFrameIgnored s := rfl
@[simp] theorem exec_canBusOff (millis : Nat) (s : State) : exec (.canBusOff millis) s = execCanBusOff millis s := rfl
@[simp] theorem exec_powerOnReset (straps nor ctl : Nat) (s : State) : exec (.powerOnReset straps nor ctl) s = execPowerOnReset straps nor ctl s := rfl
@[simp] theorem exec_startPhaseComplete (found : List Sys2Proof.Found) (reason detail : Nat) (s : State) : exec (.startPhaseComplete found reason detail) s = execStartPhaseComplete found reason detail s := rfl
@[simp] theorem exec_startPhaseBudgetExpiry (s : State) : exec .startPhaseBudgetExpiry s = execStartPhaseBudgetExpiry s := rfl
@[simp] theorem exec_startFailRestart (s : State) : exec .startFailRestart s = execStartFailRestart s := rfl
@[simp] theorem exec_startSettle (s : State) : exec .startSettle s = execStartSettle s := rfl
@[simp] theorem exec_norRetry (nor ctl : Nat) (s : State) : exec (.norRetry nor ctl) s = execNorRetry nor ctl s := rfl
@[simp] theorem exec_restart (z : Zdp) (v : Bytes) (s : State) : exec (.restart z v) s = execRestart z v s := rfl
@[simp] theorem exec_startFailClear (z : Zdp) (v : Bytes) (s : State) : exec (.startFailClear z v) s = execStartFailClear z v s := rfl
@[simp] theorem exec_firmwareUpdate (z : Zdp) (v : Bytes) (s : State) : exec (.firmwareUpdate z v) s = execFirmwareUpdate z v s := rfl
@[simp] theorem exec_firmwareActivate (z : Zdp) (v : Bytes) (s : State) : exec (.firmwareActivate z v) s = execFirmwareActivate z v s := rfl
@[simp] theorem exec_defectAdd (z : Zdp) (v : Bytes) (s : State) : exec (.defectAdd z v) s = execDefectAdd z v s := rfl
@[simp] theorem exec_factoryToken (z : Zdp) (v : Bytes) (s : State) : exec (.factoryToken z v) s = execFactoryToken z v s := rfl
@[simp] theorem exec_forensicRead (z : Zdp) (v : Bytes) (o : ReadOutcome) (s : State) : exec (.forensicRead z v o) s = execForensicRead z v o s := rfl
@[simp] theorem exec_bistCoreTest (rind : Bool) (field core : Nat) (pass : Bool) (s : State) : exec (.bistCoreTest rind field core pass) s = execBistCoreTest rind field core pass s := rfl
@[simp] theorem exec_refEdgesPresent (k : Nat) (s : State) : exec (.refEdgesPresent k) s = execRefEdgesPresent k s := rfl
@[simp] theorem exec_refQualifyTimer (k : Nat) (s : State) : exec (.refQualifyTimer k) s = execRefQualifyTimer k s := rfl
@[simp] theorem exec_refLoss (k : Nat) (s : State) : exec (.refLoss k) s = execRefLoss k s := rfl
@[simp] theorem exec_refAbsentTimer (k : Nat) (s : State) : exec (.refAbsentTimer k) s = execRefAbsentTimer k s := rfl
@[simp] theorem exec_meshPullInDone (s : State) : exec .meshPullInDone s = execMeshPullInDone s := rfl
@[simp] theorem exec_holdover24h (s : State) : exec .holdover24h s = execHoldover24h s := rfl
@[simp] theorem exec_refSelect (z : Zdp) (v : Bytes) (s : State) : exec (.refSelect z v) s = execRefSelect z v s := rfl
@[simp] theorem exec_timeSet (z : Zdp) (v : Bytes) (s : State) : exec (.timeSet z v) s = execTimeSet z v s := rfl
@[simp] theorem exec_positionsDecoupled (field : Nat) (s : State) : exec (.positionsDecoupled field) s = execPositionsDecoupled field s := rfl
@[simp] theorem exec_clockFault (s : State) : exec .clockFault s = execClockFault s := rfl
@[simp] theorem exec_submit (r : Req) (s : State) : exec (.submit r) s = execSubmit r s := rfl
@[simp] theorem exec_tail (r : Req) (s : State) : exec (.tail r) s = execTail r s := rfl
@[simp] theorem exec_cjHead (r : Req) (s : State) : exec (.cjHead r) s = execCjHead r s := rfl
@[simp] theorem exec_pull (r : Req) (s : State) : exec (.pull r) s = execPull r s := rfl
@[simp] theorem exec_windowWrite (r : Req) (s : State) : exec (.windowWrite r) s = execWindowWrite r s := rfl
@[simp] theorem exec_windowRead (r : Req) (s : State) : exec (.windowRead r) s = execWindowRead r s := rfl
@[simp] theorem exec_leaseRead (r : Req) (s : State) : exec (.leaseRead r) s = execLeaseRead r s := rfl
@[simp] theorem exec_reqHeldApply (link : Nat) (s : State) : exec (.reqHeldApply link) s = execReqHeldApply link s := rfl
@[simp] theorem exec_dataResponse (link vl rtag status addr : Nat) (last : Bool) (data : Bytes) (s : State) : exec (.dataResponse link vl rtag status addr last data) s = execDataResponse link vl rtag status addr last data s := rfl
@[simp] theorem exec_leaseWrite (link vl lease addr : Nat) (data : Bytes) (s : State) : exec (.leaseWrite link vl lease addr data) s = execLeaseWrite link vl lease addr data s := rfl
@[simp] theorem exec_sinkFrameReject (link vl addr : Nat) (data : Bytes) (s : State) : exec (.sinkFrameReject link vl addr data) s = execSinkFrameReject link vl addr data s := rfl
@[simp] theorem exec_credit (e : LinkEnd) (limits : List Nat) (s : State) : exec (.credit e limits) s = execCredit e limits s := rfl
@[simp] theorem exec_creditPeriod (e : LinkEnd) (s : State) : exec (.creditPeriod e) s = execCreditPeriod e s := rfl
@[simp] theorem exec_ack (e : LinkEnd) (fseq : Nat) (s : State) : exec (.ack e fseq) s = execAck e fseq s := rfl
@[simp] theorem exec_ackDelayExpiry (e : LinkEnd) (s : State) : exec (.ackDelayExpiry e) s = execAckDelayExpiry e s := rfl
@[simp] theorem exec_nak (e : LinkEnd) (fseq : Nat) (s : State) : exec (.nak e fseq) s = execNak e fseq s := rfl
@[simp] theorem exec_frameDiscarded (e : LinkEnd) (cause : Nat) (s : State) : exec (.frameDiscarded e cause) s = execFrameDiscarded e cause s := rfl
@[simp] theorem exec_replayTimeout (e : LinkEnd) (s : State) : exec (.replayTimeout e) s = execReplayTimeout e s := rfl
@[simp] theorem exec_collFrame (link vl set member kind : Nat) (fp32 : Bool) (part round offset total : Nat) (data : Bytes) (s : State) : exec (.collFrame link vl set member kind fp32 part round offset total data) s = execCollFrame link vl set member kind fp32 part round offset total data s := rfl
@[simp] theorem exec_collSetsWrite (z : Zdp) (v : Bytes) (s : State) : exec (.collSetsWrite z v) s = execCollSetsWrite z v s := rfl
@[simp] theorem exec_offer (link bytes : Nat) (s : State) : exec (.offer link bytes) s = execOffer link bytes s := rfl
@[simp] theorem exec_lendOfferPeriod (s : State) : exec .lendOfferPeriod s = execLendOfferPeriod s := rfl
@[simp] theorem exec_request (link bytes : Nat) (s : State) : exec (.request link bytes) s = execRequest link bytes s := rfl
@[simp] theorem exec_grant (link id term notice bytes : Nat) (s : State) : exec (.grant link id term notice bytes) s = execGrant link id term notice bytes s := rfl
@[simp] theorem exec_deny (link id : Nat) (s : State) : exec (.deny link id) s = execDeny link id s := rfl
@[simp] theorem exec_renew (link id : Nat) (s : State) : exec (.renew link id) s = execRenew link id s := rfl
@[simp] theorem exec_revoke (link id notice : Nat) (s : State) : exec (.revoke link id notice) s = execRevoke link id notice s := rfl
@[simp] theorem exec_released (link id : Nat) (s : State) : exec (.released link id) s = execReleased link id s := rfl
@[simp] theorem exec_leaseRenewTimer (slot : Nat) (s : State) : exec (.leaseRenewTimer slot) s = execLeaseRenewTimer slot s := rfl
@[simp] theorem exec_leaseTermEnd (slot : Nat) (s : State) : exec (.leaseTermEnd slot) s = execLeaseTermEnd slot s := rfl
@[simp] theorem exec_leaseNoticeEnd (lent : Bool) (k : Nat) (s : State) : exec (.leaseNoticeEnd lent k) s = execLeaseNoticeEnd lent k s := rfl
@[simp] theorem exec_lendEnable (z : Zdp) (v : Bytes) (s : State) : exec (.lendEnable z v) s = execLendEnable z v s := rfl
@[simp] theorem exec_lendBytes (z : Zdp) (v : Bytes) (s : State) : exec (.lendBytes z v) s = execLendBytes z v s := rfl
@[simp] theorem exec_borrowBytes (z : Zdp) (v : Bytes) (s : State) : exec (.borrowBytes z v) s = execBorrowBytes z v s := rfl
@[simp] theorem exec_linkEnable (z : Zdp) (n : Nat) (v : Bytes) (s : State) : exec (.linkEnable z n v) s = execLinkEnable z n v s := rfl
@[simp] theorem exec_equalisationDone (e : LinkEnd) (lanes : List Nat) (s : State) : exec (.equalisationDone e lanes) s = execEqualisationDone e lanes s := rfl
@[simp] theorem exec_trainingBlock (e : LinkEnd) (role lanes rates id : Nat) (limits : List Nat) (s : State) : exec (.trainingBlock e role lanes rates id limits) s = execTrainingBlock e role lanes rates id limits s := rfl
@[simp] theorem exec_trainingAttemptTimeout (e : LinkEnd) (s : State) : exec (.trainingAttemptTimeout e) s = execTrainingAttemptTimeout e s := rfl
@[simp] theorem exec_retrainInterval (e : LinkEnd) (s : State) : exec (.retrainInterval e) s = execRetrainInterval e s := rfl
@[simp] theorem exec_lossOfLock (e : LinkEnd) (s : State) : exec (.lossOfLock e) s = execLossOfLock e s := rfl
@[simp] theorem exec_pxReset (level : Bool) (s : State) : exec (.pxReset level) s = execPxReset level s := rfl
@[simp] theorem exec_pxRequest (kind len beats : Nat) (r : Req) (s : State) : exec (.pxRequest kind len beats r) s = execPxRequest kind len beats r s := rfl
@[simp] theorem exec_pxMarker (k event part plan pos : Nat) (s : State) : exec (.pxMarker k event part plan pos) s = execPxMarker k event part plan pos s := rfl
@[simp] theorem exec_pxFrameAccept (k typ vl : Nat) (hdr payload : Bytes) (s : State) : exec (.pxFrameAccept k typ vl hdr payload) s = execPxFrameAccept k typ vl hdr payload s := rfl
@[simp] theorem exec_pxDeliveryBeat (s : State) : exec .pxDeliveryBeat s = execPxDeliveryBeat s := rfl
@[simp] theorem exec_pxLinkEnable (k v : Nat) (s : State) : exec (.pxLinkEnable k v) s = execPxLinkEnable k v s := rfl
@[simp] theorem exec_pxLinkDisable (k v : Nat) (s : State) : exec (.pxLinkDisable k v) s = execPxLinkDisable k v s := rfl
@[simp] theorem exec_pxIrqClear (v : Nat) (s : State) : exec (.pxIrqClear v) s = execPxIrqClear v s := rfl
@[simp] theorem exec_pxRegisterWrite (off v : Nat) (s : State) : exec (.pxRegisterWrite off v) s = execPxRegisterWrite off v s := rfl
@[simp] theorem exec_pxLinkDown (k reason : Nat) (s : State) : exec (.pxLinkDown k reason) s = execPxLinkDown k reason s := rfl
@[simp] theorem exec_powerFail (millivolts : Nat) (s : State) : exec (.powerFail millivolts) s = execPowerFail millivolts s := rfl
@[simp] theorem exec_powerReturn (s : State) : exec .powerReturn s = execPowerReturn s := rfl
@[simp] theorem exec_porstAssert (s : State) : exec .porstAssert s = execPorstAssert s := rfl
@[simp] theorem exec_perstRelease (port : Nat) (s : State) : exec (.perstRelease port) s = execPerstRelease port s := rfl
@[simp] theorem exec_sensorSample (rs : List Sample) (s : State) : exec (.sensorSample rs) s = execSensorSample rs s := rfl
@[simp] theorem exec_inputFallsBelow40V (s : State) : exec .inputFallsBelow40V s = execInputFallsBelow40V s := rfl
@[simp] theorem exec_protocolFrame (e : LinkEnd) (s : State) : exec (.protocolFrame e) s = execProtocolFrame e s := rfl
@[simp] theorem exec_pcieRenegotiation (port lanes gts : Nat) (s : State) : exec (.pcieRenegotiation port lanes gts) s = execPcieRenegotiation port lanes gts s := rfl
@[simp] theorem exec_tapController (ev : TapEv) (s : State) : exec (.tapController ev) s = execTapController ev s := rfl
@[simp] theorem exec_operandWindowAccess (port fn off n : Nat) (data : Option Bytes) (s : State) : exec (.operandWindowAccess port fn off n data) s = execOperandWindowAccess port fn off n data s := rfl
@[simp] theorem exec_equaliseTimeout (e : LinkEnd) (s : State) : exec (.equaliseTimeout e) s = execEqualiseTimeout e s := rfl

end Sys2Proof.Machine
end

