-- ==== Sys2Proof/Laws/Maps.lean ====
section
/-! SUPPORT. The laws of the tables keyed by numbers. -/

namespace Sys2Proof.Machine

theorem mget_of_find {α : Type} {m : Map α} {k : Nat} {v d : α} (h : mget? m k = some v) : mget m k d = v := by
  simp [mget, h]

theorem mget_of_none {α : Type} {m : Map α} {k : Nat} {d : α} (h : mget? m k = none) : mget m k d = d := by
  simp [mget, h]

/-- What a key was set to is what it holds. -/
@[simp] theorem mget?_mset {α : Type} (m : Map α) (k : Nat) (v : α) : mget? (mset m k v) k = some v := by
  induction m with
  | nil => simp [mset, mget?]
  | cons e m ih =>
    obtain ⟨k', v'⟩ := e
    by_cases h1 : k < k'
    · simp [mset, mget?, h1]
    · by_cases h2 : k = k'
      · simp [mset, mget?, h2]
      · simp [mset, mget?, h1, h2, ih]

/-- Setting a key leaves every other key alone. -/
theorem mget?_mset_ne {α : Type} (m : Map α) {k j : Nat} (v : α) (h : j ≠ k) : mget? (mset m k v) j = mget? m j := by
  induction m with
  | nil => simp [mset, mget?, h]
  | cons e m ih =>
    obtain ⟨k', v'⟩ := e
    by_cases h1 : k < k'
    · simp [mset, mget?, h1, h]
    · by_cases h2 : k = k'
      · subst h2; simp [mset, mget?, h]
      · simp [mset, mget?, h1, h2, ih]

@[simp] theorem mget_mset {α : Type} (m : Map α) (k : Nat) (v d : α) : mget (mset m k v) k d = v := by simp [mget]

theorem mget_mset_ne {α : Type} (m : Map α) {k j : Nat} (v d : α) (h : j ≠ k) : mget (mset m k v) j d = mget m j d := by
  simp [mget, mget?_mset_ne m v h]

/-- The entries after a key was set: the new one and old ones. -/
theorem mem_mset {α : Type} {m : Map α} {k : Nat} {v : α} {e : Nat × α} (h : e ∈ mset m k v) : e = (k, v) ∨ e ∈ m := by
  induction m with
  | nil => simpa [mset] using h
  | cons x m ih =>
    obtain ⟨k', v'⟩ := x
    by_cases h1 : k < k'
    · simp only [mset, h1, if_true, List.mem_cons] at h
      simpa only [List.mem_cons] using h
    · by_cases h2 : k = k'
      · simp only [mset, h1, h2, if_true, if_false, Nat.lt_irrefl, List.mem_cons] at h
        rcases h with h | h
        · exact .inl (by rw [h, h2])
        · exact .inr (List.mem_cons_of_mem _ h)
      · simp only [mset, h1, h2, if_false, List.mem_cons] at h
        rcases h with h | h
        · exact .inr (by simp [h])
        · exact (ih h).imp id (List.mem_cons_of_mem _)

/-- An entry a lookup finds is listed. -/
theorem mem_of_mget? {α : Type} {m : Map α} {k : Nat} {v : α} (h : mget? m k = some v) : (k, v) ∈ m := by
  induction m with
  | nil => simp [mget?] at h
  | cons x m ih =>
    obtain ⟨k', v'⟩ := x
    by_cases h2 : k = k'
    · simp only [mget?, h2, if_true, Option.some.injEq] at h
      simp [h2, h]
    · simp only [mget?, h2, if_false] at h
      exact List.mem_cons_of_mem _ (ih h)

@[simp] theorem mget?_merase {α : Type} (m : Map α) (k : Nat) : mget? (merase m k) k = none := by
  induction m with
  | nil => rfl
  | cons e m ih =>
    unfold merase at *
    rw [List.filter_cons]
    split
    · rename_i h
      have h' : ¬ k = e.1 := fun x => by simp [x] at h
      simp only [mget?, if_neg h', ih]
    · exact ih

theorem mget?_merase_ne {α : Type} (m : Map α) {k j : Nat} (h : j ≠ k) : mget? (merase m k) j = mget? m j := by
  induction m with
  | nil => rfl
  | cons e m ih =>
    unfold merase at *
    rw [List.filter_cons]
    split
    · simp only [mget?, ih]
    · rename_i hk
      have : e.1 = k := by simpa using hk
      simp only [mget?, if_neg (show ¬ j = e.1 by rw [this]; exact h), ih]

theorem mset_mset {α : Type} (m : Map α) (k : Nat) (a b : α) : mset (mset m k a) k b = mset m k b := by
  induction m with
  | nil => simp [mset]
  | cons e m ih => simp only [mset]; split <;> (try split) <;> simp_all [mset] <;> omega

/-- The key that `mfree` finds is not listed. -/
theorem mget?_of_mfree {α : Type} (m : Map α) (n : Nat) : ∀ (h t : Nat), mfree m h n = some t → mget? m t = none := by
  induction n with
  | zero => intro h t e; cases e
  | succ n ih =>
    intro h t e
    simp only [mfree] at e
    split at e
    · exact ih _ _ e
    · rename_i hh; cases e
      simpa [mhas] using hh

end Sys2Proof.Machine
end

