-- ==== Sys2Proof/Laws/Memory.lean ====
section
/-! SUPPORT. The laws of the byte memories: the canonical form, read after write. -/

namespace Sys2Proof.Machine

theorem wfFrom_mono {lo lo' : Nat} {m : List Host.Cell} (h : wfFrom lo m = true) (hl : lo' ≤ lo) : wfFrom lo' m = true := by
  cases m with
  | nil => rfl
  | cons e m =>
    obtain ⟨a, b⟩ := e
    simp only [wfFrom, Bool.and_eq_true, decide_eq_true_eq] at h ⊢
    exact ⟨⟨by omega, h.1.2⟩, h.2⟩

theorem wfFrom_wr {m : List Host.Cell} {lo a : Nat} (b : Byte) (h : wfFrom lo m = true) (ha : lo ≤ a) :
    wfFrom lo (wr m a b) = true := by
  induction m generalizing lo with
  | nil =>
    by_cases hb : b = memDefault
    · simp [wr, hb, wfFrom]
    · simp [wr, hb, wfFrom, ha]
  | cons e m ih =>
    obtain ⟨a', b'⟩ := e
    simp only [wfFrom, Bool.and_eq_true, decide_eq_true_eq] at h
    obtain ⟨⟨h1, h2⟩, h3⟩ := h
    by_cases c1 : a < a'
    · by_cases hb : b = memDefault
      · simp [wr, c1, hb, wfFrom, h1, h3, bne_iff_ne.mp h2]
      · simp [wr, c1, hb, wfFrom, ha, h3, bne_iff_ne.mp h2, Nat.succ_le_of_lt c1]
    · by_cases c2 : a = a'
      · subst c2
        by_cases hb : b = memDefault
        · simp only [wr, c1, hb, if_true, if_false]
          exact wfFrom_mono h3 (by omega)
        · simp [wr, c1, hb, wfFrom, ha, h3]
      · simp only [wr, c1, c2, if_false, wfFrom, Bool.and_eq_true, decide_eq_true_eq]
        exact ⟨⟨h1, h2⟩, ih h3 (by omega)⟩

/-- Writing a byte keeps the canonical form. -/
theorem Memory.wf_wr {m : List Host.Cell} (h : Memory.wf m = true) (a : Nat) (b : Byte) : Memory.wf (wr m a b) = true :=
  wfFrom_wr b h (Nat.zero_le a)

/-- Writing bytes keeps the canonical form. -/
theorem Memory.wf_wrN {m : List Host.Cell} (h : Memory.wf m = true) (a : Nat) (bs : Bytes) :
    Memory.wf (wrN m a bs) = true := by
  induction bs generalizing m a with
  | nil => exact h
  | cons b bs ih => exact ih (Memory.wf_wr h a b) (a + 1)

theorem rd_of_lt {m : List Host.Cell} {lo a : Nat} (h : wfFrom lo m = true) (ha : a < lo) : rd m a = memDefault := by
  induction m generalizing lo with
  | nil => rfl
  | cons e m ih =>
    obtain ⟨a', b'⟩ := e
    simp only [wfFrom, Bool.and_eq_true, decide_eq_true_eq] at h
    have : a ≠ a' := by omega
    simp only [rd, this, if_false]
    exact ih h.2 (by omega)

/-- A byte read back is the byte written. -/
theorem rd_wr {m : List Host.Cell} {lo : Nat} (h : wfFrom lo m = true) (a : Nat) (b : Byte) : rd (wr m a b) a = b := by
  induction m generalizing lo with
  | nil => by_cases hb : b = memDefault <;> simp [wr, hb, rd]
  | cons e m ih =>
    obtain ⟨a', b'⟩ := e
    simp only [wfFrom, Bool.and_eq_true, decide_eq_true_eq] at h
    obtain ⟨⟨_, _⟩, h3⟩ := h
    by_cases c1 : a < a'
    · by_cases hb : b = memDefault
      · have : a ≠ a' := by omega
        simp only [wr, c1, hb, if_true, rd, this, if_false]
        exact rd_of_lt h3 (by omega)
      · simp [wr, c1, hb, rd]
    · by_cases c2 : a = a'
      · subst c2
        by_cases hb : b = memDefault
        · simp only [wr, c1, hb, if_true, if_false]
          exact rd_of_lt h3 (by omega)
        · simp [wr, c1, hb, rd]
      · simp only [wr, c1, c2, if_false, rd]
        exact ih h3

/-- Writing a byte leaves every other byte alone. -/
theorem rd_wr_ne (m : List Host.Cell) {a x : Nat} (b : Byte) (h : x ≠ a) : rd (wr m a b) x = rd m x := by
  induction m with
  | nil => by_cases hb : b = memDefault <;> simp [wr, hb, rd, h]
  | cons e m ih =>
    obtain ⟨a', b'⟩ := e
    by_cases c1 : a < a'
    · by_cases hb : b = memDefault <;> simp [wr, c1, hb, rd, h]
    · by_cases c2 : a = a'
      · subst c2
        by_cases hb : b = memDefault <;> simp [wr, hb, rd, h]
      · simp [wr, c1, c2, rd, ih]

/-- Writing bytes leaves every byte outside them alone. -/
theorem rd_wrN_out (m : List Host.Cell) {a x : Nat} (bs : Bytes) (h : x < a ∨ a + bs.length ≤ x) :
    rd (wrN m a bs) x = rd m x := by
  induction bs generalizing m a with
  | nil => rfl
  | cons b bs ih =>
    simp only [List.length_cons] at h
    rw [wrN, ih (wr m a b) (a := a + 1) (by omega), rd_wr_ne m b (by omega)]

/-- Bytes read back are the bytes written. -/
theorem rdN_wrN {m : List Host.Cell} (h : Memory.wf m = true) (a : Nat) (bs : Bytes) :
    rdN (wrN m a bs) a bs.length = bs := by
  induction bs generalizing m a with
  | nil => rfl
  | cons b bs ih =>
    have h1 := Memory.wf_wr h a b
    simp only [wrN, List.length_cons, rdN]
    rw [ih h1, rd_wrN_out _ bs (by omega), rd_wr h]

theorem State.MemOk.host {s : State} (h : s.MemOk) (k : Nat) : Memory.wf (s.host k) = true := by
  unfold State.host
  split
  · exact h.1
  · exact h.2.1

theorem State.MemOk.window {s : State} (h : s.MemOk) (p : Nat) : Memory.wf (s.window p) = true := by
  unfold State.window
  cases e : mget? s.mem.windows p with
  | none => rw [mget_of_none e]; rfl
  | some m => rw [mget_of_find e]; exact h.2.2 _ (mem_of_mget? e)

/-- A write into host memory keeps the canonical form. -/
theorem State.MemOk.hostWrite {s : State} (h : s.MemOk) (k a : Nat) (bs : Bytes) : (s.hostWrite k a bs).MemOk := by
  unfold State.hostWrite
  split
  · exact ⟨Memory.wf_wrN h.1 a bs, h.2.1, h.2.2⟩
  · exact ⟨h.1, Memory.wf_wrN h.2.1 a bs, h.2.2⟩

/-- A write into an operand window keeps the canonical form. -/
theorem State.MemOk.windowWrite {s : State} (h : s.MemOk) (p a : Nat) (bs : Bytes) : (s.windowWrite p a bs).MemOk := by
  refine ⟨h.1, h.2.1, fun e he => ?_⟩
  rcases mem_mset he with rfl | he
  · exact Memory.wf_wrN (h.window p) a bs
  · exact h.2.2 e he

end Sys2Proof.Machine
end

