-- ==== Sys2Proof/Laws/Keeps.lean ====
section
/-! SUPPORT. What it means that a command changes only some parts of the state, and how such facts combine. The lemmas
`X_keeps` of the files KeepsOps to KeepsCmds say for each operation `X` of the model which parts of the state it can change. -/

namespace Sys2Proof.Machine

/-- From `s` to `t` only the parts in `W` change, the memories keep their canonical form, and the clock does not run back. -/
structure Keeps (W : List Fld) (s t : State) : Prop where
  of : ∀ f, f ∉ W → f.same s t
  mem : s.MemOk → t.MemOk
  up : s.up ≤ t.up

def within (V W : List Fld) : Bool := V.all fun f => W.any fun g => f.ctorIdx == g.ctorIdx

theorem within_mem {V W : List Fld} (h : within V W = true) {f : Fld} (hf : f ∈ V) : f ∈ W := by
  have h1 := List.all_eq_true.mp h f hf
  obtain ⟨g, hg, he⟩ := List.any_eq_true.mp h1
  have : f = g := by
    have := of_decide_eq_true (p := f.ctorIdx = g.ctorIdx) (by simpa using he)
    cases f <;> cases g <;> first | rfl | cases this
  exact this ▸ hg

theorem within_trans {U V W : List Fld} (h : within U V = true) (k : within V W = true) : within U W = true := by
  refine List.all_eq_true.mpr fun f hf => List.any_eq_true.mpr ⟨f, within_mem k (within_mem h hf), ?_⟩
  simp

theorem Keeps.refl {W : List Fld} {s : State} : Keeps W s s := ⟨fun f _ => by cases f <;> rfl, id, Nat.le_refl _⟩

theorem Fld.same_trans {f : Fld} {s t u : State} (h : f.same s t) (k : f.same t u) : f.same s u := by
  cases f <;> exact Eq.trans k h

theorem Keeps.trans {W : List Fld} {s t u : State} (h : Keeps W s t) (k : Keeps W t u) : Keeps W s u :=
  ⟨fun f hf => Fld.same_trans (h.of f hf) (k.of f hf), fun m => k.mem (h.mem m), Nat.le_trans h.up k.up⟩

theorem Keeps.step {V W : List Fld} {s0 s t : State} (h : Keeps V s t) (hw : within V W = true) (k : Keeps W s0 s)
    : Keeps W s0 t :=
  k.trans ⟨fun f hf => h.of f fun hv => hf (within_mem hw hv), h.mem, h.up⟩

theorem Keeps.ite {W : List Fld} {s0 a b : State} {p : Prop} [Decidable p] (h : Keeps W s0 a) (k : Keeps W s0 b) :
    Keeps W s0 (if p then a else b) := by
  split
  · exact h
  · exact k

theorem ite_cases {α : Type} {p : Prop} [Decidable p] {a b c : α} (e : (if p then a else b) = c) : a = c ∨ b = c := by
  split at e
  · exact .inl e
  · exact .inr e

theorem Keeps.iteBy {β : Type} (f : β → State) {W : List Fld} {s0 : State} {a b : β} {p : Prop} [Decidable p]
    (h : Keeps W s0 (f a)) (k : Keeps W s0 (f b)) : Keeps W s0 (f (if p then a else b)) := by
  split
  · exact h
  · exact k

theorem Keeps.foldlBy {α β : Type} (p : β → State) {W : List Fld} {s0 : State} {g : β → α → β} {b : β} {l : List α}
    (h : ∀ b a, Keeps W s0 (p b) → Keeps W s0 (p (g b a))) (k : Keeps W s0 (p b)) : Keeps W s0 (p (l.foldl g b)) := by
  induction l generalizing b with
  | nil => exact k
  | cons a l ih => exact ih (h b a k)

theorem Keeps.foldl {α : Type} {W : List Fld} {s0 s : State} {g : State → α → State} {l : List α}
    (h : ∀ s a, Keeps W s0 s → Keeps W s0 (g s a)) (k : Keeps W s0 s) : Keeps W s0 (l.foldl g s) := by
  induction l generalizing s with
  | nil => exact k
  | cons a l ih => exact ih (h s a k)

def Fetched.val : Fetched → State
  | .stalled s => s
  | .got s => s

def WOut.val : WOut → State
  | .done s _ => s
  | .fail _ s => s
  | .wait s => s
  | .need _ s => s

theorem Keeps.stalled {W : List Fld} {s0 s : State} (h : Keeps W s0 s) : Keeps W s0 (Fetched.stalled s).val := h
theorem Keeps.got {W : List Fld} {s0 s : State} (h : Keeps W s0 s) : Keeps W s0 (Fetched.got s).val := h
theorem Keeps.done {W : List Fld} {s0 s : State} {f : Nat} (h : Keeps W s0 s) : Keeps W s0 (WOut.done s f).val := h
theorem Keeps.fail {W : List Fld} {s0 s : State} {c : Nat} (h : Keeps W s0 s) : Keeps W s0 (WOut.fail c s).val := h
theorem Keeps.wait {W : List Fld} {s0 s : State} (h : Keeps W s0 s) : Keeps W s0 (WOut.wait s).val := h
theorem Keeps.need {W : List Fld} {s0 s : State} {ks : List (Nat × Nat)} (h : Keeps W s0 s) : Keeps W s0
    (WOut.need ks s).val := h
theorem Keeps.ofGot {W : List Fld} {s0 s : State} {d : Fetched} (e : d = .got s) (h : Keeps W s0 d.val) : Keeps W s0 s := by
  subst e; exact h
theorem Keeps.ofStalled {W : List Fld} {s0 s : State} {d : Fetched} (e : d = .stalled s) (h : Keeps W s0 d.val)
    : Keeps W s0 s := by
  subst e; exact h
theorem Keeps.ofDone {W : List Fld} {s0 s : State} {f : Nat} {d : WOut} (e : d = .done s f) (h : Keeps W s0 d.val)
    : Keeps W s0 s := by
  subst e; exact h
theorem Keeps.ofFail {W : List Fld} {s0 s : State} {c : Nat} {d : WOut} (e : d = .fail c s) (h : Keeps W s0 d.val)
    : Keeps W s0 s := by
  subst e; exact h
theorem Keeps.ofWait {W : List Fld} {s0 s : State} {d : WOut} (e : d = .wait s) (h : Keeps W s0 d.val) : Keeps W s0 s := by
  subst e; exact h
theorem Keeps.ofNeed {W : List Fld} {s0 s : State} {ks : List (Nat × Nat)} {d : WOut} (e : d = .need ks s)
    (h : Keeps W s0 d.val) : Keeps W s0 s := by
  subst e; exact h
theorem Keeps.mk2 {W : List Fld} {s0 s : State} {α : Type} {a : α} (h : Keeps W s0 s) : Keeps W s0 (a, s).2 := h
theorem Keeps.mk3 {W : List Fld} {s0 s : State} {α β : Type} {a : α} {b : β} (h : Keeps W s0 s) : Keeps W s0
    (a, b, s).2.2 := h
theorem Keeps.mk4 {W : List Fld} {s0 s : State} {α β γ : Type} {a : α} {b : β} {c : γ} (h : Keeps W s0 s) :
    Keeps W s0 (a, b, c, s).2.2.2 := h
theorem Keeps.mk5 {W : List Fld} {s0 s : State} {α β γ δ : Type} {a : α} {b : β} {c : γ} {d : δ} (h : Keeps W s0 s) :
    Keeps W s0 (a, b, c, d, s).2.2.2.2 := h
theorem Keeps.ofPair2 {W : List Fld} {s0 s : State} {α : Type} {a : α} {d : α × State} (e : d = (a, s)) (h
    : Keeps W s0 d.2) :
    Keeps W s0 s := by
  subst e; exact h
theorem Keeps.ofPair3 {W : List Fld} {s0 s : State} {α β : Type} {a : α} {b : β} {d : α × β × State} (e : d = (a, b, s))
    (h : Keeps W s0 d.2.2) : Keeps W s0 s := by
  subst e; exact h
theorem Keeps.ofPair4 {W : List Fld} {s0 s : State} {α β γ : Type} {a : α} {b : β} {c : γ} {d : α × β × γ × State}
    (e : d = (a, b, c, s)) (h : Keeps W s0 d.2.2.2) : Keeps W s0 s := by
  subst e; exact h

theorem Keeps.set_pending (s : State) (v0 : List Instr) : Keeps [.pending] s { s with pending := v0 } :=
  ⟨fun f hf => by cases f <;> first | rfl | exact (hf (by decide)).elim, fun h => h, Nat.le_refl _⟩
theorem Keeps.set_now (s : State) (v0 : W64) : Keeps [.now] s { s with now := v0 } :=
  ⟨fun f hf => by cases f <;> first | rfl | exact (hf (by decide)).elim, fun h => h, Nat.le_refl _⟩
theorem Keeps.set_out (s : State) (v0 : List Out) : Keeps [.out] s { s with out := v0 } :=
  ⟨fun f hf => by cases f <;> first | rfl | exact (hf (by decide)).elim, fun h => h, Nat.le_refl _⟩
theorem Keeps.set_att (s : State) (v0 : Attend) : Keeps [.att] s { s with att := v0 } :=
  ⟨fun f hf => by cases f <;> first | rfl | exact (hf (by decide)).elim, fun h => h, Nat.le_refl _⟩
theorem Keeps.set_clk (s : State) (v0 : Clock) : Keeps [.clk] s { s with clk := v0 } :=
  ⟨fun f hf => by cases f <;> first | rfl | exact (hf (by decide)).elim, fun h => h, Nat.le_refl _⟩
theorem Keeps.set_lk (s : State) (v0 : Links) : Keeps [.lk] s { s with lk := v0 } :=
  ⟨fun f hf => by cases f <;> first | rfl | exact (hf (by decide)).elim, fun h => h, Nat.le_refl _⟩
theorem Keeps.set_boot (s : State) (v0 : Boot) : Keeps [.boot] s { s with boot := v0 } :=
  ⟨fun f hf => by cases f <;> first | rfl | exact (hf (by decide)).elim, fun h => h, Nat.le_refl _⟩
theorem Keeps.set_blob (s : State) (v0 : Map Bytes) : Keeps [.blob] s { s with blob := v0 } :=
  ⟨fun f hf => by cases f <;> first | rfl | exact (hf (by decide)).elim, fun h => h, Nat.le_refl _⟩
theorem Keeps.set_pxb (s : State) (v0 : PxBlock) : Keeps [.pxb] s { s with pxb := v0 } :=
  ⟨fun f hf => by cases f <;> first | rfl | exact (hf (by decide)).elim, fun h => h, Nat.le_refl _⟩
theorem Keeps.set_tm (s : State) (v0 : Traffic) : Keeps [.tm] s { s with tm := v0 } :=
  ⟨fun f hf => by cases f <;> first | rfl | exact (hf (by decide)).elim, fun h => h, Nat.le_refl _⟩
theorem Keeps.set_media (s : State) (v0 : Media) : Keeps [.media] s { s with media := v0 } :=
  ⟨fun f hf => by cases f <;> first | rfl | exact (hf (by decide)).elim, fun h => h, Nat.le_refl _⟩
theorem Keeps.set_dict (s : State) (v0 : Dict) : Keeps [.dict] s { s with dict := v0 } :=
  ⟨fun f hf => by cases f <;> first | rfl | exact (hf (by decide)).elim, fun h => h, Nat.le_refl _⟩
theorem Keeps.set_ev (s : State) (v0 : Events) : Keeps [.ev] s { s with ev := v0 } :=
  ⟨fun f hf => by cases f <;> first | rfl | exact (hf (by decide)).elim, fun h => h, Nat.le_refl _⟩
theorem Keeps.set_ix (s : State) (v0 : Index) : Keeps [.ix] s { s with ix := v0 } :=
  ⟨fun f hf => by cases f <;> first | rfl | exact (hf (by decide)).elim, fun h => h, Nat.le_refl _⟩
theorem Keeps.set_pwr (s : State) (v0 : Power) : Keeps [.pwr] s { s with pwr := v0 } :=
  ⟨fun f hf => by cases f <;> first | rfl | exact (hf (by decide)).elim, fun h => h, Nat.le_refl _⟩
theorem Keeps.set_ctr (s : State) (v0 : Map W64) : Keeps [.ctr] s { s with ctr := v0 } :=
  ⟨fun f hf => by cases f <;> first | rfl | exact (hf (by decide)).elim, fun h => h, Nat.le_refl _⟩
theorem Keeps.set_part (s : State) (v0 : Parts) : Keeps [.part] s { s with part := v0 } :=
  ⟨fun f hf => by cases f <;> first | rfl | exact (hf (by decide)).elim, fun h => h, Nat.le_refl _⟩
theorem Keeps.set_tier (s : State) (v0 : Tiers) : Keeps [.tier] s { s with tier := v0 } :=
  ⟨fun f hf => by cases f <;> first | rfl | exact (hf (by decide)).elim, fun h => h, Nat.le_refl _⟩
theorem Keeps.set_cfg (s : State) (v0 : Map Nat) : Keeps [.cfg] s { s with cfg := v0 } :=
  ⟨fun f hf => by cases f <;> first | rfl | exact (hf (by decide)).elim, fun h => h, Nat.le_refl _⟩
theorem Keeps.set_q (s : State) (v0 : Queues) : Keeps [.q] s { s with q := v0 } :=
  ⟨fun f hf => by cases f <;> first | rfl | exact (hf (by decide)).elim, fun h => h, Nat.le_refl _⟩
theorem Keeps.set_px (s : State) (v0 : Prefix) : Keeps [.px] s { s with px := v0 } :=
  ⟨fun f hf => by cases f <;> first | rfl | exact (hf (by decide)).elim, fun h => h, Nat.le_refl _⟩
theorem Keeps.set_pg (s : State) (v0 : Pages) : Keeps [.pg] s { s with pg := v0 } :=
  ⟨fun f hf => by cases f <;> first | rfl | exact (hf (by decide)).elim, fun h => h, Nat.le_refl _⟩
theorem Keeps.set_free (s : State) (v0 : Nat) : Keeps [.free] s { s with free := v0 } :=
  ⟨fun f hf => by cases f <;> first | rfl | exact (hf (by decide)).elim, fun h => h, Nat.le_refl _⟩
theorem Keeps.set_out_lk (s : State) (v0 : List Out) (v1 : Links) : Keeps [.out, .lk] s { s with out := v0, lk := v1 } :=
  ⟨fun f hf => by cases f <;> first | rfl | exact (hf (by decide)).elim, fun h => h, Nat.le_refl _⟩
theorem Keeps.set_media_boot (s : State) (v0 : Media) (v1 : Boot) : Keeps [.media, .boot] s { s with media := v0, boot
    := v1 } :=
  ⟨fun f hf => by cases f <;> first | rfl | exact (hf (by decide)).elim, fun h => h, Nat.le_refl _⟩
theorem Keeps.set_pg_px (s : State) (v0 : Pages) (v1 : Prefix) : Keeps [.pg, .px] s { s with pg := v0, px := v1 } :=
  ⟨fun f hf => by cases f <;> first | rfl | exact (hf (by decide)).elim, fun h => h, Nat.le_refl _⟩
theorem Keeps.set_now_clk (s : State) (v0 : W64) (v1 : Clock) : Keeps [.now, .clk] s { s with now := v0, clk := v1 } :=
  ⟨fun f hf => by cases f <;> first | rfl | exact (hf (by decide)).elim, fun h => h, Nat.le_refl _⟩
theorem Keeps.set_pg_q (s : State) (v0 : Pages) (v1 : Queues) : Keeps [.pg, .q] s { s with pg := v0, q := v1 } :=
  ⟨fun f hf => by cases f <;> first | rfl | exact (hf (by decide)).elim, fun h => h, Nat.le_refl _⟩
theorem Keeps.set_boot_pwr (s : State) (v0 : Boot) (v1 : Power) : Keeps [.boot, .pwr] s { s with boot := v0, pwr := v1 } :=
  ⟨fun f hf => by cases f <;> first | rfl | exact (hf (by decide)).elim, fun h => h, Nat.le_refl _⟩
theorem Keeps.set_media_tm_lk (s : State) (v0 : Media) (v1 : Traffic) (v2 : Links) : Keeps [.media, .tm, .lk] s
    { s with media := v0, tm := v1, lk := v2 } :=
  ⟨fun f hf => by cases f <;> first | rfl | exact (hf (by decide)).elim, fun h => h, Nat.le_refl _⟩
theorem Keeps.set_media_q (s : State) (v0 : Media) (v1 : Queues) : Keeps [.media, .q] s { s with media := v0, q := v1 } :=
  ⟨fun f hf => by cases f <;> first | rfl | exact (hf (by decide)).elim, fun h => h, Nat.le_refl _⟩
theorem Keeps.set_pg_px_ix (s : State) (v0 : Pages) (v1 : Prefix) (v2 : Index) :
    Keeps [.pg, .px, .ix] s { s with pg := v0, px := v1, ix := v2 } :=
  ⟨fun f hf => by cases f <;> first | rfl | exact (hf (by decide)).elim, fun h => h, Nat.le_refl _⟩
theorem Keeps.set_cfg_blob_part (s : State) (v0 : Map Nat) (v1 : Map Bytes) (v2 : Parts) : Keeps [.cfg, .blob, .part] s
    { s with cfg := v0, blob := v1, part := v2 } :=
  ⟨fun f hf => by cases f <;> first | rfl | exact (hf (by decide)).elim, fun h => h, Nat.le_refl _⟩
theorem Keeps.set_px_part_boot_clk (s : State) (v0 : Prefix) (v1 : Parts) (v2 : Boot) (v3 : Clock)
    : Keeps [.px, .part, .boot, .clk] s { s with px := v0, part := v1, boot := v2, clk := v3 } :=
  ⟨fun f hf => by cases f <;> first | rfl | exact (hf (by decide)).elim, fun h => h, Nat.le_refl _⟩
theorem Keeps.set_pg_px_media_ev_ix (s : State) (v0 : Pages) (v1 : Prefix) (v2 : Media) (v3 : Events) (v4 : Index)
    : Keeps [.pg, .px, .media, .ev, .ix] s { s with pg := v0, px := v1, media := v2, ev := v3, ix := v4 } :=
  ⟨fun f hf => by cases f <;> first | rfl | exact (hf (by decide)).elim, fun h => h, Nat.le_refl _⟩

end Sys2Proof.Machine
end

