-- ==== Sys2Proof/Laws/KeepsOps.lean ====
section
/-! SUPPORT. Which parts of the state each operation can change: memory, the traffic manager, the operation table and management answers. -/

namespace Sys2Proof.Machine

/-! ### Memory -/

theorem State.hostWrite_keeps (s : State) (k a : Nat) (bs : Bytes) : Keeps [.mem] s (s.hostWrite k a bs) := by
  refine ⟨fun f hf => ?_, fun h => h.hostWrite k a bs, ?_⟩
  · unfold State.hostWrite
    split <;> (cases f <;> first | rfl | exact (hf (by decide)).elim)
  · unfold State.hostWrite
    split <;> exact Nat.le_refl _

theorem State.windowWrite_keeps (s : State) (p a : Nat) (bs : Bytes) : Keeps [.mem] s (s.windowWrite p a bs) :=
  ⟨fun f hf => by cases f <;> first | rfl | exact (hf (by decide)).elim, fun h => h.windowWrite p a bs, Nat.le_refl _⟩

/-! ### Ops -/

theorem State.bump_keeps (s : State) (ix : Nat) (sub : Nat) (n : Nat) : Keeps [.ctr] s (State.bump s ix sub n) := by
  unfold State.bump
  try dsimp -iota -proj only
  refine Keeps.step (Keeps.set_ctr ..) (by decide) ?_
  exact Keeps.refl

theorem State.takeFree_keeps (s : State) : Keeps [.free] s (State.takeFree s).2 := by
  unfold State.takeFree
  try dsimp -iota -proj only
  refine Keeps.mk2 ?_
  refine Keeps.step (Keeps.set_free ..) (by decide) ?_
  exact Keeps.refl
theorem State.takeFree_keeps_eq {s : State} {x0 zz} (hE : State.takeFree s = (x0, zz)) : Keeps [.free] s zz := by
  have h := State.takeFree_keeps s
  rw [hE] at h
  exact h

theorem State.touch_keeps (s : State) (k : MetaKey) : Keeps [.media] s (State.touch s k) := by
  unfold State.touch
  try dsimp -iota -proj only
  refine Keeps.step (Keeps.set_media ..) (by decide) ?_
  exact Keeps.refl

theorem State.logEvent_keeps (s : State) (kind : Nat) (sev : Nat) (cls : Nat) (a : EvArg) : Keeps [.ctr, .media, .ev] s
    (State.logEvent s kind sev cls a) := by
  unfold State.logEvent
  try dsimp -iota -proj only
  refine Keeps.step (State.bump_keeps ..) (by decide) ?_
  refine Keeps.ite ?_ ?_
  · refine Keeps.step (State.bump_keeps ..) (by decide) ?_
    refine Keeps.ite ?_ ?_
    · refine Keeps.step (State.touch_keeps ..) (by decide) ?_
      refine Keeps.step (Keeps.set_ev ..) (by decide) ?_
      exact Keeps.refl
    · refine Keeps.step (Keeps.set_ev ..) (by decide) ?_
      exact Keeps.refl
  · refine Keeps.ite ?_ ?_
    · refine Keeps.step (State.touch_keeps ..) (by decide) ?_
      refine Keeps.step (Keeps.set_ev ..) (by decide) ?_
      exact Keeps.refl
    · refine Keeps.step (Keeps.set_ev ..) (by decide) ?_
      exact Keeps.refl

theorem State.msix_keeps (s : State) (k : Nat) (fn : Nat) (vec : Nat) : Keeps [.out, .ctr, .q] s
    (State.msix s k fn vec) := by
  unfold State.msix
  try dsimp -iota -proj only
  refine Keeps.ite ?_ ?_
  · exact Keeps.refl
  · refine Keeps.ite ?_ ?_
    · refine Keeps.ite ?_ ?_
      · refine Keeps.step (Keeps.set_out ..) (by decide) ?_
        exact Keeps.refl
      · refine Keeps.step (State.bump_keeps ..) (by decide) ?_
        refine Keeps.step (Keeps.set_out ..) (by decide) ?_
        exact Keeps.refl
    · refine Keeps.ite ?_ ?_
      · exact Keeps.refl
      · refine Keeps.step (Keeps.set_q ..) (by decide) ?_
        exact Keeps.refl

theorem State.partVec_keeps (s : State) (p : Nat) (vec : Nat) : Keeps [.out, .ctr, .q] s (State.partVec s p vec) := by
  unfold State.partVec
  try dsimp -iota -proj only
  refine Keeps.ite ?_ ?_
  · exact Keeps.refl
  · refine Keeps.ite ?_ ?_
    · refine Keeps.step (State.msix_keeps ..) (by decide) ?_
      refine Keeps.ite ?_ ?_
      · refine Keeps.step (State.msix_keeps ..) (by decide) ?_
        exact Keeps.refl
      · exact Keeps.refl
    · refine Keeps.ite ?_ ?_
      · refine Keeps.step (State.msix_keeps ..) (by decide) ?_
        exact Keeps.refl
      · exact Keeps.refl

theorem State.pfVec_keeps (s : State) (vec : Nat) : Keeps [.out, .ctr, .q] s (State.pfVec s vec) := by
  unfold State.pfVec
  try dsimp -iota -proj only
  refine Keeps.step (State.msix_keeps ..) (by decide) ?_
  refine Keeps.step (State.msix_keeps ..) (by decide) ?_
  exact Keeps.refl

theorem State.eventAs_keeps (s : State) (kind : Nat) (cls : Nat) (a : EvArg) : Keeps [.out, .ctr, .media, .q, .ev] s
    (State.eventAs s kind cls a) := by
  unfold State.eventAs
  try dsimp -iota -proj only
  split
  · split
    · refine Keeps.ite ?_ ?_
      · refine Keeps.step (State.logEvent_keeps ..) (by decide) ?_
        exact Keeps.refl
      · refine Keeps.step (State.partVec_keeps ..) (by decide) ?_
        refine Keeps.step (State.logEvent_keeps ..) (by decide) ?_
        exact Keeps.refl
    · refine Keeps.step (State.pfVec_keeps ..) (by decide) ?_
      refine Keeps.step (State.logEvent_keeps ..) (by decide) ?_
      exact Keeps.refl

theorem State.event_keeps (s : State) (kind : Nat) (a : EvArg) : Keeps [.out, .ctr, .media, .q, .ev] s
    (State.event s kind a) := by
  unfold State.event
  try dsimp -iota -proj only
  refine Keeps.step (State.eventAs_keeps ..) (by decide) ?_
  exact Keeps.refl

theorem State.timeTo_keeps (s : State) (t : Nat) : Keeps [.up, .now] s (s.timeTo t) := by
  exact ⟨fun f hf => by cases f <;> first | rfl | exact (hf (by decide)).elim, fun h => h, Nat.le_max_left _ _⟩


theorem State.setBlob_keeps (s : State) (ix : Nat) (sub : Nat) (v : Sys2Proof.Bytes) : Keeps [.blob] s
    (State.setBlob s ix sub v) := by
  unfold State.setBlob
  try dsimp -iota -proj only
  refine Keeps.step (Keeps.set_blob ..) (by decide) ?_
  exact Keeps.refl

theorem State.setObj_keeps (s : State) (ix : Nat) (sub : Nat) (v : Nat) : Keeps [.cfg] s (State.setObj s ix sub v) := by
  unfold State.setObj
  try dsimp -iota -proj only
  refine Keeps.step (Keeps.set_cfg ..) (by decide) ?_
  exact Keeps.refl

/-! ### Traffic -/

theorem State.leafStat_keeps (s : State) (x : Nat) (sub : Nat) (c : Nat) (f : LeafStat → LeafStat) : Keeps [.tm] s
    (State.leafStat s x sub c f) := by
  unfold State.leafStat
  try dsimp -iota -proj only
  refine Keeps.step (Keeps.set_tm ..) (by decide) ?_
  exact Keeps.refl

theorem State.lossUnit_keeps (s : State) (sub : Nat) (n : Nat) : Keeps [.ctr] s (State.lossUnit s sub n) := by
  unfold State.lossUnit
  try dsimp -iota -proj only
  refine Keeps.ite ?_ ?_
  · refine Keeps.step (State.bump_keeps ..) (by decide) ?_
    refine Keeps.step (State.bump_keeps ..) (by decide) ?_
    exact Keeps.refl
  · refine Keeps.step (State.bump_keeps ..) (by decide) ?_
    exact Keeps.refl

theorem State.countDrop_keeps (s : State) (x : Nat) (sub : Nat) (c : Nat) (n : Nat) : Keeps [.ctr, .tm] s
    (State.countDrop s x sub c n) := by
  unfold State.countDrop
  try dsimp -iota -proj only
  refine Keeps.step (State.lossUnit_keeps ..) (by decide) ?_
  refine Keeps.step (State.leafStat_keeps ..) (by decide) ?_
  exact Keeps.refl

theorem State.setLeafQ_keeps (s : State) (sc : Nat) (sub : Nat) (c : Nat) (l : LeafQ) : Keeps [.tm] s
    (State.setLeafQ s sc sub c l) := by
  unfold State.setLeafQ
  try dsimp -iota -proj only
  refine Keeps.step (Keeps.set_tm ..) (by decide) ?_
  exact Keeps.refl

theorem State.queueUnit_keeps (s : State) (sc : Nat) (sub : Nat) (c : Nat) (u : TUnit) : Keeps [.tm] s
    (State.queueUnit s sc sub c u) := by
  unfold State.queueUnit
  try dsimp -iota -proj only
  refine Keeps.ite ?_ ?_
  · refine Keeps.step (State.leafStat_keeps ..) (by decide) ?_
    refine Keeps.step (State.setLeafQ_keeps ..) (by decide) ?_
    exact Keeps.refl
  · refine Keeps.step (State.leafStat_keeps ..) (by decide) ?_
    refine Keeps.step (State.setLeafQ_keeps ..) (by decide) ?_
    exact Keeps.refl

theorem State.place_keeps (s : State) (sc : Nat) (sub : Nat) (c : Nat) (u : TUnit) : Keeps [.ctr, .tm] s
    (State.place s sc sub c u).2 := by
  unfold State.place
  try dsimp -iota -proj only
  split
  · refine Keeps.mk2 ?_
    refine Keeps.step (State.countDrop_keeps ..) (by decide) ?_
    exact Keeps.refl
  · refine Keeps.mk2 ?_
    refine Keeps.step (State.queueUnit_keeps ..) (by decide) ?_
    exact Keeps.refl
theorem State.place_keeps_eq {s : State} {sc : Nat} {sub : Nat} {c : Nat} {u : TUnit} {x0 zz} (hE
    : State.place s sc sub c u = (x0, zz)) : Keeps [.ctr, .tm] s zz := by
  have h := State.place_keeps s sc sub c u
  rw [hE] at h
  exact h

theorem State.setRind_keeps (s : State) (g : Nat) (r : RindSeg) : Keeps [.tm] s (State.setRind s g r) := by
  unfold State.setRind
  try dsimp -iota -proj only
  refine Keeps.step (Keeps.set_tm ..) (by decide) ?_
  exact Keeps.refl

theorem State.rindPut_keeps (s : State) (g : Nat) (w : RindWork) : Keeps [.tm] s (State.rindPut s g w) := by
  unfold State.rindPut
  try dsimp -iota -proj only
  refine Keeps.ite ?_ ?_
  · refine Keeps.step (State.setRind_keeps ..) (by decide) ?_
    exact Keeps.refl
  · refine Keeps.step (State.setRind_keeps ..) (by decide) ?_
    exact Keeps.refl

theorem State.hbmUnits_keeps (s : State) (fid : Nat) (layer : Nat) (sub : Nat) (c : Nat) (colour : Nat) (n : Nat)
    : Keeps [.ctr, .tm] s (State.hbmUnits s fid layer sub c colour n) := by
  unfold State.hbmUnits
  try dsimp -iota -proj only
  refine Keeps.foldl (fun _ _ _ => ?_) ?_
  · refine Keeps.step (State.place_keeps ..) (by decide) ?_
    assumption
  · exact Keeps.refl

theorem State.send_keeps (s : State) (via : Bool) (sc : Nat) (sub : Nat) (c : Nat) (u : TUnit) : Keeps [.ctr, .tm] s
    (State.send s via sc sub c u).2 := by
  unfold State.send
  try dsimp -iota -proj only
  refine Keeps.iteBy (fun x : Bool × State => x.2) ?_ ?_ <;> try dsimp -iota -proj only
  · refine Keeps.step (State.place_keeps ..) (by decide) ?_
    exact Keeps.refl
  · split
    · refine Keeps.mk2 ?_
      refine Keeps.step (State.countDrop_keeps ..) (by decide) ?_
      exact Keeps.refl
    · refine Keeps.mk2 ?_
      refine Keeps.step (State.rindPut_keeps ..) (by decide) ?_
      exact Keeps.refl
theorem State.send_keeps_eq {s : State} {via : Bool} {sc : Nat} {sub : Nat} {c : Nat} {u : TUnit} {x0 zz} (hE
    : State.send s via sc sub c u = (x0, zz)) : Keeps [.ctr, .tm] s zz := by
  have h := State.send_keeps s via sc sub c u
  rw [hE] at h
  exact h

theorem State.meterItem_keeps (s : State) (p : Nat) (c : Nat) (len : Nat) (pre : Nat) (staging : Bool)
    : Keeps [.ctr, .tm] s (State.meterItem s p c len pre staging).2 := by
  unfold State.meterItem
  try dsimp -iota -proj only
  refine Keeps.iteBy (fun x : Nat × State => x.2) ?_ ?_ <;> try dsimp -iota -proj only
  · exact Keeps.refl
  · split
    · refine Keeps.mk2 ?_
      refine Keeps.ite ?_ ?_
      · refine Keeps.step (State.bump_keeps ..) (by decide) ?_
        refine Keeps.step (State.bump_keeps ..) (by decide) ?_
        refine Keeps.step (State.bump_keeps ..) (by decide) ?_
        refine Keeps.step (State.bump_keeps ..) (by decide) ?_
        refine Keeps.step (State.bump_keeps ..) (by decide) ?_
        refine Keeps.step (State.bump_keeps ..) (by decide) ?_
        refine Keeps.step (State.bump_keeps ..) (by decide) ?_
        refine Keeps.step (Keeps.set_tm ..) (by decide) ?_
        exact Keeps.refl
      · refine Keeps.step (State.bump_keeps ..) (by decide) ?_
        refine Keeps.step (State.bump_keeps ..) (by decide) ?_
        refine Keeps.step (Keeps.set_tm ..) (by decide) ?_
        exact Keeps.refl
theorem State.meterItem_keeps_eq {s : State} {p : Nat} {c : Nat} {len : Nat} {pre : Nat} {staging : Bool} {x0 zz} (hE
    : State.meterItem s p c len pre staging = (x0, zz)) : Keeps [.ctr, .tm] s zz := by
  have h := State.meterItem_keeps s p c len pre staging
  rw [hE] at h
  exact h

theorem State.settleTokens_keeps (s : State) (x : Nat) : Keeps [.tm] s (State.settleTokens s x) := by
  unfold State.settleTokens
  try dsimp -iota -proj only
  refine Keeps.step (Keeps.set_tm ..) (by decide) ?_
  exact Keeps.refl

theorem State.reRatio_keeps (s : State) (x : Nat) : Keeps [.out, .ctr, .media, .q, .tm, .ev] s (State.reRatio s x) := by
  unfold State.reRatio
  try dsimp -iota -proj only
  refine Keeps.ite ?_ ?_
  · exact Keeps.refl
  · refine Keeps.step (State.bump_keeps ..) (by decide) ?_
    refine Keeps.step (State.event_keeps ..) (by decide) ?_
    refine Keeps.foldl (fun _ _ _ => ?_) ?_
    · refine Keeps.step (State.event_keeps ..) (by decide) ?_
      assumption
    · refine Keeps.step (Keeps.set_tm ..) (by decide) ?_
      refine Keeps.step (State.settleTokens_keeps ..) (by decide) ?_
      exact Keeps.refl

theorem State.admitLeaf_keeps (s : State) (sc : Nat) (sub : Nat) (c : Nat) : Keeps [.tm] s (State.admitLeaf s sc sub c) := by
  unfold State.admitLeaf
  try dsimp -iota -proj only
  refine Keeps.ite ?_ ?_
  · exact Keeps.refl
  · refine Keeps.step (State.leafStat_keeps ..) (by decide) ?_
    refine Keeps.step (State.setLeafQ_keeps ..) (by decide) ?_
    exact Keeps.refl

theorem State.setDefs_keeps (s : State) (sc : Nat) (stage : Nat) (c : Nat) (n : Nat) (at_ : Nat) (ds
    : Sys2Proof.Map Nat) : Keeps [.tm] s (State.setDefs s sc stage c n at_ ds) := by
  unfold State.setDefs
  try dsimp -iota -proj only
  refine Keeps.step (Keeps.set_tm ..) (by decide) ?_
  exact Keeps.refl

theorem State.chooseStage_keeps_eq {s : State} {sc : Nat} {stage : Nat} {x0 x1 x2 x3 zz} (hE
    : State.chooseStage s sc stage = some (x0, x1, x2, x3, zz)) : Keeps [.tm] s zz := by
  unfold State.chooseStage at hE
  try dsimp -iota -proj only at hE
  split at hE
  · cases hE
  · split at hE
    · cases hE
    · cases hE
      refine Keeps.ite ?_ ?_
      · refine Keeps.step (State.setDefs_keeps ..) (by decide) ?_
        exact Keeps.refl
      · split
        · refine Keeps.step (State.setDefs_keeps ..) (by decide) ?_
          refine Keeps.step (State.setDefs_keeps ..) (by decide) ?_
          exact Keeps.refl
        · refine Keeps.step (State.setDefs_keeps ..) (by decide) ?_
          exact Keeps.refl

theorem State.chooseUnit_keeps_eq {s : State} {sc : Nat} {x0 x1 x2 x3 x4 zz} (hE : State.chooseUnit s sc = some
    (x0, x1, x2, x3, x4, zz)) : Keeps [.tm] s zz := by
  unfold State.chooseUnit at hE
  try dsimp -iota -proj only at hE
  obtain ⟨_, _, hE⟩ := List.exists_of_findSome?_eq_some hE
  obtain ⟨_, _, hE⟩ := Option.map_eq_some_iff.mp hE
  cases hE
  refine Keeps.step (State.chooseStage_keeps_eq (by assumption)) (by decide) ?_
  exact Keeps.refl

theorem State.countWaits_keeps (s : State) (sc : Nat) : Keeps [.ctr, .tm] s (State.countWaits s sc) := by
  unfold State.countWaits
  try dsimp -iota -proj only
  refine Keeps.ite ?_ ?_
  · exact Keeps.refl
  · split
    · refine Keeps.step (State.bump_keeps ..) (by decide) ?_
      refine Keeps.foldl (fun _ _ _ => ?_) ?_
      · refine Keeps.step (State.setLeafQ_keeps ..) (by decide) ?_
        assumption
      · exact Keeps.refl
    · refine Keeps.step (State.bump_keeps ..) (by decide) ?_
      refine Keeps.foldl (fun _ _ _ => ?_) ?_
      · refine Keeps.step (State.setLeafQ_keeps ..) (by decide) ?_
        assumption
      · exact Keeps.refl
    · refine Keeps.foldl (fun _ _ _ => ?_) ?_
      · refine Keeps.step (State.setLeafQ_keeps ..) (by decide) ?_
        assumption
      · exact Keeps.refl

theorem State.rindStep_keeps (s : State) (g : Nat) : Keeps [.tm] s (State.rindStep s g) := by
  unfold State.rindStep
  try dsimp -iota -proj only
  split
  · exact Keeps.refl
  · split
    · refine Keeps.step (State.queueUnit_keeps ..) (by decide) ?_
      split
      · refine Keeps.step (State.setRind_keeps ..) (by decide) ?_
        exact Keeps.refl
      · refine Keeps.step (State.setRind_keeps ..) (by decide) ?_
        exact Keeps.refl
    · split
      · refine Keeps.step (State.setRind_keeps ..) (by decide) ?_
        exact Keeps.refl
      · refine Keeps.step (State.setRind_keeps ..) (by decide) ?_
        exact Keeps.refl

theorem State.chargeLeaf_keeps (s : State) (sc : Nat) (sub : Nat) (c : Nat) (len : Nat) (b : Bool) : Keeps [.tm] s
    (State.chargeLeaf s sc sub c len b) := by
  unfold State.chargeLeaf
  try dsimp -iota -proj only
  refine Keeps.ite ?_ ?_
  · refine Keeps.step (State.setLeafQ_keeps ..) (by decide) ?_
    exact Keeps.refl
  · refine Keeps.step (Keeps.set_tm ..) (by decide) ?_
    refine Keeps.step (State.setLeafQ_keeps ..) (by decide) ?_
    exact Keeps.refl

theorem State.sendFrame_keeps (s : State) (n : Nat) (f : LFrame) (tag : Option Nat) : Keeps [.out, .ctr, .lk] s
    (State.sendFrame s n f tag) := by
  unfold State.sendFrame
  try dsimp -iota -proj only
  refine Keeps.step (State.bump_keeps ..) (by decide) ?_
  refine Keeps.step (State.bump_keeps ..) (by decide) ?_
  refine Keeps.step (Keeps.set_out_lk ..) (by decide) ?_
  exact Keeps.refl

theorem State.serve_keeps (s : State) (sc : Nat) (stage : Nat) (c : Nat) (sub : Nat) (u : TUnit) (b : Bool)
    : Keeps [.out, .ctr, .media, .tm, .lk] s (State.serve s sc stage c sub u b) := by
  unfold State.serve
  try dsimp -iota -proj only
  split
  · refine Keeps.step (Keeps.set_media ..) (by decide) ?_
    split
    · refine Keeps.step (State.sendFrame_keeps ..) (by decide) ?_
      refine Keeps.ite ?_ ?_
      · refine Keeps.step (State.bump_keeps ..) (by decide) ?_
        refine Keeps.step (State.bump_keeps ..) (by decide) ?_
        refine Keeps.step (State.bump_keeps ..) (by decide) ?_
        refine Keeps.step (State.leafStat_keeps ..) (by decide) ?_
        refine Keeps.step (State.setLeafQ_keeps ..) (by decide) ?_
        refine Keeps.step (State.chargeLeaf_keeps ..) (by decide) ?_
        exact Keeps.refl
      · refine Keeps.step (State.bump_keeps ..) (by decide) ?_
        refine Keeps.step (State.bump_keeps ..) (by decide) ?_
        refine Keeps.step (State.leafStat_keeps ..) (by decide) ?_
        refine Keeps.step (State.setLeafQ_keeps ..) (by decide) ?_
        refine Keeps.step (State.chargeLeaf_keeps ..) (by decide) ?_
        exact Keeps.refl
    · refine Keeps.ite ?_ ?_
      · refine Keeps.step (State.bump_keeps ..) (by decide) ?_
        refine Keeps.step (State.bump_keeps ..) (by decide) ?_
        refine Keeps.step (State.bump_keeps ..) (by decide) ?_
        refine Keeps.step (State.leafStat_keeps ..) (by decide) ?_
        refine Keeps.step (State.setLeafQ_keeps ..) (by decide) ?_
        refine Keeps.step (State.chargeLeaf_keeps ..) (by decide) ?_
        exact Keeps.refl
      · refine Keeps.step (State.bump_keeps ..) (by decide) ?_
        refine Keeps.step (State.bump_keeps ..) (by decide) ?_
        refine Keeps.step (State.leafStat_keeps ..) (by decide) ?_
        refine Keeps.step (State.setLeafQ_keeps ..) (by decide) ?_
        refine Keeps.step (State.chargeLeaf_keeps ..) (by decide) ?_
        exact Keeps.refl
  · split
    · refine Keeps.step (State.sendFrame_keeps ..) (by decide) ?_
      refine Keeps.ite ?_ ?_
      · refine Keeps.step (State.bump_keeps ..) (by decide) ?_
        refine Keeps.step (State.bump_keeps ..) (by decide) ?_
        refine Keeps.step (State.bump_keeps ..) (by decide) ?_
        refine Keeps.step (State.leafStat_keeps ..) (by decide) ?_
        refine Keeps.step (State.setLeafQ_keeps ..) (by decide) ?_
        refine Keeps.step (State.chargeLeaf_keeps ..) (by decide) ?_
        exact Keeps.refl
      · refine Keeps.step (State.bump_keeps ..) (by decide) ?_
        refine Keeps.step (State.bump_keeps ..) (by decide) ?_
        refine Keeps.step (State.leafStat_keeps ..) (by decide) ?_
        refine Keeps.step (State.setLeafQ_keeps ..) (by decide) ?_
        refine Keeps.step (State.chargeLeaf_keeps ..) (by decide) ?_
        exact Keeps.refl
    · refine Keeps.ite ?_ ?_
      · refine Keeps.step (State.bump_keeps ..) (by decide) ?_
        refine Keeps.step (State.bump_keeps ..) (by decide) ?_
        refine Keeps.step (State.bump_keeps ..) (by decide) ?_
        refine Keeps.step (State.leafStat_keeps ..) (by decide) ?_
        refine Keeps.step (State.setLeafQ_keeps ..) (by decide) ?_
        refine Keeps.step (State.chargeLeaf_keeps ..) (by decide) ?_
        exact Keeps.refl
      · refine Keeps.step (State.bump_keeps ..) (by decide) ?_
        refine Keeps.step (State.bump_keeps ..) (by decide) ?_
        refine Keeps.step (State.leafStat_keeps ..) (by decide) ?_
        refine Keeps.step (State.setLeafQ_keeps ..) (by decide) ?_
        refine Keeps.step (State.chargeLeaf_keeps ..) (by decide) ?_
        exact Keeps.refl

/-! ### Operands -/

theorem State.setOp_keeps (s : State) (t : Nat) (o : Op) : Keeps [.q] s (State.setOp s t o) := by
  unfold State.setOp
  try dsimp -iota -proj only
  refine Keeps.step (Keeps.set_q ..) (by decide) ?_
  exact Keeps.refl

theorem State.setQueue_keeps (s : State) (q : Nat) (v : Queue) : Keeps [.q] s (State.setQueue s q v) := by
  unfold State.setQueue
  try dsimp -iota -proj only
  refine Keeps.step (Keeps.set_q ..) (by decide) ?_
  exact Keeps.refl

theorem State.pcieVia_keeps (s : State) (via : Bool) (p : Nat) (k : Nat) (c : Nat) (colour : Nat) (dir : Nat) (n : Nat)
    : Keeps [.ctr, .tm] s (State.pcieVia s via p k c colour dir n) := by
  unfold State.pcieVia
  try dsimp -iota -proj only
  refine Keeps.foldl (fun _ _ _ => ?_) ?_
  · refine Keeps.step (State.send_keeps ..) (by decide) ?_
    assumption
  · exact Keeps.refl

theorem State.pcieUnits_keeps (s : State) (p : Nat) (k : Nat) (c : Nat) (colour : Nat) (dir : Nat) (n : Nat)
    : Keeps [.ctr, .tm] s (State.pcieUnits s p k c colour dir n) := by
  unfold State.pcieUnits
  try dsimp -iota -proj only
  refine Keeps.step (State.pcieVia_keeps ..) (by decide) ?_
  exact Keeps.refl

theorem State.writeVia_keeps (s : State) (via : Bool) (p : Nat) (k : Nat) (c : Nat) (colour : Nat) (tag : Option Nat)
    (a : Nat) (bs : Sys2Proof.Bytes) : Keeps [.ctr, .mem, .tm] s (State.writeVia s via p k c colour tag a bs).2.2 := by
  unfold State.writeVia
  try dsimp -iota -proj only
  split
  · refine Keeps.mk3 ?_
    refine Keeps.ite ?_ ?_
    · refine Keeps.step (State.hostWrite_keeps ..) (by decide) ?_
      exact Keeps.refl
    · exact Keeps.refl
  · refine Keeps.mk3 ?_
    refine Keeps.step (State.windowWrite_keeps ..) (by decide) ?_
    exact Keeps.refl
  · refine Keeps.mk3 ?_
    refine Keeps.foldlBy (fun x : Nat × Nat × Bool × State => x.2.2.2) (fun _ _ _ => ?_) ?_ <;> try dsimp -iota -proj only
    · split
      · refine Keeps.step (State.send_keeps_eq (by assumption)) (by decide) ?_
        assumption
    · exact Keeps.refl
theorem State.writeVia_keeps_eq {s : State} {via : Bool} {p : Nat} {k : Nat} {c : Nat} {colour : Nat} {tag : Option Nat}
    {a : Nat} {bs : Sys2Proof.Bytes} {x0 x1 zz} (hE : State.writeVia s via p k c colour tag a bs = (x0, x1, zz))
        : Keeps [.ctr, .mem, .tm] s zz := by
  have h := State.writeVia_keeps s via p k c colour tag a bs
  rw [hE] at h
  exact h

theorem State.writeAt_keeps (s : State) (p : Nat) (k : Nat) (c : Nat) (colour : Nat) (tag : Option Nat) (a : Nat) (bs
    : Sys2Proof.Bytes) : Keeps [.ctr, .mem, .tm] s (State.writeAt s p k c colour tag a bs).2.2 := by
  unfold State.writeAt
  try dsimp -iota -proj only
  refine Keeps.step (State.writeVia_keeps ..) (by decide) ?_
  exact Keeps.refl
theorem State.writeAt_keeps_eq {s : State} {p : Nat} {k : Nat} {c : Nat} {colour : Nat} {tag : Option Nat} {a : Nat}
    {bs : Sys2Proof.Bytes} {x0 x1 zz} (hE : State.writeAt s p k c colour tag a bs = (x0, x1, zz))
        : Keeps [.ctr, .mem, .tm] s zz := by
  have h := State.writeAt_keeps s p k c colour tag a bs
  rw [hE] at h
  exact h

/-! ### Ott -/

theorem State.completeSnaps_keeps (s : State) : Keeps [.out, .ctr, .media, .q, .ev] s (State.completeSnaps s) := by
  unfold State.completeSnaps
  try dsimp -iota -proj only
  refine Keeps.foldl (fun _ _ _ => ?_) ?_
  · refine Keeps.step (State.event_keeps ..) (by decide) ?_
    assumption
  · refine Keeps.step (Keeps.set_ev ..) (by decide) ?_
    exact Keeps.refl

theorem State.countEnd_keeps (s : State) (cmd : Option Cmd) (back : Bool) (p : Nat) (st : Nat) : Keeps [.ctr] s
    (State.countEnd s cmd back p st) := by
  unfold State.countEnd
  try dsimp -iota -proj only
  split
  · refine Keeps.step (State.bump_keeps ..) (by decide) ?_
    split
    · refine Keeps.step (State.bump_keeps ..) (by decide) ?_
      exact Keeps.refl
    · refine Keeps.step (State.bump_keeps ..) (by decide) ?_
      exact Keeps.refl
    · exact Keeps.refl
  · refine Keeps.step (State.bump_keeps ..) (by decide) ?_
    split
    · refine Keeps.step (State.bump_keeps ..) (by decide) ?_
      exact Keeps.refl
    · refine Keeps.step (State.bump_keeps ..) (by decide) ?_
      exact Keeps.refl
    · exact Keeps.refl
  · refine Keeps.step (State.bump_keeps ..) (by decide) ?_
    split
    · refine Keeps.step (State.bump_keeps ..) (by decide) ?_
      exact Keeps.refl
    · refine Keeps.step (State.bump_keeps ..) (by decide) ?_
      exact Keeps.refl
    · exact Keeps.refl
  · refine Keeps.step (State.bump_keeps ..) (by decide) ?_
    split
    · refine Keeps.step (State.bump_keeps ..) (by decide) ?_
      exact Keeps.refl
    · refine Keeps.step (State.bump_keeps ..) (by decide) ?_
      exact Keeps.refl
    · exact Keeps.refl
  · refine Keeps.step (State.bump_keeps ..) (by decide) ?_
    split
    · refine Keeps.step (State.bump_keeps ..) (by decide) ?_
      exact Keeps.refl
    · refine Keeps.step (State.bump_keeps ..) (by decide) ?_
      exact Keeps.refl
    · exact Keeps.refl
  · split
    · refine Keeps.step (State.bump_keeps ..) (by decide) ?_
      exact Keeps.refl
    · refine Keeps.step (State.bump_keeps ..) (by decide) ?_
      exact Keeps.refl
    · exact Keeps.refl

theorem State.putResetRecord_keeps (s : State) (p : Nat) (r : Sys2Proof.Bytes) : Keeps [.part] s
    (State.putResetRecord s p r) := by
  unfold State.putResetRecord
  try dsimp -iota -proj only
  refine Keeps.step (Keeps.set_part ..) (by decide) ?_
  exact Keeps.refl

theorem State.untag_keeps (s : State) (t : Nat) : Keeps [.media, .tm, .lk] s (State.untag s t) := by
  unfold State.untag
  try dsimp -iota -proj only
  refine Keeps.step (Keeps.set_media_tm_lk ..) (by decide) ?_
  exact Keeps.refl

theorem State.release_keeps (s : State) (t : Nat) : Keeps [.pg, .media, .q, .tm, .lk] s (State.release s t) := by
  unfold State.release
  try dsimp -iota -proj only
  split
  · exact Keeps.refl
  · refine Keeps.ite ?_ ?_
    · refine Keeps.step (State.setQueue_keeps ..) (by decide) ?_
      refine Keeps.step (Keeps.set_pg_q ..) (by decide) ?_
      refine Keeps.step (State.untag_keeps ..) (by decide) ?_
      exact Keeps.refl
    · refine Keeps.step (Keeps.set_pg_q ..) (by decide) ?_
      refine Keeps.step (State.untag_keeps ..) (by decide) ?_
      exact Keeps.refl

theorem State.queueMsg_keeps (s : State) (qn : Nat) : Keeps [.out, .ctr, .q] s (State.queueMsg s qn) := by
  unfold State.queueMsg
  try dsimp -iota -proj only
  refine Keeps.ite ?_ ?_
  · refine Keeps.step (State.setQueue_keeps ..) (by decide) ?_
    exact Keeps.refl
  · refine Keeps.step (State.msix_keeps ..) (by decide) ?_
    refine Keeps.step (State.setQueue_keeps ..) (by decide) ?_
    exact Keeps.refl

theorem State.queueEval_keeps (s : State) (qn : Nat) : Keeps [.out, .ctr, .q] s (State.queueEval s qn) := by
  unfold State.queueEval
  try dsimp -iota -proj only
  refine Keeps.ite ?_ ?_
  · refine Keeps.step (State.queueMsg_keeps ..) (by decide) ?_
    exact Keeps.refl
  · exact Keeps.refl

theorem State.queueVec_keeps (s : State) (qn : Nat) (now_ : Bool) : Keeps [.out, .ctr, .q] s (State.queueVec s qn now_) := by
  unfold State.queueVec
  try dsimp -iota -proj only
  refine Keeps.ite ?_ ?_
  · exact Keeps.refl
  · refine Keeps.step (State.queueEval_keeps ..) (by decide) ?_
    refine Keeps.step (State.setQueue_keeps ..) (by decide) ?_
    exact Keeps.refl

theorem State.writeRecord_keeps (s : State) (t : Nat) (o : Op) : Keeps [.out, .ctr, .q, .mem, .tm] s
    (State.writeRecord s t o) := by
  unfold State.writeRecord
  try dsimp -iota -proj only
  split
  · refine Keeps.step (State.queueVec_keeps ..) (by decide) ?_
    refine Keeps.step (State.bump_keeps ..) (by decide) ?_
    refine Keeps.step (State.bump_keeps ..) (by decide) ?_
    refine Keeps.step (State.setQueue_keeps ..) (by decide) ?_
    refine Keeps.step (State.writeAt_keeps_eq (by assumption)) (by decide) ?_
    refine Keeps.ite ?_ ?_
    · refine Keeps.step (State.pcieUnits_keeps ..) (by decide) ?_
      exact Keeps.refl
    · exact Keeps.refl

theorem State.endOp_keeps (s : State) (t : Nat) (status : Nat) (detail : Nat) (progress : Nat) (durable : Nat)
    : Keeps [.out, .ctr, .pg, .media, .q, .mem, .tm, .part, .ev, .lk] s
        (State.endOp s t status detail progress durable) := by
  unfold State.endOp
  try dsimp -iota -proj only
  split
  · exact Keeps.refl
  · refine Keeps.ite ?_ ?_
    · refine Keeps.step (State.release_keeps ..) (by decide) ?_
      refine Keeps.step (State.completeSnaps_keeps ..) (by decide) ?_
      refine Keeps.step (Keeps.set_ev ..) (by decide) ?_
      refine Keeps.step (State.countEnd_keeps ..) (by decide) ?_
      refine Keeps.step (State.setOp_keeps ..) (by decide) ?_
      exact Keeps.refl
    · refine Keeps.ite ?_ ?_
      · refine Keeps.step (State.release_keeps ..) (by decide) ?_
        refine Keeps.step (State.completeSnaps_keeps ..) (by decide) ?_
        refine Keeps.step (Keeps.set_ev ..) (by decide) ?_
        refine Keeps.step (State.countEnd_keeps ..) (by decide) ?_
        refine Keeps.step (State.setOp_keeps ..) (by decide) ?_
        exact Keeps.refl
      · refine Keeps.ite ?_ ?_
        · refine Keeps.step (State.release_keeps ..) (by decide) ?_
          refine Keeps.step (State.completeSnaps_keeps ..) (by decide) ?_
          refine Keeps.step (Keeps.set_ev ..) (by decide) ?_
          refine Keeps.step (State.putResetRecord_keeps ..) (by decide) ?_
          refine Keeps.step (State.countEnd_keeps ..) (by decide) ?_
          refine Keeps.step (State.setOp_keeps ..) (by decide) ?_
          exact Keeps.refl
        · refine Keeps.ite ?_ ?_
          · refine Keeps.step (State.release_keeps ..) (by decide) ?_
            refine Keeps.step (State.completeSnaps_keeps ..) (by decide) ?_
            refine Keeps.step (Keeps.set_ev ..) (by decide) ?_
            refine Keeps.step (State.writeRecord_keeps ..) (by decide) ?_
            refine Keeps.step (State.countEnd_keeps ..) (by decide) ?_
            refine Keeps.step (State.setOp_keeps ..) (by decide) ?_
            exact Keeps.refl
          · refine Keeps.step (State.bump_keeps ..) (by decide) ?_
            refine Keeps.step (State.setQueue_keeps ..) (by decide) ?_
            refine Keeps.step (State.setOp_keeps ..) (by decide) ?_
            refine Keeps.step (State.completeSnaps_keeps ..) (by decide) ?_
            refine Keeps.step (Keeps.set_ev ..) (by decide) ?_
            refine Keeps.step (State.countEnd_keeps ..) (by decide) ?_
            refine Keeps.step (State.setOp_keeps ..) (by decide) ?_
            exact Keeps.refl

theorem State.queueStopped_keeps (s : State) (qn : Nat) (reason : Nat) : Keeps [.out, .ctr, .media, .q, .ev] s
    (State.queueStopped s qn reason) := by
  unfold State.queueStopped
  try dsimp -iota -proj only
  refine Keeps.step (State.bump_keeps ..) (by decide) ?_
  refine Keeps.step (State.event_keeps ..) (by decide) ?_
  exact Keeps.refl

theorem State.flushQueue_keeps (s : State) (qn : Nat) (reason : Nat) : Keeps [.out, .ctr, .media, .q, .ev] s
    (State.flushQueue s qn reason) := by
  unfold State.flushQueue
  try dsimp -iota -proj only
  refine Keeps.ite ?_ ?_
  · refine Keeps.step (State.setQueue_keeps ..) (by decide) ?_
    refine Keeps.step (State.bump_keeps ..) (by decide) ?_
    refine Keeps.ite ?_ ?_
    · refine Keeps.step (State.queueStopped_keeps ..) (by decide) ?_
      exact Keeps.refl
    · exact Keeps.refl
  · exact Keeps.refl

theorem State.meterOp_keeps (s : State) (o : Op) : Keeps [.ctr, .tm] s (State.meterOp s o) := by
  unfold State.meterOp
  try dsimp -iota -proj only
  refine Keeps.step (State.meterItem_keeps ..) (by decide) ?_
  exact Keeps.refl

theorem State.queueCause_keeps (s : State) (qn : Nat) (cause : Nat) : Keeps [.out, .ctr, .media, .q, .ev] s
    (State.queueCause s qn cause) := by
  unfold State.queueCause
  try dsimp -iota -proj only
  refine Keeps.step (State.event_keeps ..) (by decide) ?_
  refine Keeps.step (State.setQueue_keeps ..) (by decide) ?_
  exact Keeps.refl

theorem State.finishOp_keeps (s : State) (t : Nat) (status : Nat) (detail : Nat) (progress : Nat) (durable : Nat) (acks
    : Nat) (slices : List DurWait) : Keeps [.out, .ctr, .pg, .media, .q, .mem, .tm, .part, .ev, .lk] s
        (State.finishOp s t status detail progress durable acks slices) := by
  unfold State.finishOp
  try dsimp -iota -proj only
  refine Keeps.ite ?_ ?_
  · refine Keeps.step (State.endOp_keeps ..) (by decide) ?_
    exact Keeps.refl
  · split
    · exact Keeps.refl
    · refine Keeps.step (State.setOp_keeps ..) (by decide) ?_
      exact Keeps.refl

theorem State.takeEntry_keeps_eq {s : State} {o : Op} {x0 zz} (hE : State.takeEntry s o = some (x0, zz))
    : Keeps [.free, .cfg, .ctr, .q] s zz := by
  unfold State.takeEntry at hE
  try dsimp -iota -proj only at hE
  split at hE
  · cases hE
  · split at hE
    · split at hE
      · cases hE
      · cases hE
        refine Keeps.ite ?_ ?_
        · refine Keeps.step (State.bump_keeps ..) (by decide) ?_
          refine Keeps.step (State.setObj_keeps ..) (by decide) ?_
          refine Keeps.step (Keeps.set_q ..) (by decide) ?_
          refine Keeps.step (State.takeFree_keeps_eq (by assumption)) (by decide) ?_
          exact Keeps.refl
        · refine Keeps.ite ?_ ?_
          · refine Keeps.step (State.bump_keeps ..) (by decide) ?_
            refine Keeps.step (State.setObj_keeps ..) (by decide) ?_
            refine Keeps.step (Keeps.set_q ..) (by decide) ?_
            refine Keeps.step (State.takeFree_keeps_eq (by assumption)) (by decide) ?_
            exact Keeps.refl
          · refine Keeps.step (State.setObj_keeps ..) (by decide) ?_
            refine Keeps.step (Keeps.set_q ..) (by decide) ?_
            refine Keeps.step (State.takeFree_keeps_eq (by assumption)) (by decide) ?_
            exact Keeps.refl

theorem State.fetchUnits_keeps (s : State) (p : Nat) (k : Nat) (c : Nat) (a : Nat) (n : Nat) : Keeps [.ctr, .tm] s
    (State.fetchUnits s p k c a n) := by
  unfold State.fetchUnits
  try dsimp -iota -proj only
  refine Keeps.ite ?_ ?_
  · refine Keeps.step (State.pcieUnits_keeps ..) (by decide) ?_
    exact Keeps.refl
  · exact Keeps.refl

theorem State.fetchOne_keeps (s : State) (qn : Nat)
    : Keeps [.free, .out, .cfg, .ctr, .pg, .media, .q, .mem, .tm, .part, .ev, .lk] s (State.fetchOne s qn).val := by
  unfold State.fetchOne
  try dsimp -iota -proj only
  split
  · refine Keeps.iteBy (fun x : Fetched => x.val) ?_ ?_ <;> try dsimp -iota -proj only
    · refine Keeps.got ?_
      refine Keeps.step (State.bump_keeps ..) (by decide) ?_
      refine Keeps.step (State.setQueue_keeps ..) (by decide) ?_
      refine Keeps.step (State.fetchUnits_keeps ..) (by decide) ?_
      exact Keeps.refl
    · split
      · split
        · refine Keeps.stalled ?_
          refine Keeps.step (State.setQueue_keeps ..) (by decide) ?_
          refine Keeps.ite ?_ ?_
          · exact Keeps.refl
          · refine Keeps.step (State.bump_keeps ..) (by decide) ?_
            refine Keeps.step (State.bump_keeps ..) (by decide) ?_
            exact Keeps.refl
        · split
          · refine Keeps.got ?_
            refine Keeps.step (State.endOp_keeps ..) (by decide) ?_
            refine Keeps.ite ?_ ?_
            · refine Keeps.step (State.fetchUnits_keeps ..) (by decide) ?_
              refine Keeps.step (State.bump_keeps ..) (by decide) ?_
              refine Keeps.step (State.setQueue_keeps ..) (by decide) ?_
              refine Keeps.step (State.takeEntry_keeps_eq (by assumption)) (by decide) ?_
              exact Keeps.refl
            · refine Keeps.step (State.fetchUnits_keeps ..) (by decide) ?_
              refine Keeps.step (State.fetchUnits_keeps ..) (by decide) ?_
              refine Keeps.step (State.bump_keeps ..) (by decide) ?_
              refine Keeps.step (State.setQueue_keeps ..) (by decide) ?_
              refine Keeps.step (State.takeEntry_keeps_eq (by assumption)) (by decide) ?_
              exact Keeps.refl
          · refine Keeps.got ?_
            refine Keeps.ite ?_ ?_
            · refine Keeps.step (State.fetchUnits_keeps ..) (by decide) ?_
              refine Keeps.step (State.bump_keeps ..) (by decide) ?_
              refine Keeps.step (State.setQueue_keeps ..) (by decide) ?_
              refine Keeps.step (State.takeEntry_keeps_eq (by assumption)) (by decide) ?_
              exact Keeps.refl
            · refine Keeps.step (State.fetchUnits_keeps ..) (by decide) ?_
              refine Keeps.step (State.fetchUnits_keeps ..) (by decide) ?_
              refine Keeps.step (State.bump_keeps ..) (by decide) ?_
              refine Keeps.step (State.setQueue_keeps ..) (by decide) ?_
              refine Keeps.step (State.takeEntry_keeps_eq (by assumption)) (by decide) ?_
              exact Keeps.refl

theorem State.rrPass_keeps (s : State) (qn : Nat) : Keeps [.q] s (State.rrPass s qn) := by
  unfold State.rrPass
  try dsimp -iota -proj only
  refine Keeps.step (Keeps.set_q ..) (by decide) ?_
  exact Keeps.refl

theorem State.settle_keeps (s : State) (t : Nat) : Keeps [.out, .ctr, .pg, .media, .q, .mem, .tm, .part, .ev, .lk] s
    (State.settle s t) := by
  unfold State.settle
  try dsimp -iota -proj only
  split
  · refine Keeps.ite ?_ ?_
    · refine Keeps.step (State.endOp_keeps ..) (by decide) ?_
      exact Keeps.refl
    · exact Keeps.refl
  · exact Keeps.refl

theorem State.ackOne_keeps (s : State) (t : Nat) : Keeps [.out, .ctr, .pg, .media, .q, .mem, .tm, .part, .ev, .lk] s
    (State.ackOne s t) := by
  unfold State.ackOne
  try dsimp -iota -proj only
  split
  · refine Keeps.step (State.settle_keeps ..) (by decide) ?_
    refine Keeps.step (State.setOp_keeps ..) (by decide) ?_
    exact Keeps.refl
  · exact Keeps.refl

theorem State.fetchBurst_keeps (s : State) (qn : Nat) (a2 : Nat)
    : Keeps [.free, .out, .cfg, .ctr, .pg, .media, .q, .mem, .tm, .part, .ev, .lk] s (State.fetchBurst s qn a2) := by
  unfold State.fetchBurst
  try dsimp -iota -proj only
  split
  · exact Keeps.refl
  · refine Keeps.ite ?_ ?_
    · split
      · first
        | refine Keeps.ofGot (by assumption) ?_
        | refine Keeps.ofStalled (by assumption) ?_
        refine Keeps.step (State.fetchOne_keeps ..) (by decide) ?_
        exact Keeps.refl
      · refine Keeps.step (State.fetchBurst_keeps ..) (by decide) ?_
        first
        | refine Keeps.ofGot (by assumption) ?_
        | refine Keeps.ofStalled (by assumption) ?_
        refine Keeps.step (State.fetchOne_keeps ..) (by decide) ?_
        exact Keeps.refl
    · exact Keeps.refl

/-! ### Zdp -/

theorem State.setBox_keeps (s : State) (k : Nat) (b : Mailbox) : Keeps [.dict] s (State.setBox s k b) := by
  unfold State.setBox
  try dsimp -iota -proj only
  refine Keeps.step (Keeps.set_dict ..) (by decide) ?_
  exact Keeps.refl

theorem State.dropSession_keeps (s : State) (ep : Sys2Proof.Endpoint) : Keeps [.dict] s (State.dropSession s ep) := by
  unfold State.dropSession
  try dsimp -iota -proj only
  refine Keeps.step (Keeps.set_dict ..) (by decide) ?_
  exact Keeps.refl

theorem State.resetBox_keeps (s : State) (ep : Sys2Proof.Endpoint) : Keeps [.dict] s (State.resetBox s ep) := by
  unfold State.resetBox
  try dsimp -iota -proj only
  split
  · refine Keeps.step (Keeps.set_dict ..) (by decide) ?_
    refine Keeps.step (State.dropSession_keeps ..) (by decide) ?_
    exact Keeps.refl
  · exact Keeps.refl

theorem State.zdpSend_keeps (s : State) (ep : Sys2Proof.Endpoint) (msg : Sys2Proof.Bytes)
    : Keeps [.out, .ctr, .tm, .dict] s (State.zdpSend s ep msg) := by
  unfold State.zdpSend
  try dsimp -iota -proj only
  split
  · refine Keeps.step (Keeps.set_out ..) (by decide) ?_
    refine Keeps.step (State.setBox_keeps ..) (by decide) ?_
    exact Keeps.refl
  · split
    · refine Keeps.step (State.place_keeps ..) (by decide) ?_
      exact Keeps.refl
    · refine Keeps.ite ?_ ?_
      · exact Keeps.refl
      · refine Keeps.step (Keeps.set_out ..) (by decide) ?_
        exact Keeps.refl

theorem State.abortSend_keeps (s : State) (ep : Sys2Proof.Endpoint) (svc : Nat) (tag : Nat) (ix : Nat) (sub : Nat)
    (code : Nat) : Keeps [.out, .ctr, .tm, .dict] s (State.abortSend s ep svc tag ix sub code) := by
  unfold State.abortSend
  try dsimp -iota -proj only
  refine Keeps.step (State.zdpSend_keeps ..) (by decide) ?_
  refine Keeps.step (State.bump_keeps ..) (by decide) ?_
  exact Keeps.refl

theorem State.abort_keeps (s : State) (ep : Sys2Proof.Endpoint) (svc : Nat) (tag : Nat) (ix : Nat) (sub : Nat) (code
    : Nat) : Keeps [.out, .ctr, .tm, .dict] s (State.abort s ep svc tag ix sub code) := by
  unfold State.abort
  try dsimp -iota -proj only
  refine Keeps.step (State.abortSend_keeps ..) (by decide) ?_
  refine Keeps.step (State.bump_keeps ..) (by decide) ?_
  exact Keeps.refl

theorem State.modSession_keeps (s : State) (ep : Sys2Proof.Endpoint) (f : Session → Session) : Keeps [.dict] s
    (State.modSession s ep f) := by
  unfold State.modSession
  try dsimp -iota -proj only
  refine Keeps.step (Keeps.set_dict ..) (by decide) ?_
  exact Keeps.refl

theorem State.endSession_keeps (s : State) (x : Session) : Keeps [.out, .ctr, .tm, .dict] s (State.endSession s x) := by
  unfold State.endSession
  try dsimp -iota -proj only
  split
  · refine Keeps.step (State.abortSend_keeps ..) (by decide) ?_
    refine Keeps.step (State.dropSession_keeps ..) (by decide) ?_
    exact Keeps.refl

theorem State.endSessions_keeps (s : State) (sel : Session → Bool) : Keeps [.out, .ctr, .tm, .dict] s
    (State.endSessions s sel) := by
  unfold State.endSessions
  try dsimp -iota -proj only
  refine Keeps.foldl (fun _ _ _ => ?_) ?_
  · refine Keeps.step (State.endSession_keeps ..) (by decide) ?_
    assumption
  · exact Keeps.refl

end Sys2Proof.Machine
end

