-- ==== Sys2Proof/Laws/KeepsMedia.lean ====
section
/-! SUPPORT. Which parts of the state each operation can change: the media, the tiers, pages and the prefix directory. -/

namespace Sys2Proof.Machine

/-! ### Flash -/

theorem State.discardAt_keeps (s : State) (loc : Nat) : Keeps [.ctr, .media] s (State.discardAt s loc) := by
  unfold State.discardAt
  try dsimp -iota -proj only
  refine Keeps.step (State.bump_keeps ..) (by decide) ?_
  refine Keeps.step (State.touch_keeps ..) (by decide) ?_
  refine Keeps.step (Keeps.set_media ..) (by decide) ?_
  exact Keeps.refl

theorem State.dirtyPage_keeps (s : State) (p : Nat) : Keeps [.media] s (State.dirtyPage s p) := by
  unfold State.dirtyPage
  try dsimp -iota -proj only
  refine Keeps.step (State.touch_keeps ..) (by decide) ?_
  exact Keeps.refl

theorem State.setMap_keeps (s : State) (slot : Nat) (layer : Nat) (e : Option MapEnt) : Keeps [.media] s
    (State.setMap s slot layer e) := by
  unfold State.setMap
  try dsimp -iota -proj only
  refine Keeps.step (State.dirtyPage_keeps ..) (by decide) ?_
  split
  · refine Keeps.step (Keeps.set_media ..) (by decide) ?_
    exact Keeps.refl
  · refine Keeps.step (Keeps.set_media ..) (by decide) ?_
    exact Keeps.refl

theorem State.discard_keeps (s : State) (slot : Nat) (layer : Nat) : Keeps [.ctr, .media] s
    (State.discard s slot layer) := by
  unfold State.discard
  try dsimp -iota -proj only
  split
  · exact Keeps.refl
  · refine Keeps.step (State.discardAt_keeps ..) (by decide) ?_
    refine Keeps.step (State.setMap_keeps ..) (by decide) ?_
    exact Keeps.refl

theorem State.dieUnit_keeps (s : State) (n : Nat) (sub : Nat) (op : DieOp) (colour : Nat) : Keeps [.ctr, .media, .tm] s
    (State.dieUnit s n sub op colour) := by
  unfold State.dieUnit
  try dsimp -iota -proj only
  split
  · refine Keeps.step (State.place_keeps_eq (by assumption)) (by decide) ?_
    exact Keeps.refl
  · refine Keeps.ite ?_ ?_
    · refine Keeps.step (Keeps.set_media ..) (by decide) ?_
      refine Keeps.step (State.place_keeps_eq (by assumption)) (by decide) ?_
      exact Keeps.refl
    · refine Keeps.step (State.place_keeps_eq (by assumption)) (by decide) ?_
      exact Keeps.refl

theorem State.setDie_keeps (s : State) (d : Nat) (v : Die) : Keeps [.media] s (State.setDie s d v) := by
  unfold State.setDie
  try dsimp -iota -proj only
  refine Keeps.step (Keeps.set_media ..) (by decide) ?_
  exact Keeps.refl

theorem State.erase_keeps (s : State) (n : Nat) (sb : Nat) : Keeps [.ctr, .media, .tm] s (State.erase s n sb) := by
  unfold State.erase
  try dsimp -iota -proj only
  refine Keeps.step (State.dieUnit_keeps ..) (by decide) ?_
  exact Keeps.refl

theorem State.readPages_keeps (s : State) (n : Nat) (colour : Nat) (op : DieOp) : Keeps [.ctr, .media, .tm] s
    (State.readPages s n colour op) := by
  unfold State.readPages
  try dsimp -iota -proj only
  refine Keeps.foldl (fun _ _ _ => ?_) ?_
  · refine Keeps.step (State.dieUnit_keeps ..) (by decide) ?_
    assumption
  · exact Keeps.refl

theorem State.moveRead_keeps (s : State) (loc : Nat) (r : Rec) : Keeps [.ctr, .media, .tm] s (State.moveRead s loc r) := by
  unfold State.moveRead
  try dsimp -iota -proj only
  refine Keeps.step (State.readPages_keeps ..) (by decide) ?_
  exact Keeps.refl

theorem State.relocate_keeps (s : State) (n : Nat) (sb : Nat) : Keeps [.ctr, .media, .tm] s (State.relocate s n sb) := by
  unfold State.relocate
  try dsimp -iota -proj only
  refine Keeps.foldl (fun _ _ _ => ?_) ?_
  · refine Keeps.step (State.moveRead_keeps ..) (by decide) ?_
    assumption
  · refine Keeps.foldl (fun _ _ _ => ?_) ?_
    · split
      · refine Keeps.step (State.moveRead_keeps ..) (by decide) ?_
        assumption
      · assumption
    · exact Keeps.refl

theorem State.collectDie_keeps (s : State) (n : Nat) : Keeps [.ctr, .media, .tm] s (State.collectDie s n) := by
  unfold State.collectDie
  try dsimp -iota -proj only
  refine Keeps.ite ?_ ?_
  · split
    · refine Keeps.ite ?_ ?_
      · refine Keeps.ite ?_ ?_
        · exact Keeps.refl
        · refine Keeps.step (State.erase_keeps ..) (by decide) ?_
          exact Keeps.refl
      · refine Keeps.ite ?_ ?_
        · exact Keeps.refl
        · refine Keeps.step (State.relocate_keeps ..) (by decide) ?_
          exact Keeps.refl
    · exact Keeps.refl
  · exact Keeps.refl

theorem State.levelDie_keeps (s : State) (n : Nat) : Keeps [.ctr, .media, .tm] s (State.levelDie s n) := by
  unfold State.levelDie
  try dsimp -iota -proj only
  split
  · refine Keeps.ite ?_ ?_
    · refine Keeps.step (State.bump_keeps ..) (by decide) ?_
      refine Keeps.step (State.relocate_keeps ..) (by decide) ?_
      exact Keeps.refl
    · exact Keeps.refl
  · exact Keeps.refl

theorem State.upkeep_keeps (s : State) (n : Nat) : Keeps [.ctr, .media, .tm] s (State.upkeep s n) := by
  unfold State.upkeep
  try dsimp -iota -proj only
  refine Keeps.step (State.levelDie_keeps ..) (by decide) ?_
  refine Keeps.step (State.collectDie_keeps ..) (by decide) ?_
  exact Keeps.refl

theorem State.program_keeps (s : State) (n : Nat) (op : DieOp) : Keeps [.ctr, .media, .tm] s (State.program s n op) := by
  unfold State.program
  try dsimp -iota -proj only
  split
  · refine Keeps.step (Keeps.set_media ..) (by decide) ?_
    exact Keeps.refl
  · refine Keeps.step (State.upkeep_keeps ..) (by decide) ?_
    refine Keeps.step (State.dieUnit_keeps ..) (by decide) ?_
    refine Keeps.step (Keeps.set_media ..) (by decide) ?_
    refine Keeps.step (State.setDie_keeps ..) (by decide) ?_
    exact Keeps.refl

theorem State.closePunnet_keeps (s : State) (key : Nat) : Keeps [.ctr, .media, .tm] s (State.closePunnet s key) := by
  unfold State.closePunnet
  try dsimp -iota -proj only
  split
  · exact Keeps.refl
  · split
    · exact Keeps.refl
    · refine Keeps.step (State.program_keeps ..) (by decide) ?_
      refine Keeps.step (State.bump_keeps ..) (by decide) ?_
      refine Keeps.step (Keeps.set_media ..) (by decide) ?_
      exact Keeps.refl

theorem State.addRec_keeps (s : State) (stream : Nat) (cls : Nat) (sub : Nat) (r : Rec) : Keeps [.ctr, .media, .tm] s
    (State.addRec s stream cls sub r) := by
  unfold State.addRec
  try dsimp -iota -proj only
  refine Keeps.ite ?_ ?_
  · refine Keeps.step (State.closePunnet_keeps ..) (by decide) ?_
    refine Keeps.ite ?_ ?_
    · refine Keeps.step (State.rindPut_keeps ..) (by decide) ?_
      refine Keeps.step (State.bump_keeps ..) (by decide) ?_
      refine Keeps.step (Keeps.set_media ..) (by decide) ?_
      split
      · refine Keeps.ite ?_ ?_
        · refine Keeps.step (Keeps.set_media ..) (by decide) ?_
          exact Keeps.refl
        · refine Keeps.step (State.closePunnet_keeps ..) (by decide) ?_
          refine Keeps.step (Keeps.set_media ..) (by decide) ?_
          exact Keeps.refl
      · refine Keeps.step (Keeps.set_media ..) (by decide) ?_
        exact Keeps.refl
    · refine Keeps.step (State.bump_keeps ..) (by decide) ?_
      refine Keeps.step (Keeps.set_media ..) (by decide) ?_
      split
      · refine Keeps.ite ?_ ?_
        · refine Keeps.step (Keeps.set_media ..) (by decide) ?_
          exact Keeps.refl
        · refine Keeps.step (State.closePunnet_keeps ..) (by decide) ?_
          refine Keeps.step (Keeps.set_media ..) (by decide) ?_
          exact Keeps.refl
      · refine Keeps.step (Keeps.set_media ..) (by decide) ?_
        exact Keeps.refl
  · refine Keeps.ite ?_ ?_
    · refine Keeps.step (State.rindPut_keeps ..) (by decide) ?_
      refine Keeps.step (State.bump_keeps ..) (by decide) ?_
      refine Keeps.step (Keeps.set_media ..) (by decide) ?_
      split
      · refine Keeps.ite ?_ ?_
        · refine Keeps.step (Keeps.set_media ..) (by decide) ?_
          exact Keeps.refl
        · refine Keeps.step (State.closePunnet_keeps ..) (by decide) ?_
          refine Keeps.step (Keeps.set_media ..) (by decide) ?_
          exact Keeps.refl
      · refine Keeps.step (Keeps.set_media ..) (by decide) ?_
        exact Keeps.refl
    · refine Keeps.step (State.bump_keeps ..) (by decide) ?_
      refine Keeps.step (Keeps.set_media ..) (by decide) ?_
      split
      · refine Keeps.ite ?_ ?_
        · refine Keeps.step (Keeps.set_media ..) (by decide) ?_
          exact Keeps.refl
        · refine Keeps.step (State.closePunnet_keeps ..) (by decide) ?_
          refine Keeps.step (Keeps.set_media ..) (by decide) ?_
          exact Keeps.refl
      · refine Keeps.step (Keeps.set_media ..) (by decide) ?_
        exact Keeps.refl

theorem State.setCache_keeps (s : State) (h : Nat) (c : CacheSlot) : Keeps [.media] s (State.setCache s h c) := by
  unfold State.setCache
  try dsimp -iota -proj only
  refine Keeps.step (Keeps.set_media ..) (by decide) ?_
  exact Keeps.refl

theorem State.mapLookup_keeps (s : State) (p : Nat) (cls : Nat) (sub : Nat) : Keeps [.ctr, .media, .tm] s
    (State.mapLookup s p cls sub).2 := by
  unfold State.mapLookup
  try dsimp -iota -proj only
  split
  · refine Keeps.iteBy (fun x : Bool × State => x.2) ?_ ?_ <;> try dsimp -iota -proj only
    · exact Keeps.refl
    · refine Keeps.iteBy (fun x : Bool × State => x.2) ?_ ?_ <;> try dsimp -iota -proj only
      · refine Keeps.mk2 ?_
        refine Keeps.step (State.setCache_keeps ..) (by decide) ?_
        exact Keeps.refl
      · refine Keeps.mk2 ?_
        refine Keeps.step (State.bump_keeps ..) (by decide) ?_
        refine Keeps.step (State.setCache_keeps ..) (by decide) ?_
        exact Keeps.refl
  · split
    · refine Keeps.mk2 ?_
      refine Keeps.step (Keeps.set_media ..) (by decide) ?_
      exact Keeps.refl
    · split
      · refine Keeps.mk2 ?_
        refine Keeps.step (State.setCache_keeps ..) (by decide) ?_
        refine Keeps.ite ?_ ?_
        · refine Keeps.step (State.bump_keeps ..) (by decide) ?_
          refine Keeps.step (State.bump_keeps ..) (by decide) ?_
          refine Keeps.step (Keeps.set_media ..) (by decide) ?_
          exact Keeps.refl
        · refine Keeps.step (State.bump_keeps ..) (by decide) ?_
          refine Keeps.step (Keeps.set_media ..) (by decide) ?_
          exact Keeps.refl
      · refine Keeps.mk2 ?_
        refine Keeps.step (State.dieUnit_keeps ..) (by decide) ?_
        refine Keeps.step (State.setCache_keeps ..) (by decide) ?_
        refine Keeps.ite ?_ ?_
        · refine Keeps.step (State.bump_keeps ..) (by decide) ?_
          refine Keeps.step (State.bump_keeps ..) (by decide) ?_
          refine Keeps.step (Keeps.set_media ..) (by decide) ?_
          exact Keeps.refl
        · refine Keeps.step (State.bump_keeps ..) (by decide) ?_
          refine Keeps.step (Keeps.set_media ..) (by decide) ?_
          exact Keeps.refl
theorem State.mapLookup_keeps_eq {s : State} {p : Nat} {cls : Nat} {sub : Nat} {x0 zz} (hE
    : State.mapLookup s p cls sub = (x0, zz)) : Keeps [.ctr, .media, .tm] s zz := by
  have h := State.mapLookup_keeps s p cls sub
  rw [hE] at h
  exact h

theorem State.issueRead_keeps (s : State) (t : Option Nat) (sub : Nat) (cls : Nat) (colour : Nat) (fid : Nat) (slot
    : Nat) (layer : Nat) : Keeps [.ctr, .media, .q, .tm] s (State.issueRead s t sub cls colour fid slot layer).2 := by
  unfold State.issueRead
  try dsimp -iota -proj only
  split
  · refine Keeps.iteBy (fun x : Bool × State => x.2) ?_ ?_ <;> try dsimp -iota -proj only
    · refine Keeps.mk2 ?_
      refine Keeps.step (Keeps.set_media ..) (by decide) ?_
      refine Keeps.step (State.mapLookup_keeps_eq (by assumption)) (by decide) ?_
      exact Keeps.refl
    · refine Keeps.step (State.mapLookup_keeps_eq (by assumption)) (by decide) ?_
      exact Keeps.refl
  · split
    · refine Keeps.step (State.mapLookup_keeps_eq (by assumption)) (by decide) ?_
      exact Keeps.refl
    · refine Keeps.mk2 ?_
      split
      · split
        · refine Keeps.step (State.countDrop_keeps ..) (by decide) ?_
          refine Keeps.step (State.mapLookup_keeps_eq (by assumption)) (by decide) ?_
          exact Keeps.refl
        · split
          · refine Keeps.step (State.setOp_keeps ..) (by decide) ?_
            refine Keeps.step (State.countDrop_keeps ..) (by decide) ?_
            refine Keeps.step (State.mapLookup_keeps_eq (by assumption)) (by decide) ?_
            exact Keeps.refl
          · refine Keeps.step (State.countDrop_keeps ..) (by decide) ?_
            refine Keeps.step (State.mapLookup_keeps_eq (by assumption)) (by decide) ?_
            exact Keeps.refl
      · split
        · refine Keeps.step (State.readPages_keeps ..) (by decide) ?_
          refine Keeps.step (State.mapLookup_keeps_eq (by assumption)) (by decide) ?_
          exact Keeps.refl
        · split
          · refine Keeps.step (State.setOp_keeps ..) (by decide) ?_
            refine Keeps.step (State.readPages_keeps ..) (by decide) ?_
            refine Keeps.step (State.mapLookup_keeps_eq (by assumption)) (by decide) ?_
            exact Keeps.refl
          · refine Keeps.step (State.readPages_keeps ..) (by decide) ?_
            refine Keeps.step (State.mapLookup_keeps_eq (by assumption)) (by decide) ?_
            exact Keeps.refl
theorem State.issueRead_keeps_eq {s : State} {t : Option Nat} {sub : Nat} {cls : Nat} {colour : Nat} {fid : Nat} {slot
    : Nat} {layer : Nat} {x0 zz} (hE : State.issueRead s t sub cls colour fid slot layer = (x0, zz))
        : Keeps [.ctr, .media, .q, .tm] s zz := by
  have h := State.issueRead_keeps s t sub cls colour fid slot layer
  rw [hE] at h
  exact h

theorem State.reprogram_keeps (s : State) (op : DieOp) : Keeps [.ctr, .media, .tm] s (State.reprogram s op) := by
  unfold State.reprogram
  try dsimp -iota -proj only
  split
  · refine Keeps.ite ?_ ?_
    · refine Keeps.step (State.dieUnit_keeps ..) (by decide) ?_
      exact Keeps.refl
    · exact Keeps.refl
  · split
    · refine Keeps.step (State.program_keeps ..) (by decide) ?_
      exact Keeps.refl
    · refine Keeps.step (Keeps.set_media ..) (by decide) ?_
      exact Keeps.refl

theorem State.closeMeta_keeps (s : State) : Keeps [.ctr, .media, .tm] s (State.closeMeta s) := by
  unfold State.closeMeta
  try dsimp -iota -proj only
  refine Keeps.ite ?_ ?_
  · exact Keeps.refl
  · split
    · split
      · exact Keeps.refl
      · split
        · refine Keeps.step (State.program_keeps ..) (by decide) ?_
          refine Keeps.step (State.program_keeps ..) (by decide) ?_
          refine Keeps.step (State.bump_keeps ..) (by decide) ?_
          refine Keeps.step (Keeps.set_media ..) (by decide) ?_
          exact Keeps.refl
        · exact Keeps.refl

theorem State.closeAllMeta_keeps (s : State) (a1 : Nat) : Keeps [.ctr, .media, .tm] s (State.closeAllMeta s a1) := by
  unfold State.closeAllMeta
  try dsimp -iota -proj only
  split
  · exact Keeps.refl
  · refine Keeps.ite ?_ ?_
    · exact Keeps.refl
    · refine Keeps.step (State.closeAllMeta_keeps ..) (by decide) ?_
      refine Keeps.step (State.closeMeta_keeps ..) (by decide) ?_
      exact Keeps.refl

theorem State.countRead_keeps (s : State) (n : Nat) (sb : Nat) : Keeps [.ctr, .media, .tm] s (State.countRead s n sb) := by
  unfold State.countRead
  try dsimp -iota -proj only
  split
  · exact Keeps.refl
  · refine Keeps.ite ?_ ?_
    · refine Keeps.step (State.bump_keeps ..) (by decide) ?_
      refine Keeps.step (State.relocate_keeps ..) (by decide) ?_
      refine Keeps.step (State.setDie_keeps ..) (by decide) ?_
      exact Keeps.refl
    · refine Keeps.step (State.setDie_keeps ..) (by decide) ?_
      exact Keeps.refl

theorem State.kickDie_keeps (s : State) (n : Nat) : Keeps [.ctr, .media] s (State.kickDie s n) := by
  unfold State.kickDie
  try dsimp -iota -proj only
  split
  · split
    · refine Keeps.step (State.setDie_keeps ..) (by decide) ?_
      exact Keeps.refl
    · refine Keeps.step (State.bump_keeps ..) (by decide) ?_
      refine Keeps.step (State.bump_keeps ..) (by decide) ?_
      refine Keeps.step (State.setDie_keeps ..) (by decide) ?_
      exact Keeps.refl

theorem State.retire_keeps (s : State) (n : Nat) (sb : Nat) : Keeps [.ctr, .media, .tm] s (State.retire s n sb) := by
  unfold State.retire
  try dsimp -iota -proj only
  refine Keeps.ite ?_ ?_
  · exact Keeps.refl
  · refine Keeps.step (State.upkeep_keeps ..) (by decide) ?_
    refine Keeps.step (State.bump_keeps ..) (by decide) ?_
    refine Keeps.step (State.bump_keeps ..) (by decide) ?_
    refine Keeps.step (State.touch_keeps ..) (by decide) ?_
    refine Keeps.step (State.setDie_keeps ..) (by decide) ?_
    refine Keeps.step (State.relocate_keeps ..) (by decide) ?_
    exact Keeps.refl

theorem State.retryPrograms_keeps (s : State) : Keeps [.ctr, .media, .tm] s (State.retryPrograms s) := by
  unfold State.retryPrograms
  try dsimp -iota -proj only
  refine Keeps.ite ?_ ?_
  · exact Keeps.refl
  · refine Keeps.foldl (fun _ _ _ => ?_) ?_
    · refine Keeps.step (State.reprogram_keeps ..) (by decide) ?_
      assumption
    · refine Keeps.step (Keeps.set_media ..) (by decide) ?_
      exact Keeps.refl

/-! ### Tiers -/

theorem State.leaseEvent_keeps (s : State) (k : Nat) (change : Nat) (bytes : Nat)
    : Keeps [.out, .ctr, .media, .q, .ev] s (State.leaseEvent s k change bytes) := by
  unfold State.leaseEvent
  try dsimp -iota -proj only
  refine Keeps.step (State.event_keeps ..) (by decide) ?_
  exact Keeps.refl

theorem State.lossBump_keeps (s : State) (p : Nat) (sub : Nat) (n : Nat) : Keeps [.ctr] s (State.lossBump s p sub n) := by
  unfold State.lossBump
  try dsimp -iota -proj only
  refine Keeps.step (State.bump_keeps ..) (by decide) ?_
  refine Keeps.step (State.bump_keeps ..) (by decide) ?_
  exact Keeps.refl

theorem State.modFrame_keeps (s : State) (fid : Nat) (g : Frame → Frame) : Keeps [.pg] s (State.modFrame s fid g) := by
  unfold State.modFrame
  try dsimp -iota -proj only
  refine Keeps.step (Keeps.set_pg ..) (by decide) ?_
  exact Keeps.refl

theorem State.modSlice_keeps (s : State) (fid : Nat) (layer : Nat) (g : Slice → Slice) : Keeps [.pg] s
    (State.modSlice s fid layer g) := by
  unfold State.modSlice
  try dsimp -iota -proj only
  refine Keeps.step (State.modFrame_keeps ..) (by decide) ?_
  exact Keeps.refl

theorem State.dropSlice_keeps (s : State) (fid : Nat) (layer : Nat) (cause : Nat) : Keeps [.ctr, .pg, .tier, .media] s
    (State.dropSlice s fid layer cause) := by
  unfold State.dropSlice
  try dsimp -iota -proj only
  split
  · exact Keeps.refl
  · refine Keeps.ite ?_ ?_
    · exact Keeps.refl
    · refine Keeps.step (State.lossBump_keeps ..) (by decide) ?_
      refine Keeps.step (State.bump_keeps ..) (by decide) ?_
      refine Keeps.step (State.bump_keeps ..) (by decide) ?_
      refine Keeps.step (State.touch_keeps ..) (by decide) ?_
      refine Keeps.step (State.modSlice_keeps ..) (by decide) ?_
      refine Keeps.step (Keeps.set_tier ..) (by decide) ?_
      refine Keeps.step (State.discard_keeps ..) (by decide) ?_
      exact Keeps.refl

theorem State.leaseWrite_keeps (s : State) (k : Nat) (off : Nat) (sub : Nat) (bs : Sys2Proof.Bytes)
    : Keeps [.ctr, .tm] s (State.leaseWrite s k off sub bs) := by
  unfold State.leaseWrite
  try dsimp -iota -proj only
  split
  · exact Keeps.refl
  · split
    · exact Keeps.refl
    · refine Keeps.foldlBy (fun x : Nat × State => x.2) (fun _ _ _ => ?_) ?_ <;> try dsimp -iota -proj only
      · refine Keeps.mk2 ?_
        refine Keeps.step (State.place_keeps ..) (by decide) ?_
        assumption
      · exact Keeps.refl

theorem State.condemnMark_keeps (s : State) (fid : Nat) (layer : Nat) (x : Nat) : Keeps [.pg] s
    (State.condemnMark s fid layer x) := by
  unfold State.condemnMark
  try dsimp -iota -proj only
  refine Keeps.step (State.modSlice_keeps ..) (by decide) ?_
  exact Keeps.refl

theorem State.setPressure_keeps (s : State) (x : Nat) (b : Bool) : Keeps [.tier] s (State.setPressure s x b) := by
  unfold State.setPressure
  try dsimp -iota -proj only
  split
  · refine Keeps.step (Keeps.set_tier ..) (by decide) ?_
    exact Keeps.refl
  · refine Keeps.step (Keeps.set_tier ..) (by decide) ?_
    exact Keeps.refl
  · refine Keeps.step (Keeps.set_tier ..) (by decide) ?_
    exact Keeps.refl

theorem State.makeRoom2_keeps (s : State) : Keeps [.pg, .tier] s (State.makeRoom2 s) := by
  unfold State.makeRoom2
  try dsimp -iota -proj only
  refine Keeps.ite ?_ ?_
  · refine Keeps.foldl (fun _ _ _ => ?_) ?_
    · refine Keeps.step (State.condemnMark_keeps ..) (by decide) ?_
      assumption
    · refine Keeps.step (State.setPressure_keeps ..) (by decide) ?_
      exact Keeps.refl
  · exact Keeps.refl

theorem State.writeBack_keeps (s : State) (w : WriteBack) : Keeps [.free, .ctr, .pg, .tier, .media, .tm] s
    (State.writeBack s w) := by
  unfold State.writeBack
  try dsimp -iota -proj only
  split
  · exact Keeps.refl
  · refine Keeps.ite ?_ ?_
    · refine Keeps.step (State.hbmUnits_keeps ..) (by decide) ?_
      refine Keeps.step (Keeps.set_tier ..) (by decide) ?_
      exact Keeps.refl
    · split
      · refine Keeps.step (State.leaseWrite_keeps ..) (by decide) ?_
        refine Keeps.step (Keeps.set_tier ..) (by decide) ?_
        refine Keeps.step (State.modSlice_keeps ..) (by decide) ?_
        refine Keeps.step (Keeps.set_free ..) (by decide) ?_
        refine Keeps.ite ?_ ?_
        · refine Keeps.step (State.hbmUnits_keeps ..) (by decide) ?_
          exact Keeps.refl
        · exact Keeps.refl
      · refine Keeps.ite ?_ ?_
        · refine Keeps.ite ?_ ?_
          · refine Keeps.step (State.hbmUnits_keeps ..) (by decide) ?_
            exact Keeps.refl
          · exact Keeps.refl
        · split
          · refine Keeps.ite ?_ ?_
            · refine Keeps.step (State.hbmUnits_keeps ..) (by decide) ?_
              exact Keeps.refl
            · exact Keeps.refl
          · refine Keeps.ite ?_ ?_
            · refine Keeps.step (State.addRec_keeps ..) (by decide) ?_
              refine Keeps.step (Keeps.set_tier ..) (by decide) ?_
              refine Keeps.ite ?_ ?_
              · refine Keeps.step (State.bump_keeps ..) (by decide) ?_
                refine Keeps.step (State.makeRoom2_keeps ..) (by decide) ?_
                refine Keeps.ite ?_ ?_
                · refine Keeps.step (State.hbmUnits_keeps ..) (by decide) ?_
                  exact Keeps.refl
                · exact Keeps.refl
              · refine Keeps.step (State.makeRoom2_keeps ..) (by decide) ?_
                refine Keeps.ite ?_ ?_
                · refine Keeps.step (State.hbmUnits_keeps ..) (by decide) ?_
                  exact Keeps.refl
                · exact Keeps.refl
            · refine Keeps.step (Keeps.set_tier ..) (by decide) ?_
              refine Keeps.step (State.makeRoom2_keeps ..) (by decide) ?_
              refine Keeps.ite ?_ ?_
              · refine Keeps.step (State.hbmUnits_keeps ..) (by decide) ?_
                exact Keeps.refl
              · exact Keeps.refl

theorem State.startWriteBack_keeps (s : State) (fid : Nat) (layer : Nat) (toT1 : Bool) (demote : Bool)
    : Keeps [.free, .ctr, .pg, .tier, .media, .tm] s (State.startWriteBack s fid layer toT1 demote) := by
  unfold State.startWriteBack
  try dsimp -iota -proj only
  refine Keeps.ite ?_ ?_
  · refine Keeps.step (Keeps.set_tier ..) (by decide) ?_
    exact Keeps.refl
  · refine Keeps.step (State.writeBack_keeps ..) (by decide) ?_
    exact Keeps.refl

theorem State.freePips_keeps (s : State) (sel : Pip → Bool) : Keeps [.ctr, .media, .ix] s (State.freePips s sel) := by
  unfold State.freePips
  try dsimp -iota -proj only
  refine Keeps.ite ?_ ?_
  · exact Keeps.refl
  · refine Keeps.step (State.bump_keeps ..) (by decide) ?_
    refine Keeps.foldl (fun _ _ _ => ?_) ?_
    · refine Keeps.step (State.touch_keeps ..) (by decide) ?_
      assumption
    · refine Keeps.step (Keeps.set_ix ..) (by decide) ?_
      exact Keeps.refl

theorem State.freeFrame_keeps (s : State) (fid : Nat) : Keeps [.ctr, .pg, .px, .tier, .media, .ix] s
    (State.freeFrame s fid) := by
  unfold State.freeFrame
  try dsimp -iota -proj only
  split
  · exact Keeps.refl
  · refine Keeps.step (State.bump_keeps ..) (by decide) ?_
    refine Keeps.step (State.freePips_keeps ..) (by decide) ?_
    refine Keeps.ite ?_ ?_
    · refine Keeps.step (State.touch_keeps ..) (by decide) ?_
      refine Keeps.step (State.touch_keeps ..) (by decide) ?_
      refine Keeps.step (Keeps.set_tier ..) (by decide) ?_
      refine Keeps.step (Keeps.set_pg_px_ix ..) (by decide) ?_
      refine Keeps.foldl (fun _ _ _ => ?_) ?_
      · refine Keeps.step (State.discard_keeps ..) (by decide) ?_
        assumption
      · exact Keeps.refl
    · refine Keeps.step (State.touch_keeps ..) (by decide) ?_
      refine Keeps.step (Keeps.set_tier ..) (by decide) ?_
      refine Keeps.step (Keeps.set_pg_px_ix ..) (by decide) ?_
      refine Keeps.foldl (fun _ _ _ => ?_) ?_
      · refine Keeps.step (State.discard_keeps ..) (by decide) ?_
        assumption
      · exact Keeps.refl

theorem State.setFrame_keeps (s : State) (fid : Nat) (f : Frame) : Keeps [.pg] s (State.setFrame s fid f) := by
  unfold State.setFrame
  try dsimp -iota -proj only
  refine Keeps.step (Keeps.set_pg ..) (by decide) ?_
  exact Keeps.refl

theorem State.pin_keeps (s : State) (fid : Nat) (layer : Nat) (write : Bool) : Keeps [.ctr, .pg] s
    (State.pin s fid layer write) := by
  unfold State.pin
  try dsimp -iota -proj only
  split
  · exact Keeps.refl
  · refine Keeps.ite ?_ ?_
    · refine Keeps.step (State.modSlice_keeps ..) (by decide) ?_
      exact Keeps.refl
    · refine Keeps.ite ?_ ?_
      · refine Keeps.step (State.lossBump_keeps ..) (by decide) ?_
        refine Keeps.step (State.bump_keeps ..) (by decide) ?_
        refine Keeps.step (State.modSlice_keeps ..) (by decide) ?_
        refine Keeps.step (State.modSlice_keeps ..) (by decide) ?_
        exact Keeps.refl
      · refine Keeps.ite ?_ ?_
        · refine Keeps.step (State.bump_keeps ..) (by decide) ?_
          refine Keeps.step (State.modSlice_keeps ..) (by decide) ?_
          refine Keeps.step (State.modSlice_keeps ..) (by decide) ?_
          exact Keeps.refl
        · refine Keeps.step (State.modSlice_keeps ..) (by decide) ?_
          exact Keeps.refl

theorem State.sendLend_keeps (s : State) (x : Nat) (kind : Nat) (id : Nat) (term : Nat) (notice : Nat) (bytes : Nat)
    : Keeps [.ctr, .tm] s (State.sendLend s x kind id term notice bytes) := by
  unfold State.sendLend
  try dsimp -iota -proj only
  refine Keeps.step (State.place_keeps ..) (by decide) ?_
  exact Keeps.refl

theorem State.revokeLent_keeps (s : State) (b : Nat) (le : Lent) : Keeps [.out, .ctr, .media, .q, .tm, .ev, .lk] s
    (State.revokeLent s b le) := by
  unfold State.revokeLent
  try dsimp -iota -proj only
  refine Keeps.step (State.leaseEvent_keeps ..) (by decide) ?_
  split
  · refine Keeps.step (State.sendLend_keeps ..) (by decide) ?_
    refine Keeps.step (Keeps.set_lk ..) (by decide) ?_
    exact Keeps.refl
  · refine Keeps.step (Keeps.set_lk ..) (by decide) ?_
    exact Keeps.refl

theorem State.lendCheck_keeps (s : State) (n : Nat) : Keeps [.out, .ctr, .media, .q, .tm, .ev, .lk] s (s.lendCheck n) := by
  induction n generalizing s with
  | zero => exact Keeps.refl
  | succ n ih =>
    unfold State.lendCheck
    split
    · refine Keeps.ite ?_ ?_
      · exact Keeps.step (ih ..) (by decide) (Keeps.step (State.revokeLent_keeps ..) (by decide) Keeps.refl)
      · exact Keeps.refl
    · exact Keeps.refl

theorem State.condemn_keeps (s : State) (fid : Nat) (layer : Nat) (x : Nat)
    : Keeps [.free, .ctr, .pg, .tier, .media, .tm] s (State.condemn s fid layer x) := by
  unfold State.condemn
  try dsimp -iota -proj only
  split
  · exact Keeps.refl
  · refine Keeps.ite ?_ ?_
    · refine Keeps.step (State.startWriteBack_keeps ..) (by decide) ?_
      refine Keeps.step (State.condemnMark_keeps ..) (by decide) ?_
      exact Keeps.refl
    · refine Keeps.ite ?_ ?_
      · refine Keeps.step (State.startWriteBack_keeps ..) (by decide) ?_
        refine Keeps.step (State.condemnMark_keeps ..) (by decide) ?_
        exact Keeps.refl
      · refine Keeps.step (State.condemnMark_keeps ..) (by decide) ?_
        exact Keeps.refl

theorem State.makeRoom_keeps (s : State) (x : Nat) : Keeps [.free, .ctr, .pg, .tier, .media, .tm] s
    (State.makeRoom s x) := by
  unfold State.makeRoom
  try dsimp -iota -proj only
  refine Keeps.ite ?_ ?_
  · refine Keeps.foldl (fun _ _ _ => ?_) ?_
    · refine Keeps.step (State.condemn_keeps ..) (by decide) ?_
      assumption
    · refine Keeps.step (State.setPressure_keeps ..) (by decide) ?_
      exact Keeps.refl
  · exact Keeps.refl

theorem State.press_keeps (s : State) (x : Nat) : Keeps [.out, .ctr, .tier, .media, .q, .tm, .ev, .lk] s
    (State.press s x) := by
  unfold State.press
  try dsimp -iota -proj only
  refine Keeps.ite ?_ ?_
  · refine Keeps.ite ?_ ?_
    · refine Keeps.step (State.lendCheck_keeps ..) (by decide) ?_
      refine Keeps.step (State.setPressure_keeps ..) (by decide) ?_
      exact Keeps.refl
    · refine Keeps.step (State.setPressure_keeps ..) (by decide) ?_
      exact Keeps.refl
  · exact Keeps.refl

theorem State.space0_keeps (s : State) (fid : Nat) (layer : Nat)
    : Keeps [.free, .out, .ctr, .pg, .tier, .media, .q, .tm, .ev, .lk] s (State.space0 s fid layer) := by
  unfold State.space0
  try dsimp -iota -proj only
  split
  · exact Keeps.refl
  · refine Keeps.ite ?_ ?_
    · exact Keeps.refl
    · refine Keeps.ite ?_ ?_
      · refine Keeps.step (State.press_keeps ..) (by decide) ?_
        refine Keeps.step (State.modSlice_keeps ..) (by decide) ?_
        refine Keeps.step (State.makeRoom_keeps ..) (by decide) ?_
        exact Keeps.refl
      · refine Keeps.step (State.makeRoom_keeps ..) (by decide) ?_
        exact Keeps.refl

theorem State.placeT0_keeps (s : State) (fid : Nat) (layer : Nat) (d : SliceData)
    : Keeps [.free, .out, .ctr, .pg, .tier, .media, .q, .tm, .ev, .lk] s (State.placeT0 s fid layer d) := by
  unfold State.placeT0
  try dsimp -iota -proj only
  refine Keeps.step (State.modSlice_keeps ..) (by decide) ?_
  refine Keeps.step (State.space0_keeps ..) (by decide) ?_
  exact Keeps.refl

theorem State.promote_keeps (s : State) (fid : Nat) (layer : Nat) (sub : Nat) (cls : Nat) (d : SliceData)
    : Keeps [.free, .out, .ctr, .pg, .tier, .media, .q, .tm, .ev, .lk] s (State.promote s fid layer sub cls d).2 := by
  unfold State.promote
  try dsimp -iota -proj only
  split
  · exact Keeps.refl
  · refine Keeps.iteBy (fun x : Bool × State => x.2) ?_ ?_ <;> try dsimp -iota -proj only
    · exact Keeps.refl
    · refine Keeps.iteBy (fun x : Bool × State => x.2) ?_ ?_ <;> try dsimp -iota -proj only
      · exact Keeps.refl
      · refine Keeps.iteBy (fun x : Bool × State => x.2) ?_ ?_ <;> try dsimp -iota -proj only
        · refine Keeps.mk2 ?_
          refine Keeps.ite ?_ ?_
          · refine Keeps.step (State.placeT0_keeps ..) (by decide) ?_
            refine Keeps.step (State.bump_keeps ..) (by decide) ?_
            refine Keeps.step (State.press_keeps ..) (by decide) ?_
            refine Keeps.step (State.hbmUnits_keeps ..) (by decide) ?_
            refine Keeps.step (State.modSlice_keeps ..) (by decide) ?_
            refine Keeps.ite ?_ ?_
            · exact Keeps.refl
            · refine Keeps.step (State.makeRoom_keeps ..) (by decide) ?_
              exact Keeps.refl
          · refine Keeps.step (State.bump_keeps ..) (by decide) ?_
            refine Keeps.step (State.press_keeps ..) (by decide) ?_
            refine Keeps.step (State.hbmUnits_keeps ..) (by decide) ?_
            refine Keeps.step (State.modSlice_keeps ..) (by decide) ?_
            refine Keeps.ite ?_ ?_
            · exact Keeps.refl
            · refine Keeps.step (State.makeRoom_keeps ..) (by decide) ?_
              exact Keeps.refl
        · refine Keeps.mk2 ?_
          refine Keeps.ite ?_ ?_
          · exact Keeps.refl
          · refine Keeps.step (State.makeRoom_keeps ..) (by decide) ?_
            exact Keeps.refl
theorem State.promote_keeps_eq {s : State} {fid : Nat} {layer : Nat} {sub : Nat} {cls : Nat} {d : SliceData} {x0 zz}
    (hE : State.promote s fid layer sub cls d = (x0, zz))
        : Keeps [.free, .out, .ctr, .pg, .tier, .media, .q, .tm, .ev, .lk] s zz := by
  have h := State.promote_keeps s fid layer sub cls d
  rw [hE] at h
  exact h

theorem State.offerRec_keeps (s : State) (c : Nat) (p : Nat) (r : Rec) : Keeps [.ctr, .pg, .tier, .media, .tm] s
    (State.offerRec s c p r) := by
  unfold State.offerRec
  try dsimp -iota -proj only
  refine Keeps.ite ?_ ?_
  · refine Keeps.step (State.addRec_keeps ..) (by decide) ?_
    refine Keeps.step (State.makeRoom2_keeps ..) (by decide) ?_
    exact Keeps.refl
  · refine Keeps.step (Keeps.set_media ..) (by decide) ?_
    refine Keeps.step (State.makeRoom2_keeps ..) (by decide) ?_
    exact Keeps.refl

theorem State.voidCopy_keeps (s : State) (e : MapEnt) : Keeps [.media] s (State.voidCopy s e) := by
  unfold State.voidCopy
  try dsimp -iota -proj only
  refine Keeps.step (Keeps.set_media ..) (by decide) ?_
  exact Keeps.refl

theorem State.commitSlice_keeps (s : State) (r : Rec) (e : MapEnt)
    : Keeps [.out, .ctr, .pg, .tier, .media, .q, .tm, .ev, .lk] s (State.commitSlice s r e) := by
  unfold State.commitSlice
  try dsimp -iota -proj only
  split
  · refine Keeps.ite ?_ ?_
    · refine Keeps.step (State.voidCopy_keeps ..) (by decide) ?_
      exact Keeps.refl
    · refine Keeps.step (State.discardAt_keeps ..) (by decide) ?_
      exact Keeps.refl
  · split
    · split
      · refine Keeps.ite ?_ ?_
        · refine Keeps.step (State.setMap_keeps ..) (by decide) ?_
          exact Keeps.refl
        · refine Keeps.step (State.voidCopy_keeps ..) (by decide) ?_
          exact Keeps.refl
      · refine Keeps.step (State.voidCopy_keeps ..) (by decide) ?_
        exact Keeps.refl
    · refine Keeps.ite ?_ ?_
      · refine Keeps.step (State.discardAt_keeps ..) (by decide) ?_
        exact Keeps.refl
      · refine Keeps.step (State.press_keeps ..) (by decide) ?_
        refine Keeps.step (State.modSlice_keeps ..) (by decide) ?_
        refine Keeps.step (State.setMap_keeps ..) (by decide) ?_
        refine Keeps.step (State.discard_keeps ..) (by decide) ?_
        exact Keeps.refl

theorem State.updPressure_keeps (s : State) (x : Nat) : Keeps [.tier] s (State.updPressure s x) := by
  unfold State.updPressure
  try dsimp -iota -proj only
  refine Keeps.ite ?_ ?_
  · refine Keeps.step (State.setPressure_keeps ..) (by decide) ?_
    exact Keeps.refl
  · refine Keeps.ite ?_ ?_
    · refine Keeps.step (State.setPressure_keeps ..) (by decide) ?_
      exact Keeps.refl
    · exact Keeps.refl

theorem State.commitOne_keeps (s : State) (fid : Nat) (layer : Nat) : Keeps [.ctr, .pg, .tier, .media] s
    (State.commitOne s fid layer) := by
  unfold State.commitOne
  try dsimp -iota -proj only
  split
  · exact Keeps.refl
  · refine Keeps.ite ?_ ?_
    · exact Keeps.refl
    · refine Keeps.ite ?_ ?_
      · refine Keeps.ite ?_ ?_
        · refine Keeps.step (State.dropSlice_keeps ..) (by decide) ?_
          exact Keeps.refl
        · exact Keeps.refl
      · refine Keeps.step (State.modSlice_keeps ..) (by decide) ?_
        exact Keeps.refl

theorem State.commitSlices_keeps (s : State) : Keeps [.ctr, .pg, .tier, .media] s (State.commitSlices s) := by
  unfold State.commitSlices
  try dsimp -iota -proj only
  refine Keeps.foldl (fun _ _ _ => ?_) ?_
  · refine Keeps.step (State.commitOne_keeps ..) (by decide) ?_
    assumption
  · exact Keeps.refl

theorem State.freeCopy_keeps (s : State) (fid : Nat) (f : Frame) (layer : Nat) (x : Nat) : Keeps [.ctr, .pg, .media] s
    (State.freeCopy s fid f layer x) := by
  unfold State.freeCopy
  try dsimp -iota -proj only
  split
  · refine Keeps.step (State.modSlice_keeps ..) (by decide) ?_
    refine Keeps.step (State.modSlice_keeps ..) (by decide) ?_
    exact Keeps.refl
  · refine Keeps.step (State.modSlice_keeps ..) (by decide) ?_
    refine Keeps.step (State.modSlice_keeps ..) (by decide) ?_
    exact Keeps.refl
  · refine Keeps.step (State.modSlice_keeps ..) (by decide) ?_
    refine Keeps.step (State.discard_keeps ..) (by decide) ?_
    refine Keeps.step (State.modSlice_keeps ..) (by decide) ?_
    exact Keeps.refl
  · refine Keeps.step (State.modSlice_keeps ..) (by decide) ?_
    refine Keeps.step (State.modSlice_keeps ..) (by decide) ?_
    exact Keeps.refl

theorem State.sliceStep2_keeps (s : State) (fid : Nat) (layer : Nat) : Keeps [.ctr, .pg, .media] s
    (State.sliceStep2 s fid layer) := by
  unfold State.sliceStep2
  try dsimp -iota -proj only
  split
  · exact Keeps.refl
  · refine Keeps.ite ?_ ?_
    · exact Keeps.refl
    · refine Keeps.ite ?_ ?_
      · refine Keeps.step (State.freeCopy_keeps ..) (by decide) ?_
        exact Keeps.refl
      · refine Keeps.step (State.bump_keeps ..) (by decide) ?_
        refine Keeps.step (State.modSlice_keeps ..) (by decide) ?_
        exact Keeps.refl

theorem State.endWriteBack_keeps (s : State) (fid : Nat) (layer : Nat) : Keeps [.free, .ctr, .pg, .tier, .media, .tm] s
    (State.endWriteBack s fid layer) := by
  unfold State.endWriteBack
  try dsimp -iota -proj only
  split
  · refine Keeps.ite ?_ ?_
    · exact Keeps.refl
    · refine Keeps.ite ?_ ?_
      · refine Keeps.ite ?_ ?_
        · refine Keeps.step (Keeps.set_tier ..) (by decide) ?_
          exact Keeps.refl
        · refine Keeps.ite ?_ ?_
          · refine Keeps.step (State.bump_keeps ..) (by decide) ?_
            refine Keeps.step (State.modSlice_keeps ..) (by decide) ?_
            refine Keeps.step (Keeps.set_tier ..) (by decide) ?_
            exact Keeps.refl
          · refine Keeps.step (State.startWriteBack_keeps ..) (by decide) ?_
            refine Keeps.step (State.bump_keeps ..) (by decide) ?_
            refine Keeps.step (Keeps.set_tier ..) (by decide) ?_
            exact Keeps.refl
      · split
        · refine Keeps.ite ?_ ?_
          · refine Keeps.step (State.modSlice_keeps ..) (by decide) ?_
            refine Keeps.step (State.bump_keeps ..) (by decide) ?_
            refine Keeps.step (State.bump_keeps ..) (by decide) ?_
            refine Keeps.step (Keeps.set_tier ..) (by decide) ?_
            exact Keeps.refl
          · refine Keeps.ite ?_ ?_
            · refine Keeps.step (State.modSlice_keeps ..) (by decide) ?_
              refine Keeps.step (State.bump_keeps ..) (by decide) ?_
              refine Keeps.step (State.bump_keeps ..) (by decide) ?_
              refine Keeps.step (Keeps.set_tier ..) (by decide) ?_
              exact Keeps.refl
            · refine Keeps.step (State.startWriteBack_keeps ..) (by decide) ?_
              refine Keeps.step (State.modSlice_keeps ..) (by decide) ?_
              refine Keeps.step (State.bump_keeps ..) (by decide) ?_
              refine Keeps.step (State.bump_keeps ..) (by decide) ?_
              refine Keeps.step (Keeps.set_tier ..) (by decide) ?_
              exact Keeps.refl
        · refine Keeps.ite ?_ ?_
          · refine Keeps.step (State.bump_keeps ..) (by decide) ?_
            refine Keeps.ite ?_ ?_
            · refine Keeps.step (State.bump_keeps ..) (by decide) ?_
              refine Keeps.step (Keeps.set_tier ..) (by decide) ?_
              exact Keeps.refl
            · refine Keeps.step (Keeps.set_tier ..) (by decide) ?_
              exact Keeps.refl
          · refine Keeps.ite ?_ ?_
            · refine Keeps.step (State.startWriteBack_keeps ..) (by decide) ?_
              refine Keeps.step (State.bump_keeps ..) (by decide) ?_
              refine Keeps.ite ?_ ?_
              · refine Keeps.step (State.bump_keeps ..) (by decide) ?_
                refine Keeps.step (Keeps.set_tier ..) (by decide) ?_
                exact Keeps.refl
              · refine Keeps.step (Keeps.set_tier ..) (by decide) ?_
                exact Keeps.refl
            · exact Keeps.refl
  · exact Keeps.refl

/-! ### Prefix -/

theorem State.camDrop_keeps (s : State) (fid : Nat) : Keeps [.px] s (State.camDrop s fid) := by
  unfold State.camDrop
  try dsimp -iota -proj only
  refine Keeps.step (Keeps.set_px ..) (by decide) ?_
  exact Keeps.refl

theorem State.dropKey_keeps (s : State) (fid : Nat) : Keeps [.ctr, .pg, .px, .tier, .media, .ix] s
    (State.dropKey s fid) := by
  unfold State.dropKey
  try dsimp -iota -proj only
  split
  · exact Keeps.refl
  · refine Keeps.ite ?_ ?_
    · refine Keeps.step (State.freeFrame_keeps ..) (by decide) ?_
      exact Keeps.refl
    · refine Keeps.step (State.touch_keeps ..) (by decide) ?_
      refine Keeps.step (State.touch_keeps ..) (by decide) ?_
      refine Keeps.step (State.setFrame_keeps ..) (by decide) ?_
      refine Keeps.step (Keeps.set_px ..) (by decide) ?_
      refine Keeps.step (State.camDrop_keeps ..) (by decide) ?_
      exact Keeps.refl

theorem State.setSegments_keeps (s : State) (b : Nat) (gs : List Segment) : Keeps [.px] s (State.setSegments s b gs) := by
  unfold State.setSegments
  try dsimp -iota -proj only
  refine Keeps.step (Keeps.set_px ..) (by decide) ?_
  exact Keeps.refl

theorem State.camPlace_keeps (s : State) (b : Nat) (e : CamEnt) : Keeps [.ctr, .px] s (State.camPlace s b e) := by
  unfold State.camPlace
  try dsimp -iota -proj only
  refine Keeps.ite ?_ ?_
  · refine Keeps.step (State.setSegments_keeps ..) (by decide) ?_
    exact Keeps.refl
  · split
    · refine Keeps.step (State.bump_keeps ..) (by decide) ?_
      exact Keeps.refl
    · refine Keeps.ite ?_ ?_
      · refine Keeps.step (State.bump_keeps ..) (by decide) ?_
        exact Keeps.refl
      · refine Keeps.step (State.setSegments_keeps ..) (by decide) ?_
        refine Keeps.step (State.bump_keeps ..) (by decide) ?_
        exact Keeps.refl

theorem State.mendBank_keeps (s : State) (b : Nat) : Keeps [.ctr, .px] s (State.mendBank s b) := by
  unfold State.mendBank
  try dsimp -iota -proj only
  refine Keeps.foldl (fun _ _ _ => ?_) ?_
  · refine Keeps.step (State.camPlace_keeps ..) (by decide) ?_
    assumption
  · refine Keeps.step (Keeps.set_px ..) (by decide) ?_
    exact Keeps.refl

theorem State.purge_keeps (s : State) (d : Nat) : Keeps [.ctr, .pg, .px, .tier, .media, .ix] s (State.purge s d).2 := by
  unfold State.purge
  try dsimp -iota -proj only
  refine Keeps.mk2 ?_
  refine Keeps.foldl (fun _ _ _ => ?_) ?_
  · refine Keeps.step (State.dropKey_keeps ..) (by decide) ?_
    assumption
  · exact Keeps.refl
theorem State.purge_keeps_eq {s : State} {d : Nat} {x0 zz} (hE : State.purge s d = (x0, zz))
    : Keeps [.ctr, .pg, .px, .tier, .media, .ix] s zz := by
  have h := State.purge_keeps s d
  rw [hE] at h
  exact h

theorem State.unref_keeps (s : State) (fid : Nat) : Keeps [.ctr, .pg, .px, .tier, .media, .ix] s (State.unref s fid) := by
  unfold State.unref
  try dsimp -iota -proj only
  split
  · exact Keeps.refl
  · refine Keeps.ite ?_ ?_
    · refine Keeps.step (State.setFrame_keeps ..) (by decide) ?_
      exact Keeps.refl
    · refine Keeps.ite ?_ ?_
      · refine Keeps.step (Keeps.set_px ..) (by decide) ?_
        refine Keeps.step (State.setFrame_keeps ..) (by decide) ?_
        exact Keeps.refl
      · refine Keeps.step (State.freeFrame_keeps ..) (by decide) ?_
        refine Keeps.step (State.setFrame_keeps ..) (by decide) ?_
        exact Keeps.refl

theorem State.insertKey_keeps (s : State) (fid : Nat) (k : PendKey) (depth : Nat) : Keeps [.ctr, .pg, .px, .media] s
    (State.insertKey s fid k depth) := by
  unfold State.insertKey
  try dsimp -iota -proj only
  split
  · exact Keeps.refl
  · refine Keeps.ite ?_ ?_
    · refine Keeps.step (State.bump_keeps ..) (by decide) ?_
      exact Keeps.refl
    · refine Keeps.step (State.bump_keeps ..) (by decide) ?_
      refine Keeps.step (State.touch_keeps ..) (by decide) ?_
      refine Keeps.step (State.touch_keeps ..) (by decide) ?_
      refine Keeps.step (State.setFrame_keeps ..) (by decide) ?_
      refine Keeps.step (Keeps.set_px ..) (by decide) ?_
      exact Keeps.refl

theorem State.lookedUp_keeps (s : State) (cam : List CamEnt) (k : Sought) (absentMiss : Bool) : Keeps [.ctr] s
    (State.lookedUp s cam k absentMiss).2 := by
  unfold State.lookedUp
  try dsimp -iota -proj only
  split
  · refine Keeps.iteBy (fun x : Option Nat × State => x.2) ?_ ?_ <;> try dsimp -iota -proj only
    · refine Keeps.mk2 ?_
      refine Keeps.step (State.bump_keeps ..) (by decide) ?_
      exact Keeps.refl
    · refine Keeps.mk2 ?_
      refine Keeps.step (State.bump_keeps ..) (by decide) ?_
      exact Keeps.refl
  · split
    · refine Keeps.iteBy (fun x : Option Nat × State => x.2) ?_ ?_ <;> try dsimp -iota -proj only
      · refine Keeps.mk2 ?_
        refine Keeps.step (State.bump_keeps ..) (by decide) ?_
        exact Keeps.refl
      · refine Keeps.mk2 ?_
        refine Keeps.step (State.bump_keeps ..) (by decide) ?_
        exact Keeps.refl
    · refine Keeps.mk2 ?_
      refine Keeps.step (State.bump_keeps ..) (by decide) ?_
      exact Keeps.refl
theorem State.lookedUp_keeps_eq {s : State} {cam : List CamEnt} {k : Sought} {absentMiss : Bool} {x0 zz} (hE
    : State.lookedUp s cam k absentMiss = (x0, zz)) : Keeps [.ctr] s zz := by
  have h := State.lookedUp_keeps s cam k absentMiss
  rw [hE] at h
  exact h

theorem State.hit_keeps (s : State) (p : Nat) (fid : Nat) : Keeps [.ctr, .pg, .px] s (State.hit s p fid) := by
  unfold State.hit
  try dsimp -iota -proj only
  split
  · refine Keeps.step (Keeps.set_px ..) (by decide) ?_
    exact Keeps.refl
  · refine Keeps.ite ?_ ?_
    · refine Keeps.step (State.lossBump_keeps ..) (by decide) ?_
      refine Keeps.step (State.bump_keeps ..) (by decide) ?_
      refine Keeps.step (State.setFrame_keeps ..) (by decide) ?_
      refine Keeps.step (Keeps.set_px ..) (by decide) ?_
      exact Keeps.refl
    · refine Keeps.step (State.setFrame_keeps ..) (by decide) ?_
      refine Keeps.step (Keeps.set_px ..) (by decide) ?_
      exact Keeps.refl

theorem State.lookup_keeps (s : State) (k : Sought) (absentMiss : Bool) : Keeps [.ctr] s
    (State.lookup s k absentMiss).2 := by
  unfold State.lookup
  try dsimp -iota -proj only
  refine Keeps.step (State.lookedUp_keeps ..) (by decide) ?_
  refine Keeps.ite ?_ ?_
  · refine Keeps.step (State.bump_keeps ..) (by decide) ?_
    exact Keeps.refl
  · refine Keeps.step (State.bump_keeps ..) (by decide) ?_
    refine Keeps.step (State.bump_keeps ..) (by decide) ?_
    exact Keeps.refl
theorem State.lookup_keeps_eq {s : State} {k : Sought} {absentMiss : Bool} {x0 zz} (hE : State.lookup s k absentMiss =
    (x0, zz)) : Keeps [.ctr] s zz := by
  have h := State.lookup_keeps s k absentMiss
  rw [hE] at h
  exact h

theorem State.placeKey_keeps (s : State) (fid : Nat) : Keeps [.ctr, .px] s (State.placeKey s fid) := by
  unfold State.placeKey
  try dsimp -iota -proj only
  split
  · refine Keeps.ite ?_ ?_
    · exact Keeps.refl
    · split
      · refine Keeps.step (State.camPlace_keeps ..) (by decide) ?_
        exact Keeps.refl
      · exact Keeps.refl
  · exact Keeps.refl

theorem State.frameStep2_keeps (s : State) (fid : Nat) : Keeps [.ctr, .pg, .px, .tier, .media, .ix] s
    (State.frameStep2 s fid) := by
  unfold State.frameStep2
  try dsimp -iota -proj only
  split
  · refine Keeps.ite ?_ ?_
    · exact Keeps.refl
    · refine Keeps.ite ?_ ?_
      · refine Keeps.step (State.freeFrame_keeps ..) (by decide) ?_
        refine Keeps.step (Keeps.set_px ..) (by decide) ?_
        exact Keeps.refl
      · refine Keeps.step (State.bump_keeps ..) (by decide) ?_
        refine Keeps.step (Keeps.set_px ..) (by decide) ?_
        refine Keeps.step (Keeps.set_px ..) (by decide) ?_
        exact Keeps.refl
  · exact Keeps.refl

theorem State.frameStep1_keeps (s : State) (fid : Nat) : Keeps [.px] s (State.frameStep1 s fid) := by
  unfold State.frameStep1
  try dsimp -iota -proj only
  refine Keeps.step (Keeps.set_px ..) (by decide) ?_
  refine Keeps.step (State.camDrop_keeps ..) (by decide) ?_
  exact Keeps.refl

theorem State.condemnFrame_keeps (s : State) (fid : Nat) : Keeps [.pg, .px] s (State.condemnFrame s fid) := by
  unfold State.condemnFrame
  try dsimp -iota -proj only
  refine Keeps.step (Keeps.set_px ..) (by decide) ?_
  refine Keeps.step (State.modFrame_keeps ..) (by decide) ?_
  exact Keeps.refl

theorem State.condemnFrames_keeps (s : State) : Keeps [.pg, .px] s (State.condemnFrames s) := by
  unfold State.condemnFrames
  try dsimp -iota -proj only
  refine Keeps.foldl (fun _ _ _ => ?_) ?_
  · refine Keeps.ite ?_ ?_
    · refine Keeps.step (State.condemnFrame_keeps ..) (by decide) ?_
      assumption
    · assumption
  · refine Keeps.foldl (fun _ _ _ => ?_) ?_
    · refine Keeps.step (State.condemnFrame_keeps ..) (by decide) ?_
      assumption
    · exact Keeps.refl

/-! ### Pages -/

theorem State.loseRefs_keeps (s : State) (n : Nat) (ls : Sys2Proof.Map Leaf) : Keeps [.pg] s (State.loseRefs s n ls) := by
  unfold State.loseRefs
  try dsimp -iota -proj only
  refine Keeps.step (Keeps.set_pg ..) (by decide) ?_
  exact Keeps.refl

theorem State.setSeq_keeps (s : State) (n : Nat) (q : Seq) : Keeps [.pg] s (State.setSeq s n q) := by
  unfold State.setSeq
  try dsimp -iota -proj only
  refine Keeps.step (Keeps.set_pg ..) (by decide) ?_
  exact Keeps.refl

theorem State.setLeaf_keeps (s : State) (n : Nat) (b : Nat) (l : Option Leaf) : Keeps [.pg, .media] s
    (State.setLeaf s n b l) := by
  unfold State.setLeaf
  try dsimp -iota -proj only
  split
  · exact Keeps.refl
  · refine Keeps.step (State.touch_keeps ..) (by decide) ?_
    refine Keeps.step (State.setSeq_keeps ..) (by decide) ?_
    exact Keeps.refl

theorem State.freeFid_keeps_eq {s : State} {x0 zz} (hE : State.freeFid s = some (x0, zz)) : Keeps [.free] s zz := by
  unfold State.freeFid at hE
  try dsimp -iota -proj only at hE
  split at hE
  · obtain ⟨_, _, hE⟩ := Option.map_eq_some_iff.mp hE
    cases hE
    refine Keeps.step (State.takeFree_keeps_eq (by assumption)) (by decide) ?_
    exact Keeps.refl

theorem State.openFrame_keeps_eq {s : State} {p : Nat} {profile : Nat} {flags : Nat} {domain : Nat} {source : Nat}
    {x0 zz} (hE : State.openFrame s p profile flags domain source = some (x0, zz))
        : Keeps [.free, .out, .ctr, .pg, .tier, .media, .q, .tm, .ev, .lk] s zz := by
  unfold State.openFrame at hE
  try dsimp -iota -proj only at hE
  obtain hE | hE := ite_cases hE
  · cases hE
  · obtain hE | hE := ite_cases hE
    · cases hE
    · split at hE
      · cases hE
      · cases hE
        refine Keeps.step (State.press_keeps ..) (by decide) ?_
        refine Keeps.step (State.press_keeps ..) (by decide) ?_
        refine Keeps.step (State.touch_keeps ..) (by decide) ?_
        refine Keeps.step (State.setFrame_keeps ..) (by decide) ?_
        refine Keeps.ite ?_ ?_
        · refine Keeps.step (State.makeRoom_keeps ..) (by decide) ?_
          refine Keeps.ite ?_ ?_
          · refine Keeps.step (State.bump_keeps ..) (by decide) ?_
            refine Keeps.step (State.freeFid_keeps_eq (by assumption)) (by decide) ?_
            refine Keeps.step (State.makeRoom_keeps ..) (by decide) ?_
            exact Keeps.refl
          · refine Keeps.step (State.freeFid_keeps_eq (by assumption)) (by decide) ?_
            refine Keeps.step (State.makeRoom_keeps ..) (by decide) ?_
            exact Keeps.refl
        · refine Keeps.ite ?_ ?_
          · refine Keeps.step (State.bump_keeps ..) (by decide) ?_
            refine Keeps.step (State.freeFid_keeps_eq (by assumption)) (by decide) ?_
            refine Keeps.step (State.makeRoom_keeps ..) (by decide) ?_
            exact Keeps.refl
          · refine Keeps.step (State.freeFid_keeps_eq (by assumption)) (by decide) ?_
            refine Keeps.step (State.makeRoom_keeps ..) (by decide) ?_
            exact Keeps.refl

theorem State.endSeq_keeps (s : State) (n : Nat) : Keeps [.pg, .media] s (State.endSeq s n) := by
  unfold State.endSeq
  try dsimp -iota -proj only
  split
  · refine Keeps.ite ?_ ?_
    · refine Keeps.step (State.touch_keeps ..) (by decide) ?_
      refine Keeps.step (Keeps.set_pg ..) (by decide) ?_
      exact Keeps.refl
    · exact Keeps.refl
  · exact Keeps.refl

theorem State.applyRelease_keeps (s : State) (r : Release) : Keeps [.ctr, .pg, .px, .tier, .media, .ix] s
    (State.applyRelease s r) := by
  unfold State.applyRelease
  try dsimp -iota -proj only
  refine Keeps.ite ?_ ?_
  · exact Keeps.refl
  · refine Keeps.step (State.endSeq_keeps ..) (by decide) ?_
    refine Keeps.step (State.unref_keeps ..) (by decide) ?_
    refine Keeps.step (Keeps.set_pg ..) (by decide) ?_
    exact Keeps.refl

theorem State.releaseRef_keeps (s : State) (n : Nat) (b : Nat) (fid : Nat) (self : Option Nat)
    : Keeps [.ctr, .pg, .px, .tier, .media, .ix] s (State.releaseRef s n b fid self) := by
  unfold State.releaseRef
  try dsimp -iota -proj only
  refine Keeps.ite ?_ ?_
  · refine Keeps.step (State.applyRelease_keeps ..) (by decide) ?_
    refine Keeps.step (State.freePips_keeps ..) (by decide) ?_
    refine Keeps.step (Keeps.set_pg ..) (by decide) ?_
    exact Keeps.refl
  · refine Keeps.step (State.freePips_keeps ..) (by decide) ?_
    refine Keeps.step (Keeps.set_pg ..) (by decide) ?_
    exact Keeps.refl

theorem State.durableRecord_keeps (s : State) (c : Nat) (p : Nat) (fid : Nat) (layer : Nat)
    : Keeps [.ctr, .pg, .tier, .media, .tm] s (State.durableRecord s c p fid layer) := by
  unfold State.durableRecord
  try dsimp -iota -proj only
  split
  · exact Keeps.refl
  · refine Keeps.step (State.offerRec_keeps ..) (by decide) ?_
    exact Keeps.refl

theorem State.dropPend_keeps (s : State) (n : Nat) (sel : Nat → Bool) : Keeps [.pg] s (State.dropPend s n sel) := by
  unfold State.dropPend
  try dsimp -iota -proj only
  split
  · refine Keeps.ite ?_ ?_
    · refine Keeps.step (State.setSeq_keeps ..) (by decide) ?_
      exact Keeps.refl
    · exact Keeps.refl
  · exact Keeps.refl

theorem State.sealLeaves_keeps (s : State) (fid : Nat) : Keeps [.pg] s (State.sealLeaves s fid) := by
  unfold State.sealLeaves
  try dsimp -iota -proj only
  refine Keeps.step (Keeps.set_pg ..) (by decide) ?_
  exact Keeps.refl

theorem State.sealFrame_keeps (s : State) (u : Setup) (n : Nat) (b : Nat) (fid : Nat) : Keeps [.ctr, .pg, .px, .media] s
    (State.sealFrame s u n b fid) := by
  unfold State.sealFrame
  try dsimp -iota -proj only
  split
  · refine Keeps.step (State.dropPend_keeps ..) (by decide) ?_
    refine Keeps.ite ?_ ?_
    · refine Keeps.step (State.touch_keeps ..) (by decide) ?_
      refine Keeps.step (State.sealLeaves_keeps ..) (by decide) ?_
      refine Keeps.step (State.setFrame_keeps ..) (by decide) ?_
      exact Keeps.refl
    · refine Keeps.ite ?_ ?_
      · refine Keeps.step (State.bump_keeps ..) (by decide) ?_
        refine Keeps.step (State.touch_keeps ..) (by decide) ?_
        refine Keeps.step (State.sealLeaves_keeps ..) (by decide) ?_
        refine Keeps.step (State.setFrame_keeps ..) (by decide) ?_
        exact Keeps.refl
      · split
        · refine Keeps.step (State.insertKey_keeps ..) (by decide) ?_
          refine Keeps.step (State.touch_keeps ..) (by decide) ?_
          refine Keeps.step (State.sealLeaves_keeps ..) (by decide) ?_
          refine Keeps.step (State.setFrame_keeps ..) (by decide) ?_
          exact Keeps.refl
        · refine Keeps.step (State.touch_keeps ..) (by decide) ?_
          refine Keeps.step (State.sealLeaves_keeps ..) (by decide) ?_
          refine Keeps.step (State.setFrame_keeps ..) (by decide) ?_
          exact Keeps.refl
  · exact Keeps.refl

theorem State.applyRows_keeps (s : State) (a : WArg) (fid : Nat) (base : SliceData) (refill : Bool)
    : Keeps [.free, .out, .ctr, .pg, .px, .tier, .media, .q, .tm, .ev, .lk] s (State.applyRows s a fid base refill) := by
  unfold State.applyRows
  try dsimp -iota -proj only
  split
  · exact Keeps.refl
  · refine Keeps.ite ?_ ?_
    · refine Keeps.step (State.durableRecord_keeps ..) (by decide) ?_
      refine Keeps.step (State.touch_keeps ..) (by decide) ?_
      split
      · refine Keeps.ite ?_ ?_
        · refine Keeps.step (State.sealFrame_keeps ..) (by decide) ?_
          refine Keeps.step (State.touch_keeps ..) (by decide) ?_
          split
          · refine Keeps.ite ?_ ?_
            · refine Keeps.step (State.touch_keeps ..) (by decide) ?_
              refine Keeps.step (State.setSeq_keeps ..) (by decide) ?_
              refine Keeps.step (State.lossBump_keeps ..) (by decide) ?_
              refine Keeps.ite ?_ ?_
              · refine Keeps.step (State.lossBump_keeps ..) (by decide) ?_
                refine Keeps.step (State.bump_keeps ..) (by decide) ?_
                refine Keeps.step (State.press_keeps ..) (by decide) ?_
                refine Keeps.step (State.modSlice_keeps ..) (by decide) ?_
                refine Keeps.ite ?_ ?_
                · refine Keeps.step (State.space0_keeps ..) (by decide) ?_
                  exact Keeps.refl
                · exact Keeps.refl
              · refine Keeps.step (State.press_keeps ..) (by decide) ?_
                refine Keeps.step (State.modSlice_keeps ..) (by decide) ?_
                refine Keeps.ite ?_ ?_
                · refine Keeps.step (State.space0_keeps ..) (by decide) ?_
                  exact Keeps.refl
                · exact Keeps.refl
            · refine Keeps.step (State.lossBump_keeps ..) (by decide) ?_
              refine Keeps.ite ?_ ?_
              · refine Keeps.step (State.lossBump_keeps ..) (by decide) ?_
                refine Keeps.step (State.bump_keeps ..) (by decide) ?_
                refine Keeps.step (State.press_keeps ..) (by decide) ?_
                refine Keeps.step (State.modSlice_keeps ..) (by decide) ?_
                refine Keeps.ite ?_ ?_
                · refine Keeps.step (State.space0_keeps ..) (by decide) ?_
                  exact Keeps.refl
                · exact Keeps.refl
              · refine Keeps.step (State.press_keeps ..) (by decide) ?_
                refine Keeps.step (State.modSlice_keeps ..) (by decide) ?_
                refine Keeps.ite ?_ ?_
                · refine Keeps.step (State.space0_keeps ..) (by decide) ?_
                  exact Keeps.refl
                · exact Keeps.refl
          · refine Keeps.step (State.lossBump_keeps ..) (by decide) ?_
            refine Keeps.ite ?_ ?_
            · refine Keeps.step (State.lossBump_keeps ..) (by decide) ?_
              refine Keeps.step (State.bump_keeps ..) (by decide) ?_
              refine Keeps.step (State.press_keeps ..) (by decide) ?_
              refine Keeps.step (State.modSlice_keeps ..) (by decide) ?_
              refine Keeps.ite ?_ ?_
              · refine Keeps.step (State.space0_keeps ..) (by decide) ?_
                exact Keeps.refl
              · exact Keeps.refl
            · refine Keeps.step (State.press_keeps ..) (by decide) ?_
              refine Keeps.step (State.modSlice_keeps ..) (by decide) ?_
              refine Keeps.ite ?_ ?_
              · refine Keeps.step (State.space0_keeps ..) (by decide) ?_
                exact Keeps.refl
              · exact Keeps.refl
        · refine Keeps.step (State.touch_keeps ..) (by decide) ?_
          split
          · refine Keeps.ite ?_ ?_
            · refine Keeps.step (State.touch_keeps ..) (by decide) ?_
              refine Keeps.step (State.setSeq_keeps ..) (by decide) ?_
              refine Keeps.step (State.lossBump_keeps ..) (by decide) ?_
              refine Keeps.ite ?_ ?_
              · refine Keeps.step (State.lossBump_keeps ..) (by decide) ?_
                refine Keeps.step (State.bump_keeps ..) (by decide) ?_
                refine Keeps.step (State.press_keeps ..) (by decide) ?_
                refine Keeps.step (State.modSlice_keeps ..) (by decide) ?_
                refine Keeps.ite ?_ ?_
                · refine Keeps.step (State.space0_keeps ..) (by decide) ?_
                  exact Keeps.refl
                · exact Keeps.refl
              · refine Keeps.step (State.press_keeps ..) (by decide) ?_
                refine Keeps.step (State.modSlice_keeps ..) (by decide) ?_
                refine Keeps.ite ?_ ?_
                · refine Keeps.step (State.space0_keeps ..) (by decide) ?_
                  exact Keeps.refl
                · exact Keeps.refl
            · refine Keeps.step (State.lossBump_keeps ..) (by decide) ?_
              refine Keeps.ite ?_ ?_
              · refine Keeps.step (State.lossBump_keeps ..) (by decide) ?_
                refine Keeps.step (State.bump_keeps ..) (by decide) ?_
                refine Keeps.step (State.press_keeps ..) (by decide) ?_
                refine Keeps.step (State.modSlice_keeps ..) (by decide) ?_
                refine Keeps.ite ?_ ?_
                · refine Keeps.step (State.space0_keeps ..) (by decide) ?_
                  exact Keeps.refl
                · exact Keeps.refl
              · refine Keeps.step (State.press_keeps ..) (by decide) ?_
                refine Keeps.step (State.modSlice_keeps ..) (by decide) ?_
                refine Keeps.ite ?_ ?_
                · refine Keeps.step (State.space0_keeps ..) (by decide) ?_
                  exact Keeps.refl
                · exact Keeps.refl
          · refine Keeps.step (State.lossBump_keeps ..) (by decide) ?_
            refine Keeps.ite ?_ ?_
            · refine Keeps.step (State.lossBump_keeps ..) (by decide) ?_
              refine Keeps.step (State.bump_keeps ..) (by decide) ?_
              refine Keeps.step (State.press_keeps ..) (by decide) ?_
              refine Keeps.step (State.modSlice_keeps ..) (by decide) ?_
              refine Keeps.ite ?_ ?_
              · refine Keeps.step (State.space0_keeps ..) (by decide) ?_
                exact Keeps.refl
              · exact Keeps.refl
            · refine Keeps.step (State.press_keeps ..) (by decide) ?_
              refine Keeps.step (State.modSlice_keeps ..) (by decide) ?_
              refine Keeps.ite ?_ ?_
              · refine Keeps.step (State.space0_keeps ..) (by decide) ?_
                exact Keeps.refl
              · exact Keeps.refl
      · refine Keeps.step (State.touch_keeps ..) (by decide) ?_
        split
        · refine Keeps.ite ?_ ?_
          · refine Keeps.step (State.touch_keeps ..) (by decide) ?_
            refine Keeps.step (State.setSeq_keeps ..) (by decide) ?_
            refine Keeps.step (State.lossBump_keeps ..) (by decide) ?_
            refine Keeps.ite ?_ ?_
            · refine Keeps.step (State.lossBump_keeps ..) (by decide) ?_
              refine Keeps.step (State.bump_keeps ..) (by decide) ?_
              refine Keeps.step (State.press_keeps ..) (by decide) ?_
              refine Keeps.step (State.modSlice_keeps ..) (by decide) ?_
              refine Keeps.ite ?_ ?_
              · refine Keeps.step (State.space0_keeps ..) (by decide) ?_
                exact Keeps.refl
              · exact Keeps.refl
            · refine Keeps.step (State.press_keeps ..) (by decide) ?_
              refine Keeps.step (State.modSlice_keeps ..) (by decide) ?_
              refine Keeps.ite ?_ ?_
              · refine Keeps.step (State.space0_keeps ..) (by decide) ?_
                exact Keeps.refl
              · exact Keeps.refl
          · refine Keeps.step (State.lossBump_keeps ..) (by decide) ?_
            refine Keeps.ite ?_ ?_
            · refine Keeps.step (State.lossBump_keeps ..) (by decide) ?_
              refine Keeps.step (State.bump_keeps ..) (by decide) ?_
              refine Keeps.step (State.press_keeps ..) (by decide) ?_
              refine Keeps.step (State.modSlice_keeps ..) (by decide) ?_
              refine Keeps.ite ?_ ?_
              · refine Keeps.step (State.space0_keeps ..) (by decide) ?_
                exact Keeps.refl
              · exact Keeps.refl
            · refine Keeps.step (State.press_keeps ..) (by decide) ?_
              refine Keeps.step (State.modSlice_keeps ..) (by decide) ?_
              refine Keeps.ite ?_ ?_
              · refine Keeps.step (State.space0_keeps ..) (by decide) ?_
                exact Keeps.refl
              · exact Keeps.refl
        · refine Keeps.step (State.lossBump_keeps ..) (by decide) ?_
          refine Keeps.ite ?_ ?_
          · refine Keeps.step (State.lossBump_keeps ..) (by decide) ?_
            refine Keeps.step (State.bump_keeps ..) (by decide) ?_
            refine Keeps.step (State.press_keeps ..) (by decide) ?_
            refine Keeps.step (State.modSlice_keeps ..) (by decide) ?_
            refine Keeps.ite ?_ ?_
            · refine Keeps.step (State.space0_keeps ..) (by decide) ?_
              exact Keeps.refl
            · exact Keeps.refl
          · refine Keeps.step (State.press_keeps ..) (by decide) ?_
            refine Keeps.step (State.modSlice_keeps ..) (by decide) ?_
            refine Keeps.ite ?_ ?_
            · refine Keeps.step (State.space0_keeps ..) (by decide) ?_
              exact Keeps.refl
            · exact Keeps.refl
    · split
      · refine Keeps.ite ?_ ?_
        · refine Keeps.step (State.sealFrame_keeps ..) (by decide) ?_
          refine Keeps.step (State.touch_keeps ..) (by decide) ?_
          split
          · refine Keeps.ite ?_ ?_
            · refine Keeps.step (State.touch_keeps ..) (by decide) ?_
              refine Keeps.step (State.setSeq_keeps ..) (by decide) ?_
              refine Keeps.step (State.lossBump_keeps ..) (by decide) ?_
              refine Keeps.ite ?_ ?_
              · refine Keeps.step (State.lossBump_keeps ..) (by decide) ?_
                refine Keeps.step (State.bump_keeps ..) (by decide) ?_
                refine Keeps.step (State.press_keeps ..) (by decide) ?_
                refine Keeps.step (State.modSlice_keeps ..) (by decide) ?_
                refine Keeps.ite ?_ ?_
                · refine Keeps.step (State.space0_keeps ..) (by decide) ?_
                  exact Keeps.refl
                · exact Keeps.refl
              · refine Keeps.step (State.press_keeps ..) (by decide) ?_
                refine Keeps.step (State.modSlice_keeps ..) (by decide) ?_
                refine Keeps.ite ?_ ?_
                · refine Keeps.step (State.space0_keeps ..) (by decide) ?_
                  exact Keeps.refl
                · exact Keeps.refl
            · refine Keeps.step (State.lossBump_keeps ..) (by decide) ?_
              refine Keeps.ite ?_ ?_
              · refine Keeps.step (State.lossBump_keeps ..) (by decide) ?_
                refine Keeps.step (State.bump_keeps ..) (by decide) ?_
                refine Keeps.step (State.press_keeps ..) (by decide) ?_
                refine Keeps.step (State.modSlice_keeps ..) (by decide) ?_
                refine Keeps.ite ?_ ?_
                · refine Keeps.step (State.space0_keeps ..) (by decide) ?_
                  exact Keeps.refl
                · exact Keeps.refl
              · refine Keeps.step (State.press_keeps ..) (by decide) ?_
                refine Keeps.step (State.modSlice_keeps ..) (by decide) ?_
                refine Keeps.ite ?_ ?_
                · refine Keeps.step (State.space0_keeps ..) (by decide) ?_
                  exact Keeps.refl
                · exact Keeps.refl
          · refine Keeps.step (State.lossBump_keeps ..) (by decide) ?_
            refine Keeps.ite ?_ ?_
            · refine Keeps.step (State.lossBump_keeps ..) (by decide) ?_
              refine Keeps.step (State.bump_keeps ..) (by decide) ?_
              refine Keeps.step (State.press_keeps ..) (by decide) ?_
              refine Keeps.step (State.modSlice_keeps ..) (by decide) ?_
              refine Keeps.ite ?_ ?_
              · refine Keeps.step (State.space0_keeps ..) (by decide) ?_
                exact Keeps.refl
              · exact Keeps.refl
            · refine Keeps.step (State.press_keeps ..) (by decide) ?_
              refine Keeps.step (State.modSlice_keeps ..) (by decide) ?_
              refine Keeps.ite ?_ ?_
              · refine Keeps.step (State.space0_keeps ..) (by decide) ?_
                exact Keeps.refl
              · exact Keeps.refl
        · refine Keeps.step (State.touch_keeps ..) (by decide) ?_
          split
          · refine Keeps.ite ?_ ?_
            · refine Keeps.step (State.touch_keeps ..) (by decide) ?_
              refine Keeps.step (State.setSeq_keeps ..) (by decide) ?_
              refine Keeps.step (State.lossBump_keeps ..) (by decide) ?_
              refine Keeps.ite ?_ ?_
              · refine Keeps.step (State.lossBump_keeps ..) (by decide) ?_
                refine Keeps.step (State.bump_keeps ..) (by decide) ?_
                refine Keeps.step (State.press_keeps ..) (by decide) ?_
                refine Keeps.step (State.modSlice_keeps ..) (by decide) ?_
                refine Keeps.ite ?_ ?_
                · refine Keeps.step (State.space0_keeps ..) (by decide) ?_
                  exact Keeps.refl
                · exact Keeps.refl
              · refine Keeps.step (State.press_keeps ..) (by decide) ?_
                refine Keeps.step (State.modSlice_keeps ..) (by decide) ?_
                refine Keeps.ite ?_ ?_
                · refine Keeps.step (State.space0_keeps ..) (by decide) ?_
                  exact Keeps.refl
                · exact Keeps.refl
            · refine Keeps.step (State.lossBump_keeps ..) (by decide) ?_
              refine Keeps.ite ?_ ?_
              · refine Keeps.step (State.lossBump_keeps ..) (by decide) ?_
                refine Keeps.step (State.bump_keeps ..) (by decide) ?_
                refine Keeps.step (State.press_keeps ..) (by decide) ?_
                refine Keeps.step (State.modSlice_keeps ..) (by decide) ?_
                refine Keeps.ite ?_ ?_
                · refine Keeps.step (State.space0_keeps ..) (by decide) ?_
                  exact Keeps.refl
                · exact Keeps.refl
              · refine Keeps.step (State.press_keeps ..) (by decide) ?_
                refine Keeps.step (State.modSlice_keeps ..) (by decide) ?_
                refine Keeps.ite ?_ ?_
                · refine Keeps.step (State.space0_keeps ..) (by decide) ?_
                  exact Keeps.refl
                · exact Keeps.refl
          · refine Keeps.step (State.lossBump_keeps ..) (by decide) ?_
            refine Keeps.ite ?_ ?_
            · refine Keeps.step (State.lossBump_keeps ..) (by decide) ?_
              refine Keeps.step (State.bump_keeps ..) (by decide) ?_
              refine Keeps.step (State.press_keeps ..) (by decide) ?_
              refine Keeps.step (State.modSlice_keeps ..) (by decide) ?_
              refine Keeps.ite ?_ ?_
              · refine Keeps.step (State.space0_keeps ..) (by decide) ?_
                exact Keeps.refl
              · exact Keeps.refl
            · refine Keeps.step (State.press_keeps ..) (by decide) ?_
              refine Keeps.step (State.modSlice_keeps ..) (by decide) ?_
              refine Keeps.ite ?_ ?_
              · refine Keeps.step (State.space0_keeps ..) (by decide) ?_
                exact Keeps.refl
              · exact Keeps.refl
      · refine Keeps.step (State.touch_keeps ..) (by decide) ?_
        split
        · refine Keeps.ite ?_ ?_
          · refine Keeps.step (State.touch_keeps ..) (by decide) ?_
            refine Keeps.step (State.setSeq_keeps ..) (by decide) ?_
            refine Keeps.step (State.lossBump_keeps ..) (by decide) ?_
            refine Keeps.ite ?_ ?_
            · refine Keeps.step (State.lossBump_keeps ..) (by decide) ?_
              refine Keeps.step (State.bump_keeps ..) (by decide) ?_
              refine Keeps.step (State.press_keeps ..) (by decide) ?_
              refine Keeps.step (State.modSlice_keeps ..) (by decide) ?_
              refine Keeps.ite ?_ ?_
              · refine Keeps.step (State.space0_keeps ..) (by decide) ?_
                exact Keeps.refl
              · exact Keeps.refl
            · refine Keeps.step (State.press_keeps ..) (by decide) ?_
              refine Keeps.step (State.modSlice_keeps ..) (by decide) ?_
              refine Keeps.ite ?_ ?_
              · refine Keeps.step (State.space0_keeps ..) (by decide) ?_
                exact Keeps.refl
              · exact Keeps.refl
          · refine Keeps.step (State.lossBump_keeps ..) (by decide) ?_
            refine Keeps.ite ?_ ?_
            · refine Keeps.step (State.lossBump_keeps ..) (by decide) ?_
              refine Keeps.step (State.bump_keeps ..) (by decide) ?_
              refine Keeps.step (State.press_keeps ..) (by decide) ?_
              refine Keeps.step (State.modSlice_keeps ..) (by decide) ?_
              refine Keeps.ite ?_ ?_
              · refine Keeps.step (State.space0_keeps ..) (by decide) ?_
                exact Keeps.refl
              · exact Keeps.refl
            · refine Keeps.step (State.press_keeps ..) (by decide) ?_
              refine Keeps.step (State.modSlice_keeps ..) (by decide) ?_
              refine Keeps.ite ?_ ?_
              · refine Keeps.step (State.space0_keeps ..) (by decide) ?_
                exact Keeps.refl
              · exact Keeps.refl
        · refine Keeps.step (State.lossBump_keeps ..) (by decide) ?_
          refine Keeps.ite ?_ ?_
          · refine Keeps.step (State.lossBump_keeps ..) (by decide) ?_
            refine Keeps.step (State.bump_keeps ..) (by decide) ?_
            refine Keeps.step (State.press_keeps ..) (by decide) ?_
            refine Keeps.step (State.modSlice_keeps ..) (by decide) ?_
            refine Keeps.ite ?_ ?_
            · refine Keeps.step (State.space0_keeps ..) (by decide) ?_
              exact Keeps.refl
            · exact Keeps.refl
          · refine Keeps.step (State.press_keeps ..) (by decide) ?_
            refine Keeps.step (State.modSlice_keeps ..) (by decide) ?_
            refine Keeps.ite ?_ ?_
            · refine Keeps.step (State.space0_keeps ..) (by decide) ?_
              exact Keeps.refl
            · exact Keeps.refl

theorem State.writeInto_keeps (s : State) (a : WArg) (fid : Nat) (refill : Bool)
    : Keeps [.free, .out, .ctr, .pg, .px, .tier, .media, .q, .tm, .ev, .lk] s (State.writeInto s a fid refill).val := by
  unfold State.writeInto
  try dsimp -iota -proj only
  split
  · refine Keeps.fail ?_
    exact Keeps.refl
  · refine Keeps.iteBy (fun x : WOut => x.val) ?_ ?_ <;> try dsimp -iota -proj only
    · refine Keeps.iteBy (fun x : WOut => x.val) ?_ ?_ <;> try dsimp -iota -proj only
      · refine Keeps.done ?_
        refine Keeps.step (State.applyRows_keeps ..) (by decide) ?_
        refine Keeps.step (State.pin_keeps ..) (by decide) ?_
        exact Keeps.refl
      · refine Keeps.iteBy (fun x : WOut => x.val) ?_ ?_ <;> try dsimp -iota -proj only
        · refine Keeps.done ?_
          refine Keeps.step (State.applyRows_keeps ..) (by decide) ?_
          refine Keeps.step (State.makeRoom_keeps ..) (by decide) ?_
          refine Keeps.step (State.pin_keeps ..) (by decide) ?_
          exact Keeps.refl
        · refine Keeps.wait ?_
          refine Keeps.step (State.makeRoom_keeps ..) (by decide) ?_
          refine Keeps.step (State.pin_keeps ..) (by decide) ?_
          exact Keeps.refl
    · split
      · refine Keeps.iteBy (fun x : WOut => x.val) ?_ ?_ <;> try dsimp -iota -proj only
        · refine Keeps.done ?_
          refine Keeps.step (State.applyRows_keeps ..) (by decide) ?_
          refine Keeps.step (State.pin_keeps ..) (by decide) ?_
          exact Keeps.refl
        · refine Keeps.iteBy (fun x : WOut => x.val) ?_ ?_ <;> try dsimp -iota -proj only
          · refine Keeps.done ?_
            refine Keeps.step (State.applyRows_keeps ..) (by decide) ?_
            refine Keeps.step (State.makeRoom_keeps ..) (by decide) ?_
            refine Keeps.step (State.pin_keeps ..) (by decide) ?_
            exact Keeps.refl
          · refine Keeps.wait ?_
            refine Keeps.step (State.makeRoom_keeps ..) (by decide) ?_
            refine Keeps.step (State.pin_keeps ..) (by decide) ?_
            exact Keeps.refl
      · split
        · refine Keeps.iteBy (fun x : WOut => x.val) ?_ ?_ <;> try dsimp -iota -proj only
          · refine Keeps.done ?_
            refine Keeps.step (State.applyRows_keeps ..) (by decide) ?_
            refine Keeps.step (State.pin_keeps ..) (by decide) ?_
            exact Keeps.refl
          · refine Keeps.iteBy (fun x : WOut => x.val) ?_ ?_ <;> try dsimp -iota -proj only
            · refine Keeps.done ?_
              refine Keeps.step (State.applyRows_keeps ..) (by decide) ?_
              refine Keeps.step (State.makeRoom_keeps ..) (by decide) ?_
              refine Keeps.step (State.pin_keeps ..) (by decide) ?_
              exact Keeps.refl
            · refine Keeps.wait ?_
              refine Keeps.step (State.makeRoom_keeps ..) (by decide) ?_
              refine Keeps.step (State.pin_keeps ..) (by decide) ?_
              exact Keeps.refl
        · refine Keeps.fail ?_
          refine Keeps.step (State.pin_keeps ..) (by decide) ?_
          exact Keeps.refl
        · refine Keeps.need ?_
          refine Keeps.step (State.pin_keeps ..) (by decide) ?_
          exact Keeps.refl

theorem State.copyOnWrite_keeps (s : State) (a : WArg) (fid : Nat)
    : Keeps [.free, .out, .ctr, .pg, .px, .tier, .media, .q, .tm, .ev, .lk, .ix] s (State.copyOnWrite s a fid).val := by
  unfold State.copyOnWrite
  try dsimp -iota -proj only
  split
  · refine Keeps.fail ?_
    exact Keeps.refl
  · refine Keeps.iteBy (fun x : WOut => x.val) ?_ ?_ <;> try dsimp -iota -proj only
    · refine Keeps.need ?_
      exact Keeps.refl
    · split
      · refine Keeps.fail ?_
        exact Keeps.refl
      · refine Keeps.iteBy (fun x : WOut => x.val) ?_ ?_ <;> try dsimp -iota -proj only
        · refine Keeps.fail ?_
          exact Keeps.refl
        · split
          · refine Keeps.wait ?_
            refine Keeps.step (State.makeRoom_keeps ..) (by decide) ?_
            exact Keeps.refl
          · refine Keeps.step (State.writeInto_keeps ..) (by decide) ?_
            refine Keeps.step (State.releaseRef_keeps ..) (by decide) ?_
            refine Keeps.step (State.bump_keeps ..) (by decide) ?_
            refine Keeps.step (State.setLeaf_keeps ..) (by decide) ?_
            refine Keeps.foldl (fun _ _ _ => ?_) ?_
            · refine Keeps.step (State.modSlice_keeps ..) (by decide) ?_
              assumption
            · refine Keeps.step (State.openFrame_keeps_eq (by assumption)) (by decide) ?_
              exact Keeps.refl

theorem State.setShared_keeps (s : State) (n : Nat) (b : Nat) (v : Bool) : Keeps [.pg, .media] s
    (State.setShared s n b v) := by
  unfold State.setShared
  try dsimp -iota -proj only
  split
  · refine Keeps.ite ?_ ?_
    · exact Keeps.refl
    · refine Keeps.step (State.setLeaf_keeps ..) (by decide) ?_
      exact Keeps.refl
  · exact Keeps.refl

theorem State.writeSlice_keeps (s : State) (a : WArg)
    : Keeps [.free, .out, .ctr, .pg, .px, .tier, .media, .q, .tm, .ev, .lk, .ix] s (State.writeSlice s a).val := by
  unfold State.writeSlice
  try dsimp -iota -proj only
  split
  · refine Keeps.iteBy (fun x : WOut => x.val) ?_ ?_ <;> try dsimp -iota -proj only
    · refine Keeps.fail ?_
      exact Keeps.refl
    · refine Keeps.iteBy (fun x : WOut => x.val) ?_ ?_ <;> try dsimp -iota -proj only
      · refine Keeps.fail ?_
        exact Keeps.refl
      · split
        · refine Keeps.fail ?_
          exact Keeps.refl
        · split
          · refine Keeps.wait ?_
            refine Keeps.step (State.makeRoom_keeps ..) (by decide) ?_
            exact Keeps.refl
          · refine Keeps.step (State.writeInto_keeps ..) (by decide) ?_
            refine Keeps.step (State.setLeaf_keeps ..) (by decide) ?_
            refine Keeps.step (State.openFrame_keeps_eq (by assumption)) (by decide) ?_
            exact Keeps.refl
  · split
    · refine Keeps.fail ?_
      exact Keeps.refl
    · refine Keeps.iteBy (fun x : WOut => x.val) ?_ ?_ <;> try dsimp -iota -proj only
      · refine Keeps.fail ?_
        exact Keeps.refl
      · refine Keeps.iteBy (fun x : WOut => x.val) ?_ ?_ <;> try dsimp -iota -proj only
        · refine Keeps.fail ?_
          exact Keeps.refl
        · refine Keeps.iteBy (fun x : WOut => x.val) ?_ ?_ <;> try dsimp -iota -proj only
          · refine Keeps.iteBy (fun x : WOut => x.val) ?_ ?_ <;> try dsimp -iota -proj only
            · refine Keeps.fail ?_
              exact Keeps.refl
            · refine Keeps.iteBy (fun x : WOut => x.val) ?_ ?_ <;> try dsimp -iota -proj only
              · refine Keeps.step (State.writeInto_keeps ..) (by decide) ?_
                refine Keeps.step (State.setShared_keeps ..) (by decide) ?_
                exact Keeps.refl
              · refine Keeps.step (State.copyOnWrite_keeps ..) (by decide) ?_
                exact Keeps.refl
          · refine Keeps.iteBy (fun x : WOut => x.val) ?_ ?_ <;> try dsimp -iota -proj only
            · refine Keeps.iteBy (fun x : WOut => x.val) ?_ ?_ <;> try dsimp -iota -proj only
              · refine Keeps.step (State.writeInto_keeps ..) (by decide) ?_
                refine Keeps.ite ?_ ?_
                · refine Keeps.step (State.setShared_keeps ..) (by decide) ?_
                  exact Keeps.refl
                · exact Keeps.refl
              · refine Keeps.fail ?_
                exact Keeps.refl
            · refine Keeps.iteBy (fun x : WOut => x.val) ?_ ?_ <;> try dsimp -iota -proj only
              · refine Keeps.done ?_
                refine Keeps.step (State.bump_keeps ..) (by decide) ?_
                exact Keeps.refl
              · refine Keeps.step (State.copyOnWrite_keeps ..) (by decide) ?_
                exact Keeps.refl

theorem State.cutLeaves_keeps (s : State) (n : Nat) (b : Nat) (self : Option Nat)
    : Keeps [.ctr, .pg, .px, .tier, .media, .ix] s (State.cutLeaves s n b self).2 := by
  unfold State.cutLeaves
  try dsimp -iota -proj only
  split
  · exact Keeps.refl
  · refine Keeps.mk2 ?_
    refine Keeps.foldl (fun _ _ _ => ?_) ?_
    · refine Keeps.step (State.releaseRef_keeps ..) (by decide) ?_
      assumption
    · refine Keeps.foldl (fun _ _ _ => ?_) ?_
      · refine Keeps.step (State.setLeaf_keeps ..) (by decide) ?_
        assumption
      · exact Keeps.refl
theorem State.cutLeaves_keeps_eq {s : State} {n : Nat} {b : Nat} {self : Option Nat} {x0 zz} (hE
    : State.cutLeaves s n b self = (x0, zz)) : Keeps [.ctr, .pg, .px, .tier, .media, .ix] s zz := by
  have h := State.cutLeaves_keeps s n b self
  rw [hE] at h
  exact h

theorem State.discardSeq_keeps (s : State) (n : Nat) (self : Option Nat) : Keeps [.ctr, .pg, .px, .tier, .media, .ix] s
    (State.discardSeq s n self).2 := by
  unfold State.discardSeq
  try dsimp -iota -proj only
  split
  · exact Keeps.refl
  · split
    · refine Keeps.mk2 ?_
      refine Keeps.step (State.endSeq_keeps ..) (by decide) ?_
      refine Keeps.step (State.freePips_keeps ..) (by decide) ?_
      refine Keeps.step (State.cutLeaves_keeps_eq (by assumption)) (by decide) ?_
      refine Keeps.step (State.touch_keeps ..) (by decide) ?_
      refine Keeps.step (State.setSeq_keeps ..) (by decide) ?_
      exact Keeps.refl
theorem State.discardSeq_keeps_eq {s : State} {n : Nat} {self : Option Nat} {x0 zz} (hE : State.discardSeq s n self =
    (x0, zz)) : Keeps [.ctr, .pg, .px, .tier, .media, .ix] s zz := by
  have h := State.discardSeq_keeps s n self
  rw [hE] at h
  exact h

theorem State.ownRelease_keeps (s : State) (r : Release) : Keeps [.ctr, .pg, .px, .tier, .media, .ix] s
    (State.ownRelease s r) := by
  unfold State.ownRelease
  try dsimp -iota -proj only
  refine Keeps.ite ?_ ?_
  · refine Keeps.step (State.applyRelease_keeps ..) (by decide) ?_
    refine Keeps.step (Keeps.set_pg ..) (by decide) ?_
    exact Keeps.refl
  · refine Keeps.step (Keeps.set_pg ..) (by decide) ?_
    exact Keeps.refl

theorem State.freeSeq_keeps_eq {s : State} {x0 zz} (hE : State.freeSeq s = some (x0, zz)) : Keeps [.free] s zz := by
  unfold State.freeSeq at hE
  try dsimp -iota -proj only at hE
  split at hE
  · obtain ⟨_, _, hE⟩ := Option.map_eq_some_iff.mp hE
    cases hE
    refine Keeps.step (State.takeFree_keeps_eq (by assumption)) (by decide) ?_
    exact Keeps.refl

theorem State.dueReleases_keeps (s : State) : Keeps [.ctr, .pg, .px, .tier, .media, .ix] s (State.dueReleases s) := by
  unfold State.dueReleases
  try dsimp -iota -proj only
  refine Keeps.foldl (fun _ _ _ => ?_) ?_
  · refine Keeps.step (State.applyRelease_keeps ..) (by decide) ?_
    assumption
  · exact Keeps.refl

/-! ### Reads -/

theorem State.arrive_keeps (s : State) (t : Nat) (fid : Nat) (layer : Nat) (st : Nat) (d : SliceData) : Keeps [.q] s
    (State.arrive s t fid layer st d) := by
  unfold State.arrive
  try dsimp -iota -proj only
  split
  · exact Keeps.refl
  · split
    · exact Keeps.refl
    · refine Keeps.ite ?_ ?_
      · refine Keeps.step (State.setOp_keeps ..) (by decide) ?_
        exact Keeps.refl
      · refine Keeps.step (State.setOp_keeps ..) (by decide) ?_
        exact Keeps.refl

theorem State.leaseAsk_keeps (s : State) (t : Option Nat) (x : Nat) (id : Nat) (k : Nat) (fid : Nat) (layer : Nat) (sub
    : Nat) (ver : BitVec 16) (base : Nat) (a10 : Nat) (a11 : Nat) : Keeps [.free, .ctr, .tm, .lk] s
        (State.leaseAsk s t x id k fid layer sub ver base a10 a11) := by
  unfold State.leaseAsk
  try dsimp -iota -proj only
  split
  · exact Keeps.refl
  · refine Keeps.ite ?_ ?_
    · exact Keeps.refl
    · split
      · split
        · refine Keeps.step (State.takeFree_keeps_eq (by assumption)) (by decide) ?_
          exact Keeps.refl
        · refine Keeps.step (State.leaseAsk_keeps ..) (by decide) ?_
          refine Keeps.step (State.place_keeps ..) (by decide) ?_
          refine Keeps.step (Keeps.set_lk ..) (by decide) ?_
          refine Keeps.step (State.takeFree_keeps_eq (by assumption)) (by decide) ?_
          exact Keeps.refl

theorem State.readTN_keeps (s : State) (t : Option Nat) (fid : Nat) (layer : Nat) : Keeps [.free, .ctr, .q, .tm, .lk] s
    (State.readTN s t fid layer) := by
  unfold State.readTN
  try dsimp -iota -proj only
  split
  · exact Keeps.refl
  · split
    · exact Keeps.refl
    · split
      · exact Keeps.refl
      · split
        · refine Keeps.step (State.setOp_keeps ..) (by decide) ?_
          refine Keeps.step (State.leaseAsk_keeps ..) (by decide) ?_
          exact Keeps.refl
        · refine Keeps.step (State.leaseAsk_keeps ..) (by decide) ?_
          exact Keeps.refl

theorem State.writeOutVia_keeps (s : State) (via : Bool) (t : Nat) (o : Op) (colour : Nat) (a : Nat) (bs
    : Sys2Proof.Bytes) : Keeps [.ctr, .mem, .tm] s (State.writeOutVia s via t o colour a bs).2.2 := by
  unfold State.writeOutVia
  try dsimp -iota -proj only
  refine Keeps.step (State.writeVia_keeps ..) (by decide) ?_
  refine Keeps.ite ?_ ?_
  · refine Keeps.step (State.pcieVia_keeps ..) (by decide) ?_
    exact Keeps.refl
  · exact Keeps.refl
theorem State.writeOutVia_keeps_eq {s : State} {via : Bool} {t : Nat} {o : Op} {colour : Nat} {a : Nat} {bs
    : Sys2Proof.Bytes} {x0 x1 zz} (hE : State.writeOutVia s via t o colour a bs = (x0, x1, zz))
        : Keeps [.ctr, .mem, .tm] s zz := by
  have h := State.writeOutVia_keeps s via t o colour a bs
  rw [hE] at h
  exact h

theorem State.writeOut_keeps (s : State) (t : Nat) (o : Op) (colour : Nat) (a : Nat) (bs : Sys2Proof.Bytes)
    : Keeps [.ctr, .mem, .tm] s (State.writeOut s t o colour a bs).2.2 := by
  unfold State.writeOut
  try dsimp -iota -proj only
  refine Keeps.step (State.writeOutVia_keeps ..) (by decide) ?_
  exact Keeps.refl
theorem State.writeOut_keeps_eq {s : State} {t : Nat} {o : Op} {colour : Nat} {a : Nat} {bs : Sys2Proof.Bytes}
    {x0 x1 zz} (hE : State.writeOut s t o colour a bs = (x0, x1, zz)) : Keeps [.ctr, .mem, .tm] s zz := by
  have h := State.writeOut_keeps s t o colour a bs
  rw [hE] at h
  exact h

theorem State.finishOut_keeps (s : State) (t : Nat) (status : Nat) (detail : Nat) (progress : Nat) (acks : Nat) (cut
    : Bool) : Keeps [.out, .ctr, .pg, .media, .q, .mem, .tm, .part, .ev, .lk] s
        (State.finishOut s t status detail progress acks cut) := by
  unfold State.finishOut
  try dsimp -iota -proj only
  refine Keeps.ite ?_ ?_
  · refine Keeps.step (State.finishOp_keeps ..) (by decide) ?_
    exact Keeps.refl
  · refine Keeps.step (State.finishOp_keeps ..) (by decide) ?_
    exact Keeps.refl

theorem State.promoteRead_keeps (s : State) (fid : Nat) (layer : Nat) (sub : Nat) (cls : Nat) (v : BitVec 16) (d
    : SliceData) : Keeps [.free, .out, .ctr, .pg, .tier, .media, .q, .tm, .ev, .lk] s
        (State.promoteRead s fid layer sub cls v d) := by
  unfold State.promoteRead
  try dsimp -iota -proj only
  split
  · exact Keeps.refl
  · refine Keeps.ite ?_ ?_
    · refine Keeps.step (State.promote_keeps ..) (by decide) ?_
      exact Keeps.refl
    · exact Keeps.refl

theorem State.holdSlice_keeps (s : State) (t : Nat) (k : Nat × Nat) : Keeps [.ctr, .pg, .q] s (State.holdSlice s t k) := by
  unfold State.holdSlice
  try dsimp -iota -proj only
  split
  · refine Keeps.ite ?_ ?_
    · exact Keeps.refl
    · refine Keeps.step (State.pin_keeps ..) (by decide) ?_
      refine Keeps.step (State.setOp_keeps ..) (by decide) ?_
      exact Keeps.refl
  · exact Keeps.refl

theorem State.askSlices_keeps (s : State) (t : Nat) (c : Nat) (colour : Nat) (a4 : List (Nat × Nat))
    : Keeps [.free, .ctr, .pg, .media, .q, .tm, .lk] s (State.askSlices s t c colour a4).2 := by
  unfold State.askSlices
  try dsimp -iota -proj only
  split
  · exact Keeps.refl
  · split
    · refine Keeps.iteBy (fun x : Bool × State => x.2) ?_ ?_ <;> try dsimp -iota -proj only
      · refine Keeps.step (State.askSlices_keeps ..) (by decide) ?_
        exact Keeps.refl
      · refine Keeps.iteBy (fun x : Bool × State => x.2) ?_ ?_ <;> try dsimp -iota -proj only
        · refine Keeps.step (State.askSlices_keeps ..) (by decide) ?_
          refine Keeps.step (State.holdSlice_keeps ..) (by decide) ?_
          exact Keeps.refl
        · refine Keeps.iteBy (fun x : Bool × State => x.2) ?_ ?_ <;> try dsimp -iota -proj only
          · refine Keeps.step (State.askSlices_keeps ..) (by decide) ?_
            refine Keeps.step (State.readTN_keeps ..) (by decide) ?_
            refine Keeps.step (State.pin_keeps ..) (by decide) ?_
            exact Keeps.refl
          · refine Keeps.iteBy (fun x : Bool × State => x.2) ?_ ?_ <;> try dsimp -iota -proj only
            · split
              · refine Keeps.step (State.askSlices_keeps ..) (by decide) ?_
                refine Keeps.step (State.issueRead_keeps_eq (by assumption)) (by decide) ?_
                refine Keeps.step (State.pin_keeps ..) (by decide) ?_
                exact Keeps.refl
              · refine Keeps.step (State.issueRead_keeps_eq (by assumption)) (by decide) ?_
                refine Keeps.step (State.pin_keeps ..) (by decide) ?_
                exact Keeps.refl
            · refine Keeps.step (State.askSlices_keeps ..) (by decide) ?_
              exact Keeps.refl
    · refine Keeps.step (State.askSlices_keeps ..) (by decide) ?_
      exact Keeps.refl
theorem State.askSlices_keeps_eq {s : State} {t : Nat} {c : Nat} {colour : Nat} {a4 : List (Nat × Nat)} {x0 zz} (hE
    : State.askSlices s t c colour a4 = (x0, zz)) : Keeps [.free, .ctr, .pg, .media, .q, .tm, .lk] s zz := by
  have h := State.askSlices_keeps s t c colour a4
  rw [hE] at h
  exact h

theorem State.fetchSlices_keeps (s : State) (t : Nat) (c : Nat) (colour : Nat) (ks : List (Nat × Nat))
    : Keeps [.free, .ctr, .pg, .media, .q, .tm, .lk] s (State.fetchSlices s t c colour ks).2 := by
  unfold State.fetchSlices
  try dsimp -iota -proj only
  split
  · split
    · refine Keeps.mk2 ?_
      refine Keeps.step (State.setOp_keeps ..) (by decide) ?_
      refine Keeps.step (State.askSlices_keeps_eq (by assumption)) (by decide) ?_
      exact Keeps.refl
    · refine Keeps.step (State.askSlices_keeps_eq (by assumption)) (by decide) ?_
      exact Keeps.refl
  · split
    · refine Keeps.iteBy (fun x : Bool × State => x.2) ?_ ?_ <;> try dsimp -iota -proj only
      · refine Keeps.step (State.askSlices_keeps_eq (by assumption)) (by decide) ?_
        exact Keeps.refl
      · refine Keeps.mk2 ?_
        refine Keeps.step (State.setOp_keeps ..) (by decide) ?_
        refine Keeps.step (State.askSlices_keeps_eq (by assumption)) (by decide) ?_
        exact Keeps.refl
    · refine Keeps.step (State.askSlices_keeps_eq (by assumption)) (by decide) ?_
      exact Keeps.refl
theorem State.fetchSlices_keeps_eq {s : State} {t : Nat} {c : Nat} {colour : Nat} {ks : List (Nat × Nat)} {x0 zz} (hE
    : State.fetchSlices s t c colour ks = (x0, zz)) : Keeps [.free, .ctr, .pg, .media, .q, .tm, .lk] s zz := by
  have h := State.fetchSlices_keeps s t c colour ks
  rw [hE] at h
  exact h

theorem State.demand_keeps (s : State) (p : Nat) (f : Found) : Keeps [.ctr] s (State.demand s p f) := by
  unfold State.demand
  try dsimp -iota -proj only
  split
  · refine Keeps.ite ?_ ?_
    · refine Keeps.step (State.lossBump_keeps ..) (by decide) ?_
      refine Keeps.step (State.lossBump_keeps ..) (by decide) ?_
      exact Keeps.refl
    · refine Keeps.ite ?_ ?_
      · refine Keeps.step (State.lossBump_keeps ..) (by decide) ?_
        refine Keeps.step (State.lossBump_keeps ..) (by decide) ?_
        exact Keeps.refl
      · refine Keeps.ite ?_ ?_
        · refine Keeps.step (State.lossBump_keeps ..) (by decide) ?_
          refine Keeps.step (State.lossBump_keeps ..) (by decide) ?_
          exact Keeps.refl
        · refine Keeps.step (State.lossBump_keeps ..) (by decide) ?_
          exact Keeps.refl
  · refine Keeps.step (State.lossBump_keeps ..) (by decide) ?_
    exact Keeps.refl

theorem State.readIn_keeps (s : State) (o : Op) (colour : Nat) (a : Nat) (n : Nat) : Keeps [.ctr, .tm] s
    (State.readIn s o colour a n).2 := by
  unfold State.readIn
  try dsimp -iota -proj only
  refine Keeps.mk2 ?_
  refine Keeps.ite ?_ ?_
  · refine Keeps.step (State.pcieUnits_keeps ..) (by decide) ?_
    exact Keeps.refl
  · exact Keeps.refl
theorem State.readIn_keeps_eq {s : State} {o : Op} {colour : Nat} {a : Nat} {n : Nat} {x0 zz} (hE
    : State.readIn s o colour a n = (x0, zz)) : Keeps [.ctr, .tm] s zz := by
  have h := State.readIn_keeps s o colour a n
  rw [hE] at h
  exact h

theorem State.finishUnits_keeps (s : State) (t : Nat) (status : Nat) (acks : Nat) (cut : Bool) (units : List Nat)
    : Keeps [.out, .ctr, .pg, .media, .q, .mem, .tm, .part, .ev, .lk] s (State.finishUnits s t status acks cut units) := by
  unfold State.finishUnits
  try dsimp -iota -proj only
  refine Keeps.step (State.finishOut_keeps ..) (by decide) ?_
  split
  · refine Keeps.step (State.setOp_keeps ..) (by decide) ?_
    exact Keeps.refl
  · exact Keeps.refl

/-! ### Pips -/

theorem State.setArray_keeps (s : State) (a : Nat) (v : AnArray) : Keeps [.ix] s (State.setArray s a v) := by
  unfold State.setArray
  try dsimp -iota -proj only
  refine Keeps.step (Keeps.set_ix ..) (by decide) ?_
  exact Keeps.refl

theorem State.setPip_keeps (s : State) (i : Nat) (p : Pip) : Keeps [.ix] s (State.setPip s i p) := by
  unfold State.setPip
  try dsimp -iota -proj only
  refine Keeps.step (Keeps.set_ix ..) (by decide) ?_
  exact Keeps.refl

theorem State.placeFree_keeps (s : State) (i : Nat) (ban : Option (Nat × Nat)) : Keeps [.ix] s
    (State.placeFree s i ban) := by
  unfold State.placeFree
  try dsimp -iota -proj only
  split
  · exact Keeps.refl
  · refine Keeps.ite ?_ ?_
    · exact Keeps.refl
    · split
      · refine Keeps.step (State.setPip_keeps ..) (by decide) ?_
        exact Keeps.refl
      · exact Keeps.refl

theorem State.startBatch_keeps (s : State) (a : Nat) : Keeps [.ix] s (State.startBatch s a) := by
  unfold State.startBatch
  try dsimp -iota -proj only
  refine Keeps.ite ?_ ?_
  · exact Keeps.refl
  · refine Keeps.foldl (fun _ _ _ => ?_) ?_
    · split
      · refine Keeps.ite ?_ ?_
        · assumption
        · refine Keeps.step (State.setPip_keeps ..) (by decide) ?_
          assumption
      · assumption
    · refine Keeps.step (State.setArray_keeps ..) (by decide) ?_
      exact Keeps.refl

theorem State.startFor_keeps (s : State) (i : Nat) : Keeps [.ix] s (State.startFor s i) := by
  unfold State.startFor
  try dsimp -iota -proj only
  split
  · refine Keeps.foldl (fun _ _ _ => ?_) ?_
    · refine Keeps.step (State.startBatch_keeps ..) (by decide) ?_
      assumption
    · exact Keeps.refl
  · exact Keeps.refl

theorem State.unplace_keeps (s : State) (i : Nat) : Keeps [.ix] s (State.unplace s i) := by
  unfold State.unplace
  try dsimp -iota -proj only
  split
  · refine Keeps.step (State.setPip_keeps ..) (by decide) ?_
    exact Keeps.refl
  · exact Keeps.refl

theorem State.dropJobs_keeps (s : State) (sel : PipJob → Bool) : Keeps [.ix] s (State.dropJobs s sel) := by
  unfold State.dropJobs
  try dsimp -iota -proj only
  refine Keeps.step (Keeps.set_ix ..) (by decide) ?_
  exact Keeps.refl

theorem State.pipReads_keeps (s : State) (a1 : List (Nat × Nat)) : Keeps [.free, .ctr, .media, .q, .tm, .lk] s
    (State.pipReads s a1).2 := by
  unfold State.pipReads
  try dsimp -iota -proj only
  split
  · exact Keeps.refl
  · refine Keeps.mk2 ?_
    refine Keeps.step (State.pipReads_keeps ..) (by decide) ?_
    split
    · exact Keeps.refl
    · refine Keeps.iteBy (fun x : Bool × State => x.2) ?_ ?_ <;> try dsimp -iota -proj only
      · exact Keeps.refl
      · refine Keeps.iteBy (fun x : Bool × State => x.2) ?_ ?_ <;> try dsimp -iota -proj only
        · refine Keeps.mk2 ?_
          refine Keeps.step (State.hbmUnits_keeps ..) (by decide) ?_
          exact Keeps.refl
        · refine Keeps.iteBy (fun x : Bool × State => x.2) ?_ ?_ <;> try dsimp -iota -proj only
          · refine Keeps.mk2 ?_
            refine Keeps.step (State.readTN_keeps ..) (by decide) ?_
            exact Keeps.refl
          · refine Keeps.step (State.issueRead_keeps ..) (by decide) ?_
            exact Keeps.refl
theorem State.pipReads_keeps_eq {s : State} {a1 : List (Nat × Nat)} {x0 zz} (hE : State.pipReads s a1 = (x0, zz))
    : Keeps [.free, .ctr, .media, .q, .tm, .lk] s zz := by
  have h := State.pipReads_keeps s a1
  rw [hE] at h
  exact h

theorem State.pipBegin_keeps (s : State) (n : Nat) (q : Seq) (item : Nat) (k : PipKey) (fs : List Nat)
    : Keeps [.free, .ctr, .media, .q, .tm, .lk, .ix] s (State.pipBegin s n q item k fs) := by
  unfold State.pipBegin
  try dsimp -iota -proj only
  refine Keeps.step (Keeps.set_ix ..) (by decide) ?_
  refine Keeps.step (State.pipReads_keeps ..) (by decide) ?_
  exact Keeps.refl

theorem State.pipLook_keeps (s : State) (n : Nat) (q : Seq) (item : Nat) (k : PipKey) (fs : List Nat)
    : Keeps [.free, .ctr, .media, .q, .tm, .lk, .ix] s (State.pipLook s n q item k fs) := by
  unfold State.pipLook
  try dsimp -iota -proj only
  refine Keeps.ite ?_ ?_
  · refine Keeps.ite ?_ ?_
    · refine Keeps.step (State.bump_keeps ..) (by decide) ?_
      refine Keeps.ite ?_ ?_
      · refine Keeps.step (Keeps.set_ix ..) (by decide) ?_
        exact Keeps.refl
      · exact Keeps.refl
    · refine Keeps.ite ?_ ?_
      · refine Keeps.step (Keeps.set_ix ..) (by decide) ?_
        exact Keeps.refl
      · exact Keeps.refl
  · refine Keeps.step (State.pipBegin_keeps ..) (by decide) ?_
    refine Keeps.ite ?_ ?_
    · refine Keeps.step (Keeps.set_ix ..) (by decide) ?_
      exact Keeps.refl
    · exact Keeps.refl

theorem State.placePip_keeps (s : State) (i : Nat) (ban : Option (Nat × Nat)) : Keeps [.ctr, .ix] s
    (State.placePip s i ban) := by
  unfold State.placePip
  try dsimp -iota -proj only
  split
  · refine Keeps.step (State.placeFree_keeps ..) (by decide) ?_
    exact Keeps.refl
  · refine Keeps.ite ?_ ?_
    · refine Keeps.step (State.placeFree_keeps ..) (by decide) ?_
      exact Keeps.refl
    · split
      · refine Keeps.step (State.setPip_keeps ..) (by decide) ?_
        refine Keeps.foldl (fun _ _ _ => ?_) ?_
        · refine Keeps.step (State.unplace_keeps ..) (by decide) ?_
          assumption
        · refine Keeps.step (State.placeFree_keeps ..) (by decide) ?_
          exact Keeps.refl
      · refine Keeps.step (State.bump_keeps ..) (by decide) ?_
        refine Keeps.step (State.placeFree_keeps ..) (by decide) ?_
        exact Keeps.refl

theorem State.pipRetry_keeps (s : State) : Keeps [.free, .ctr, .media, .q, .tm, .lk, .ix] s (State.pipRetry s) := by
  unfold State.pipRetry
  try dsimp -iota -proj only
  refine Keeps.foldl (fun _ _ _ => ?_) ?_
  · refine Keeps.ite ?_ ?_
    · assumption
    · refine Keeps.step (Keeps.set_ix ..) (by decide) ?_
      refine Keeps.step (State.pipReads_keeps ..) (by decide) ?_
      assumption
  · exact Keeps.refl

theorem State.pipLooks_keeps (s : State) (n : Nat) (q : Seq) (span : Bool)
    : Keeps [.free, .ctr, .media, .q, .tm, .lk, .ix] s (State.pipLooks s n q span) := by
  unfold State.pipLooks
  try dsimp -iota -proj only
  refine Keeps.ite ?_ ?_
  · exact Keeps.refl
  · refine Keeps.foldl (fun _ _ _ => ?_) ?_
    · refine Keeps.foldl (fun _ _ _ => ?_) ?_
      · split
        · refine Keeps.step (State.pipLook_keeps ..) (by decide) ?_
          assumption
        · assumption
      · assumption
    · exact Keeps.refl

theorem State.placeWaiting_keeps (s : State) : Keeps [.ix] s (State.placeWaiting s) := by
  unfold State.placeWaiting
  try dsimp -iota -proj only
  refine Keeps.foldl (fun _ _ _ => ?_) ?_
  · refine Keeps.step (State.startFor_keeps ..) (by decide) ?_
    refine Keeps.step (State.placeFree_keeps ..) (by decide) ?_
    assumption
  · exact Keeps.refl

theorem State.indexTick_keeps (s : State) : Keeps [.free, .ctr, .media, .q, .tm, .lk, .ix] s (State.indexTick s) := by
  unfold State.indexTick
  try dsimp -iota -proj only
  refine Keeps.step (State.placeWaiting_keeps ..) (by decide) ?_
  refine Keeps.foldl (fun _ _ _ => ?_) ?_
  · refine Keeps.step (State.pipLooks_keeps ..) (by decide) ?_
    assumption
  · refine Keeps.foldl (fun _ _ _ => ?_) ?_
    · refine Keeps.step (State.pipLooks_keeps ..) (by decide) ?_
      assumption
    · refine Keeps.step (State.pipRetry_keeps ..) (by decide) ?_
      refine Keeps.step (Keeps.set_ix ..) (by decide) ?_
      exact Keeps.refl

/-! ### Fences -/

theorem State.cutReads_keeps (s : State) (n : Nat) : Keeps [.free, .ctr, .q, .tm, .lk] s (State.cutReads s n) := by
  unfold State.cutReads
  try dsimp -iota -proj only
  refine Keeps.foldl (fun _ _ _ => ?_) ?_
  · split
    · refine Keeps.step (State.arrive_keeps ..) (by decide) ?_
      assumption
    · refine Keeps.step (State.readTN_keeps ..) (by decide) ?_
      assumption
  · refine Keeps.step (Keeps.set_lk ..) (by decide) ?_
    exact Keeps.refl

theorem State.takeUnits_keeps (s : State) (x : Nat) (sel : Nat → TUnit → Bool) : Keeps [.tm] s
    (State.takeUnits s x sel) := by
  unfold State.takeUnits
  try dsimp -iota -proj only
  refine Keeps.ite ?_ ?_
  · refine Keeps.step (Keeps.set_tm ..) (by decide) ?_
    exact Keeps.refl
  · refine Keeps.step (State.setRind_keeps ..) (by decide) ?_
    refine Keeps.step (Keeps.set_tm ..) (by decide) ?_
    exact Keeps.refl

theorem State.dropUnits_keeps (s : State) (x : Nat) (n : Nat) (sel : Nat → TUnit → Bool) : Keeps [.ctr, .tm] s
    (State.dropUnits s x n sel) := by
  unfold State.dropUnits
  try dsimp -iota -proj only
  refine Keeps.ite ?_ ?_
  · exact Keeps.refl
  · refine Keeps.foldl (fun _ _ _ => ?_) ?_
    · refine Keeps.step (State.place_keeps ..) (by decide) ?_
      assumption
    · refine Keeps.foldl (fun _ _ _ => ?_) ?_
      · refine Keeps.step (State.countDrop_keeps ..) (by decide) ?_
        assumption
      · refine Keeps.step (State.takeUnits_keeps ..) (by decide) ?_
        exact Keeps.refl

theorem State.loseTN_keeps (s : State) (fid : Nat) (layer : Nat) : Keeps [.free, .ctr, .pg, .tier, .media, .tm] s
    (State.loseTN s fid layer) := by
  unfold State.loseTN
  try dsimp -iota -proj only
  refine Keeps.ite ?_ ?_
  · refine Keeps.ite ?_ ?_
    · refine Keeps.step (State.startWriteBack_keeps ..) (by decide) ?_
      refine Keeps.step (State.modSlice_keeps ..) (by decide) ?_
      refine Keeps.step (Keeps.set_tier ..) (by decide) ?_
      exact Keeps.refl
    · refine Keeps.step (State.modSlice_keeps ..) (by decide) ?_
      refine Keeps.step (Keeps.set_tier ..) (by decide) ?_
      exact Keeps.refl
  · refine Keeps.ite ?_ ?_
    · refine Keeps.step (State.modSlice_keeps ..) (by decide) ?_
      refine Keeps.step (Keeps.set_tier ..) (by decide) ?_
      exact Keeps.refl
    · refine Keeps.step (State.dropSlice_keeps ..) (by decide) ?_
      refine Keeps.step (Keeps.set_tier ..) (by decide) ?_
      exact Keeps.refl

theorem State.endLease_keeps (s : State) (k : Nat) (st : Nat) (change : Nat)
    : Keeps [.free, .out, .ctr, .pg, .tier, .media, .q, .tm, .ev, .lk] s (State.endLease s k st change) := by
  unfold State.endLease
  try dsimp -iota -proj only
  split
  · exact Keeps.refl
  · refine Keeps.step (State.leaseEvent_keeps ..) (by decide) ?_
    refine Keeps.foldl (fun _ _ _ => ?_) ?_
    · split
      · refine Keeps.step (State.arrive_keeps ..) (by decide) ?_
        assumption
      · assumption
    · refine Keeps.step (Keeps.set_lk ..) (by decide) ?_
      refine Keeps.foldl (fun _ _ _ => ?_) ?_
      · refine Keeps.step (State.loseTN_keeps ..) (by decide) ?_
        assumption
      · exact Keeps.refl

theorem State.putStatuses_keeps (s : State) (t : Nat) (o : Op) (colour : Nat) : Keeps [.ctr, .mem, .tm] s
    (State.putStatuses s t o colour).2.2 := by
  unfold State.putStatuses
  try dsimp -iota -proj only
  refine Keeps.step (State.writeOut_keeps ..) (by decide) ?_
  exact Keeps.refl
theorem State.putStatuses_keeps_eq {s : State} {t : Nat} {o : Op} {colour : Nat} {x0 x1 zz} (hE
    : State.putStatuses s t o colour = (x0, x1, zz)) : Keeps [.ctr, .mem, .tm] s zz := by
  have h := State.putStatuses_keeps s t o colour
  rw [hE] at h
  exact h

theorem State.saveLose_keeps (s : State) (t : Nat) (p : Nat) (id : Nat) (e : Nat) : Keeps [.att] s
    (State.saveLose s t p id e) := by
  unfold State.saveLose
  try dsimp -iota -proj only
  refine Keeps.step (Keeps.set_att ..) (by decide) ?_
  exact Keeps.refl

theorem State.cutAttend_keeps (s : State) (t : Nat) (o : Op)
    : Keeps [.out, .ctr, .pg, .media, .q, .mem, .tm, .part, .ev, .lk, .att] s (State.cutAttend s t o) := by
  unfold State.cutAttend
  try dsimp -iota -proj only
  refine Keeps.step (State.endOp_keeps ..) (by decide) ?_
  refine Keeps.step (State.putStatuses_keeps ..) (by decide) ?_
  refine Keeps.step (State.setOp_keeps ..) (by decide) ?_
  refine Keeps.ite ?_ ?_
  · refine Keeps.foldl (fun _ _ _ => ?_) ?_
    · refine Keeps.step (State.saveLose_keeps ..) (by decide) ?_
      assumption
    · exact Keeps.refl
  · exact Keeps.refl

theorem State.setPlan_keeps (s : State) (p : Nat) (n : Nat) (v : Plan) : Keeps [.tier] s (State.setPlan s p n v) := by
  unfold State.setPlan
  try dsimp -iota -proj only
  refine Keeps.step (Keeps.set_tier ..) (by decide) ?_
  exact Keeps.refl

theorem State.endJob_keeps (s : State) (p : Nat) (n : Nat) (no : Nat) : Keeps [.tier] s (State.endJob s p n no) := by
  unfold State.endJob
  try dsimp -iota -proj only
  refine Keeps.step (State.setPlan_keeps ..) (by decide) ?_
  exact Keeps.refl

theorem State.layerEnd_keeps (s : State) (p : Nat) (n : Nat) (j : PlanJob) (bad : Nat) : Keeps [.ctr, .tm] s
    (State.layerEnd s p n j bad) := by
  unfold State.layerEnd
  try dsimp -iota -proj only
  refine Keeps.foldl (fun _ _ _ => ?_) ?_
  · refine Keeps.step (State.place_keeps ..) (by decide) ?_
    assumption
  · exact Keeps.refl

theorem State.cutPush_keeps (s : State) (t : Nat) (o : Op) (n : Nat) (pos : Nat) (fs : List LFrame)
    : Keeps [.out, .ctr, .pg, .tier, .media, .q, .mem, .tm, .part, .ev, .lk] s (State.cutPush s t o n pos fs) := by
  unfold State.cutPush
  try dsimp -iota -proj only
  split
  · refine Keeps.step (State.endOp_keeps ..) (by decide) ?_
    refine Keeps.step (State.endJob_keeps ..) (by decide) ?_
    refine Keeps.step (State.layerEnd_keeps ..) (by decide) ?_
    exact Keeps.refl
  · refine Keeps.step (State.endOp_keeps ..) (by decide) ?_
    exact Keeps.refl

theorem State.endLinkDown_keeps (s : State) (t : Nat) (fs : List LFrame)
    : Keeps [.out, .ctr, .pg, .tier, .media, .q, .mem, .tm, .part, .ev, .lk, .att] s (State.endLinkDown s t fs) := by
  unfold State.endLinkDown
  try dsimp -iota -proj only
  split
  · exact Keeps.refl
  · refine Keeps.ite ?_ ?_
    · exact Keeps.refl
    · split
      · refine Keeps.step (State.cutPush_keeps ..) (by decide) ?_
        exact Keeps.refl
      · refine Keeps.ite ?_ ?_
        · refine Keeps.step (State.cutAttend_keeps ..) (by decide) ?_
          exact Keeps.refl
        · refine Keeps.step (State.endOp_keeps ..) (by decide) ?_
          exact Keeps.refl

theorem State.linkCount_keeps (s : State) (n : Nat) (sub : Nat) (k : Nat) : Keeps [.ctr] s (State.linkCount s n sub k) := by
  unfold State.linkCount
  try dsimp -iota -proj only
  refine Keeps.step (State.bump_keeps ..) (by decide) ?_
  exact Keeps.refl

theorem State.setLink_keeps (s : State) (n : Nat) (l : Link) : Keeps [.lk] s (State.setLink s n l) := by
  unfold State.setLink
  try dsimp -iota -proj only
  refine Keeps.step (Keeps.set_lk ..) (by decide) ?_
  exact Keeps.refl

theorem State.linkDown_keeps (s : State) (n : Nat) (reason : Nat) (st : LinkSt) : Keeps
    (Fld.but [.pending, .up, .now, .cfg, .blob, .px, .boot, .clk, .ix, .pxb, .pwr]) s (State.linkDown s n reason st) := by
  unfold State.linkDown
  try dsimp -iota -proj only
  refine Keeps.step (State.linkCount_keeps ..) (by decide) ?_
  refine Keeps.step (State.event_keeps ..) (by decide) ?_
  refine Keeps.step (State.cutReads_keeps ..) (by decide) ?_
  refine Keeps.ite ?_ ?_
  · refine Keeps.foldl (fun _ _ _ => ?_) ?_
    · refine Keeps.ite ?_ ?_
      · refine Keeps.step (State.endLease_keeps ..) (by decide) ?_
        assumption
      · assumption
    · refine Keeps.step (Keeps.set_dict ..) (by decide) ?_
      refine Keeps.step (Keeps.set_lk ..) (by decide) ?_
      refine Keeps.foldl (fun _ _ _ => ?_) ?_
      · refine Keeps.step (State.flushQueue_keeps ..) (by decide) ?_
        assumption
      · refine Keeps.foldl (fun _ _ _ => ?_) ?_
        · refine Keeps.step (State.endLinkDown_keeps ..) (by decide) ?_
          assumption
        · refine Keeps.step (State.dropUnits_keeps ..) (by decide) ?_
          refine Keeps.foldl (fun _ _ _ => ?_) ?_
          · split
            · refine Keeps.step (State.putResetRecord_keeps ..) (by decide) ?_
              assumption
            · assumption
          · refine Keeps.step (State.setLink_keeps ..) (by decide) ?_
            refine Keeps.foldl (fun _ _ _ => ?_) ?_
            · refine Keeps.step (Keeps.set_part ..) (by decide) ?_
              assumption
            · exact Keeps.refl
  · refine Keeps.step (Keeps.set_dict ..) (by decide) ?_
    refine Keeps.step (Keeps.set_lk ..) (by decide) ?_
    refine Keeps.foldl (fun _ _ _ => ?_) ?_
    · refine Keeps.step (State.flushQueue_keeps ..) (by decide) ?_
      assumption
    · refine Keeps.foldl (fun _ _ _ => ?_) ?_
      · refine Keeps.step (State.endLinkDown_keeps ..) (by decide) ?_
        assumption
      · refine Keeps.step (State.dropUnits_keeps ..) (by decide) ?_
        refine Keeps.foldl (fun _ _ _ => ?_) ?_
        · split
          · refine Keeps.step (State.putResetRecord_keeps ..) (by decide) ?_
            assumption
          · assumption
        · refine Keeps.step (State.setLink_keeps ..) (by decide) ?_
          refine Keeps.foldl (fun _ _ _ => ?_) ?_
          · refine Keeps.step (Keeps.set_part ..) (by decide) ?_
            assumption
          · exact Keeps.refl

theorem State.loseCopy_keeps (s : State) (fid : Nat) (layer : Nat) (x : Nat) : Keeps [.ctr, .pg, .tier, .media] s
    (State.loseCopy s fid layer x) := by
  unfold State.loseCopy
  try dsimp -iota -proj only
  split
  · exact Keeps.refl
  · refine Keeps.ite ?_ ?_
    · refine Keeps.step (State.dropSlice_keeps ..) (by decide) ?_
      exact Keeps.refl
    · refine Keeps.ite ?_ ?_
      · refine Keeps.step (State.modSlice_keeps ..) (by decide) ?_
        exact Keeps.refl
      · refine Keeps.ite ?_ ?_
        · exact Keeps.refl
        · refine Keeps.step (State.modSlice_keeps ..) (by decide) ?_
          exact Keeps.refl

theorem State.loseCopies_keeps (s : State) (x : Nat) (sel : Nat → Nat → Bool) : Keeps [.ctr, .pg, .tier, .media] s
    (State.loseCopies s x sel) := by
  unfold State.loseCopies
  try dsimp -iota -proj only
  refine Keeps.foldl (fun _ _ _ => ?_) ?_
  · refine Keeps.step (State.loseCopy_keeps ..) (by decide) ?_
    assumption
  · exact Keeps.refl

theorem State.loseT2_keeps (s : State) (fid : Nat) (layer : Nat) : Keeps [.ctr, .pg, .tier, .media] s
    (State.loseT2 s fid layer) := by
  unfold State.loseT2
  try dsimp -iota -proj only
  split
  · exact Keeps.refl
  · refine Keeps.ite ?_ ?_
    · refine Keeps.step (State.dropSlice_keeps ..) (by decide) ?_
      exact Keeps.refl
    · refine Keeps.step (State.modSlice_keeps ..) (by decide) ?_
      refine Keeps.step (State.setMap_keeps ..) (by decide) ?_
      exact Keeps.refl

theorem State.rebuildLeaves_keeps (s : State) (n : Nat) (bs : List Nat) : Keeps [.pg, .media] s
    (State.rebuildLeaves s n bs) := by
  unfold State.rebuildLeaves
  try dsimp -iota -proj only
  split
  · exact Keeps.refl
  · refine Keeps.foldl (fun _ _ _ => ?_) ?_
    · refine Keeps.step (State.setLeaf_keeps ..) (by decide) ?_
      assumption
    · refine Keeps.step (State.loseRefs_keeps ..) (by decide) ?_
      exact Keeps.refl

theorem State.structLost_keeps (s : State) (k : Nat) : Keeps [.out, .ctr, .media, .q, .ev] s (State.structLost s k) := by
  unfold State.structLost
  try dsimp -iota -proj only
  refine Keeps.step (State.event_keeps ..) (by decide) ?_
  exact Keeps.refl

theorem State.loseStruct_keeps (s : State) (x : Sys2Proof.Lost)
    : Keeps [.out, .ctr, .pg, .px, .tier, .media, .q, .ev, .ix] s (State.loseStruct s x) := by
  unfold State.loseStruct
  try dsimp -iota -proj only
  split
  · refine Keeps.ite ?_ ?_
    · exact Keeps.refl
    · refine Keeps.step (State.structLost_keeps ..) (by decide) ?_
      refine Keeps.step (State.touch_keeps ..) (by decide) ?_
      refine Keeps.step (State.freePips_keeps ..) (by decide) ?_
      refine Keeps.step (Keeps.set_pg ..) (by decide) ?_
      refine Keeps.step (State.loseRefs_keeps ..) (by decide) ?_
      exact Keeps.refl
  · refine Keeps.ite ?_ ?_
    · exact Keeps.refl
    · refine Keeps.step (State.structLost_keeps ..) (by decide) ?_
      refine Keeps.step (State.rebuildLeaves_keeps ..) (by decide) ?_
      exact Keeps.refl
  · split
    · exact Keeps.refl
    · refine Keeps.step (State.structLost_keeps ..) (by decide) ?_
      refine Keeps.step (State.rebuildLeaves_keeps ..) (by decide) ?_
      exact Keeps.refl
  · split
    · exact Keeps.refl
    · refine Keeps.step (State.structLost_keeps ..) (by decide) ?_
      refine Keeps.step (State.touch_keeps ..) (by decide) ?_
      refine Keeps.step (State.modFrame_keeps ..) (by decide) ?_
      refine Keeps.foldl (fun _ _ _ => ?_) ?_
      · refine Keeps.ite ?_ ?_
        · refine Keeps.step (State.dropSlice_keeps ..) (by decide) ?_
          assumption
        · refine Keeps.step (State.modSlice_keeps ..) (by decide) ?_
          assumption
      · exact Keeps.refl
  · refine Keeps.ite ?_ ?_
    · exact Keeps.refl
    · refine Keeps.step (State.event_keeps ..) (by decide) ?_
      refine Keeps.step (State.bump_keeps ..) (by decide) ?_
      refine Keeps.step (State.dropKey_keeps ..) (by decide) ?_
      exact Keeps.refl
  · refine Keeps.ite ?_ ?_
    · exact Keeps.refl
    · refine Keeps.step (State.bump_keeps ..) (by decide) ?_
      refine Keeps.step (State.freePips_keeps ..) (by decide) ?_
      exact Keeps.refl
  · refine Keeps.step (State.structLost_keeps ..) (by decide) ?_
    refine Keeps.step (State.bump_keeps ..) (by decide) ?_
    refine Keeps.step (Keeps.set_ev ..) (by decide) ?_
    exact Keeps.refl
  · refine Keeps.ite ?_ ?_
    · refine Keeps.step (State.bump_keeps ..) (by decide) ?_
      refine Keeps.step (Keeps.set_ev ..) (by decide) ?_
      exact Keeps.refl
    · exact Keeps.refl
  · refine Keeps.step (State.structLost_keeps ..) (by decide) ?_
    refine Keeps.foldl (fun _ _ _ => ?_) ?_
    · split
      · refine Keeps.step (State.loseT2_keeps ..) (by decide) ?_
        assumption
      · assumption
    · exact Keeps.refl

theorem State.loseKey_keeps (s : State) (k : MetaKey) : Keeps [.out, .ctr, .pg, .px, .tier, .media, .q, .ev, .ix] s
    (State.loseKey s k) := by
  unfold State.loseKey
  try dsimp -iota -proj only
  split
  · refine Keeps.step (State.loseStruct_keeps ..) (by decide) ?_
    exact Keeps.refl
  · refine Keeps.step (State.loseStruct_keeps ..) (by decide) ?_
    exact Keeps.refl
  · refine Keeps.step (State.loseStruct_keeps ..) (by decide) ?_
    exact Keeps.refl
  · refine Keeps.step (State.loseStruct_keeps ..) (by decide) ?_
    exact Keeps.refl
  · refine Keeps.step (State.loseStruct_keeps ..) (by decide) ?_
    exact Keeps.refl
  · refine Keeps.step (State.touch_keeps ..) (by decide) ?_
    exact Keeps.refl

theorem State.checkMeta_keeps (s : State) : Keeps [.out, .ctr, .pg, .px, .tier, .media, .q, .ev, .ix] s
    (State.checkMeta s) := by
  unfold State.checkMeta
  try dsimp -iota -proj only
  refine Keeps.ite ?_ ?_
  · exact Keeps.refl
  · refine Keeps.foldl (fun _ _ _ => ?_) ?_
    · refine Keeps.step (State.loseKey_keeps ..) (by decide) ?_
      assumption
    · refine Keeps.step (Keeps.set_media ..) (by decide) ?_
      exact Keeps.refl

theorem State.pageLoaded_keeps (s : State) (p : Nat) : Keeps [.ctr, .media, .q, .tm] s (State.pageLoaded s p) := by
  unfold State.pageLoaded
  try dsimp -iota -proj only
  refine Keeps.foldl (fun _ _ _ => ?_) ?_
  · split
    · refine Keeps.ite ?_ ?_
      · assumption
      · refine Keeps.step (State.issueRead_keeps ..) (by decide) ?_
        assumption
    · assumption
  · refine Keeps.step (Keeps.set_media_q ..) (by decide) ?_
    split
    · refine Keeps.step (State.setCache_keeps ..) (by decide) ?_
      exact Keeps.refl
    · exact Keeps.refl

theorem State.pageFailed_keeps (s : State) (op : DieOp) (p : Nat)
    : Keeps [.out, .ctr, .pg, .px, .tier, .media, .q, .tm, .ev, .ix] s (State.pageFailed s op p) := by
  unfold State.pageFailed
  try dsimp -iota -proj only
  split
  · refine Keeps.ite ?_ ?_
    · refine Keeps.step (State.pageLoaded_keeps ..) (by decide) ?_
      refine Keeps.step (State.touch_keeps ..) (by decide) ?_
      refine Keeps.step (State.loseStruct_keeps ..) (by decide) ?_
      exact Keeps.refl
    · refine Keeps.step (State.dieUnit_keeps ..) (by decide) ?_
      exact Keeps.refl
  · refine Keeps.step (State.pageLoaded_keeps ..) (by decide) ?_
    refine Keeps.step (State.touch_keeps ..) (by decide) ?_
    refine Keeps.step (State.loseStruct_keeps ..) (by decide) ?_
    exact Keeps.refl

theorem State.loseOp_keeps (s : State) (o : DieOp) : Keeps [.out, .ctr, .pg, .px, .tier, .media, .q, .tm, .ev, .ix] s
    (State.loseOp s o) := by
  unfold State.loseOp
  try dsimp -iota -proj only
  refine Keeps.ite ?_ ?_
  · refine Keeps.step (State.reprogram_keeps ..) (by decide) ?_
    exact Keeps.refl
  · refine Keeps.ite ?_ ?_
    · exact Keeps.refl
    · split
      · refine Keeps.step (State.pageFailed_keeps ..) (by decide) ?_
        exact Keeps.refl
      · refine Keeps.ite ?_ ?_
        · refine Keeps.step (State.arrive_keeps ..) (by decide) ?_
          exact Keeps.refl
        · exact Keeps.refl
      · exact Keeps.refl

theorem State.loseDie_keeps (s : State) (n : Nat) : Keeps [.out, .ctr, .pg, .px, .tier, .media, .q, .tm, .ev, .ix] s
    (State.loseDie s n) := by
  unfold State.loseDie
  try dsimp -iota -proj only
  refine Keeps.step (State.bump_keeps ..) (by decide) ?_
  refine Keeps.step (State.checkMeta_keeps ..) (by decide) ?_
  refine Keeps.foldl (fun _ _ _ => ?_) ?_
  · refine Keeps.step (State.loseOp_keeps ..) (by decide) ?_
    assumption
  · refine Keeps.foldl (fun _ _ _ => ?_) ?_
    · split
      · refine Keeps.step (State.loseT2_keeps ..) (by decide) ?_
        assumption
      · assumption
    · refine Keeps.step (State.setDie_keeps ..) (by decide) ?_
      refine Keeps.step (Keeps.set_media ..) (by decide) ?_
      refine Keeps.step (State.takeUnits_keeps ..) (by decide) ?_
      exact Keeps.refl

theorem State.losePort_keeps (old : State) (s : State) (x : Nat) : Keeps
    (Fld.but [.pending, .up, .now, .cfg, .blob, .boot, .clk, .pxb, .pwr]) s (State.losePort old s x) := by
  unfold State.losePort
  try dsimp -iota -proj only
  split
  · refine Keeps.step (State.loseCopies_keeps ..) (by decide) ?_
    exact Keeps.refl
  · refine Keeps.foldl (fun _ _ _ => ?_) ?_
    · refine Keeps.step (State.loseDie_keeps ..) (by decide) ?_
      assumption
    · exact Keeps.refl
  · refine Keeps.step (State.linkDown_keeps ..) (by decide) ?_
    exact Keeps.refl
  · exact Keeps.refl

theorem State.freeSave_keeps (s : State) (p : Nat) (id : Nat) : Keeps [.att] s (State.freeSave s p id) := by
  unfold State.freeSave
  try dsimp -iota -proj only
  refine Keeps.step (Keeps.set_att ..) (by decide) ?_
  exact Keeps.refl

theorem State.cleanCam_keeps (s : State) : Keeps [.px] s (State.cleanCam s) := by
  unfold State.cleanCam
  try dsimp -iota -proj only
  refine Keeps.step (Keeps.set_px ..) (by decide) ?_
  exact Keeps.refl

theorem State.unplacePips_keeps (s : State) (sel : Nat → Nat → Bool) : Keeps [.ix] s (State.unplacePips s sel) := by
  unfold State.unplacePips
  try dsimp -iota -proj only
  refine Keeps.foldl (fun _ _ _ => ?_) ?_
  · refine Keeps.step (State.startFor_keeps ..) (by decide) ?_
    refine Keeps.step (State.placeFree_keeps ..) (by decide) ?_
    assumption
  · refine Keeps.foldl (fun _ _ _ => ?_) ?_
    · refine Keeps.step (State.unplace_keeps ..) (by decide) ?_
      assumption
    · exact Keeps.refl

theorem State.fenceArray_keeps (s : State) (a : Nat) : Keeps [.out, .ctr, .media, .q, .ev, .ix] s
    (State.fenceArray s a) := by
  unfold State.fenceArray
  try dsimp -iota -proj only
  refine Keeps.ite ?_ ?_
  · exact Keeps.refl
  · refine Keeps.step (State.event_keeps ..) (by decide) ?_
    refine Keeps.step (State.bump_keeps ..) (by decide) ?_
    refine Keeps.step (State.unplacePips_keeps ..) (by decide) ?_
    refine Keeps.step (State.setArray_keeps ..) (by decide) ?_
    exact Keeps.refl

theorem State.markRefill_keeps (s : State) (sel : DirEnt → Bool) : Keeps [.px] s (State.markRefill s sel) := by
  unfold State.markRefill
  try dsimp -iota -proj only
  refine Keeps.step (Keeps.set_px ..) (by decide) ?_
  exact Keeps.refl

theorem State.refillMoved_keeps (old : State) (s : State) : Keeps [.px] s (State.refillMoved old s) := by
  unfold State.refillMoved
  try dsimp -iota -proj only
  refine Keeps.step (State.markRefill_keeps ..) (by decide) ?_
  exact Keeps.refl

theorem State.fenceData_keeps (old : State) (s : State) (kind : Nat) (field : Nat) (unit : Nat) : Keeps
    (Fld.but [.pending, .up, .now, .cfg, .blob, .boot, .clk, .pxb, .pwr]) s (State.fenceData old s kind field unit) := by
  unfold State.fenceData
  try dsimp -iota -proj only
  split
  · refine Keeps.ite ?_ ?_
    · refine Keeps.foldl (fun _ _ _ => ?_) ?_
      · refine Keeps.step (State.losePort_keeps ..) (by decide) ?_
        assumption
      · exact Keeps.refl
    · refine Keeps.step (State.refillMoved_keeps ..) (by decide) ?_
      refine Keeps.step (State.cleanCam_keeps ..) (by decide) ?_
      refine Keeps.foldl (fun _ _ _ => ?_) ?_
      · refine Keeps.ite ?_ ?_
        · refine Keeps.step (State.fenceArray_keeps ..) (by decide) ?_
          assumption
        · assumption
      · refine Keeps.step (State.loseCopies_keeps ..) (by decide) ?_
        exact Keeps.refl
  · refine Keeps.step (State.loseCopies_keeps ..) (by decide) ?_
    exact Keeps.refl
  · refine Keeps.ite ?_ ?_
    · refine Keeps.step (State.mendBank_keeps ..) (by decide) ?_
      refine Keeps.step (State.cleanCam_keeps ..) (by decide) ?_
      exact Keeps.refl
    · refine Keeps.step (State.refillMoved_keeps ..) (by decide) ?_
      refine Keeps.step (State.cleanCam_keeps ..) (by decide) ?_
      exact Keeps.refl
  · refine Keeps.step (State.unplacePips_keeps ..) (by decide) ?_
    exact Keeps.refl
  · refine Keeps.step (State.fenceArray_keeps ..) (by decide) ?_
    exact Keeps.refl
  · refine Keeps.step (State.loseCopies_keeps ..) (by decide) ?_
    exact Keeps.refl
  · refine Keeps.step (State.loseCopies_keeps ..) (by decide) ?_
    exact Keeps.refl
  · refine Keeps.step (State.loseDie_keeps ..) (by decide) ?_
    exact Keeps.refl
  · refine Keeps.foldl (fun _ _ _ => ?_) ?_
    · refine Keeps.step (State.loseDie_keeps ..) (by decide) ?_
      assumption
    · exact Keeps.refl
  · refine Keeps.step (State.linkDown_keeps ..) (by decide) ?_
    exact Keeps.refl
  · refine Keeps.foldl (fun _ _ _ => ?_) ?_
    · refine Keeps.step (State.losePort_keeps ..) (by decide) ?_
      assumption
    · exact Keeps.refl
  · exact Keeps.refl

theorem State.fenceEffects_keeps (old : State) (s : State) (kind : Nat) (field : Nat) (unit : Nat) : Keeps
    (Fld.but [.pending, .up, .now, .cfg, .blob, .boot, .clk, .pxb, .pwr]) s (State.fenceEffects old s kind field unit) := by
  unfold State.fenceEffects
  try dsimp -iota -proj only
  refine Keeps.foldl (fun _ _ _ => ?_) ?_
  · refine Keeps.step (State.reRatio_keeps ..) (by decide) ?_
    assumption
  · refine Keeps.foldl (fun _ _ _ => ?_) ?_
    · refine Keeps.ite ?_ ?_
      · refine Keeps.step (State.dropUnits_keeps ..) (by decide) ?_
        assumption
      · assumption
    · refine Keeps.step (State.fenceData_keeps ..) (by decide) ?_
      exact Keeps.refl

theorem State.addEntry_keeps (s : State) (d : Defect) : Keeps [.out, .ctr, .media, .q, .ev, .boot] s
    (State.addEntry s d) := by
  unfold State.addEntry
  try dsimp -iota -proj only
  refine Keeps.ite ?_ ?_
  · refine Keeps.step (Keeps.set_boot ..) (by decide) ?_
    exact Keeps.refl
  · refine Keeps.step (State.event_keeps ..) (by decide) ?_
    refine Keeps.step (State.bump_keeps ..) (by decide) ?_
    refine Keeps.step (Keeps.set_boot ..) (by decide) ?_
    exact Keeps.refl

theorem State.fenceNote_keeps (s : State) (cls : Nat) (kind : Nat) (field : Nat) (unit : Nat) (origin : Nat) (reason
    : Nat) : Keeps [.out, .ctr, .media, .q, .ev, .boot] s (State.fenceNote s cls kind field unit origin reason) := by
  unfold State.fenceNote
  try dsimp -iota -proj only
  refine Keeps.step (State.eventAs_keeps ..) (by decide) ?_
  refine Keeps.step (State.addEntry_keeps ..) (by decide) ?_
  exact Keeps.refl

theorem State.fence_keeps (s : State) (kind : Nat) (field : Nat) (unit : Nat) (origin : Nat) (reason : Nat) : Keeps
    (Fld.but [.pending, .up, .now, .cfg, .blob, .clk, .pxb, .pwr]) s (State.fence s kind field unit origin reason) := by
  unfold State.fence
  try dsimp -iota -proj only
  refine Keeps.ite ?_ ?_
  · exact Keeps.refl
  · refine Keeps.step (State.fenceEffects_keeps ..) (by decide) ?_
    refine Keeps.step (State.fenceNote_keeps ..) (by decide) ?_
    exact Keeps.refl

theorem State.stopSave_keeps (s : State) (t : Nat) (o : Op) (bad : List Nat) : Keeps [.att] s
    (State.stopSave s t o bad) := by
  unfold State.stopSave
  try dsimp -iota -proj only
  refine Keeps.ite ?_ ?_
  · refine Keeps.foldl (fun _ _ _ => ?_) ?_
    · refine Keeps.step (State.saveLose_keeps ..) (by decide) ?_
      assumption
    · refine Keeps.step (Keeps.set_att ..) (by decide) ?_
      exact Keeps.refl
  · exact Keeps.refl

theorem State.leaveSave_keeps (s : State) (t : Nat) (p : Nat) (id : Nat) : Keeps [.att] s (State.leaveSave s t p id) := by
  unfold State.leaveSave
  try dsimp -iota -proj only
  refine Keeps.ite ?_ ?_
  · refine Keeps.step (Keeps.set_att ..) (by decide) ?_
    exact Keeps.refl
  · refine Keeps.step (State.freeSave_keeps ..) (by decide) ?_
    exact Keeps.refl

theorem State.stopAttend_keeps (s : State) (t : Nat) (o : Op) (st : Nat) (hard : Bool) (detail : Nat)
    : Keeps [.out, .ctr, .pg, .media, .q, .mem, .tm, .part, .ev, .lk, .att] s (State.stopAttend s t o st hard detail) := by
  unfold State.stopAttend
  try dsimp -iota -proj only
  refine Keeps.step (State.endOp_keeps ..) (by decide) ?_
  refine Keeps.step (State.putStatuses_keeps ..) (by decide) ?_
  refine Keeps.step (State.setOp_keeps ..) (by decide) ?_
  refine Keeps.ite ?_ ?_
  · refine Keeps.step (State.leaveSave_keeps ..) (by decide) ?_
    refine Keeps.step (State.stopSave_keeps ..) (by decide) ?_
    exact Keeps.refl
  · refine Keeps.step (State.stopSave_keeps ..) (by decide) ?_
    exact Keeps.refl

theorem State.stopOp_keeps (s : State) (t : Nat) (st : Nat) (hard : Bool) (detail : Nat)
    : Keeps [.out, .ctr, .pg, .media, .q, .mem, .tm, .part, .ev, .lk, .att] s (State.stopOp s t st hard detail) := by
  unfold State.stopOp
  try dsimp -iota -proj only
  split
  · exact Keeps.refl
  · refine Keeps.ite ?_ ?_
    · exact Keeps.refl
    · refine Keeps.ite ?_ ?_
      · refine Keeps.step (State.stopAttend_keeps ..) (by decide) ?_
        exact Keeps.refl
      · refine Keeps.step (State.endOp_keeps ..) (by decide) ?_
        exact Keeps.refl

theorem State.leaseCheck_keeps (s : State) (k : Nat)
    : Keeps [.free, .out, .ctr, .pg, .tier, .media, .q, .tm, .ev, .lk] s (State.leaseCheck s k) := by
  unfold State.leaseCheck
  try dsimp -iota -proj only
  split
  · refine Keeps.ite ?_ ?_
    · refine Keeps.step (State.endLease_keeps ..) (by decide) ?_
      split
      · refine Keeps.step (State.sendLend_keeps ..) (by decide) ?_
        exact Keeps.refl
      · exact Keeps.refl
    · exact Keeps.refl
  · exact Keeps.refl

theorem State.revokeLease_keeps (s : State) (k : Nat) (e : Nat)
    : Keeps [.free, .out, .ctr, .pg, .tier, .media, .q, .tm, .ev, .lk] s (State.revokeLease s k e) := by
  unfold State.revokeLease
  try dsimp -iota -proj only
  split
  · exact Keeps.refl
  · refine Keeps.ite ?_ ?_
    · exact Keeps.refl
    · refine Keeps.step (State.leaseCheck_keeps ..) (by decide) ?_
      refine Keeps.foldl (fun _ _ _ => ?_) ?_
      · refine Keeps.ite ?_ ?_
        · refine Keeps.step (State.loseTN_keeps ..) (by decide) ?_
          assumption
        · refine Keeps.step (State.readTN_keeps ..) (by decide) ?_
          assumption
      · refine Keeps.step (State.leaseEvent_keeps ..) (by decide) ?_
        refine Keeps.step (Keeps.set_lk ..) (by decide) ?_
        exact Keeps.refl

theorem State.takeSave_keeps (s : State) (t : Nat) (p : Nat) (id : Nat) : Keeps [.att] s (State.takeSave s t p id) := by
  unfold State.takeSave
  try dsimp -iota -proj only
  refine Keeps.step (Keeps.set_att ..) (by decide) ?_
  exact Keeps.refl

theorem State.cutMeta_keeps (s : State) (loc : Nat) : Keeps [.media] s (State.cutMeta s loc) := by
  unfold State.cutMeta
  try dsimp -iota -proj only
  refine Keeps.step (Keeps.set_media ..) (by decide) ?_
  exact Keeps.refl

theorem State.loseMeta_keeps (s : State) (loc : Nat) : Keeps [.out, .ctr, .pg, .px, .tier, .media, .q, .ev, .ix] s
    (State.loseMeta s loc) := by
  unfold State.loseMeta
  try dsimp -iota -proj only
  refine Keeps.step (State.checkMeta_keeps ..) (by decide) ?_
  refine Keeps.step (State.cutMeta_keeps ..) (by decide) ?_
  exact Keeps.refl

end Sys2Proof.Machine
end

