-- ==== Sys2Proof/Laws/KeepsPages.lean ====
section
/-! SUPPORT. Which parts of the state each operation can change: the media, tier, prefix and page mover commands. -/

namespace Sys2Proof.Machine

/-! ### FlashCmds -/

theorem State.syncMeta_keeps (s : State) (w : SyncWait) : Keeps [.ctr, .media, .tm] s (State.syncMeta s w).2 := by
  unfold State.syncMeta
  try dsimp -iota -proj only
  refine Keeps.mk2 ?_
  refine Keeps.step (State.closeAllMeta_keeps ..) (by decide) ?_
  exact Keeps.refl
theorem State.syncMeta_keeps_eq {s : State} {w : SyncWait} {x0 zz} (hE : State.syncMeta s w = (x0, zz))
    : Keeps [.ctr, .media, .tm] s zz := by
  have h := State.syncMeta_keeps s w
  rw [hE] at h
  exact h

theorem State.syncEnd_keeps (s : State) (w : SyncWait) : Keeps [.out, .ctr, .tm, .dict] s (State.syncEnd s w) := by
  unfold State.syncEnd
  try dsimp -iota -proj only
  split
  · refine Keeps.ite ?_ ?_
    · refine Keeps.step (State.zdpSend_keeps ..) (by decide) ?_
      refine Keeps.step (State.bump_keeps ..) (by decide) ?_
      refine Keeps.ite ?_ ?_
      · refine Keeps.step (State.bump_keeps ..) (by decide) ?_
        exact Keeps.refl
      · exact Keeps.refl
    · refine Keeps.ite ?_ ?_
      · refine Keeps.step (State.bump_keeps ..) (by decide) ?_
        exact Keeps.refl
      · exact Keeps.refl
  · refine Keeps.ite ?_ ?_
    · refine Keeps.step (State.bump_keeps ..) (by decide) ?_
      exact Keeps.refl
    · exact Keeps.refl

theorem State.checkpoint_keeps (s : State) : Keeps [.ctr, .media, .tm] s (State.checkpoint s) := by
  unfold State.checkpoint
  try dsimp -iota -proj only
  refine Keeps.foldl (fun _ _ _ => ?_) ?_
  · refine Keeps.step (State.dieUnit_keeps ..) (by decide) ?_
    assumption
  · refine Keeps.step (Keeps.set_media ..) (by decide) ?_
    exact Keeps.refl

theorem State.programImage_keeps (s : State) (d : Nat) : Keeps [.boot] s (State.programImage s d) := by
  unfold State.programImage
  try dsimp -iota -proj only
  split
  · exact Keeps.refl
  · refine Keeps.step (Keeps.set_boot ..) (by decide) ?_
    exact Keeps.refl

theorem State.writeBackAll_keeps (s : State) : Keeps [.free, .ctr, .pg, .tier, .media, .tm] s (State.writeBackAll s) := by
  unfold State.writeBackAll
  try dsimp -iota -proj only
  refine Keeps.foldl (fun _ _ _ => ?_) ?_
  · refine Keeps.step (State.closePunnet_keeps ..) (by decide) ?_
    assumption
  · refine Keeps.foldl (fun _ _ _ => ?_) ?_
    · refine Keeps.step (State.startWriteBack_keeps ..) (by decide) ?_
      assumption
    · exact Keeps.refl

theorem State.syncGo_keeps (s : State) (w : SyncWait) : Keeps [.free, .ctr, .pg, .tier, .media, .tm, .boot] s
    (State.syncGo s w).2 := by
  unfold State.syncGo
  try dsimp -iota -proj only
  split
  · refine Keeps.iteBy (fun x : SyncWait × State => x.2) ?_ ?_ <;> try dsimp -iota -proj only
    · refine Keeps.step (State.syncMeta_keeps ..) (by decide) ?_
      refine Keeps.step (State.writeBackAll_keeps ..) (by decide) ?_
      exact Keeps.refl
    · refine Keeps.mk2 ?_
      refine Keeps.step (State.writeBackAll_keeps ..) (by decide) ?_
      exact Keeps.refl
  · refine Keeps.iteBy (fun x : SyncWait × State => x.2) ?_ ?_ <;> try dsimp -iota -proj only
    · refine Keeps.iteBy (fun x : SyncWait × State => x.2) ?_ ?_ <;> try dsimp -iota -proj only
      · refine Keeps.mk2 ?_
        refine Keeps.step (State.checkpoint_keeps ..) (by decide) ?_
        exact Keeps.refl
      · exact Keeps.refl
    · refine Keeps.iteBy (fun x : SyncWait × State => x.2) ?_ ?_ <;> try dsimp -iota -proj only
      · refine Keeps.mk2 ?_
        refine Keeps.step (State.closeAllMeta_keeps ..) (by decide) ?_
        exact Keeps.refl
      · exact Keeps.refl
  · refine Keeps.iteBy (fun x : SyncWait × State => x.2) ?_ ?_ <;> try dsimp -iota -proj only
    · exact Keeps.refl
    · refine Keeps.mk2 ?_
      refine Keeps.step (Keeps.set_media ..) (by decide) ?_
      exact Keeps.refl
  · refine Keeps.mk2 ?_
    refine Keeps.step (State.programImage_keeps ..) (by decide) ?_
    exact Keeps.refl
  · refine Keeps.mk2 ?_
    refine Keeps.step (State.programImage_keeps ..) (by decide) ?_
    exact Keeps.refl
  · exact Keeps.refl
theorem State.syncGo_keeps_eq {s : State} {w : SyncWait} {x0 zz} (hE : State.syncGo s w = (x0, zz))
    : Keeps [.free, .ctr, .pg, .tier, .media, .tm, .boot] s zz := by
  have h := State.syncGo_keeps s w
  rw [hE] at h
  exact h

theorem State.syncOne_keeps (s : State) (w : SyncWait)
    : Keeps [.free, .out, .ctr, .pg, .tier, .media, .tm, .dict, .boot] s (State.syncOne s w) := by
  unfold State.syncOne
  try dsimp -iota -proj only
  refine Keeps.ite ?_ ?_
  · refine Keeps.step (State.syncEnd_keeps ..) (by decide) ?_
    refine Keeps.iteBy (fun x : SyncWait × State => x.2) ?_ ?_ <;> try dsimp -iota -proj only
    · refine Keeps.step (State.syncGo_keeps ..) (by decide) ?_
      refine Keeps.iteBy (fun x : SyncWait × State => x.2) ?_ ?_ <;> try dsimp -iota -proj only
      · refine Keeps.step (State.syncGo_keeps ..) (by decide) ?_
        exact Keeps.refl
      · refine Keeps.step (State.syncGo_keeps ..) (by decide) ?_
        refine Keeps.step (State.syncGo_keeps ..) (by decide) ?_
        exact Keeps.refl
    · refine Keeps.iteBy (fun x : SyncWait × State => x.2) ?_ ?_ <;> try dsimp -iota -proj only
      · refine Keeps.step (State.syncGo_keeps ..) (by decide) ?_
        exact Keeps.refl
      · refine Keeps.step (State.syncGo_keeps ..) (by decide) ?_
        refine Keeps.step (State.syncGo_keeps ..) (by decide) ?_
        exact Keeps.refl
  · refine Keeps.step (Keeps.set_media ..) (by decide) ?_
    refine Keeps.iteBy (fun x : SyncWait × State => x.2) ?_ ?_ <;> try dsimp -iota -proj only
    · refine Keeps.step (State.syncGo_keeps ..) (by decide) ?_
      refine Keeps.iteBy (fun x : SyncWait × State => x.2) ?_ ?_ <;> try dsimp -iota -proj only
      · refine Keeps.step (State.syncGo_keeps ..) (by decide) ?_
        exact Keeps.refl
      · refine Keeps.step (State.syncGo_keeps ..) (by decide) ?_
        refine Keeps.step (State.syncGo_keeps ..) (by decide) ?_
        exact Keeps.refl
    · refine Keeps.iteBy (fun x : SyncWait × State => x.2) ?_ ?_ <;> try dsimp -iota -proj only
      · refine Keeps.step (State.syncGo_keeps ..) (by decide) ?_
        exact Keeps.refl
      · refine Keeps.step (State.syncGo_keeps ..) (by decide) ?_
        refine Keeps.step (State.syncGo_keeps ..) (by decide) ?_
        exact Keeps.refl

theorem State.syncStep_keeps (s : State) : Keeps [.free, .out, .ctr, .pg, .tier, .media, .tm, .dict, .boot] s
    (State.syncStep s) := by
  unfold State.syncStep
  try dsimp -iota -proj only
  refine Keeps.ite ?_ ?_
  · exact Keeps.refl
  · refine Keeps.foldl (fun _ _ _ => ?_) ?_
    · refine Keeps.step (State.syncOne_keeps ..) (by decide) ?_
      assumption
    · refine Keeps.step (Keeps.set_media ..) (by decide) ?_
      exact Keeps.refl

theorem State.syncBegin_keeps (s : State) (ep : Option Sys2Proof.Endpoint) (msg : Sys2Proof.Bytes)
    : Keeps [.free, .out, .ctr, .pg, .tier, .media, .q, .tm, .dict, .boot] s (State.syncBegin s ep msg) := by
  unfold State.syncBegin
  try dsimp -iota -proj only
  refine Keeps.ite ?_ ?_
  · refine Keeps.step (Keeps.set_media ..) (by decide) ?_
    refine Keeps.step (Keeps.set_media_q ..) (by decide) ?_
    exact Keeps.refl
  · refine Keeps.step (State.syncStep_keeps ..) (by decide) ?_
    refine Keeps.step (Keeps.set_media ..) (by decide) ?_
    refine Keeps.iteBy (fun x : SyncWait × State => x.2) ?_ ?_ <;> try dsimp -iota -proj only
    · refine Keeps.mk2 ?_
      refine Keeps.step (Keeps.set_media_q ..) (by decide) ?_
      exact Keeps.refl
    · refine Keeps.iteBy (fun x : SyncWait × State => x.2) ?_ ?_ <;> try dsimp -iota -proj only
      · refine Keeps.mk2 ?_
        refine Keeps.step (Keeps.set_media_q ..) (by decide) ?_
        exact Keeps.refl
      · refine Keeps.step (State.syncMeta_keeps ..) (by decide) ?_
        refine Keeps.step (Keeps.set_media_q ..) (by decide) ?_
        exact Keeps.refl

theorem execSuspendHoldoffExpiry_keeps_eq {n : Nat} {s : State} {zz} (hE : execSuspendHoldoffExpiry n s = .next zz)
    : Keeps [.up, .now, .ctr, .media] s zz := by
  unfold execSuspendHoldoffExpiry at hE
  try dsimp -iota -proj only at hE
  obtain rfl := Host.Outcome.next.inj hE
  split
  · split
    · refine Keeps.ite ?_ ?_
      · refine Keeps.step (State.kickDie_keeps ..) (by decide) ?_
        refine Keeps.step (State.timeTo_keeps ..) (by decide) ?_
        exact Keeps.refl
      · exact Keeps.refl
    · exact Keeps.refl
  · exact Keeps.refl

theorem State.checkDie_keeps (s : State) (n : Nat) : Keeps
    (Fld.but [.pending, .up, .now, .cfg, .blob, .clk, .pxb, .pwr]) s (State.checkDie s n) := by
  unfold State.checkDie
  try dsimp -iota -proj only
  refine Keeps.ite ?_ ?_
  · refine Keeps.step (State.fence_keeps ..) (by decide) ?_
    exact Keeps.refl
  · exact Keeps.refl

theorem State.retireSb_keeps (s : State) (n : Nat) (sb : Nat) : Keeps
    (Fld.but [.pending, .up, .now, .cfg, .blob, .clk, .pxb, .pwr]) s (State.retireSb s n sb) := by
  unfold State.retireSb
  try dsimp -iota -proj only
  refine Keeps.step (State.checkDie_keeps ..) (by decide) ?_
  refine Keeps.step (State.retire_keeps ..) (by decide) ?_
  exact Keeps.refl

theorem execSuperblockEraseDone_keeps_eq {n : Nat} {pass : Bool} {s : State} {zz} (hE
    : execSuperblockEraseDone n pass s = .next zz) : Keeps
        (Fld.but [.pending, .up, .now, .cfg, .blob, .clk, .pxb, .pwr]) s zz := by
  unfold execSuperblockEraseDone at hE
  try dsimp -iota -proj only at hE
  obtain rfl := Host.Outcome.next.inj hE
  split
  · exact Keeps.refl
  · refine Keeps.ite ?_ ?_
    · exact Keeps.refl
    · refine Keeps.ite ?_ ?_
      · refine Keeps.step (State.kickDie_keeps ..) (by decide) ?_
        refine Keeps.step (State.upkeep_keeps ..) (by decide) ?_
        refine Keeps.step (State.retryPrograms_keeps ..) (by decide) ?_
        refine Keeps.step (State.bump_keeps ..) (by decide) ?_
        refine Keeps.step (State.bump_keeps ..) (by decide) ?_
        refine Keeps.step (Keeps.set_media ..) (by decide) ?_
        refine Keeps.step (State.setDie_keeps ..) (by decide) ?_
        refine Keeps.step (State.setDie_keeps ..) (by decide) ?_
        exact Keeps.refl
      · refine Keeps.step (State.kickDie_keeps ..) (by decide) ?_
        refine Keeps.step (State.retireSb_keeps ..) (by decide) ?_
        refine Keeps.step (State.bump_keeps ..) (by decide) ?_
        refine Keeps.step (State.setDie_keeps ..) (by decide) ?_
        exact Keeps.refl

theorem State.moveDone_keeps (s : State) (op : DieOp) (bad : Bool)
    : Keeps [.out, .ctr, .pg, .px, .tier, .media, .q, .tm, .ev, .ix] s (State.moveDone s op bad) := by
  unfold State.moveDone
  try dsimp -iota -proj only
  split
  · exact Keeps.refl
  · refine Keeps.ite ?_ ?_
    · exact Keeps.refl
    · refine Keeps.ite ?_ ?_
      · refine Keeps.step (State.addRec_keeps ..) (by decide) ?_
        exact Keeps.refl
      · refine Keeps.ite ?_ ?_
        · refine Keeps.step (State.loseMeta_keeps ..) (by decide) ?_
          exact Keeps.refl
        · refine Keeps.step (State.loseT2_keeps ..) (by decide) ?_
          exact Keeps.refl

theorem State.commitMeta_keeps (s : State) (r : Rec) : Keeps [.media] s (State.commitMeta s r) := by
  unfold State.commitMeta
  try dsimp -iota -proj only
  split
  · exact Keeps.refl
  · refine Keeps.ite ?_ ?_
    · exact Keeps.refl
    · split
      · refine Keeps.step (State.cutMeta_keeps ..) (by decide) ?_
        refine Keeps.step (Keeps.set_media ..) (by decide) ?_
        exact Keeps.refl
      · refine Keeps.step (Keeps.set_media ..) (by decide) ?_
        exact Keeps.refl

theorem execMapCacheWaitResume_keeps_eq {t : Nat} {s : State} {zz} (hE : execMapCacheWaitResume t s = .next zz)
    : Keeps [.q] s zz := by
  unfold execMapCacheWaitResume at hE
  try dsimp -iota -proj only at hE
  obtain rfl := Host.Outcome.next.inj hE
  split
  · refine Keeps.ite ?_ ?_
    · refine Keeps.step (State.setOp_keeps ..) (by decide) ?_
      exact Keeps.refl
    · exact Keeps.refl
  · exact Keeps.refl

theorem execRetentionRefresh_keeps_eq {n : Nat} {sb : Nat} {hotSteps : Nat} {s : State} {zz} (hE
    : execRetentionRefresh n sb hotSteps s = .next zz) : Keeps [.ctr, .media, .tm] s zz := by
  unfold execRetentionRefresh at hE
  try dsimp -iota -proj only at hE
  obtain rfl := Host.Outcome.next.inj hE
  split
  · refine Keeps.ite ?_ ?_
    · refine Keeps.step (State.bump_keeps ..) (by decide) ?_
      refine Keeps.step (State.relocate_keeps ..) (by decide) ?_
      exact Keeps.refl
    · exact Keeps.refl
  · exact Keeps.refl

theorem State.readUpkeep_keeps (s : State) (n : Nat) (sb : Nat) (o : Sys2Proof.ReadOutcome) : Keeps
    (Fld.but [.pending, .up, .now, .cfg, .blob, .clk, .pxb, .pwr]) s (State.readUpkeep s n sb o) := by
  unfold State.readUpkeep
  try dsimp -iota -proj only
  split
  · refine Keeps.ite ?_ ?_
    · refine Keeps.step (State.countRead_keeps ..) (by decide) ?_
      exact Keeps.refl
    · refine Keeps.step (State.bump_keeps ..) (by decide) ?_
      refine Keeps.step (State.relocate_keeps ..) (by decide) ?_
      refine Keeps.step (State.countRead_keeps ..) (by decide) ?_
      exact Keeps.refl
  · split
    · refine Keeps.step (State.countRead_keeps ..) (by decide) ?_
      exact Keeps.refl
    · refine Keeps.ite ?_ ?_
      · refine Keeps.step (State.setDie_keeps ..) (by decide) ?_
        refine Keeps.step (State.countRead_keeps ..) (by decide) ?_
        exact Keeps.refl
      · refine Keeps.step (State.retireSb_keeps ..) (by decide) ?_
        refine Keeps.step (State.setDie_keeps ..) (by decide) ?_
        refine Keeps.step (State.countRead_keeps ..) (by decide) ?_
        exact Keeps.refl
  · split
    · refine Keeps.step (State.countRead_keeps ..) (by decide) ?_
      exact Keeps.refl
    · refine Keeps.ite ?_ ?_
      · refine Keeps.step (State.setDie_keeps ..) (by decide) ?_
        refine Keeps.step (State.countRead_keeps ..) (by decide) ?_
        exact Keeps.refl
      · refine Keeps.step (State.retireSb_keeps ..) (by decide) ?_
        refine Keeps.step (State.setDie_keeps ..) (by decide) ?_
        refine Keeps.step (State.countRead_keeps ..) (by decide) ?_
        exact Keeps.refl
  · refine Keeps.step (State.countRead_keeps ..) (by decide) ?_
    exact Keeps.refl

theorem State.settleDurable_keeps (s : State) : Keeps [.out, .ctr, .pg, .media, .q, .mem, .tm, .part, .ev, .lk] s
    (State.settleDurable s) := by
  unfold State.settleDurable
  try dsimp -iota -proj only
  refine Keeps.foldl (fun _ _ _ => ?_) ?_
  · refine Keeps.ite ?_ ?_
    · assumption
    · refine Keeps.ite ?_ ?_
      · assumption
      · split
        · refine Keeps.step (State.settle_keeps ..) (by decide) ?_
          refine Keeps.step (State.bump_keeps ..) (by decide) ?_
          refine Keeps.step (State.setOp_keeps ..) (by decide) ?_
          assumption
        · assumption
  · exact Keeps.refl

theorem State.readDone_keeps (s : State) (op : DieOp) (bad : Bool)
    : Keeps [.free, .out, .ctr, .pg, .tier, .media, .q, .tm, .ev, .lk] s (State.readDone s op bad) := by
  unfold State.readDone
  try dsimp -iota -proj only
  split
  · split
    · refine Keeps.step (State.arrive_keeps ..) (by decide) ?_
      exact Keeps.refl
    · exact Keeps.refl
  · refine Keeps.ite ?_ ?_
    · split
      · refine Keeps.step (State.arrive_keeps ..) (by decide) ?_
        refine Keeps.ite ?_ ?_
        · refine Keeps.step (State.loseT2_keeps ..) (by decide) ?_
          exact Keeps.refl
        · exact Keeps.refl
      · refine Keeps.ite ?_ ?_
        · refine Keeps.step (State.loseT2_keeps ..) (by decide) ?_
          exact Keeps.refl
        · exact Keeps.refl
    · refine Keeps.step (State.promoteRead_keeps ..) (by decide) ?_
      split
      · refine Keeps.step (State.arrive_keeps ..) (by decide) ?_
        exact Keeps.refl
      · exact Keeps.refl

theorem State.readEnded_keeps (s : State) (op : DieOp) (bad : Bool)
    : Keeps [.free, .out, .ctr, .pg, .px, .tier, .media, .q, .tm, .ev, .lk, .ix] s (State.readEnded s op bad) := by
  unfold State.readEnded
  try dsimp -iota -proj only
  split
  · refine Keeps.ite ?_ ?_
    · refine Keeps.step (State.pageFailed_keeps ..) (by decide) ?_
      exact Keeps.refl
    · refine Keeps.step (State.pageLoaded_keeps ..) (by decide) ?_
      exact Keeps.refl
  · refine Keeps.ite ?_ ?_
    · refine Keeps.ite ?_ ?_
      · refine Keeps.step (Keeps.set_media ..) (by decide) ?_
        exact Keeps.refl
      · exact Keeps.refl
    · refine Keeps.ite ?_ ?_
      · refine Keeps.step (State.moveDone_keeps ..) (by decide) ?_
        refine Keeps.step (Keeps.set_media ..) (by decide) ?_
        exact Keeps.refl
      · refine Keeps.step (State.readDone_keeps ..) (by decide) ?_
        refine Keeps.step (Keeps.set_media ..) (by decide) ?_
        exact Keeps.refl

theorem execRootCheckpoint_keeps_eq {s : State} {zz} (hE : execRootCheckpoint s = .next zz)
    : Keeps [.up, .now, .ctr, .media, .tm] s zz := by
  unfold execRootCheckpoint at hE
  try dsimp -iota -proj only at hE
  obtain rfl := Host.Outcome.next.inj hE
  refine Keeps.ite ?_ ?_
  · refine Keeps.step (State.checkpoint_keeps ..) (by decide) ?_
    refine Keeps.step (State.timeTo_keeps ..) (by decide) ?_
    exact Keeps.refl
  · exact Keeps.refl

theorem State.commitPunnet_keeps (s : State) (op : DieOp) : Keeps [.out, .ctr, .pg, .tier, .media, .q, .tm, .ev, .lk] s
    (State.commitPunnet s op) := by
  unfold State.commitPunnet
  try dsimp -iota -proj only
  refine Keeps.foldl (fun _ _ _ => ?_) ?_
  · refine Keeps.ite ?_ ?_
    · refine Keeps.step (State.commitMeta_keeps ..) (by decide) ?_
      assumption
    · refine Keeps.step (State.commitSlice_keeps ..) (by decide) ?_
      assumption
  · refine Keeps.step (Keeps.set_media ..) (by decide) ?_
    exact Keeps.refl

theorem State.countOutcome_keeps (s : State) (n : Nat) (op : DieOp) (o : Sys2Proof.ReadOutcome) : Keeps [.ctr, .tm] s
    (State.countOutcome s n op o) := by
  unfold State.countOutcome
  try dsimp -iota -proj only
  split
  · refine Keeps.foldl (fun _ _ _ => ?_) ?_
    · refine Keeps.step (State.place_keeps ..) (by decide) ?_
      assumption
    · refine Keeps.step (State.bump_keeps ..) (by decide) ?_
      refine Keeps.step (State.bump_keeps ..) (by decide) ?_
      exact Keeps.refl
  · refine Keeps.foldl (fun _ _ _ => ?_) ?_
    · refine Keeps.step (State.place_keeps ..) (by decide) ?_
      assumption
    · refine Keeps.step (State.bump_keeps ..) (by decide) ?_
      refine Keeps.step (State.bump_keeps ..) (by decide) ?_
      exact Keeps.refl
  · refine Keeps.step (State.bump_keeps ..) (by decide) ?_
    refine Keeps.foldl (fun _ _ _ => ?_) ?_
    · refine Keeps.step (State.place_keeps ..) (by decide) ?_
      assumption
    · refine Keeps.step (State.bump_keeps ..) (by decide) ?_
      refine Keeps.step (State.bump_keeps ..) (by decide) ?_
      exact Keeps.refl
  · refine Keeps.step (State.bump_keeps ..) (by decide) ?_
    refine Keeps.step (State.bump_keeps ..) (by decide) ?_
    refine Keeps.foldl (fun _ _ _ => ?_) ?_
    · refine Keeps.step (State.place_keeps ..) (by decide) ?_
      assumption
    · refine Keeps.step (State.bump_keeps ..) (by decide) ?_
      refine Keeps.step (State.bump_keeps ..) (by decide) ?_
      exact Keeps.refl
  · refine Keeps.step (State.bump_keeps ..) (by decide) ?_
    refine Keeps.step (State.bump_keeps ..) (by decide) ?_
    refine Keeps.step (State.bump_keeps ..) (by decide) ?_
    refine Keeps.step (State.bump_keeps ..) (by decide) ?_
    refine Keeps.foldl (fun _ _ _ => ?_) ?_
    · refine Keeps.step (State.place_keeps ..) (by decide) ?_
      assumption
    · refine Keeps.step (State.bump_keeps ..) (by decide) ?_
      refine Keeps.step (State.bump_keeps ..) (by decide) ?_
      exact Keeps.refl

theorem execPageReadDone_keeps_eq {n : Nat} {out : Sys2Proof.ReadOutcome} {s : State} {zz} (hE
    : execPageReadDone n out s = .next zz) : Keeps (Fld.but [.pending, .up, .now, .cfg, .blob, .clk, .pxb, .pwr]) s zz := by
  unfold execPageReadDone at hE
  try dsimp -iota -proj only at hE
  obtain rfl := Host.Outcome.next.inj hE
  split
  · exact Keeps.refl
  · refine Keeps.ite ?_ ?_
    · exact Keeps.refl
    · refine Keeps.step (State.kickDie_keeps ..) (by decide) ?_
      refine Keeps.step (State.upkeep_keeps ..) (by decide) ?_
      refine Keeps.step (State.readEnded_keeps ..) (by decide) ?_
      refine Keeps.step (State.readUpkeep_keeps ..) (by decide) ?_
      refine Keeps.step (State.countOutcome_keeps ..) (by decide) ?_
      refine Keeps.step (State.setDie_keeps ..) (by decide) ?_
      exact Keeps.refl

theorem execPunnetFlushTimer_keeps_eq {key : Option Nat} {s : State} {zz} (hE : execPunnetFlushTimer key s = .next zz)
    : Keeps [.up, .now, .ctr, .media, .tm] s zz := by
  unfold execPunnetFlushTimer at hE
  try dsimp -iota -proj only at hE
  obtain rfl := Host.Outcome.next.inj hE
  split
  · split
    · refine Keeps.step (State.closePunnet_keeps ..) (by decide) ?_
      refine Keeps.step (State.timeTo_keeps ..) (by decide) ?_
      exact Keeps.refl
    · exact Keeps.refl
  · split
    · exact Keeps.refl
    · refine Keeps.ite ?_ ?_
      · refine Keeps.step (State.closeMeta_keeps ..) (by decide) ?_
        exact Keeps.refl
      · refine Keeps.step (State.closeAllMeta_keeps ..) (by decide) ?_
        refine Keeps.step (State.timeTo_keeps ..) (by decide) ?_
        exact Keeps.refl

theorem State.commitRoot_keeps (s : State) (cp : RootCp) : Keeps [.media] s (State.commitRoot s cp) := by
  unfold State.commitRoot
  try dsimp -iota -proj only
  refine Keeps.step (Keeps.set_media ..) (by decide) ?_
  exact Keeps.refl

theorem State.drainLeases_keeps (s : State) : Keeps [.free, .out, .ctr, .pg, .tier, .media, .q, .tm, .ev, .lk] s
    (State.drainLeases s) := by
  unfold State.drainLeases
  try dsimp -iota -proj only
  refine Keeps.foldl (fun _ _ _ => ?_) ?_
  · refine Keeps.ite ?_ ?_
    · assumption
    · refine Keeps.step (State.leaseCheck_keeps ..) (by decide) ?_
      refine Keeps.foldl (fun _ _ _ => ?_) ?_
      · refine Keeps.ite ?_ ?_
        · refine Keeps.step (State.loseTN_keeps ..) (by decide) ?_
          assumption
        · assumption
      · assumption
  · exact Keeps.refl

theorem execPunnetProgramDone_keeps_eq {n : Nat} {pass : Bool} {s : State} {zz} (hE
    : execPunnetProgramDone n pass s = .next zz) : Keeps
        (Fld.but [.pending, .up, .now, .cfg, .blob, .clk, .pxb, .pwr]) s zz := by
  unfold execPunnetProgramDone at hE
  try dsimp -iota -proj only at hE
  obtain rfl := Host.Outcome.next.inj hE
  split
  · exact Keeps.refl
  · refine Keeps.ite ?_ ?_
    · exact Keeps.refl
    · refine Keeps.step (State.kickDie_keeps ..) (by decide) ?_
      refine Keeps.step (State.syncStep_keeps ..) (by decide) ?_
      refine Keeps.foldl (fun _ _ _ => ?_) ?_
      · refine Keeps.step (State.upkeep_keeps ..) (by decide) ?_
        assumption
      · refine Keeps.ite ?_ ?_
        · split
          · refine Keeps.step (State.commitRoot_keeps ..) (by decide) ?_
            refine Keeps.step (State.bump_keeps ..) (by decide) ?_
            refine Keeps.step (State.bump_keeps ..) (by decide) ?_
            refine Keeps.step (State.setDie_keeps ..) (by decide) ?_
            exact Keeps.refl
          · refine Keeps.step (State.drainLeases_keeps ..) (by decide) ?_
            refine Keeps.step (State.settleDurable_keeps ..) (by decide) ?_
            refine Keeps.step (State.commitPunnet_keeps ..) (by decide) ?_
            refine Keeps.step (State.bump_keeps ..) (by decide) ?_
            refine Keeps.step (State.bump_keeps ..) (by decide) ?_
            refine Keeps.step (State.setDie_keeps ..) (by decide) ?_
            exact Keeps.refl
        · refine Keeps.step (State.reprogram_keeps ..) (by decide) ?_
          refine Keeps.step (State.retireSb_keeps ..) (by decide) ?_
          refine Keeps.step (State.bump_keeps ..) (by decide) ?_
          refine Keeps.step (State.setDie_keeps ..) (by decide) ?_
          exact Keeps.refl

/-! ### TierCmds -/

theorem State.unrefs_keeps (s : State) (fid : Nat) (a2 : Nat) : Keeps [.ctr, .pg, .px, .tier, .media, .ix] s
    (State.unrefs s fid a2) := by
  unfold State.unrefs
  try dsimp -iota -proj only
  split
  · exact Keeps.refl
  · refine Keeps.step (State.unrefs_keeps ..) (by decide) ?_
    refine Keeps.step (State.unref_keeps ..) (by decide) ?_
    exact Keeps.refl

theorem execAllocWaitTimeout_keeps_eq {t : Nat} {s : State} {zz} (hE : execAllocWaitTimeout t s = .next zz)
    : Keeps [.out, .up, .now, .ctr, .pg, .media, .q, .mem, .tm, .part, .ev, .lk] s zz := by
  unfold execAllocWaitTimeout at hE
  try dsimp -iota -proj only at hE
  obtain rfl := Host.Outcome.next.inj hE
  split
  · split
    · refine Keeps.step (State.finishOp_keeps ..) (by decide) ?_
      refine Keeps.step (State.bump_keeps ..) (by decide) ?_
      refine Keeps.step (State.timeTo_keeps ..) (by decide) ?_
      exact Keeps.refl
    · exact Keeps.refl
  · exact Keeps.refl

theorem execFrameRecountDone_keeps_eq {fid : Nat} {s : State} {zz} (hE : execFrameRecountDone fid s = .next zz)
    : Keeps [.ctr, .pg, .px, .tier, .media, .ix] s zz := by
  unfold execFrameRecountDone at hE
  try dsimp -iota -proj only at hE
  obtain rfl := Host.Outcome.next.inj hE
  split
  · refine Keeps.ite ?_ ?_
    · exact Keeps.refl
    · refine Keeps.step (State.unref_keeps ..) (by decide) ?_
      refine Keeps.foldl (fun _ _ _ => ?_) ?_
      · refine Keeps.step (State.applyRelease_keeps ..) (by decide) ?_
        assumption
      · refine Keeps.step (Keeps.set_pg ..) (by decide) ?_
        refine Keeps.step (State.setFrame_keeps ..) (by decide) ?_
        exact Keeps.refl
  · exact Keeps.refl

theorem State.refillKey_keeps (s : State) (fid : Nat) : Keeps [.ctr, .px, .tm] s (State.refillKey s fid) := by
  unfold State.refillKey
  try dsimp -iota -proj only
  refine Keeps.step (State.placeKey_keeps ..) (by decide) ?_
  refine Keeps.step (State.hbmUnits_keeps ..) (by decide) ?_
  exact Keeps.refl

theorem execWritebackDelayExpiry_keeps_eq {fid : Nat} {layer : Nat} {s : State} {zz} (hE
    : execWritebackDelayExpiry fid layer s = .next zz) : Keeps [.free, .ctr, .pg, .tier, .media, .tm] s zz := by
  unfold execWritebackDelayExpiry at hE
  try dsimp -iota -proj only at hE
  obtain rfl := Host.Outcome.next.inj hE
  split
  · refine Keeps.ite ?_ ?_
    · refine Keeps.step (State.startWriteBack_keeps ..) (by decide) ?_
      exact Keeps.refl
    · exact Keeps.refl
  · exact Keeps.refl

theorem State.agePressure_keeps (s : State) (x : Nat) : Keeps [.free, .ctr, .pg, .tier, .media, .tm] s
    (State.agePressure s x) := by
  unfold State.agePressure
  try dsimp -iota -proj only
  refine Keeps.ite ?_ ?_
  · refine Keeps.foldl (fun _ _ _ => ?_) ?_
    · refine Keeps.step (State.condemn_keeps ..) (by decide) ?_
      assumption
    · refine Keeps.step (State.updPressure_keeps ..) (by decide) ?_
      exact Keeps.refl
  · refine Keeps.step (State.updPressure_keeps ..) (by decide) ?_
    exact Keeps.refl

theorem State.retryWaits_keeps (s : State) : Keeps [.free, .ctr, .pg, .tier, .media, .tm] s (State.retryWaits s) := by
  unfold State.retryWaits
  try dsimp -iota -proj only
  refine Keeps.foldl (fun _ _ _ => ?_) ?_
  · refine Keeps.step (State.writeBack_keeps ..) (by decide) ?_
    assumption
  · refine Keeps.foldl (fun _ _ _ => ?_) ?_
    · refine Keeps.step (State.offerRec_keeps ..) (by decide) ?_
      assumption
    · refine Keeps.step (Keeps.set_media ..) (by decide) ?_
      exact Keeps.refl

theorem execAgeTick_keeps_eq {s : State} {zz} (hE : execAgeTick s = .next zz) : Keeps
    (Fld.but [.pending, .cfg, .blob, .mem, .part, .clk, .att, .pxb, .pwr]) s zz := by
  unfold execAgeTick at hE
  try dsimp -iota -proj only at hE
  obtain rfl := Host.Outcome.next.inj hE
  refine Keeps.step (State.syncStep_keeps ..) (by decide) ?_
  refine Keeps.step (State.indexTick_keeps ..) (by decide) ?_
  refine Keeps.step (State.retryPrograms_keeps ..) (by decide) ?_
  refine Keeps.step (State.retryWaits_keeps ..) (by decide) ?_
  refine Keeps.step (State.lendCheck_keeps ..) (by decide) ?_
  refine Keeps.step (State.agePressure_keeps ..) (by decide) ?_
  refine Keeps.step (State.agePressure_keeps ..) (by decide) ?_
  refine Keeps.step (State.agePressure_keeps ..) (by decide) ?_
  refine Keeps.step (State.condemnFrames_keeps ..) (by decide) ?_
  refine Keeps.step (State.commitSlices_keeps ..) (by decide) ?_
  refine Keeps.foldl (fun _ _ _ => ?_) ?_
  · refine Keeps.step (State.frameStep1_keeps ..) (by decide) ?_
    assumption
  · refine Keeps.step (Keeps.set_px ..) (by decide) ?_
    refine Keeps.step (State.timeTo_keeps ..) (by decide) ?_
    exact Keeps.refl

theorem execDeferredRelease_keeps_eq {seq : Nat} {block : Nat} {s : State} {zz} (hE
    : execDeferredRelease seq block s = .next zz) : Keeps [.ctr, .pg, .px, .tier, .media, .ix] s zz := by
  unfold execDeferredRelease at hE
  try dsimp -iota -proj only at hE
  obtain rfl := Host.Outcome.next.inj hE
  refine Keeps.foldl (fun _ _ _ => ?_) ?_
  · refine Keeps.step (State.applyRelease_keeps ..) (by decide) ?_
    assumption
  · exact Keeps.refl

theorem State.scrubRow_keeps (s : State) (bank : Nat) (row : Nat) : Keeps
    (Fld.but [.pending, .up, .now, .cfg, .blob, .clk, .pxb, .pwr]) s (State.scrubRow s bank row) := by
  unfold State.scrubRow
  try dsimp -iota -proj only
  split
  · refine Keeps.ite ?_ ?_
    · refine Keeps.step (State.fence_keeps ..) (by decide) ?_
      refine Keeps.step (State.bump_keeps ..) (by decide) ?_
      exact Keeps.refl
    · refine Keeps.step (Keeps.set_px ..) (by decide) ?_
      refine Keeps.step (State.bump_keeps ..) (by decide) ?_
      exact Keeps.refl
  · refine Keeps.step (Keeps.set_px ..) (by decide) ?_
    refine Keeps.step (State.bump_keeps ..) (by decide) ?_
    exact Keeps.refl

theorem execCamBankRefill_keeps_eq {bank : Nat} {s : State} {zz} (hE : execCamBankRefill bank s = .next zz)
    : Keeps [.ctr, .px, .tm] s zz := by
  unfold execCamBankRefill at hE
  try dsimp -iota -proj only at hE
  obtain rfl := Host.Outcome.next.inj hE
  refine Keeps.foldl (fun _ _ _ => ?_) ?_
  · refine Keeps.step (State.refillKey_keeps ..) (by decide) ?_
    assumption
  · refine Keeps.step (Keeps.set_px ..) (by decide) ?_
    exact Keeps.refl

theorem execCamPlace_keeps_eq {fid : Nat} {s : State} {zz} (hE : execCamPlace fid s = .next zz)
    : Keeps [.ctr, .px] s zz := by
  unfold execCamPlace at hE
  try dsimp -iota -proj only at hE
  obtain rfl := Host.Outcome.next.inj hE
  refine Keeps.ite ?_ ?_
  · refine Keeps.step (State.placeKey_keeps ..) (by decide) ?_
    refine Keeps.step (Keeps.set_px ..) (by decide) ?_
    exact Keeps.refl
  · exact Keeps.refl

theorem execCamScrub_keeps_eq {bank : Nat} {rows : List Nat} {s : State} {zz} (hE
    : execCamScrub bank rows s = .next zz) : Keeps (Fld.but [.pending, .up, .now, .cfg, .blob, .clk, .pxb, .pwr]) s zz := by
  unfold execCamScrub at hE
  try dsimp -iota -proj only at hE
  obtain rfl := Host.Outcome.next.inj hE
  refine Keeps.ite ?_ ?_
  · refine Keeps.foldl (fun _ _ _ => ?_) ?_
    · refine Keeps.step (State.scrubRow_keeps ..) (by decide) ?_
      assumption
    · exact Keeps.refl
  · exact Keeps.refl

theorem execFreeCommitStep2_keeps_eq {fid : Nat} {layer : Option Nat} {s : State} {zz} (hE
    : execFreeCommitStep2 fid layer s = .next zz) : Keeps [.ctr, .pg, .px, .tier, .media, .ix] s zz := by
  unfold execFreeCommitStep2 at hE
  try dsimp -iota -proj only at hE
  obtain rfl := Host.Outcome.next.inj hE
  split
  · refine Keeps.step (State.sliceStep2_keeps ..) (by decide) ?_
    exact Keeps.refl
  · refine Keeps.step (State.frameStep2_keeps ..) (by decide) ?_
    exact Keeps.refl

theorem execReferenceRecount_keeps_eq {s : State} {zz} (hE : execReferenceRecount s = .next zz)
    : Keeps [.ctr, .pg, .px, .tier, .media, .ix] s zz := by
  unfold execReferenceRecount at hE
  try dsimp -iota -proj only at hE
  obtain rfl := Host.Outcome.next.inj hE
  refine Keeps.foldl (fun _ _ _ => ?_) ?_
  · refine Keeps.ite ?_ ?_
    · assumption
    · refine Keeps.step (State.unrefs_keeps ..) (by decide) ?_
      assumption
  · refine Keeps.foldl (fun _ _ _ => ?_) ?_
    · refine Keeps.step (State.ownRelease_keeps ..) (by decide) ?_
      assumption
    · exact Keeps.refl

theorem execWritebackComplete_keeps_eq {fid : Nat} {layer : Nat} {s : State} {zz} (hE
    : execWritebackComplete fid layer s = .next zz)
        : Keeps [.free, .out, .ctr, .pg, .tier, .media, .tm, .dict, .boot] s zz := by
  unfold execWritebackComplete at hE
  try dsimp -iota -proj only at hE
  obtain rfl := Host.Outcome.next.inj hE
  refine Keeps.step (State.syncStep_keeps ..) (by decide) ?_
  refine Keeps.step (State.endWriteBack_keeps ..) (by decide) ?_
  exact Keeps.refl

/-! ### PrefixCmds -/

theorem State.attach_keeps (s : State) (u : Setup) (p : Nat) (n : Nat) (a4 : Nat) (a5 : List Nat)
    : Keeps [.pg, .media] s (State.attach s u p n a4 a5).2.2.2 := by
  unfold State.attach
  try dsimp -iota -proj only
  split
  · exact Keeps.refl
  · refine Keeps.iteBy (fun x : Nat × Nat × List Nat × State => x.2.2.2) ?_ ?_ <;> try dsimp -iota -proj only
    · exact Keeps.refl
    · refine Keeps.iteBy (fun x : Nat × Nat × List Nat × State => x.2.2.2) ?_ ?_ <;> try dsimp -iota -proj only
      · exact Keeps.refl
      · refine Keeps.step (State.attach_keeps ..) (by decide) ?_
        refine Keeps.step (State.setLeaf_keeps ..) (by decide) ?_
        exact Keeps.refl
theorem State.attach_keeps_eq {s : State} {u : Setup} {p : Nat} {n : Nat} {a4 : Nat} {a5 : List Nat} {x0 x1 x2 zz} (hE
    : State.attach s u p n a4 a5 = (x0, x1, x2, zz)) : Keeps [.pg, .media] s zz := by
  have h := State.attach_keeps s u p n a4 a5
  rw [hE] at h
  exact h

theorem State.setPend_keeps (s : State) (n : Nat) (ks : List (Nat × PendKey)) : Keeps [.pg] s (State.setPend s n ks) := by
  unfold State.setPend
  try dsimp -iota -proj only
  split
  · refine Keeps.ite ?_ ?_
    · exact Keeps.refl
    · refine Keeps.step (State.setSeq_keeps ..) (by decide) ?_
      exact Keeps.refl
  · exact Keeps.refl

theorem State.probeDone_keeps (s : State) (t : Nat) (o : Op) (hits : List Nat) (keys : List (Nat × PendKey))
    : Keeps [.out, .ctr, .pg, .px, .tier, .media, .q, .mem, .tm, .part, .ev, .lk, .ix] s
        (State.probeDone s t o hits keys) := by
  unfold State.probeDone
  try dsimp -iota -proj only
  refine Keeps.step (State.finishOut_keeps ..) (by decide) ?_
  refine Keeps.iteBy (fun x : Nat × Bool × State => x.2.2) ?_ ?_ <;> try dsimp -iota -proj only
  · refine Keeps.mk3 ?_
    refine Keeps.foldl (fun _ _ _ => ?_) ?_
    · refine Keeps.step (State.unref_keeps ..) (by decide) ?_
      assumption
    · refine Keeps.step (State.setPend_keeps ..) (by decide) ?_
      exact Keeps.refl
  · refine Keeps.step (State.writeOut_keeps ..) (by decide) ?_
    refine Keeps.foldl (fun _ _ _ => ?_) ?_
    · refine Keeps.step (State.unref_keeps ..) (by decide) ?_
      assumption
    · refine Keeps.step (State.setPend_keeps ..) (by decide) ?_
      exact Keeps.refl

theorem State.forkLeaf_keeps (s : State) (n : Nat) (m : Nat) (b : Nat) (l : Leaf) : Keeps [.pg, .media] s
    (State.forkLeaf s n m b l) := by
  unfold State.forkLeaf
  try dsimp -iota -proj only
  refine Keeps.ite ?_ ?_
  · refine Keeps.step (State.setLeaf_keeps ..) (by decide) ?_
    exact Keeps.refl
  · refine Keeps.step (State.setShared_keeps ..) (by decide) ?_
    refine Keeps.step (State.setLeaf_keeps ..) (by decide) ?_
    refine Keeps.step (State.touch_keeps ..) (by decide) ?_
    refine Keeps.step (State.modFrame_keeps ..) (by decide) ?_
    exact Keeps.refl

theorem execSeqDiscard_keeps_eq {t : Nat} {s : State} {zz} (hE : execSeqDiscard t s = .next zz)
    : Keeps [.out, .ctr, .pg, .px, .tier, .media, .q, .mem, .tm, .part, .ev, .lk, .ix] s zz := by
  unfold execSeqDiscard at hE
  try dsimp -iota -proj only at hE
  obtain rfl := Host.Outcome.next.inj hE
  split
  · exact Keeps.refl
  · split
    · refine Keeps.step (State.endOp_keeps ..) (by decide) ?_
      refine Keeps.step (State.meterOp_keeps ..) (by decide) ?_
      exact Keeps.refl
    · split
      · refine Keeps.step (State.endOp_keeps ..) (by decide) ?_
        refine Keeps.step (State.discardSeq_keeps_eq (by assumption)) (by decide) ?_
        refine Keeps.step (State.meterOp_keeps ..) (by decide) ?_
        exact Keeps.refl

theorem State.attachDone_keeps (s : State) (t : Nat) (o : Op) (hits : List Nat) (keys : List (Nat × PendKey))
    : Keeps [.out, .ctr, .pg, .px, .tier, .media, .q, .mem, .tm, .part, .ev, .lk, .ix] s
        (State.attachDone s t o hits keys) := by
  unfold State.attachDone
  try dsimp -iota -proj only
  split
  · refine Keeps.step (State.finishOut_keeps ..) (by decide) ?_
    refine Keeps.iteBy (fun x : Nat × Bool × State => x.2.2) ?_ ?_ <;> try dsimp -iota -proj only
    · refine Keeps.mk3 ?_
      split
      · refine Keeps.ite ?_ ?_
        · refine Keeps.step (State.touch_keeps ..) (by decide) ?_
          refine Keeps.step (State.setSeq_keeps ..) (by decide) ?_
          refine Keeps.foldl (fun _ _ _ => ?_) ?_
          · refine Keeps.step (State.unref_keeps ..) (by decide) ?_
            assumption
          · refine Keeps.step (State.attach_keeps_eq (by assumption)) (by decide) ?_
            refine Keeps.step (State.setPend_keeps ..) (by decide) ?_
            exact Keeps.refl
        · refine Keeps.foldl (fun _ _ _ => ?_) ?_
          · refine Keeps.step (State.unref_keeps ..) (by decide) ?_
            assumption
          · refine Keeps.step (State.attach_keeps_eq (by assumption)) (by decide) ?_
            refine Keeps.step (State.setPend_keeps ..) (by decide) ?_
            exact Keeps.refl
      · refine Keeps.foldl (fun _ _ _ => ?_) ?_
        · refine Keeps.step (State.unref_keeps ..) (by decide) ?_
          assumption
        · refine Keeps.step (State.attach_keeps_eq (by assumption)) (by decide) ?_
          refine Keeps.step (State.setPend_keeps ..) (by decide) ?_
          exact Keeps.refl
    · refine Keeps.step (State.writeOut_keeps ..) (by decide) ?_
      split
      · refine Keeps.ite ?_ ?_
        · refine Keeps.step (State.touch_keeps ..) (by decide) ?_
          refine Keeps.step (State.setSeq_keeps ..) (by decide) ?_
          refine Keeps.foldl (fun _ _ _ => ?_) ?_
          · refine Keeps.step (State.unref_keeps ..) (by decide) ?_
            assumption
          · refine Keeps.step (State.attach_keeps_eq (by assumption)) (by decide) ?_
            refine Keeps.step (State.setPend_keeps ..) (by decide) ?_
            exact Keeps.refl
        · refine Keeps.foldl (fun _ _ _ => ?_) ?_
          · refine Keeps.step (State.unref_keeps ..) (by decide) ?_
            assumption
          · refine Keeps.step (State.attach_keeps_eq (by assumption)) (by decide) ?_
            refine Keeps.step (State.setPend_keeps ..) (by decide) ?_
            exact Keeps.refl
      · refine Keeps.foldl (fun _ _ _ => ?_) ?_
        · refine Keeps.step (State.unref_keeps ..) (by decide) ?_
          assumption
        · refine Keeps.step (State.attach_keeps_eq (by assumption)) (by decide) ?_
          refine Keeps.step (State.setPend_keeps ..) (by decide) ?_
          exact Keeps.refl

theorem Chain.block_keeps (c : Chain) (a : ChainArg) (i : Nat) (toks : List Nat) : Keeps [.ctr, .pg, .px] c.s
    (Chain.block c a i toks).s := by
  unfold Chain.block
  try dsimp -iota -proj only
  refine Keeps.iteBy (fun x : Chain => x.s) ?_ ?_ <;> try dsimp -iota -proj only
  · exact Keeps.refl
  · split
    · refine Keeps.step (State.hit_keeps ..) (by decide) ?_
      refine Keeps.step (State.lookup_keeps_eq (by assumption)) (by decide) ?_
      exact Keeps.refl
    · refine Keeps.step (State.lookup_keeps_eq (by assumption)) (by decide) ?_
      exact Keeps.refl

theorem execPurgePrivate_keeps_eq {t : Nat} {s : State} {zz} (hE : execPurgePrivate t s = .next zz)
    : Keeps [.out, .ctr, .pg, .px, .tier, .media, .q, .mem, .tm, .part, .ev, .lk, .ix] s zz := by
  unfold execPurgePrivate at hE
  try dsimp -iota -proj only at hE
  obtain rfl := Host.Outcome.next.inj hE
  split
  · exact Keeps.refl
  · split
    · refine Keeps.step (State.endOp_keeps ..) (by decide) ?_
      refine Keeps.step (State.purge_keeps_eq (by assumption)) (by decide) ?_
      refine Keeps.step (State.meterOp_keeps ..) (by decide) ?_
      exact Keeps.refl

theorem Chain.run_keeps (c : Chain) (a : ChainArg) (bs : Sys2Proof.Bytes) (a3 : Nat) (a4 : Nat)
    : Keeps [.ctr, .pg, .px] c.s (Chain.run c a bs a3 a4).s := by
  unfold Chain.run
  try dsimp -iota -proj only
  split
  · exact Keeps.refl
  · refine Keeps.step (Chain.run_keeps ..) (by decide) ?_
    refine Keeps.step (Chain.block_keeps ..) (by decide) ?_
    exact Keeps.refl

theorem State.chain_keeps_eq {s : State} {o : Op} {zz} (hE : State.chain s o = some zz)
    : Keeps [.ctr, .pg, .px, .tm] s zz.s := by
  unfold State.chain at hE
  try dsimp -iota -proj only at hE
  split at hE
  · cases hE
  · obtain hE | hE := ite_cases hE
    · cases hE
    · split at hE
      · obtain rfl := Option.some.inj hE
        refine Keeps.step (Chain.run_keeps ..) (by decide) ?_
        refine Keeps.step (State.bump_keeps ..) (by decide) ?_
        refine Keeps.step (State.readIn_keeps_eq (by assumption)) (by decide) ?_
        exact Keeps.refl

theorem execMaskedSearch_keeps_eq {t : Nat} {s : State} {zz} (hE : execMaskedSearch t s = .next zz)
    : Keeps [.out, .ctr, .pg, .media, .q, .mem, .tm, .part, .ev, .lk] s zz := by
  unfold execMaskedSearch at hE
  try dsimp -iota -proj only at hE
  obtain rfl := Host.Outcome.next.inj hE
  split
  · exact Keeps.refl
  · split
    · split
      · refine Keeps.step (State.endOp_keeps ..) (by decide) ?_
        refine Keeps.step (State.readIn_keeps_eq (by assumption)) (by decide) ?_
        refine Keeps.step (State.meterOp_keeps ..) (by decide) ?_
        exact Keeps.refl
      · refine Keeps.ite ?_ ?_
        · refine Keeps.step (State.endOp_keeps ..) (by decide) ?_
          refine Keeps.step (State.readIn_keeps_eq (by assumption)) (by decide) ?_
          refine Keeps.step (State.meterOp_keeps ..) (by decide) ?_
          exact Keeps.refl
        · refine Keeps.step (State.finishOut_keeps ..) (by decide) ?_
          refine Keeps.step (State.writeOut_keeps ..) (by decide) ?_
          refine Keeps.step (State.readIn_keeps_eq (by assumption)) (by decide) ?_
          refine Keeps.step (State.meterOp_keeps ..) (by decide) ?_
          exact Keeps.refl

theorem execInspectSeq_keeps_eq {t : Nat} {s : State} {zz} (hE : execInspectSeq t s = .next zz)
    : Keeps [.out, .ctr, .pg, .media, .q, .mem, .tm, .part, .ev, .lk] s zz := by
  unfold execInspectSeq at hE
  try dsimp -iota -proj only at hE
  obtain rfl := Host.Outcome.next.inj hE
  split
  · exact Keeps.refl
  · split
    · refine Keeps.step (State.endOp_keeps ..) (by decide) ?_
      refine Keeps.step (State.meterOp_keeps ..) (by decide) ?_
      exact Keeps.refl
    · refine Keeps.step (State.finishOut_keeps ..) (by decide) ?_
      refine Keeps.step (State.writeOut_keeps ..) (by decide) ?_
      refine Keeps.step (State.meterOp_keeps ..) (by decide) ?_
      exact Keeps.refl

theorem execChainSearchAttach_keeps_eq {t : Nat} {s : State} {zz} (hE : execChainSearchAttach t s = .next zz)
    : Keeps [.out, .ctr, .pg, .px, .tier, .media, .q, .mem, .tm, .part, .ev, .lk, .ix] s zz := by
  unfold execChainSearchAttach at hE
  try dsimp -iota -proj only at hE
  obtain rfl := Host.Outcome.next.inj hE
  split
  · exact Keeps.refl
  · split
    · refine Keeps.step (State.endOp_keeps ..) (by decide) ?_
      refine Keeps.step (State.meterOp_keeps ..) (by decide) ?_
      exact Keeps.refl
    · refine Keeps.step (State.endOp_keeps ..) (by decide) ?_
      refine Keeps.step (State.meterOp_keeps ..) (by decide) ?_
      exact Keeps.refl
    · refine Keeps.step (State.attachDone_keeps ..) (by decide) ?_
      refine Keeps.step (State.chain_keeps_eq (by assumption)) (by decide) ?_
      refine Keeps.step (State.meterOp_keeps ..) (by decide) ?_
      exact Keeps.refl

theorem execSeqFork_keeps_eq {t : Nat} {s : State} {zz} (hE : execSeqFork t s = .next zz)
    : Keeps [.free, .out, .ctr, .pg, .media, .q, .mem, .tm, .part, .ev, .lk] s zz := by
  unfold execSeqFork at hE
  try dsimp -iota -proj only at hE
  obtain rfl := Host.Outcome.next.inj hE
  split
  · exact Keeps.refl
  · split
    · refine Keeps.step (State.endOp_keeps ..) (by decide) ?_
      refine Keeps.step (State.meterOp_keeps ..) (by decide) ?_
      exact Keeps.refl
    · refine Keeps.ite ?_ ?_
      · refine Keeps.step (State.endOp_keeps ..) (by decide) ?_
        refine Keeps.step (State.meterOp_keeps ..) (by decide) ?_
        exact Keeps.refl
      · refine Keeps.ite ?_ ?_
        · refine Keeps.step (State.endOp_keeps ..) (by decide) ?_
          refine Keeps.step (State.meterOp_keeps ..) (by decide) ?_
          exact Keeps.refl
        · split
          · refine Keeps.step (State.endOp_keeps ..) (by decide) ?_
            refine Keeps.step (State.meterOp_keeps ..) (by decide) ?_
            exact Keeps.refl
          · refine Keeps.step (State.endOp_keeps ..) (by decide) ?_
            refine Keeps.foldl (fun _ _ _ => ?_) ?_
            · refine Keeps.step (State.forkLeaf_keeps ..) (by decide) ?_
              assumption
            · refine Keeps.step (State.touch_keeps ..) (by decide) ?_
              refine Keeps.step (State.setSeq_keeps ..) (by decide) ?_
              refine Keeps.step (State.freeSeq_keeps_eq (by assumption)) (by decide) ?_
              refine Keeps.step (State.meterOp_keeps ..) (by decide) ?_
              exact Keeps.refl

theorem execChainSearchProbe_keeps_eq {t : Nat} {s : State} {zz} (hE : execChainSearchProbe t s = .next zz)
    : Keeps [.out, .ctr, .pg, .px, .tier, .media, .q, .mem, .tm, .part, .ev, .lk, .ix] s zz := by
  unfold execChainSearchProbe at hE
  try dsimp -iota -proj only at hE
  obtain rfl := Host.Outcome.next.inj hE
  split
  · exact Keeps.refl
  · split
    · refine Keeps.step (State.endOp_keeps ..) (by decide) ?_
      refine Keeps.step (State.meterOp_keeps ..) (by decide) ?_
      exact Keeps.refl
    · refine Keeps.step (State.endOp_keeps ..) (by decide) ?_
      refine Keeps.step (State.meterOp_keeps ..) (by decide) ?_
      exact Keeps.refl
    · refine Keeps.step (State.probeDone_keeps ..) (by decide) ?_
      refine Keeps.step (State.chain_keeps_eq (by assumption)) (by decide) ?_
      refine Keeps.step (State.meterOp_keeps ..) (by decide) ?_
      exact Keeps.refl

theorem execSeqOpen_keeps_eq {t : Nat} {s : State} {zz} (hE : execSeqOpen t s = .next zz)
    : Keeps [.free, .out, .ctr, .pg, .media, .q, .mem, .tm, .part, .ev, .lk] s zz := by
  unfold execSeqOpen at hE
  try dsimp -iota -proj only at hE
  obtain rfl := Host.Outcome.next.inj hE
  split
  · exact Keeps.refl
  · split
    · refine Keeps.step (State.endOp_keeps ..) (by decide) ?_
      refine Keeps.step (State.meterOp_keeps ..) (by decide) ?_
      exact Keeps.refl
    · refine Keeps.ite ?_ ?_
      · refine Keeps.step (State.endOp_keeps ..) (by decide) ?_
        refine Keeps.step (State.meterOp_keeps ..) (by decide) ?_
        exact Keeps.refl
      · split
        · refine Keeps.step (State.endOp_keeps ..) (by decide) ?_
          refine Keeps.step (State.meterOp_keeps ..) (by decide) ?_
          exact Keeps.refl
        · refine Keeps.step (State.endOp_keeps ..) (by decide) ?_
          refine Keeps.step (State.touch_keeps ..) (by decide) ?_
          refine Keeps.step (State.setSeq_keeps ..) (by decide) ?_
          refine Keeps.step (State.freeSeq_keeps_eq (by assumption)) (by decide) ?_
          refine Keeps.step (State.meterOp_keeps ..) (by decide) ?_
          exact Keeps.refl

theorem execInspectFrame_keeps_eq {t : Nat} {s : State} {zz} (hE : execInspectFrame t s = .next zz)
    : Keeps [.out, .ctr, .pg, .media, .q, .mem, .tm, .part, .ev, .lk] s zz := by
  unfold execInspectFrame at hE
  try dsimp -iota -proj only at hE
  obtain rfl := Host.Outcome.next.inj hE
  split
  · exact Keeps.refl
  · split
    · refine Keeps.step (State.endOp_keeps ..) (by decide) ?_
      refine Keeps.step (State.meterOp_keeps ..) (by decide) ?_
      exact Keeps.refl
    · refine Keeps.step (State.finishOut_keeps ..) (by decide) ?_
      refine Keeps.step (State.writeOut_keeps ..) (by decide) ?_
      refine Keeps.step (State.meterOp_keeps ..) (by decide) ?_
      exact Keeps.refl

theorem execSeqTruncate_keeps_eq {t : Nat} {s : State} {zz} (hE : execSeqTruncate t s = .next zz)
    : Keeps [.out, .ctr, .pg, .px, .tier, .media, .q, .mem, .tm, .part, .ev, .lk, .ix] s zz := by
  unfold execSeqTruncate at hE
  try dsimp -iota -proj only at hE
  obtain rfl := Host.Outcome.next.inj hE
  split
  · exact Keeps.refl
  · split
    · refine Keeps.step (State.endOp_keeps ..) (by decide) ?_
      refine Keeps.step (State.meterOp_keeps ..) (by decide) ?_
      exact Keeps.refl
    · refine Keeps.ite ?_ ?_
      · refine Keeps.step (State.endOp_keeps ..) (by decide) ?_
        refine Keeps.step (State.meterOp_keeps ..) (by decide) ?_
        exact Keeps.refl
      · split
        · refine Keeps.step (State.endOp_keeps ..) (by decide) ?_
          split
          · refine Keeps.step (State.touch_keeps ..) (by decide) ?_
            refine Keeps.step (State.setSeq_keeps ..) (by decide) ?_
            refine Keeps.step (State.dropPend_keeps ..) (by decide) ?_
            refine Keeps.step (State.cutLeaves_keeps_eq (by assumption)) (by decide) ?_
            refine Keeps.step (State.meterOp_keeps ..) (by decide) ?_
            exact Keeps.refl
          · refine Keeps.step (State.dropPend_keeps ..) (by decide) ?_
            refine Keeps.step (State.cutLeaves_keeps_eq (by assumption)) (by decide) ?_
            refine Keeps.step (State.meterOp_keeps ..) (by decide) ?_
            exact Keeps.refl

/-! ### PageMover -/

theorem State.allocWait_keeps (s : State) (t : Nat) (o : Op) (a : WArg) : Keeps [.ctr, .q] s (State.allocWait s t o a) := by
  unfold State.allocWait
  try dsimp -iota -proj only
  refine Keeps.step (State.setOp_keeps ..) (by decide) ?_
  refine Keeps.ite ?_ ?_
  · refine Keeps.step (State.bump_keeps ..) (by decide) ?_
    exact Keeps.refl
  · exact Keeps.refl

theorem State.wrote_keeps (s : State) (a : WArg) (fid : Nat) : Keeps [.ctr, .q, .tm] s (State.wrote s a fid) := by
  unfold State.wrote
  try dsimp -iota -proj only
  split
  · split
    · refine Keeps.step (State.setOp_keeps ..) (by decide) ?_
      refine Keeps.step (State.bump_keeps ..) (by decide) ?_
      refine Keeps.step (State.hbmUnits_keeps ..) (by decide) ?_
      refine Keeps.ite ?_ ?_
      · refine Keeps.step (State.rindPut_keeps ..) (by decide) ?_
        refine Keeps.ite ?_ ?_
        · refine Keeps.step (State.pcieUnits_keeps ..) (by decide) ?_
          refine Keeps.step (State.meterItem_keeps_eq (by assumption)) (by decide) ?_
          exact Keeps.refl
        · refine Keeps.step (State.meterItem_keeps_eq (by assumption)) (by decide) ?_
          exact Keeps.refl
      · refine Keeps.ite ?_ ?_
        · refine Keeps.step (State.pcieUnits_keeps ..) (by decide) ?_
          refine Keeps.step (State.meterItem_keeps_eq (by assumption)) (by decide) ?_
          exact Keeps.refl
        · refine Keeps.step (State.meterItem_keeps_eq (by assumption)) (by decide) ?_
          exact Keeps.refl
    · refine Keeps.step (State.bump_keeps ..) (by decide) ?_
      refine Keeps.step (State.hbmUnits_keeps ..) (by decide) ?_
      refine Keeps.ite ?_ ?_
      · refine Keeps.step (State.rindPut_keeps ..) (by decide) ?_
        refine Keeps.ite ?_ ?_
        · refine Keeps.step (State.pcieUnits_keeps ..) (by decide) ?_
          refine Keeps.step (State.meterItem_keeps_eq (by assumption)) (by decide) ?_
          exact Keeps.refl
        · refine Keeps.step (State.meterItem_keeps_eq (by assumption)) (by decide) ?_
          exact Keeps.refl
      · refine Keeps.ite ?_ ?_
        · refine Keeps.step (State.pcieUnits_keeps ..) (by decide) ?_
          refine Keeps.step (State.meterItem_keeps_eq (by assumption)) (by decide) ?_
          exact Keeps.refl
        · refine Keeps.step (State.meterItem_keeps_eq (by assumption)) (by decide) ?_
          exact Keeps.refl

theorem State.sliceWrites_keeps (s : State) (t : Nat) (a2 : Nat) : Keeps
    (Fld.but [.pending, .up, .now, .cfg, .blob, .dict, .boot, .clk, .att, .pxb, .pwr]) s (State.sliceWrites s t a2) := by
  unfold State.sliceWrites
  try dsimp -iota -proj only
  split
  · exact Keeps.refl
  · split
    · exact Keeps.refl
    · refine Keeps.ite ?_ ?_
      · refine Keeps.step (State.finishOp_keeps ..) (by decide) ?_
        exact Keeps.refl
      · split
        · refine Keeps.step (State.sliceWrites_keeps ..) (by decide) ?_
          refine Keeps.step (State.wrote_keeps ..) (by decide) ?_
          first
          | refine Keeps.ofDone (by assumption) ?_
          | refine Keeps.ofFail (by assumption) ?_
          | refine Keeps.ofWait (by assumption) ?_
          | refine Keeps.ofNeed (by assumption) ?_
          refine Keeps.step (State.writeSlice_keeps ..) (by decide) ?_
          exact Keeps.refl
        · refine Keeps.step (State.finishOp_keeps ..) (by decide) ?_
          first
          | refine Keeps.ofDone (by assumption) ?_
          | refine Keeps.ofFail (by assumption) ?_
          | refine Keeps.ofWait (by assumption) ?_
          | refine Keeps.ofNeed (by assumption) ?_
          refine Keeps.step (State.writeSlice_keeps ..) (by decide) ?_
          exact Keeps.refl
        · split
          · refine Keeps.step (State.sliceWrites_keeps ..) (by decide) ?_
            refine Keeps.step (State.fetchSlices_keeps_eq (by assumption)) (by decide) ?_
            first
            | refine Keeps.ofDone (by assumption) ?_
            | refine Keeps.ofFail (by assumption) ?_
            | refine Keeps.ofWait (by assumption) ?_
            | refine Keeps.ofNeed (by assumption) ?_
            refine Keeps.step (State.writeSlice_keeps ..) (by decide) ?_
            exact Keeps.refl
          · refine Keeps.step (State.fetchSlices_keeps_eq (by assumption)) (by decide) ?_
            first
            | refine Keeps.ofDone (by assumption) ?_
            | refine Keeps.ofFail (by assumption) ?_
            | refine Keeps.ofWait (by assumption) ?_
            | refine Keeps.ofNeed (by assumption) ?_
            refine Keeps.step (State.writeSlice_keeps ..) (by decide) ?_
            exact Keeps.refl
        · refine Keeps.step (State.allocWait_keeps ..) (by decide) ?_
          first
          | refine Keeps.ofDone (by assumption) ?_
          | refine Keeps.ofFail (by assumption) ?_
          | refine Keeps.ofWait (by assumption) ?_
          | refine Keeps.ofNeed (by assumption) ?_
          refine Keeps.step (State.writeSlice_keeps ..) (by decide) ?_
          exact Keeps.refl

theorem execAllocWaitResume_keeps_eq {t : Nat} {s : State} {zz} (hE : execAllocWaitResume t s = .next zz) : Keeps
    (Fld.but [.pending, .up, .now, .cfg, .blob, .dict, .boot, .clk, .att, .pxb, .pwr]) s zz := by
  unfold execAllocWaitResume at hE
  try dsimp -iota -proj only at hE
  obtain rfl := Host.Outcome.next.inj hE
  split
  · split
    · refine Keeps.step (State.sliceWrites_keeps ..) (by decide) ?_
      refine Keeps.step (State.setOp_keeps ..) (by decide) ?_
      exact Keeps.refl
    · exact Keeps.refl
  · exact Keeps.refl

theorem StageAcc.one_keeps (o : Op) (a : StageAcc) (k : Nat × Nat)
    : Keeps [.free, .out, .ctr, .pg, .tier, .media, .q, .tm, .ev, .lk] a.s (StageAcc.one o a k).s := by
  unfold StageAcc.one
  try dsimp -iota -proj only
  split
  · exact Keeps.refl
  · split
    · exact Keeps.refl
    · exact Keeps.refl
    · exact Keeps.refl
    · split
      · refine Keeps.iteBy (fun x : StageAcc => x.s) ?_ ?_ <;> try dsimp -iota -proj only
        · refine Keeps.ofPair2 (by assumption) ?_
          refine Keeps.iteBy (fun x : Bool × State => x.2) ?_ ?_ <;> try dsimp -iota -proj only
          · refine Keeps.mk2 ?_
            exact Keeps.refl
          · refine Keeps.step (State.promote_keeps ..) (by decide) ?_
            exact Keeps.refl
        · refine Keeps.ofPair2 (by assumption) ?_
          refine Keeps.iteBy (fun x : Bool × State => x.2) ?_ ?_ <;> try dsimp -iota -proj only
          · refine Keeps.mk2 ?_
            exact Keeps.refl
          · refine Keeps.step (State.promote_keeps ..) (by decide) ?_
            exact Keeps.refl
    · refine Keeps.iteBy (fun x : StageAcc => x.s) ?_ ?_ <;> try dsimp -iota -proj only
      · exact Keeps.refl
      · exact Keeps.refl
    · refine Keeps.iteBy (fun x : StageAcc => x.s) ?_ ?_ <;> try dsimp -iota -proj only
      · refine Keeps.step (State.pin_keeps ..) (by decide) ?_
        exact Keeps.refl
      · exact Keeps.refl

theorem State.stageDone_keeps (s : State) (t : Nat) (o : Op) (ks : List (Nat × Nat)) (red : Bool)
    : Keeps [.free, .out, .ctr, .pg, .tier, .media, .q, .mem, .tm, .part, .ev, .lk] s (State.stageDone s t o ks red) := by
  unfold State.stageDone
  try dsimp -iota -proj only
  refine Keeps.step (State.finishOp_keeps ..) (by decide) ?_
  refine Keeps.foldlBy (fun x : StageAcc => x.s) (fun _ _ _ => ?_) ?_ <;> try dsimp -iota -proj only
  · refine Keeps.step (StageAcc.one_keeps ..) (by decide) ?_
    assumption
  · exact Keeps.refl

theorem State.stageMeter_keeps (s : State) (o : Op) (ks : List (Nat × Nat)) : Keeps [.ctr, .tm] s
    (State.stageMeter s o ks).2.2 := by
  unfold State.stageMeter
  try dsimp -iota -proj only
  refine Keeps.foldlBy (fun x : List (Nat × Nat) × Bool × State => x.2.2) (fun _ _ _ => ?_) ?_ <;> try dsimp -iota -proj only
  · split
    · refine Keeps.iteBy (fun x : List (Nat × Nat) × Bool × State => x.2.2) ?_ ?_ <;> try dsimp -iota -proj only
      · refine Keeps.step (State.meterItem_keeps_eq (by assumption)) (by decide) ?_
        assumption
      · refine Keeps.step (State.meterItem_keeps_eq (by assumption)) (by decide) ?_
        assumption
  · exact Keeps.refl
theorem State.stageMeter_keeps_eq {s : State} {o : Op} {ks : List (Nat × Nat)} {x0 x1 zz} (hE
    : State.stageMeter s o ks = (x0, x1, zz)) : Keeps [.ctr, .tm] s zz := by
  have h := State.stageMeter_keeps s o ks
  rw [hE] at h
  exact h

theorem execStage_keeps_eq {t : Nat} {s : State} {zz} (hE : execStage t s = .next zz)
    : Keeps [.free, .out, .ctr, .pg, .tier, .media, .q, .mem, .tm, .part, .ev, .lk] s zz := by
  unfold execStage at hE
  try dsimp -iota -proj only at hE
  obtain rfl := Host.Outcome.next.inj hE
  split
  · exact Keeps.refl
  · split
    · split
      · refine Keeps.step (State.fetchSlices_keeps_eq (by assumption)) (by decide) ?_
        split
        · refine Keeps.step (State.setOp_keeps ..) (by decide) ?_
          refine Keeps.ofPair3 (by assumption) ?_
          refine Keeps.iteBy (fun x : List (Nat × Nat) × Bool × State => x.2.2) ?_ ?_ <;> try dsimp -iota -proj only
          · refine Keeps.step (State.stageMeter_keeps ..) (by decide) ?_
            exact Keeps.refl
          · exact Keeps.refl
        · refine Keeps.ofPair3 (by assumption) ?_
          refine Keeps.iteBy (fun x : List (Nat × Nat) × Bool × State => x.2.2) ?_ ?_ <;> try dsimp -iota -proj only
          · refine Keeps.step (State.stageMeter_keeps ..) (by decide) ?_
            exact Keeps.refl
          · exact Keeps.refl
      · split
        · refine Keeps.step (State.fetchSlices_keeps_eq (by assumption)) (by decide) ?_
          split
          · refine Keeps.step (State.setOp_keeps ..) (by decide) ?_
            refine Keeps.ofPair3 (by assumption) ?_
            refine Keeps.iteBy (fun x : List (Nat × Nat) × Bool × State => x.2.2) ?_ ?_ <;> try dsimp -iota -proj only
            · refine Keeps.step (State.stageMeter_keeps ..) (by decide) ?_
              exact Keeps.refl
            · exact Keeps.refl
          · refine Keeps.ofPair3 (by assumption) ?_
            refine Keeps.iteBy (fun x : List (Nat × Nat) × Bool × State => x.2.2) ?_ ?_ <;> try dsimp -iota -proj only
            · refine Keeps.step (State.stageMeter_keeps ..) (by decide) ?_
              exact Keeps.refl
            · exact Keeps.refl
        · refine Keeps.step (State.stageDone_keeps ..) (by decide) ?_
          refine Keeps.step (State.fetchSlices_keeps_eq (by assumption)) (by decide) ?_
          split
          · refine Keeps.step (State.setOp_keeps ..) (by decide) ?_
            refine Keeps.ofPair3 (by assumption) ?_
            refine Keeps.iteBy (fun x : List (Nat × Nat) × Bool × State => x.2.2) ?_ ?_ <;> try dsimp -iota -proj only
            · refine Keeps.step (State.stageMeter_keeps ..) (by decide) ?_
              exact Keeps.refl
            · exact Keeps.refl
          · refine Keeps.ofPair3 (by assumption) ?_
            refine Keeps.iteBy (fun x : List (Nat × Nat) × Bool × State => x.2.2) ?_ ?_ <;> try dsimp -iota -proj only
            · refine Keeps.step (State.stageMeter_keeps ..) (by decide) ?_
              exact Keeps.refl
            · exact Keeps.refl

theorem execSliceWrite_keeps_eq {t : Nat} {s : State} {zz} (hE : execSliceWrite t s = .next zz) : Keeps
    (Fld.but [.pending, .up, .now, .cfg, .blob, .dict, .boot, .clk, .att, .pxb, .pwr]) s zz := by
  unfold execSliceWrite at hE
  try dsimp -iota -proj only at hE
  obtain rfl := Host.Outcome.next.inj hE
  split
  · exact Keeps.refl
  · split
    · refine Keeps.step (State.finishOp_keeps ..) (by decide) ?_
      exact Keeps.refl
    · refine Keeps.step (State.sliceWrites_keeps ..) (by decide) ?_
      exact Keeps.refl

theorem State.copyRow_keeps (t : Nat) (o : Op) (acc : List Nat × Nat × Bool × State) (r : Nat × Sys2Proof.Bytes)
    : Keeps [.ctr, .mem, .tm] acc.2.2.2 (State.copyRow t o acc r).2.2.2 := by
  unfold State.copyRow
  try dsimp -iota -proj only
  split
  · split
    · refine Keeps.mk4 ?_
      refine Keeps.step (State.writeOutVia_keeps ..) (by decide) ?_
      refine Keeps.ite ?_ ?_
      · refine Keeps.step (State.readIn_keeps ..) (by decide) ?_
        refine Keeps.step (State.meterItem_keeps_eq (by assumption)) (by decide) ?_
        exact Keeps.refl
      · refine Keeps.step (State.bump_keeps ..) (by decide) ?_
        refine Keeps.step (State.readIn_keeps ..) (by decide) ?_
        refine Keeps.step (State.meterItem_keeps_eq (by assumption)) (by decide) ?_
        exact Keeps.refl
theorem State.copyRow_keeps_eq {t : Nat} {o : Op} {acc : List Nat × Nat × Bool × State} {r : Nat × Sys2Proof.Bytes}
    {x0 x1 x2 zz} (hE : State.copyRow t o acc r = (x0, x1, x2, zz)) : Keeps [.ctr, .mem, .tm] acc.2.2.2 zz := by
  have h := State.copyRow_keeps t o acc r
  rw [hE] at h
  exact h

theorem State.copyRows_keeps (s : State) (t : Nat) (o : Op) (down : Bool) : Keeps [.ctr, .mem, .tm] s
    (State.copyRows s t o down).2.2.2 := by
  unfold State.copyRows
  try dsimp -iota -proj only
  refine Keeps.foldlBy (fun x : List Nat × Nat × Bool × State => x.2.2.2) (fun _ _ _ => ?_) ?_ <;> try dsimp -iota -proj only
  · refine Keeps.step (State.copyRow_keeps ..) (by decide) ?_
    assumption
  · exact Keeps.refl
theorem State.copyRows_keeps_eq {s : State} {t : Nat} {o : Op} {down : Bool} {x0 x1 x2 zz} (hE
    : State.copyRows s t o down = (x0, x1, x2, zz)) : Keeps [.ctr, .mem, .tm] s zz := by
  have h := State.copyRows_keeps s t o down
  rw [hE] at h
  exact h

theorem execCopy_keeps_eq {t : Nat} {s : State} {zz} (hE : execCopy t s = .next zz)
    : Keeps [.out, .ctr, .pg, .media, .q, .mem, .tm, .part, .ev, .lk] s zz := by
  unfold execCopy at hE
  try dsimp -iota -proj only at hE
  obtain rfl := Host.Outcome.next.inj hE
  split
  · exact Keeps.refl
  · split
    · refine Keeps.step (State.endOp_keeps ..) (by decide) ?_
      refine Keeps.step (State.bump_keeps ..) (by decide) ?_
      exact Keeps.refl
    · refine Keeps.step (State.endOp_keeps ..) (by decide) ?_
      exact Keeps.refl
    · refine Keeps.step (State.finishUnits_keeps ..) (by decide) ?_
      refine Keeps.step (State.copyRows_keeps ..) (by decide) ?_
      exact Keeps.refl
    · refine Keeps.step (State.finishUnits_keeps ..) (by decide) ?_
      refine Keeps.step (State.copyRows_keeps ..) (by decide) ?_
      refine Keeps.step (State.bump_keeps ..) (by decide) ?_
      exact Keeps.refl
    · refine Keeps.step (State.finishUnits_keeps ..) (by decide) ?_
      refine Keeps.step (State.copyRows_keeps ..) (by decide) ?_
      refine Keeps.step (State.bump_keeps ..) (by decide) ?_
      exact Keeps.refl

theorem ReadAcc.one_keeps (t : Nat) (o : Op) (a : ReadAcc) (k : Nat) : Keeps [.ctr, .pg, .mem, .tm] a.s
    (ReadAcc.one t o a k).s := by
  unfold ReadAcc.one
  try dsimp -iota -proj only
  split
  · split
    · refine Keeps.step (State.bump_keeps ..) (by decide) ?_
      refine Keeps.step (State.writeOutVia_keeps ..) (by decide) ?_
      split
      · refine Keeps.step (State.hbmUnits_keeps ..) (by decide) ?_
        refine Keeps.step (State.pin_keeps ..) (by decide) ?_
        refine Keeps.ite ?_ ?_
        · refine Keeps.step (State.demand_keeps ..) (by decide) ?_
          refine Keeps.step (State.meterItem_keeps_eq (by assumption)) (by decide) ?_
          exact Keeps.refl
        · refine Keeps.step (State.meterItem_keeps_eq (by assumption)) (by decide) ?_
          exact Keeps.refl
      · refine Keeps.ite ?_ ?_
        · refine Keeps.step (State.demand_keeps ..) (by decide) ?_
          refine Keeps.step (State.meterItem_keeps_eq (by assumption)) (by decide) ?_
          exact Keeps.refl
        · refine Keeps.step (State.meterItem_keeps_eq (by assumption)) (by decide) ?_
          exact Keeps.refl
    · refine Keeps.step (State.bump_keeps ..) (by decide) ?_
      refine Keeps.step (State.writeOutVia_keeps ..) (by decide) ?_
      split
      · refine Keeps.step (State.hbmUnits_keeps ..) (by decide) ?_
        refine Keeps.step (State.pin_keeps ..) (by decide) ?_
        refine Keeps.ite ?_ ?_
        · refine Keeps.step (State.demand_keeps ..) (by decide) ?_
          refine Keeps.step (State.meterItem_keeps_eq (by assumption)) (by decide) ?_
          exact Keeps.refl
        · refine Keeps.step (State.meterItem_keeps_eq (by assumption)) (by decide) ?_
          exact Keeps.refl
      · refine Keeps.ite ?_ ?_
        · refine Keeps.step (State.demand_keeps ..) (by decide) ?_
          refine Keeps.step (State.meterItem_keeps_eq (by assumption)) (by decide) ?_
          exact Keeps.refl
        · refine Keeps.step (State.meterItem_keeps_eq (by assumption)) (by decide) ?_
          exact Keeps.refl
    · refine Keeps.ite ?_ ?_
      · refine Keeps.step (State.demand_keeps ..) (by decide) ?_
        refine Keeps.step (State.meterItem_keeps_eq (by assumption)) (by decide) ?_
        exact Keeps.refl
      · refine Keeps.step (State.meterItem_keeps_eq (by assumption)) (by decide) ?_
        exact Keeps.refl

theorem State.sliceReadDone_keeps (s : State) (t : Nat) (o : Op)
    : Keeps [.out, .ctr, .pg, .media, .q, .mem, .tm, .part, .ev, .lk] s (State.sliceReadDone s t o) := by
  unfold State.sliceReadDone
  try dsimp -iota -proj only
  refine Keeps.step (State.finishUnits_keeps ..) (by decide) ?_
  refine Keeps.iteBy (fun x : Nat × Bool × State => x.2.2) ?_ ?_ <;> try dsimp -iota -proj only
  · refine Keeps.mk3 ?_
    refine Keeps.foldlBy (fun x : ReadAcc => x.s) (fun _ _ _ => ?_) ?_ <;> try dsimp -iota -proj only
    · refine Keeps.step (ReadAcc.one_keeps ..) (by decide) ?_
      assumption
    · exact Keeps.refl
  · refine Keeps.step (State.writeOut_keeps ..) (by decide) ?_
    refine Keeps.foldlBy (fun x : ReadAcc => x.s) (fun _ _ _ => ?_) ?_ <;> try dsimp -iota -proj only
    · refine Keeps.step (ReadAcc.one_keeps ..) (by decide) ?_
      assumption
    · exact Keeps.refl

theorem execSliceRead_keeps_eq {t : Nat} {s : State} {zz} (hE : execSliceRead t s = .next zz)
    : Keeps [.free, .out, .ctr, .pg, .media, .q, .mem, .tm, .part, .ev, .lk] s zz := by
  unfold execSliceRead at hE
  try dsimp -iota -proj only at hE
  obtain rfl := Host.Outcome.next.inj hE
  split
  · exact Keeps.refl
  · split
    · refine Keeps.step (State.fetchSlices_keeps_eq (by assumption)) (by decide) ?_
      exact Keeps.refl
    · split
      · refine Keeps.step (State.fetchSlices_keeps_eq (by assumption)) (by decide) ?_
        exact Keeps.refl
      · refine Keeps.step (State.sliceReadDone_keeps ..) (by decide) ?_
        refine Keeps.step (State.fetchSlices_keeps_eq (by assumption)) (by decide) ?_
        exact Keeps.refl

end Sys2Proof.Machine
end

