-- ==== Sys2Proof/Laws/KeepsLink.lean ====
section
/-! SUPPORT. Which parts of the state each operation can change: links, plans, collectives, the index and attention. -/

namespace Sys2Proof.Machine

/-! ### Link -/

theorem State.beginAttempt_keeps (s : State) (n : Nat) (k : Nat) : Keeps [.lk] s (State.beginAttempt s n k) := by
  unfold State.beginAttempt
  try dsimp -iota -proj only
  refine Keeps.step (State.setLink_keeps ..) (by decide) ?_
  exact Keeps.refl

theorem State.countLanes_keeps (s : State) (n : Nat) : Keeps
    (Fld.but [.pending, .up, .now, .cfg, .blob, .clk, .pxb, .pwr]) s (State.countLanes s n) := by
  unfold State.countLanes
  try dsimp -iota -proj only
  refine Keeps.ite ?_ ?_
  · refine Keeps.step (State.fence_keeps ..) (by decide) ?_
    refine Keeps.foldl (fun _ _ _ => ?_) ?_
    · refine Keeps.ite ?_ ?_
      · refine Keeps.step (State.fence_keeps ..) (by decide) ?_
        assumption
      · assumption
    · refine Keeps.step (State.setLink_keeps ..) (by decide) ?_
      exact Keeps.refl
  · refine Keeps.foldl (fun _ _ _ => ?_) ?_
    · refine Keeps.ite ?_ ?_
      · refine Keeps.step (State.fence_keeps ..) (by decide) ?_
        assumption
      · assumption
    · refine Keeps.step (State.setLink_keeps ..) (by decide) ?_
      exact Keeps.refl

theorem State.attemptFails_keeps (s : State) (n : Nat) : Keeps
    (Fld.but [.pending, .up, .now, .cfg, .blob, .clk, .pxb, .pwr]) s (State.attemptFails s n) := by
  unfold State.attemptFails
  try dsimp -iota -proj only
  refine Keeps.ite ?_ ?_
  · refine Keeps.step (State.beginAttempt_keeps ..) (by decide) ?_
    refine Keeps.step (State.linkCount_keeps ..) (by decide) ?_
    exact Keeps.refl
  · refine Keeps.ite ?_ ?_
    · refine Keeps.step (State.countLanes_keeps ..) (by decide) ?_
      refine Keeps.step (State.linkCount_keeps ..) (by decide) ?_
      exact Keeps.refl
    · refine Keeps.step (State.linkCount_keeps ..) (by decide) ?_
      refine Keeps.step (State.event_keeps ..) (by decide) ?_
      refine Keeps.step (State.setLink_keeps ..) (by decide) ?_
      refine Keeps.step (State.countLanes_keeps ..) (by decide) ?_
      refine Keeps.step (State.linkCount_keeps ..) (by decide) ?_
      exact Keeps.refl

theorem State.sendTraining_keeps (s : State) (n : Nat) : Keeps [.out] s (State.sendTraining s n) := by
  unfold State.sendTraining
  try dsimp -iota -proj only
  refine Keeps.step (Keeps.set_out ..) (by decide) ?_
  exact Keeps.refl

theorem State.sendCredit_keeps (s : State) (n : Nat) : Keeps [.out] s (State.sendCredit s n) := by
  unfold State.sendCredit
  try dsimp -iota -proj only
  refine Keeps.step (Keeps.set_out ..) (by decide) ?_
  exact Keeps.refl

theorem State.returnCredits_keeps (s : State) (n : Nat) (vl : Nat) (c : Nat) : Keeps [.out, .lk] s
    (State.returnCredits s n vl c) := by
  unfold State.returnCredits
  try dsimp -iota -proj only
  refine Keeps.step (State.sendCredit_keeps ..) (by decide) ?_
  refine Keeps.step (State.setLink_keeps ..) (by decide) ?_
  exact Keeps.refl

theorem State.dropHeld_keeps (s : State) (p : Nat) : Keeps [.out, .lk] s (State.dropHeld s p) := by
  unfold State.dropHeld
  try dsimp -iota -proj only
  refine Keeps.foldl (fun _ _ _ => ?_) ?_
  · refine Keeps.ite ?_ ?_
    · assumption
    · refine Keeps.foldl (fun _ _ _ => ?_) ?_
      · refine Keeps.step (State.returnCredits_keeps ..) (by decide) ?_
        assumption
      · refine Keeps.step (State.setLink_keeps ..) (by decide) ?_
        assumption
  · exact Keeps.refl

theorem State.borrow_keeps (s : State) : Keeps [.ctr, .tm, .lk] s (State.borrow s) := by
  unfold State.borrow
  try dsimp -iota -proj only
  refine Keeps.ite ?_ ?_
  · exact Keeps.refl
  · split
    · refine Keeps.step (State.sendLend_keeps ..) (by decide) ?_
      refine Keeps.step (Keeps.set_lk ..) (by decide) ?_
      exact Keeps.refl
    · exact Keeps.refl

theorem State.borrowCheck_keeps (s : State) : Keeps [.free, .out, .ctr, .pg, .tier, .media, .q, .tm, .ev, .lk] s
    (State.borrowCheck s) := by
  unfold State.borrowCheck
  try dsimp -iota -proj only
  refine Keeps.foldl (fun _ _ _ => ?_) ?_
  · refine Keeps.ite ?_ ?_
    · refine Keeps.step (State.revokeLease_keeps ..) (by decide) ?_
      assumption
    · assumption
  · exact Keeps.refl

theorem State.sendOffers_keeps (s : State) : Keeps [.ctr, .tm] s (State.sendOffers s) := by
  unfold State.sendOffers
  try dsimp -iota -proj only
  refine Keeps.ite ?_ ?_
  · exact Keeps.refl
  · refine Keeps.foldl (fun _ _ _ => ?_) ?_
    · refine Keeps.step (State.sendLend_keeps ..) (by decide) ?_
      assumption
    · exact Keeps.refl

theorem State.reject_keeps (s : State) (n : Nat) : Keeps [.ctr] s (State.reject s n) := by
  unfold State.reject
  try dsimp -iota -proj only
  refine Keeps.step (State.linkCount_keeps ..) (by decide) ?_
  exact Keeps.refl

theorem State.endLent_keeps (s : State) (b : Nat) : Keeps [.out, .ctr, .media, .q, .tm, .ev, .lk] s (State.endLent s b) := by
  unfold State.endLent
  try dsimp -iota -proj only
  split
  · refine Keeps.step (State.sendOffers_keeps ..) (by decide) ?_
    refine Keeps.step (State.leaseEvent_keeps ..) (by decide) ?_
    refine Keeps.step (Keeps.set_lk ..) (by decide) ?_
    exact Keeps.refl
  · exact Keeps.refl

theorem State.sendAck_keeps (s : State) (n : Nat) : Keeps [.out, .lk] s (State.sendAck s n) := by
  unfold State.sendAck
  try dsimp -iota -proj only
  refine Keeps.step (State.setLink_keeps ..) (by decide) ?_
  refine Keeps.step (Keeps.set_out ..) (by decide) ?_
  exact Keeps.refl

theorem State.accept_keeps_eq {s : State} {n : Nat} {vl : Nat} {len : Nat} {zz} (hE
    : State.accept s n vl len = some zz) : Keeps [.out, .ctr, .lk] s zz := by
  unfold State.accept at hE
  try dsimp -iota -proj only at hE
  obtain hE | hE := ite_cases hE
  · cases hE
  · obtain rfl := Option.some.inj hE
    refine Keeps.ite ?_ ?_
    · refine Keeps.step (State.sendAck_keeps ..) (by decide) ?_
      refine Keeps.ite ?_ ?_
      · refine Keeps.step (State.linkCount_keeps ..) (by decide) ?_
        refine Keeps.step (State.linkCount_keeps ..) (by decide) ?_
        refine Keeps.step (State.linkCount_keeps ..) (by decide) ?_
        refine Keeps.step (State.setLink_keeps ..) (by decide) ?_
        exact Keeps.refl
      · refine Keeps.step (State.linkCount_keeps ..) (by decide) ?_
        refine Keeps.step (State.linkCount_keeps ..) (by decide) ?_
        refine Keeps.step (State.setLink_keeps ..) (by decide) ?_
        exact Keeps.refl
    · refine Keeps.ite ?_ ?_
      · refine Keeps.step (State.linkCount_keeps ..) (by decide) ?_
        refine Keeps.step (State.linkCount_keeps ..) (by decide) ?_
        refine Keeps.step (State.linkCount_keeps ..) (by decide) ?_
        refine Keeps.step (State.setLink_keeps ..) (by decide) ?_
        exact Keeps.refl
      · refine Keeps.step (State.linkCount_keeps ..) (by decide) ?_
        refine Keeps.step (State.linkCount_keeps ..) (by decide) ?_
        refine Keeps.step (State.setLink_keeps ..) (by decide) ?_
        exact Keeps.refl

theorem State.hold_keeps (s : State) (n : Nat) (i : Sys2Proof.Instr) : Keeps [.ctr, .lk] s (State.hold s n i) := by
  unfold State.hold
  try dsimp -iota -proj only
  split
  · refine Keeps.step (State.linkCount_keeps ..) (by decide) ?_
    refine Keeps.step (State.setLink_keeps ..) (by decide) ?_
    exact Keeps.refl
  · refine Keeps.step (State.linkCount_keeps ..) (by decide) ?_
    refine Keeps.step (State.setLink_keeps ..) (by decide) ?_
    exact Keeps.refl
  · refine Keeps.step (State.linkCount_keeps ..) (by decide) ?_
    refine Keeps.step (State.setLink_keeps ..) (by decide) ?_
    exact Keeps.refl
  · refine Keeps.step (State.linkCount_keeps ..) (by decide) ?_
    refine Keeps.step (State.setLink_keeps ..) (by decide) ?_
    exact Keeps.refl
  · refine Keeps.step (State.linkCount_keeps ..) (by decide) ?_
    refine Keeps.step (State.setLink_keeps ..) (by decide) ?_
    exact Keeps.refl
  · refine Keeps.step (State.linkCount_keeps ..) (by decide) ?_
    refine Keeps.step (State.setLink_keeps ..) (by decide) ?_
    exact Keeps.refl
  · refine Keeps.step (State.linkCount_keeps ..) (by decide) ?_
    refine Keeps.step (State.setLink_keeps ..) (by decide) ?_
    exact Keeps.refl
  · refine Keeps.step (State.setLink_keeps ..) (by decide) ?_
    exact Keeps.refl

theorem State.withhold_keeps (s : State) (i : Sys2Proof.Instr) : Keeps [.ctr] s (State.withhold s i) := by
  unfold State.withhold
  try dsimp -iota -proj only
  split
  · refine Keeps.step (State.bump_keeps ..) (by decide) ?_
    exact Keeps.refl
  · refine Keeps.step (State.bump_keeps ..) (by decide) ?_
    exact Keeps.refl
  · exact Keeps.refl

theorem State.receiveRes_keeps_eq {W : List Fld} {s0 s : State} {n vl len : Nat} {i : Instr} {apply
    : State → Option Res} {z : State}
    (hw : within (Fld.but [.pending, .up, .now, .cfg, .blob, .px, .boot, .clk, .ix, .pxb, .pwr]) W = true) (h
        : ∀ t z, Keeps W s0 t → apply t = some (.next z) → Keeps W s0 z) (k : Keeps W s0 s)
    (e : s.receiveRes n vl len i apply = .next z) : Keeps W s0 z := by
  unfold State.receiveRes at e
  try dsimp -iota -proj only at e
  split at e
  · cases e; exact k
  · split at e
    · cases e; exact Keeps.step (State.linkDown_keeps ..) (within_trans rfl hw) k
    · split at e
      · cases e; exact k
      · have k1 := Keeps.step (State.accept_keeps_eq (by assumption)) (within_trans rfl hw) k
        split at e
        · cases e; exact Keeps.step (State.hold_keeps ..) (within_trans rfl hw) k1
        · split at e
          · cases e
            refine Keeps.ite ?_ ?_
            · exact Keeps.step (State.returnCredits_keeps ..) (within_trans rfl hw) (h _ _ k1 (by assumption))
            · exact h _ _ k1 (by assumption)
          · simp_all
          · cases e
            exact Keeps.step (State.withhold_keeps ..) (within_trans rfl hw) (Keeps.step (State.hold_keeps ..)
                (within_trans rfl hw) k1)

theorem State.receive_keeps {W : List Fld} {s0 s : State} {n vl len : Nat} {i : Instr} {apply : State → State}
    (hw : within (Fld.but [.pending, .up, .now, .cfg, .blob, .px, .boot, .clk, .ix, .pxb, .pwr]) W = true) (h
        : ∀ t, Keeps W s0 t → Keeps W s0 (apply t)) (k : Keeps W s0 s) :
    Keeps W s0 (s.receive n vl len i apply) := by
  unfold State.receive
  split
  · exact State.receiveRes_keeps_eq (apply := fun s => some (.next (apply s))) hw
      (fun t z ht e => by cases e; exact h t ht) k (by assumption)
  · exact k

theorem State.linkUp_keeps (s : State) (n : Nat) (rate : Nat) (lanes : Nat) (role : Nat) (partner : Nat) (limits
    : Sys2Proof.Bytes) : Keeps (Fld.but [.pending, .up, .now, .cfg, .blob, .clk, .pxb, .pwr]) s
        (State.linkUp s n rate lanes role partner limits) := by
  unfold State.linkUp
  try dsimp -iota -proj only
  refine Keeps.step (State.event_keeps ..) (by decide) ?_
  refine Keeps.step (State.reRatio_keeps ..) (by decide) ?_
  refine Keeps.step (State.setLink_keeps ..) (by decide) ?_
  refine Keeps.step (State.countLanes_keeps ..) (by decide) ?_
  refine Keeps.step (State.linkCount_keeps ..) (by decide) ?_
  exact Keeps.refl

theorem State.sendNak_keeps (s : State) (n : Nat) : Keeps [.out, .ctr, .lk] s (State.sendNak s n) := by
  unfold State.sendNak
  try dsimp -iota -proj only
  refine Keeps.step (State.linkCount_keeps ..) (by decide) ?_
  refine Keeps.step (State.setLink_keeps ..) (by decide) ?_
  refine Keeps.step (Keeps.set_out ..) (by decide) ?_
  exact Keeps.refl

theorem State.releaseFrames_keeps (s : State) (n : Nat) (k : Nat)
    : Keeps [.out, .ctr, .pg, .media, .q, .mem, .tm, .part, .ev, .lk] s (State.releaseFrames s n k) := by
  unfold State.releaseFrames
  try dsimp -iota -proj only
  refine Keeps.foldl (fun _ _ _ => ?_) ?_
  · split
    · refine Keeps.step (State.ackOne_keeps ..) (by decide) ?_
      assumption
    · assumption
  · refine Keeps.step (State.setLink_keeps ..) (by decide) ?_
    exact Keeps.refl

theorem State.replayAll_keeps (s : State) (n : Nat) : Keeps
    (Fld.but [.pending, .up, .now, .cfg, .blob, .px, .boot, .clk, .ix, .pxb, .pwr]) s (State.replayAll s n) := by
  unfold State.replayAll
  try dsimp -iota -proj only
  refine Keeps.ite ?_ ?_
  · refine Keeps.step (State.linkDown_keeps ..) (by decide) ?_
    exact Keeps.refl
  · refine Keeps.step (State.linkCount_keeps ..) (by decide) ?_
    refine Keeps.step (State.setLink_keeps ..) (by decide) ?_
    refine Keeps.step (Keeps.set_out ..) (by decide) ?_
    exact Keeps.refl

/-! ### Plans -/

theorem State.meterJob_keeps (s : State) (p : Nat) (j : PlanJob) : Keeps [.ctr, .tm] s (State.meterJob s p j).2 := by
  unfold State.meterJob
  try dsimp -iota -proj only
  refine Keeps.iteBy (fun x : List Nat × State => x.2) ?_ ?_ <;> try dsimp -iota -proj only
  · exact Keeps.refl
  · refine Keeps.foldlBy (fun x : List Nat × State => x.2) (fun _ _ _ => ?_) ?_ <;> try dsimp -iota -proj only
    · split
      · refine Keeps.step (State.meterItem_keeps_eq (by assumption)) (by decide) ?_
        assumption
    · exact Keeps.refl
theorem State.meterJob_keeps_eq {s : State} {p : Nat} {j : PlanJob} {x0 zz} (hE : State.meterJob s p j = (x0, zz))
    : Keeps [.ctr, .tm] s zz := by
  have h := State.meterJob_keeps s p j
  rw [hE] at h
  exact h

theorem State.modJob_keeps (s : State) (p : Nat) (n : Nat) (no : Nat) (f : PlanJob → PlanJob) : Keeps [.tier] s
    (State.modJob s p n no f) := by
  unfold State.modJob
  try dsimp -iota -proj only
  refine Keeps.step (State.setPlan_keeps ..) (by decide) ?_
  exact Keeps.refl

theorem State.jobTagged_keeps (s : State) (p : Nat) (n : Nat) (t : Nat) (j : PlanJob) : Keeps [.ctr, .tier, .tm] s
    (State.jobTagged s p n t j).2 := by
  unfold State.jobTagged
  try dsimp -iota -proj only
  refine Keeps.mk2 ?_
  refine Keeps.step (State.modJob_keeps ..) (by decide) ?_
  refine Keeps.step (State.meterJob_keeps ..) (by decide) ?_
  exact Keeps.refl
theorem State.jobTagged_keeps_eq {s : State} {p : Nat} {n : Nat} {t : Nat} {j : PlanJob} {x0 zz} (hE
    : State.jobTagged s p n t j = (x0, zz)) : Keeps [.ctr, .tier, .tm] s zz := by
  have h := State.jobTagged_keeps s p n t j
  rw [hE] at h
  exact h

theorem State.idlePlan_keeps (s : State) (p : Nat) (n : Nat) : Keeps [.tier] s (State.idlePlan s p n) := by
  unfold State.idlePlan
  try dsimp -iota -proj only
  refine Keeps.step (State.setPlan_keeps ..) (by decide) ?_
  exact Keeps.refl

theorem State.queuePush_keeps (s : State) (p : Nat) (n : Nat) (i : Nat) : Keeps [.tier] s (State.queuePush s p n i) := by
  unfold State.queuePush
  try dsimp -iota -proj only
  refine Keeps.ite ?_ ?_
  · exact Keeps.refl
  · refine Keeps.step (State.setPlan_keeps ..) (by decide) ?_
    exact Keeps.refl

theorem State.stageSlice_keeps (s : State) (p : Nat) (c : Nat) (colour : Nat) (k : Nat × Nat)
    : Keeps [.free, .ctr, .pg, .media, .q, .tm, .lk] s (State.stageSlice s p c colour k).2 := by
  unfold State.stageSlice
  try dsimp -iota -proj only
  split
  · exact Keeps.refl
  · refine Keeps.iteBy (fun x : Bool × State => x.2) ?_ ?_ <;> try dsimp -iota -proj only
    · exact Keeps.refl
    · refine Keeps.iteBy (fun x : Bool × State => x.2) ?_ ?_ <;> try dsimp -iota -proj only
      · refine Keeps.mk2 ?_
        refine Keeps.step (State.pin_keeps ..) (by decide) ?_
        exact Keeps.refl
      · refine Keeps.iteBy (fun x : Bool × State => x.2) ?_ ?_ <;> try dsimp -iota -proj only
        · refine Keeps.mk2 ?_
          refine Keeps.step (State.readTN_keeps ..) (by decide) ?_
          refine Keeps.step (State.pin_keeps ..) (by decide) ?_
          exact Keeps.refl
        · refine Keeps.step (State.issueRead_keeps ..) (by decide) ?_
          refine Keeps.step (State.pin_keeps ..) (by decide) ?_
          exact Keeps.refl
theorem State.stageSlice_keeps_eq {s : State} {p : Nat} {c : Nat} {colour : Nat} {k : Nat × Nat} {x0 zz} (hE
    : State.stageSlice s p c colour k = (x0, zz)) : Keeps [.free, .ctr, .pg, .media, .q, .tm, .lk] s zz := by
  have h := State.stageSlice_keeps s p c colour k
  rw [hE] at h
  exact h

theorem State.stageAll_keeps (s : State) (p : Nat) (n : Nat) (c : Nat) (ks : List (Nat × Nat))
    : Keeps [.free, .ctr, .pg, .tier, .media, .q, .tm, .lk] s (State.stageAll s p n c ks) := by
  unfold State.stageAll
  try dsimp -iota -proj only
  refine Keeps.foldl (fun _ _ _ => ?_) ?_
  · split
    · refine Keeps.ite ?_ ?_
      · refine Keeps.step (State.meterItem_keeps_eq (by assumption)) (by decide) ?_
        assumption
      · split
        · refine Keeps.step (State.stageSlice_keeps_eq (by assumption)) (by decide) ?_
          refine Keeps.step (State.meterItem_keeps_eq (by assumption)) (by decide) ?_
          assumption
        · refine Keeps.step (State.setPlan_keeps ..) (by decide) ?_
          refine Keeps.step (State.stageSlice_keeps_eq (by assumption)) (by decide) ?_
          refine Keeps.step (State.meterItem_keeps_eq (by assumption)) (by decide) ?_
          assumption
  · exact Keeps.refl

theorem State.stagePositions_keeps (s : State) (p : Nat) (n : Nat) (lo : Nat) (hi : Nat)
    : Keeps [.free, .ctr, .pg, .tier, .media, .q, .tm, .lk] s (State.stagePositions s p n lo hi) := by
  unfold State.stagePositions
  try dsimp -iota -proj only
  refine Keeps.foldl (fun _ _ _ => ?_) ?_
  · refine Keeps.ite ?_ ?_
    · assumption
    · refine Keeps.step (State.stageAll_keeps ..) (by decide) ?_
      refine Keeps.step (State.setPlan_keeps ..) (by decide) ?_
      assumption
  · exact Keeps.refl

theorem State.startPos_keeps (s : State) (p : Nat) (n : Nat) (i : Nat)
    : Keeps [.free, .ctr, .pg, .tier, .media, .q, .tm, .lk] s (State.startPos s p n i) := by
  unfold State.startPos
  try dsimp -iota -proj only
  refine Keeps.step (State.stagePositions_keeps ..) (by decide) ?_
  refine Keeps.step (State.queuePush_keeps ..) (by decide) ?_
  refine Keeps.ite ?_ ?_
  · refine Keeps.step (State.bump_keeps ..) (by decide) ?_
    refine Keeps.step (State.setPlan_keeps ..) (by decide) ?_
    exact Keeps.refl
  · refine Keeps.step (State.setPlan_keeps ..) (by decide) ?_
    exact Keeps.refl

theorem State.stepBegin_keeps (s : State) (p : Nat) (n : Nat) : Keeps [.free, .ctr, .pg, .tier, .media, .q, .tm, .lk] s
    (State.stepBegin s p n) := by
  unfold State.stepBegin
  try dsimp -iota -proj only
  refine Keeps.step (State.stagePositions_keeps ..) (by decide) ?_
  refine Keeps.foldl (fun _ _ _ => ?_) ?_
  · refine Keeps.step (State.queuePush_keeps ..) (by decide) ?_
    assumption
  · refine Keeps.step (State.setPlan_keeps ..) (by decide) ?_
    exact Keeps.refl

theorem State.planAttend_keeps (s : State) (p : Nat) (n : Nat) (layer : Nat)
    : Keeps [.free, .ctr, .pg, .tier, .media, .q, .tm, .lk] s (State.planAttend s p n layer) := by
  unfold State.planAttend
  try dsimp -iota -proj only
  refine Keeps.ite ?_ ?_
  · exact Keeps.refl
  · split
    · refine Keeps.step (State.startPos_keeps ..) (by decide) ?_
      refine Keeps.ite ?_ ?_
      · exact Keeps.refl
      · refine Keeps.ite ?_ ?_
        · refine Keeps.step (State.idlePlan_keeps ..) (by decide) ?_
          exact Keeps.refl
        · refine Keeps.step (State.stepBegin_keeps ..) (by decide) ?_
          exact Keeps.refl
    · refine Keeps.ite ?_ ?_
      · exact Keeps.refl
      · refine Keeps.ite ?_ ?_
        · refine Keeps.step (State.idlePlan_keeps ..) (by decide) ?_
          exact Keeps.refl
        · refine Keeps.step (State.stepBegin_keeps ..) (by decide) ?_
          exact Keeps.refl

theorem State.mark_keeps (s : State) (link : Nat) (p : Nat) (n : Nat) (ev : Nat) (i : Nat)
    : Keeps [.free, .ctr, .pg, .tier, .media, .q, .tm, .lk] s (State.mark s link p n ev i) := by
  unfold State.mark
  try dsimp -iota -proj only
  refine Keeps.ite ?_ ?_
  · refine Keeps.step (State.linkCount_keeps ..) (by decide) ?_
    refine Keeps.step (State.linkCount_keeps ..) (by decide) ?_
    exact Keeps.refl
  · refine Keeps.ite ?_ ?_
    · refine Keeps.ite ?_ ?_
      · refine Keeps.step (State.stepBegin_keeps ..) (by decide) ?_
        refine Keeps.step (State.linkCount_keeps ..) (by decide) ?_
        exact Keeps.refl
      · refine Keeps.step (State.linkCount_keeps ..) (by decide) ?_
        refine Keeps.step (State.idlePlan_keeps ..) (by decide) ?_
        refine Keeps.step (State.linkCount_keeps ..) (by decide) ?_
        exact Keeps.refl
    · refine Keeps.ite ?_ ?_
      · refine Keeps.step (State.startPos_keeps ..) (by decide) ?_
        refine Keeps.step (State.linkCount_keeps ..) (by decide) ?_
        exact Keeps.refl
      · refine Keeps.step (State.linkCount_keeps ..) (by decide) ?_
        refine Keeps.step (State.linkCount_keeps ..) (by decide) ?_
        exact Keeps.refl

theorem State.jobEntry_keeps_eq {s : State} {p : Nat} {n : Nat} {j : PlanJob} {x0 zz} (hE
    : State.jobEntry s p n j = some (x0, zz)) : Keeps [.free, .cfg, .ctr, .q] s zz := by
  unfold State.jobEntry at hE
  try dsimp -iota -proj only at hE
  split at hE
  · cases hE
    exact Keeps.refl
  · refine Keeps.step (State.takeEntry_keeps_eq hE) (by decide) ?_
    exact Keeps.refl

theorem State.piece_keeps (s : State) (p : Nat) (t : Nat) (o : Op) (j : PlanJob) (k : Nat) : Keeps [.ctr, .pg, .tm] s
    (State.piece s p t o j k).2 := by
  unfold State.piece
  try dsimp -iota -proj only
  split
  · exact Keeps.refl
  · refine Keeps.iteBy (fun x : Piece × State => x.2) ?_ ?_ <;> try dsimp -iota -proj only
    · refine Keeps.mk2 ?_
      refine Keeps.ite ?_ ?_
      · refine Keeps.step (State.demand_keeps ..) (by decide) ?_
        exact Keeps.refl
      · exact Keeps.refl
    · split
      · refine Keeps.mk2 ?_
        split
        · refine Keeps.step (State.hbmUnits_keeps ..) (by decide) ?_
          refine Keeps.step (State.pin_keeps ..) (by decide) ?_
          refine Keeps.ite ?_ ?_
          · refine Keeps.step (State.demand_keeps ..) (by decide) ?_
            exact Keeps.refl
          · exact Keeps.refl
        · refine Keeps.ite ?_ ?_
          · refine Keeps.step (State.demand_keeps ..) (by decide) ?_
            exact Keeps.refl
          · exact Keeps.refl
      · refine Keeps.mk2 ?_
        refine Keeps.ite ?_ ?_
        · refine Keeps.step (State.demand_keeps ..) (by decide) ?_
          exact Keeps.refl
        · exact Keeps.refl
      · refine Keeps.mk2 ?_
        refine Keeps.ite ?_ ?_
        · refine Keeps.step (State.demand_keeps ..) (by decide) ?_
          exact Keeps.refl
        · exact Keeps.refl
theorem State.piece_keeps_eq {s : State} {p : Nat} {t : Nat} {o : Op} {j : PlanJob} {k : Nat} {x0 zz} (hE
    : State.piece s p t o j k = (x0, zz)) : Keeps [.ctr, .pg, .tm] s zz := by
  have h := State.piece_keeps s p t o j k
  rw [hE] at h
  exact h

theorem State.sendTiles_keeps (s : State) (via : Bool) (p : Nat) (t : Nat) (cls : Nat) (ls : List Nat) (ts : List Tile)
    : Keeps [.ctr, .tm] s (State.sendTiles s via p t cls ls ts).2.2 := by
  unfold State.sendTiles
  try dsimp -iota -proj only
  refine Keeps.foldlBy (fun x : Nat × List Nat × State => x.2.2) (fun _ _ _ => ?_) ?_ <;> try dsimp -iota -proj only
  · refine Keeps.foldlBy (fun x : Nat × List Nat × State => x.2.2) (fun _ _ _ => ?_) ?_ <;> try dsimp -iota -proj only
    · split
      · refine Keeps.step (State.send_keeps_eq (by assumption)) (by decide) ?_
        assumption
      · refine Keeps.step (State.send_keeps_eq (by assumption)) (by decide) ?_
        assumption
    · assumption
  · exact Keeps.refl
theorem State.sendTiles_keeps_eq {s : State} {via : Bool} {p : Nat} {t : Nat} {cls : Nat} {ls : List Nat} {ts
    : List Tile} {x0 x1 zz} (hE : State.sendTiles s via p t cls ls ts = (x0, x1, zz)) : Keeps [.ctr, .tm] s zz := by
  have h := State.sendTiles_keeps s via p t cls ls ts
  rw [hE] at h
  exact h

theorem State.sendJob_keeps (s : State) (p : Nat) (n : Nat) (t : Nat) (j : PlanJob) (o : Op)
    : Keeps [.ctr, .pg, .tier, .q, .tm] s (State.sendJob s p n t j o) := by
  unfold State.sendJob
  try dsimp -iota -proj only
  refine Keeps.step (State.modJob_keeps ..) (by decide) ?_
  split
  · refine Keeps.step (State.setOp_keeps ..) (by decide) ?_
    refine Keeps.step (State.sendTiles_keeps ..) (by decide) ?_
    refine Keeps.foldlBy (fun x : List (Nat × Piece) × State => x.2) (fun _ _ _ => ?_) ?_ <;> try dsimp -iota -proj only
    · split
      · refine Keeps.step (State.piece_keeps_eq (by assumption)) (by decide) ?_
        assumption
    · exact Keeps.refl
  · refine Keeps.step (State.sendTiles_keeps ..) (by decide) ?_
    refine Keeps.foldlBy (fun x : List (Nat × Piece) × State => x.2) (fun _ _ _ => ?_) ?_ <;> try dsimp -iota -proj only
    · split
      · refine Keeps.step (State.piece_keeps_eq (by assumption)) (by decide) ?_
        assumption
    · exact Keeps.refl

theorem State.beginJob_keeps (s : State) (p : Nat) (n : Nat) (j : PlanJob)
    : Keeps [.free, .out, .cfg, .ctr, .pg, .tier, .media, .q, .mem, .tm, .part, .ev, .lk] s (State.beginJob s p n j) := by
  unfold State.beginJob
  try dsimp -iota -proj only
  split
  · exact Keeps.refl
  · split
    · split
      · refine Keeps.step (State.endOp_keeps ..) (by decide) ?_
        refine Keeps.step (State.endJob_keeps ..) (by decide) ?_
        refine Keeps.step (State.jobTagged_keeps_eq (by assumption)) (by decide) ?_
        refine Keeps.step (State.jobEntry_keeps_eq (by assumption)) (by decide) ?_
        exact Keeps.refl
      · split
        · refine Keeps.step (State.fetchSlices_keeps_eq (by assumption)) (by decide) ?_
          refine Keeps.step (State.jobTagged_keeps_eq (by assumption)) (by decide) ?_
          refine Keeps.step (State.jobEntry_keeps_eq (by assumption)) (by decide) ?_
          exact Keeps.refl
        · split
          · refine Keeps.step (State.endJob_keeps ..) (by decide) ?_
            refine Keeps.step (State.fetchSlices_keeps_eq (by assumption)) (by decide) ?_
            refine Keeps.step (State.jobTagged_keeps_eq (by assumption)) (by decide) ?_
            refine Keeps.step (State.jobEntry_keeps_eq (by assumption)) (by decide) ?_
            exact Keeps.refl
          · refine Keeps.step (State.sendJob_keeps ..) (by decide) ?_
            refine Keeps.step (State.fetchSlices_keeps_eq (by assumption)) (by decide) ?_
            refine Keeps.step (State.jobTagged_keeps_eq (by assumption)) (by decide) ?_
            refine Keeps.step (State.jobEntry_keeps_eq (by assumption)) (by decide) ?_
            exact Keeps.refl

theorem State.cleanJobs_keeps (s : State) (p : Nat) (n : Nat) : Keeps [.tier] s (State.cleanJobs s p n) := by
  unfold State.cleanJobs
  try dsimp -iota -proj only
  refine Keeps.step (State.setPlan_keeps ..) (by decide) ?_
  exact Keeps.refl

theorem State.recordJob_keeps (s : State) (t : Nat) (j : PlanJob)
    : Keeps [.out, .ctr, .pg, .media, .q, .mem, .tm, .part, .ev, .lk] s (State.recordJob s t j) := by
  unfold State.recordJob
  try dsimp -iota -proj only
  split
  · refine Keeps.step (State.finishOp_keeps ..) (by decide) ?_
    refine Keeps.step (State.setOp_keeps ..) (by decide) ?_
    exact Keeps.refl
  · exact Keeps.refl

theorem execPushComplete_keeps_eq {p : Nat} {n : Nat} {s : State} {zz} (hE : execPushComplete p n s = .next zz)
    : Keeps [.out, .ctr, .pg, .tier, .media, .q, .mem, .tm, .part, .ev, .lk] s zz := by
  unfold execPushComplete at hE
  try dsimp -iota -proj only at hE
  obtain rfl := Host.Outcome.next.inj hE
  split
  · refine Keeps.step (State.cleanJobs_keeps ..) (by decide) ?_
    exact Keeps.refl
  · split
    · refine Keeps.step (State.cleanJobs_keeps ..) (by decide) ?_
      exact Keeps.refl
    · refine Keeps.ite ?_ ?_
      · refine Keeps.step (State.cleanJobs_keeps ..) (by decide) ?_
        exact Keeps.refl
      · refine Keeps.step (State.recordJob_keeps ..) (by decide) ?_
        refine Keeps.step (State.endJob_keeps ..) (by decide) ?_
        refine Keeps.step (State.layerEnd_keeps ..) (by decide) ?_
        refine Keeps.step (State.cleanJobs_keeps ..) (by decide) ?_
        exact Keeps.refl

theorem State.stageWaiting_keeps (s : State) (p : Nat) (n : Nat)
    : Keeps [.free, .ctr, .pg, .tier, .media, .q, .tm, .lk] s (State.stageWaiting s p n) := by
  unfold State.stageWaiting
  try dsimp -iota -proj only
  refine Keeps.foldl (fun _ _ _ => ?_) ?_
  · split
    · refine Keeps.step (State.stageSlice_keeps_eq (by assumption)) (by decide) ?_
      assumption
    · refine Keeps.step (State.setPlan_keeps ..) (by decide) ?_
      refine Keeps.step (State.stageSlice_keeps_eq (by assumption)) (by decide) ?_
      assumption
  · refine Keeps.step (State.setPlan_keeps ..) (by decide) ?_
    exact Keeps.refl

theorem execPushBegin_keeps_eq {p : Nat} {n : Nat} {s : State} {zz} (hE : execPushBegin p n s = .next zz)
    : Keeps [.free, .out, .cfg, .ctr, .pg, .tier, .media, .q, .mem, .tm, .part, .ev, .lk] s zz := by
  unfold execPushBegin at hE
  try dsimp -iota -proj only at hE
  obtain rfl := Host.Outcome.next.inj hE
  split
  · refine Keeps.ite ?_ ?_
    · refine Keeps.step (State.beginJob_keeps ..) (by decide) ?_
      refine Keeps.step (State.stageWaiting_keeps ..) (by decide) ?_
      refine Keeps.step (State.cleanJobs_keeps ..) (by decide) ?_
      exact Keeps.refl
    · refine Keeps.step (State.stageWaiting_keeps ..) (by decide) ?_
      refine Keeps.step (State.cleanJobs_keeps ..) (by decide) ?_
      exact Keeps.refl
  · refine Keeps.step (State.stageWaiting_keeps ..) (by decide) ?_
    refine Keeps.step (State.cleanJobs_keeps ..) (by decide) ?_
    exact Keeps.refl

/-! ### Collect -/

theorem State.setsChanged_keeps (s : State) (old : Sys2Proof.Bytes)
    : Keeps [.out, .ctr, .pg, .media, .q, .mem, .tm, .part, .ev, .lk] s (State.setsChanged s old) := by
  unfold State.setsChanged
  try dsimp -iota -proj only
  refine Keeps.foldl (fun _ _ _ => ?_) ?_
  · refine Keeps.step (State.endOp_keeps ..) (by decide) ?_
    assumption
  · refine Keeps.step (Keeps.set_lk ..) (by decide) ?_
    exact Keeps.refl

theorem State.addPart_keeps (s : State) (c : Contrib) (off : Nat) (bs : Sys2Proof.Bytes) (link : Option Nat)
    : Keeps [.lk] s (State.addPart s c off bs link) := by
  unfold State.addPart
  try dsimp -iota -proj only
  refine Keeps.step (Keeps.set_lk ..) (by decide) ?_
  exact Keeps.refl

theorem State.dropRound_keeps (s : State) (n : Nat) (k : Nat) : Keeps [.lk] s (State.dropRound s n k) := by
  unfold State.dropRound
  try dsimp -iota -proj only
  refine Keeps.step (Keeps.set_lk ..) (by decide) ?_
  exact Keeps.refl

theorem State.writeCollect_keeps (s : State) (t : Nat) (o : Op) (cs : List Contrib) : Keeps [.ctr, .mem, .tm] s
    (State.writeCollect s t o cs).2.2 := by
  unfold State.writeCollect
  try dsimp -iota -proj only
  split
  · refine Keeps.foldlBy (fun x : Nat × Bool × State => x.2.2) (fun _ _ _ => ?_) ?_ <;> try dsimp -iota -proj only
    · refine Keeps.foldlBy (fun x : Nat × Bool × State => x.2.2) (fun _ _ _ => ?_) ?_ <;> try dsimp -iota -proj only
      · refine Keeps.iteBy (fun x : Nat × Bool × State => x.2.2) ?_ ?_ <;> try dsimp -iota -proj only
        · assumption
        · refine Keeps.mk3 ?_
          refine Keeps.step (State.writeOut_keeps ..) (by decide) ?_
          assumption
      · assumption
    · exact Keeps.refl
  · refine Keeps.step (State.writeOutVia_keeps ..) (by decide) ?_
    exact Keeps.refl
  · refine Keeps.iteBy (fun x : Nat × Bool × State => x.2.2) ?_ ?_ <;> try dsimp -iota -proj only
    · refine Keeps.step (State.writeOut_keeps ..) (by decide) ?_
      exact Keeps.refl
    · refine Keeps.mk3 ?_
      refine Keeps.step (State.writeOut_keeps ..) (by decide) ?_
      refine Keeps.step (State.writeOut_keeps ..) (by decide) ?_
      exact Keeps.refl
theorem State.writeCollect_keeps_eq {s : State} {t : Nat} {o : Op} {cs : List Contrib} {x0 x1 zz} (hE
    : State.writeCollect s t o cs = (x0, x1, zz)) : Keeps [.ctr, .mem, .tm] s zz := by
  have h := State.writeCollect_keeps s t o cs
  rw [hE] at h
  exact h

theorem State.endCollect_keeps (s : State) (t : Nat) (o : Op) (cs : List Contrib) (status : Nat) (detail : Nat)
    : Keeps [.out, .ctr, .pg, .media, .q, .mem, .tm, .part, .ev, .lk] s (State.endCollect s t o cs status detail) := by
  unfold State.endCollect
  try dsimp -iota -proj only
  refine Keeps.step (State.finishOut_keeps ..) (by decide) ?_
  refine Keeps.step (State.dropRound_keeps ..) (by decide) ?_
  refine Keeps.iteBy (fun x : Nat × Bool × State => x.2.2) ?_ ?_ <;> try dsimp -iota -proj only
  · exact Keeps.refl
  · refine Keeps.step (State.writeCollect_keeps ..) (by decide) ?_
    exact Keeps.refl

theorem State.spoil_keeps (s : State) (n : Nat) (k : Nat) : Keeps [.lk] s (State.spoil s n k) := by
  unfold State.spoil
  try dsimp -iota -proj only
  refine Keeps.ite ?_ ?_
  · exact Keeps.refl
  · refine Keeps.step (Keeps.set_lk ..) (by decide) ?_
    exact Keeps.refl

theorem State.roundOf_keeps (s : State) (o : Op) : Keeps [.lk] s (State.roundOf s o).2 := by
  unfold State.roundOf
  try dsimp -iota -proj only
  refine Keeps.mk2 ?_
  refine Keeps.ite ?_ ?_
  · exact Keeps.refl
  · refine Keeps.step (State.spoil_keeps ..) (by decide) ?_
    refine Keeps.step (Keeps.set_lk ..) (by decide) ?_
    exact Keeps.refl
theorem State.roundOf_keeps_eq {s : State} {o : Op} {x0 zz} (hE : State.roundOf s o = (x0, zz)) : Keeps [.lk] s zz := by
  have h := State.roundOf_keeps s o
  rw [hE] at h
  exact h

theorem State.tryCollect_keeps (s : State) (t : Nat) : Keeps [.out, .ctr, .pg, .media, .q, .mem, .tm, .part, .ev, .lk] s
    (State.tryCollect s t) := by
  unfold State.tryCollect
  try dsimp -iota -proj only
  split
  · exact Keeps.refl
  · split
    · refine Keeps.ite ?_ ?_
      · refine Keeps.step (State.roundOf_keeps_eq (by assumption)) (by decide) ?_
        exact Keeps.refl
      · refine Keeps.step (State.endCollect_keeps ..) (by decide) ?_
        refine Keeps.step (State.roundOf_keeps_eq (by assumption)) (by decide) ?_
        exact Keeps.refl

theorem State.contribFull_keeps (s : State) (set : Nat) (member : Nat) (round : Nat)
    : Keeps [.out, .ctr, .pg, .media, .q, .mem, .tm, .part, .ev, .lk] s (State.contribFull s set member round) := by
  unfold State.contribFull
  try dsimp -iota -proj only
  refine Keeps.ite ?_ ?_
  · split
    · refine Keeps.step (State.tryCollect_keeps ..) (by decide) ?_
      exact Keeps.refl
    · exact Keeps.refl
  · exact Keeps.refl

theorem State.collFrame_keeps_eq {s : State} {n : Nat} {f : LFrame} {zz} (hE : State.collFrame s n f = some zz)
    : Keeps [.out, .ctr, .pg, .media, .q, .mem, .tm, .part, .ev, .lk] s zz := by
  unfold State.collFrame at hE
  try dsimp -iota -proj only at hE
  split at hE
  · obtain rfl := Option.some.inj hE
    refine Keeps.step (State.linkCount_keeps ..) (by decide) ?_
    exact Keeps.refl
  · obtain hE | hE := ite_cases hE
    · obtain rfl := Option.some.inj hE
      refine Keeps.step (State.linkCount_keeps ..) (by decide) ?_
      exact Keeps.refl
    · obtain hE | hE := ite_cases hE
      · obtain rfl := Option.some.inj hE
        refine Keeps.step (State.spoil_keeps ..) (by decide) ?_
        refine Keeps.step (State.linkCount_keeps ..) (by decide) ?_
        exact Keeps.refl
      · obtain hE | hE := ite_cases hE
        · cases hE
        · obtain rfl := Option.some.inj hE
          refine Keeps.step (State.contribFull_keeps ..) (by decide) ?_
          refine Keeps.ite ?_ ?_
          · refine Keeps.step (State.linkCount_keeps ..) (by decide) ?_
            refine Keeps.step (State.addPart_keeps ..) (by decide) ?_
            exact Keeps.refl
          · refine Keeps.step (State.addPart_keeps ..) (by decide) ?_
            exact Keeps.refl

theorem execCollect_keeps_eq {t : Nat} {s : State} {zz} (hE : execCollect t s = .next zz)
    : Keeps [.out, .ctr, .pg, .media, .q, .mem, .tm, .part, .ev, .lk] s zz := by
  unfold execCollect at hE
  try dsimp -iota -proj only at hE
  obtain rfl := Host.Outcome.next.inj hE
  split
  · exact Keeps.refl
  · split
    · refine Keeps.step (State.endOp_keeps ..) (by decide) ?_
      refine Keeps.step (State.meterOp_keeps ..) (by decide) ?_
      exact Keeps.refl
    · refine Keeps.ite ?_ ?_
      · refine Keeps.step (State.endOp_keeps ..) (by decide) ?_
        refine Keeps.step (State.meterOp_keeps ..) (by decide) ?_
        exact Keeps.refl
      · refine Keeps.step (State.tryCollect_keeps ..) (by decide) ?_
        refine Keeps.step (State.setOp_keeps ..) (by decide) ?_
        refine Keeps.step (Keeps.set_lk ..) (by decide) ?_
        refine Keeps.step (State.meterOp_keeps ..) (by decide) ?_
        exact Keeps.refl

theorem State.contribute_keeps (s : State) (t : Nat) (o : Op) (e : CollSet) (kind : Nat) (fp32 : Bool) (ps : List
    (Nat × Sys2Proof.Bytes)) : Keeps [.out, .ctr, .pg, .media, .q, .mem, .tm, .part, .ev, .lk] s
        (State.contribute s t o e kind fp32 ps).2.2 := by
  unfold State.contribute
  try dsimp -iota -proj only
  refine Keeps.iteBy (fun x : Nat × Bool × State => x.2.2) ?_ ?_ <;> try dsimp -iota -proj only
  · refine Keeps.iteBy (fun x : Nat × Bool × State => x.2.2) ?_ ?_ <;> try dsimp -iota -proj only
    · refine Keeps.mk3 ?_
      refine Keeps.step (State.spoil_keeps ..) (by decide) ?_
      refine Keeps.step (Keeps.set_lk ..) (by decide) ?_
      exact Keeps.refl
    · refine Keeps.mk3 ?_
      refine Keeps.step (State.contribFull_keeps ..) (by decide) ?_
      refine Keeps.foldl (fun _ _ _ => ?_) ?_
      · refine Keeps.step (State.addPart_keeps ..) (by decide) ?_
        assumption
      · refine Keeps.step (Keeps.set_lk ..) (by decide) ?_
        exact Keeps.refl
  · refine Keeps.iteBy (fun x : Nat × Bool × State => x.2.2) ?_ ?_ <;> try dsimp -iota -proj only
    · refine Keeps.mk3 ?_
      refine Keeps.step (Keeps.set_lk ..) (by decide) ?_
      exact Keeps.refl
    · refine Keeps.foldlBy (fun x : Nat × Bool × State => x.2.2) (fun _ _ _ => ?_) ?_ <;> try dsimp -iota -proj only
      · split
        · refine Keeps.step (State.place_keeps_eq (by assumption)) (by decide) ?_
          assumption
        · refine Keeps.step (State.place_keeps_eq (by assumption)) (by decide) ?_
          assumption
      · refine Keeps.mk3 ?_
        refine Keeps.step (Keeps.set_lk ..) (by decide) ?_
        exact Keeps.refl
theorem State.contribute_keeps_eq {s : State} {t : Nat} {o : Op} {e : CollSet} {kind : Nat} {fp32 : Bool} {ps : List
    (Nat × Sys2Proof.Bytes)} {x0 x1 zz} (hE : State.contribute s t o e kind fp32 ps = (x0, x1, zz))
        : Keeps [.out, .ctr, .pg, .media, .q, .mem, .tm, .part, .ev, .lk] s zz := by
  have h := State.contribute_keeps s t o e kind fp32 ps
  rw [hE] at h
  exact h

theorem State.meterUnits_keeps (s : State) (o : Op) (n : Nat) : Keeps [.ctr, .tm] s (State.meterUnits s o n) := by
  unfold State.meterUnits
  try dsimp -iota -proj only
  refine Keeps.foldl (fun _ _ _ => ?_) ?_
  · refine Keeps.step (State.meterItem_keeps ..) (by decide) ?_
    assumption
  · exact Keeps.refl

theorem State.contribOp_keeps (s : State) (t : Nat) (o : Op) (kind : Nat) (member : Nat) (off : Nat) (fp32 : Bool)
    : Keeps [.out, .ctr, .pg, .media, .q, .mem, .tm, .part, .ev, .lk] s (State.contribOp s t o kind member off fp32) := by
  unfold State.contribOp
  try dsimp -iota -proj only
  split
  · refine Keeps.step (State.endOp_keeps ..) (by decide) ?_
    exact Keeps.refl
  · split
    · refine Keeps.step (State.finishUnits_keeps ..) (by decide) ?_
      refine Keeps.step (State.contribute_keeps ..) (by decide) ?_
      refine Keeps.step (State.readIn_keeps_eq (by assumption)) (by decide) ?_
      refine Keeps.step (State.meterUnits_keeps ..) (by decide) ?_
      exact Keeps.refl

theorem execReduce_keeps_eq {t : Nat} {s : State} {zz} (hE : execReduce t s = .next zz)
    : Keeps [.out, .ctr, .pg, .media, .q, .mem, .tm, .part, .ev, .lk] s zz := by
  unfold execReduce at hE
  try dsimp -iota -proj only at hE
  obtain rfl := Host.Outcome.next.inj hE
  split
  · refine Keeps.step (State.contribOp_keeps ..) (by decide) ?_
    exact Keeps.refl
  · exact Keeps.refl

theorem execCollectTimeout_keeps_eq {t : Nat} {s : State} {zz} (hE : execCollectTimeout t s = .next zz)
    : Keeps [.out, .up, .now, .ctr, .pg, .media, .q, .mem, .tm, .part, .ev, .lk] s zz := by
  unfold execCollectTimeout at hE
  try dsimp -iota -proj only at hE
  obtain rfl := Host.Outcome.next.inj hE
  split
  · split
    · split
      · refine Keeps.step (State.endCollect_keeps ..) (by decide) ?_
        refine Keeps.step (State.roundOf_keeps_eq (by assumption)) (by decide) ?_
        refine Keeps.step (State.bump_keeps ..) (by decide) ?_
        refine Keeps.step (State.timeTo_keeps ..) (by decide) ?_
        exact Keeps.refl
    · exact Keeps.refl
  · exact Keeps.refl

theorem execGather_keeps_eq {t : Nat} {s : State} {zz} (hE : execGather t s = .next zz)
    : Keeps [.out, .ctr, .pg, .media, .q, .mem, .tm, .part, .ev, .lk] s zz := by
  unfold execGather at hE
  try dsimp -iota -proj only at hE
  obtain rfl := Host.Outcome.next.inj hE
  split
  · refine Keeps.step (State.contribOp_keeps ..) (by decide) ?_
    exact Keeps.refl
  · exact Keeps.refl

/-! ### Index -/

theorem State.arrayTo_keeps (s : State) (a : Nat) (st : Nat) : Keeps [.out, .ctr, .media, .q, .ev, .ix] s
    (State.arrayTo s a st) := by
  unfold State.arrayTo
  try dsimp -iota -proj only
  refine Keeps.step (State.event_keeps ..) (by decide) ?_
  refine Keeps.step (State.setArray_keeps ..) (by decide) ?_
  exact Keeps.refl

theorem State.suspect_keeps (s : State) (a : Nat) : Keeps
    (Fld.but [.pending, .up, .now, .cfg, .blob, .clk, .pxb, .pwr]) s (State.suspect s a) := by
  unfold State.suspect
  try dsimp -iota -proj only
  refine Keeps.ite ?_ ?_
  · refine Keeps.step (State.fence_keeps ..) (by decide) ?_
    refine Keeps.foldl (fun _ _ _ => ?_) ?_
    · split
      · refine Keeps.ite ?_ ?_
        · refine Keeps.step (State.setPip_keeps ..) (by decide) ?_
          assumption
        · assumption
      · assumption
    · refine Keeps.step (State.bump_keeps ..) (by decide) ?_
      refine Keeps.step (State.setArray_keeps ..) (by decide) ?_
      refine Keeps.step (State.arrayTo_keeps ..) (by decide) ?_
      exact Keeps.refl
  · refine Keeps.foldl (fun _ _ _ => ?_) ?_
    · split
      · refine Keeps.ite ?_ ?_
        · refine Keeps.step (State.setPip_keeps ..) (by decide) ?_
          assumption
        · assumption
      · assumption
    · refine Keeps.step (State.bump_keeps ..) (by decide) ?_
      refine Keeps.step (State.setArray_keeps ..) (by decide) ?_
      refine Keeps.step (State.arrayTo_keeps ..) (by decide) ?_
      exact Keeps.refl

theorem State.partPassed_keeps (s : State) (i : Nat) (p : Pip) (part : Nat) : Keeps [.ctr, .ix] s
    (State.partPassed s i p part) := by
  unfold State.partPassed
  try dsimp -iota -proj only
  refine Keeps.ite ?_ ?_
  · refine Keeps.step (State.bump_keeps ..) (by decide) ?_
    refine Keeps.step (State.setPip_keeps ..) (by decide) ?_
    exact Keeps.refl
  · refine Keeps.step (State.setPip_keeps ..) (by decide) ?_
    exact Keeps.refl

theorem State.rewritten_keeps (s : State) (a : Nat) (i : Nat) : Keeps [.ctr, .ix] s (State.rewritten s a i) := by
  unfold State.rewritten
  try dsimp -iota -proj only
  split
  · split
    · refine Keeps.ite ?_ ?_
      · refine Keeps.step (State.bump_keeps ..) (by decide) ?_
        refine Keeps.step (State.setPip_keeps ..) (by decide) ?_
        exact Keeps.refl
      · refine Keeps.step (State.partPassed_keeps ..) (by decide) ?_
        exact Keeps.refl
    · exact Keeps.refl
  · exact Keeps.refl

theorem State.newPip_keeps (s : State) (j : PipJob) (v : List Nat) : Keeps [.ctr, .media, .ix] s (State.newPip s j v) := by
  unfold State.newPip
  try dsimp -iota -proj only
  refine Keeps.ite ?_ ?_
  · exact Keeps.refl
  · refine Keeps.step (State.startFor_keeps ..) (by decide) ?_
    refine Keeps.step (State.placePip_keeps ..) (by decide) ?_
    refine Keeps.ite ?_ ?_
    · refine Keeps.step (State.bump_keeps ..) (by decide) ?_
      refine Keeps.step (State.bump_keeps ..) (by decide) ?_
      refine Keeps.step (Keeps.set_ix ..) (by decide) ?_
      exact Keeps.refl
    · refine Keeps.step (State.touch_keeps ..) (by decide) ?_
      refine Keeps.step (State.bump_keeps ..) (by decide) ?_
      refine Keeps.step (Keeps.set_ix ..) (by decide) ?_
      exact Keeps.refl

theorem State.pipEnd_keeps (s : State) (j : PipJob) : Keeps [.free, .ctr, .media, .q, .tm, .lk, .ix] s
    (State.pipEnd s j) := by
  unfold State.pipEnd
  try dsimp -iota -proj only
  refine Keeps.ite ?_ ?_
  · refine Keeps.step (State.pipRetry_keeps ..) (by decide) ?_
    exact Keeps.refl
  · refine Keeps.ite ?_ ?_
    · exact Keeps.refl
    · split
      · refine Keeps.step (State.newPip_keeps ..) (by decide) ?_
        refine Keeps.step (State.dropJobs_keeps ..) (by decide) ?_
        exact Keeps.refl
      · refine Keeps.step (State.dropJobs_keeps ..) (by decide) ?_
        exact Keeps.refl

theorem State.refsDone_keeps (s : State) (a : Nat) (gs : List Nat) : Keeps [.ix] s (State.refsDone s a gs) := by
  unfold State.refsDone
  try dsimp -iota -proj only
  refine Keeps.step (State.setArray_keeps ..) (by decide) ?_
  exact Keeps.refl

theorem execArrayReprogramDone_keeps_eq {a : Nat} {s : State} {zz} (hE : execArrayReprogramDone a s = .next zz)
    : Keeps [.ctr, .ix] s zz := by
  unfold execArrayReprogramDone at hE
  try dsimp -iota -proj only at hE
  obtain rfl := Host.Outcome.next.inj hE
  refine Keeps.ite ?_ ?_
  · refine Keeps.foldl (fun _ _ _ => ?_) ?_
    · refine Keeps.step (State.rewritten_keeps ..) (by decide) ?_
      assumption
    · refine Keeps.step (State.refsDone_keeps ..) (by decide) ?_
      refine Keeps.step (State.setArray_keeps ..) (by decide) ?_
      exact Keeps.refl
  · exact Keeps.refl

theorem execPipComputeDone_keeps_eq {n : Nat} {span : Bool} {item : Nat} {y : Nat} {s : State} {zz} (hE
    : execPipComputeDone n span item y s = .next zz) : Keeps [.free, .ctr, .media, .q, .tm, .lk, .ix] s zz := by
  unfold execPipComputeDone at hE
  try dsimp -iota -proj only at hE
  obtain rfl := Host.Outcome.next.inj hE
  split
  · refine Keeps.step (State.pipEnd_keeps ..) (by decide) ?_
    exact Keeps.refl
  · split
    · exact Keeps.refl
    · split
      · exact Keeps.refl
      · split
        · refine Keeps.step (State.pipEnd_keeps ..) (by decide) ?_
          refine Keeps.step (State.pipLook_keeps ..) (by decide) ?_
          exact Keeps.refl
        · refine Keeps.step (State.pipLook_keeps ..) (by decide) ?_
          exact Keeps.refl

theorem execPipRefresh_keeps_eq {a : Nat} {col : Nat} {s : State} {zz} (hE : execPipRefresh a col s = .next zz)
    : Keeps [.up, .now, .ix] s zz := by
  unfold execPipRefresh at hE
  try dsimp -iota -proj only at hE
  obtain rfl := Host.Outcome.next.inj hE
  refine Keeps.ite ?_ ?_
  · refine Keeps.ite ?_ ?_
    · exact Keeps.refl
    · refine Keeps.step (State.startBatch_keeps ..) (by decide) ?_
      refine Keeps.step (State.setArray_keeps ..) (by decide) ?_
      refine Keeps.step (State.timeTo_keeps ..) (by decide) ?_
      exact Keeps.refl
  · split
    · exact Keeps.refl
    · refine Keeps.ite ?_ ?_
      · exact Keeps.refl
      · refine Keeps.step (State.startFor_keeps ..) (by decide) ?_
        refine Keeps.step (State.setPip_keeps ..) (by decide) ?_
        refine Keeps.step (State.timeTo_keeps ..) (by decide) ?_
        exact Keeps.refl

theorem execArrayCalibration_keeps_eq {a : Nat} {s : State} {zz} (hE : execArrayCalibration a s = .next zz) : Keeps
    (Fld.but [.pending, .cfg, .blob, .clk, .pxb, .pwr]) s zz := by
  unfold execArrayCalibration at hE
  try dsimp -iota -proj only at hE
  obtain rfl := Host.Outcome.next.inj hE
  refine Keeps.ite ?_ ?_
  · exact Keeps.refl
  · refine Keeps.ite ?_ ?_
    · refine Keeps.step (State.suspect_keeps ..) (by decide) ?_
      refine Keeps.step (State.bump_keeps ..) (by decide) ?_
      refine Keeps.step (State.setArray_keeps ..) (by decide) ?_
      refine Keeps.step (State.timeTo_keeps ..) (by decide) ?_
      exact Keeps.refl
    · refine Keeps.ite ?_ ?_
      · refine Keeps.step (State.startBatch_keeps ..) (by decide) ?_
        refine Keeps.step (State.arrayTo_keeps ..) (by decide) ?_
        refine Keeps.step (State.bump_keeps ..) (by decide) ?_
        refine Keeps.step (State.setArray_keeps ..) (by decide) ?_
        refine Keeps.step (State.timeTo_keeps ..) (by decide) ?_
        exact Keeps.refl
      · refine Keeps.step (State.bump_keeps ..) (by decide) ?_
        refine Keeps.step (State.setArray_keeps ..) (by decide) ?_
        refine Keeps.step (State.timeTo_keeps ..) (by decide) ?_
        exact Keeps.refl

theorem State.columnFailed_keeps (s : State) (a : Nat) (w : Nat × Nat × Nat) : Keeps
    (Fld.but [.pending, .up, .now, .cfg, .blob, .clk, .pxb, .pwr]) s (State.columnFailed s a w) := by
  unfold State.columnFailed
  try dsimp -iota -proj only
  refine Keeps.step (State.placePip_keeps ..) (by decide) ?_
  refine Keeps.ite ?_ ?_
  · refine Keeps.step (State.fence_keeps ..) (by decide) ?_
    refine Keeps.step (State.bump_keeps ..) (by decide) ?_
    refine Keeps.step (State.unplace_keeps ..) (by decide) ?_
    refine Keeps.step (State.setArray_keeps ..) (by decide) ?_
    exact Keeps.refl
  · refine Keeps.step (State.bump_keeps ..) (by decide) ?_
    refine Keeps.step (State.unplace_keeps ..) (by decide) ?_
    refine Keeps.step (State.setArray_keeps ..) (by decide) ?_
    exact Keeps.refl

theorem State.partDone_keeps (s : State) (a : Nat) (w : (Nat × Nat × Nat) × Bool) : Keeps
    (Fld.but [.pending, .up, .now, .cfg, .blob, .clk, .pxb, .pwr]) s (State.partDone s a w) := by
  unfold State.partDone
  try dsimp -iota -proj only
  split
  · exact Keeps.refl
  · refine Keeps.ite ?_ ?_
    · exact Keeps.refl
    · refine Keeps.ite ?_ ?_
      · refine Keeps.step (State.columnFailed_keeps ..) (by decide) ?_
        exact Keeps.refl
      · refine Keeps.step (State.partPassed_keeps ..) (by decide) ?_
        exact Keeps.refl

theorem execArrayReprogramStart_keeps_eq {a : Nat} {s : State} {zz} (hE : execArrayReprogramStart a s = .next zz)
    : Keeps [.out, .ctr, .media, .q, .ev, .ix] s zz := by
  unfold execArrayReprogramStart at hE
  try dsimp -iota -proj only at hE
  obtain rfl := Host.Outcome.next.inj hE
  refine Keeps.ite ?_ ?_
  · refine Keeps.step (State.arrayTo_keeps ..) (by decide) ?_
    refine Keeps.step (State.setArray_keeps ..) (by decide) ?_
    exact Keeps.refl
  · exact Keeps.refl

theorem execPipProgramBatchDone_keeps_eq {a : Nat} {codes : List (List (List Int))} {s : State} {zz} (hE
    : execPipProgramBatchDone a codes s = .next zz) : Keeps
        (Fld.but [.pending, .up, .now, .cfg, .blob, .clk, .pxb, .pwr]) s zz := by
  unfold execPipProgramBatchDone at hE
  try dsimp -iota -proj only at hE
  obtain rfl := Host.Outcome.next.inj hE
  refine Keeps.ite ?_ ?_
  · exact Keeps.refl
  · refine Keeps.foldl (fun _ _ _ => ?_) ?_
    · refine Keeps.step (State.startFor_keeps ..) (by decide) ?_
      assumption
    · refine Keeps.step (State.startBatch_keeps ..) (by decide) ?_
      refine Keeps.foldl (fun _ _ _ => ?_) ?_
      · refine Keeps.step (State.partDone_keeps ..) (by decide) ?_
        assumption
      · refine Keeps.step (State.refsDone_keeps ..) (by decide) ?_
        refine Keeps.step (State.setArray_keeps ..) (by decide) ?_
        exact Keeps.refl

/-! ### Search -/

theorem State.scored_keeps (s : State) (cs : List PipCand) : Keeps [.ix] s (State.scored s cs) := by
  unfold State.scored
  try dsimp -iota -proj only
  refine Keeps.foldl (fun _ _ _ => ?_) ?_
  · split
    · refine Keeps.step (State.setPip_keeps ..) (by decide) ?_
      assumption
    · assumption
  · exact Keeps.refl

theorem State.audit_keeps (s : State) (q : Query) (cs : List PipCand) (sel : List Nat) : Keeps [.ctr, .ix] s
    (State.audit s q cs sel) := by
  unfold State.audit
  try dsimp -iota -proj only
  refine Keeps.ite ?_ ?_
  · exact Keeps.refl
  · refine Keeps.ite ?_ ?_
    · refine Keeps.step (Keeps.set_ix ..) (by decide) ?_
      exact Keeps.refl
    · refine Keeps.step (State.bump_keeps ..) (by decide) ?_
      refine Keeps.step (State.bump_keeps ..) (by decide) ?_
      refine Keeps.step (State.bump_keeps ..) (by decide) ?_
      refine Keeps.step (State.bump_keeps ..) (by decide) ?_
      refine Keeps.step (State.bump_keeps ..) (by decide) ?_
      refine Keeps.step (State.scored_keeps ..) (by decide) ?_
      refine Keeps.step (Keeps.set_ix ..) (by decide) ?_
      exact Keeps.refl

theorem State.queryOf_keeps (s : State) (p : Nat) (n : Nat) (pf : Nat) (layer : Nat) (len : Nat) (ps : List Nat) (mask
    : Option Mask) (qv : List Nat) : Keeps [.free] s (State.queryOf s p n pf layer len ps mask qv).2 := by
  unfold State.queryOf
  try dsimp -iota -proj only
  split
  · refine Keeps.step (State.takeFree_keeps_eq (by assumption)) (by decide) ?_
    exact Keeps.refl
theorem State.queryOf_keeps_eq {s : State} {p : Nat} {n : Nat} {pf : Nat} {layer : Nat} {len : Nat} {ps : List Nat}
    {mask : Option Mask} {qv : List Nat} {x0 zz} (hE : State.queryOf s p n pf layer len ps mask qv = (x0, zz))
        : Keeps [.free] s zz := by
  have h := State.queryOf_keeps s p n pf layer len ps mask qv
  rw [hE] at h
  exact h

theorem State.checkArray_keeps (s : State) (a : Nat) : Keeps
    (Fld.but [.pending, .up, .now, .cfg, .blob, .clk, .pxb, .pwr]) s (State.checkArray s a) := by
  unfold State.checkArray
  try dsimp -iota -proj only
  refine Keeps.ite ?_ ?_
  · exact Keeps.refl
  · refine Keeps.ite ?_ ?_
    · refine Keeps.step (State.suspect_keeps ..) (by decide) ?_
      exact Keeps.refl
    · refine Keeps.ite ?_ ?_
      · refine Keeps.step (State.setArray_keeps ..) (by decide) ?_
        exact Keeps.refl
      · exact Keeps.refl

theorem State.readArrays_keeps (s : State) (q : Query) (as : List Nat) : Keeps
    (Fld.but [.pending, .up, .now, .cfg, .blob, .clk, .pxb, .pwr]) s (State.readArrays s q as) := by
  unfold State.readArrays
  try dsimp -iota -proj only
  refine Keeps.foldl (fun _ _ _ => ?_) ?_
  · refine Keeps.step (State.checkArray_keeps ..) (by decide) ?_
    assumption
  · refine Keeps.step (State.bump_keeps ..) (by decide) ?_
    refine Keeps.foldl (fun _ _ _ => ?_) ?_
    · refine Keeps.step (State.bump_keeps ..) (by decide) ?_
      refine Keeps.step (State.setArray_keeps ..) (by decide) ?_
      assumption
    · exact Keeps.refl

theorem State.afterLevel_keeps (s : State) (q : Query) (cs : List PipCand) : Keeps
    (Fld.but [.pending, .up, .now, .cfg, .blob, .clk, .pxb, .pwr]) s (State.afterLevel s q cs) := by
  unfold State.afterLevel
  try dsimp -iota -proj only
  refine Keeps.step (State.readArrays_keeps ..) (by decide) ?_
  refine Keeps.step (State.scored_keeps ..) (by decide) ?_
  refine Keeps.step (State.bump_keeps ..) (by decide) ?_
  refine Keeps.step (State.bump_keeps ..) (by decide) ?_
  exact Keeps.refl

theorem State.rescored_keeps (s : State) (q : Query) (top : List PipCand) : Keeps
    (Fld.but [.pending, .up, .now, .cfg, .blob, .clk, .pxb, .pwr]) s (State.rescored s q top) := by
  unfold State.rescored
  try dsimp -iota -proj only
  refine Keeps.foldl (fun _ _ _ => ?_) ?_
  · refine Keeps.step (State.checkArray_keeps ..) (by decide) ?_
    assumption
  · refine Keeps.foldl (fun _ _ _ => ?_) ?_
    · refine Keeps.step (State.setArray_keeps ..) (by decide) ?_
      assumption
    · exact Keeps.refl

theorem State.level_keeps (s : State) (q : Query) (k : Nat) (w : Bool) (cs : List PipCand) : Keeps
    (Fld.but [.pending, .up, .now, .cfg, .blob, .clk, .pxb, .pwr]) s (State.level s q k w cs).2.2.2 := by
  unfold State.level
  try dsimp -iota -proj only
  split
  · refine Keeps.iteBy (fun x : List PipCand × Bool × Bool × State => x.2.2.2) ?_ ?_ <;> try dsimp -iota -proj only
    · refine Keeps.mk4 ?_
      refine Keeps.step (State.rescored_keeps ..) (by decide) ?_
      refine Keeps.step (State.afterLevel_keeps ..) (by decide) ?_
      exact Keeps.refl
    · refine Keeps.iteBy (fun x : List PipCand × Bool × Bool × State => x.2.2.2) ?_ ?_ <;> try dsimp -iota -proj only
      · refine Keeps.mk4 ?_
        refine Keeps.step (State.bump_keeps ..) (by decide) ?_
        refine Keeps.step (State.bump_keeps ..) (by decide) ?_
        refine Keeps.step (State.rescored_keeps ..) (by decide) ?_
        refine Keeps.step (State.afterLevel_keeps ..) (by decide) ?_
        exact Keeps.refl
      · refine Keeps.iteBy (fun x : List PipCand × Bool × Bool × State => x.2.2.2) ?_ ?_ <;> try dsimp -iota -proj only
        · refine Keeps.mk4 ?_
          refine Keeps.step (State.bump_keeps ..) (by decide) ?_
          refine Keeps.step (State.rescored_keeps ..) (by decide) ?_
          refine Keeps.step (State.afterLevel_keeps ..) (by decide) ?_
          exact Keeps.refl
        · split
          · refine Keeps.mk4 ?_
            refine Keeps.ite ?_ ?_
            · refine Keeps.step (State.bump_keeps ..) (by decide) ?_
              refine Keeps.step (State.rescored_keeps ..) (by decide) ?_
              refine Keeps.step (State.bump_keeps ..) (by decide) ?_
              refine Keeps.step (State.bump_keeps ..) (by decide) ?_
              refine Keeps.step (State.rescored_keeps ..) (by decide) ?_
              refine Keeps.step (State.afterLevel_keeps ..) (by decide) ?_
              exact Keeps.refl
            · refine Keeps.step (State.rescored_keeps ..) (by decide) ?_
              refine Keeps.step (State.bump_keeps ..) (by decide) ?_
              refine Keeps.step (State.bump_keeps ..) (by decide) ?_
              refine Keeps.step (State.rescored_keeps ..) (by decide) ?_
              refine Keeps.step (State.afterLevel_keeps ..) (by decide) ?_
              exact Keeps.refl
theorem State.level_keeps_eq {s : State} {q : Query} {k : Nat} {w : Bool} {cs : List PipCand} {x0 x1 x2 zz} (hE
    : State.level s q k w cs = (x0, x1, x2, zz)) : Keeps
        (Fld.but [.pending, .up, .now, .cfg, .blob, .clk, .pxb, .pwr]) s zz := by
  have h := State.level_keeps s q k w cs
  rw [hE] at h
  exact h

theorem State.search_keeps (s : State) (q : Query) : Keeps
    (Fld.but [.pending, .up, .now, .cfg, .blob, .clk, .pxb, .pwr]) s (State.search s q).s := by
  unfold State.search
  try dsimp -iota -proj only
  split
  · refine Keeps.step (State.bump_keeps ..) (by decide) ?_
    refine Keeps.step (State.bump_keeps ..) (by decide) ?_
    exact Keeps.refl
  · split
    · split
      · split
        · refine Keeps.step (State.audit_keeps ..) (by decide) ?_
          refine Keeps.ite ?_ ?_
          · refine Keeps.step (State.bump_keeps ..) (by decide) ?_
            refine Keeps.ite ?_ ?_
            · refine Keeps.step (State.level_keeps_eq (by assumption)) (by decide) ?_
              refine Keeps.step (State.level_keeps_eq (by assumption)) (by decide) ?_
              refine Keeps.step (State.bump_keeps ..) (by decide) ?_
              refine Keeps.step (State.bump_keeps ..) (by decide) ?_
              exact Keeps.refl
            · refine Keeps.step (State.bump_keeps ..) (by decide) ?_
              refine Keeps.step (State.level_keeps_eq (by assumption)) (by decide) ?_
              refine Keeps.step (State.level_keeps_eq (by assumption)) (by decide) ?_
              refine Keeps.step (State.bump_keeps ..) (by decide) ?_
              refine Keeps.step (State.bump_keeps ..) (by decide) ?_
              exact Keeps.refl
          · refine Keeps.ite ?_ ?_
            · refine Keeps.step (State.level_keeps_eq (by assumption)) (by decide) ?_
              refine Keeps.step (State.level_keeps_eq (by assumption)) (by decide) ?_
              refine Keeps.step (State.bump_keeps ..) (by decide) ?_
              refine Keeps.step (State.bump_keeps ..) (by decide) ?_
              exact Keeps.refl
            · refine Keeps.step (State.bump_keeps ..) (by decide) ?_
              refine Keeps.step (State.level_keeps_eq (by assumption)) (by decide) ?_
              refine Keeps.step (State.level_keeps_eq (by assumption)) (by decide) ?_
              refine Keeps.step (State.bump_keeps ..) (by decide) ?_
              refine Keeps.step (State.bump_keeps ..) (by decide) ?_
              exact Keeps.refl

theorem State.queryDone_keeps (s : State) (t : Nat) (o : Op) (n : Nat) (pf : Nat) (len : Nat) (mk : Option Mask) : Keeps
    (Fld.but [.pending, .up, .now, .cfg, .blob, .clk, .pxb, .pwr]) s (State.queryDone s t o n pf len mk) := by
  unfold State.queryDone
  try dsimp -iota -proj only
  split
  · split
    · refine Keeps.step (State.finishOut_keeps ..) (by decide) ?_
      refine Keeps.step (State.writeOut_keeps ..) (by decide) ?_
      refine Keeps.step (State.search_keeps ..) (by decide) ?_
      refine Keeps.step (State.queryOf_keeps_eq (by assumption)) (by decide) ?_
      refine Keeps.step (State.readIn_keeps_eq (by assumption)) (by decide) ?_
      exact Keeps.refl

theorem execIndexQuery_keeps_eq {t : Nat} {s : State} {zz} (hE : execIndexQuery t s = .next zz) : Keeps
    (Fld.but [.pending, .up, .now, .cfg, .blob, .clk, .pxb, .pwr]) s zz := by
  unfold execIndexQuery at hE
  try dsimp -iota -proj only at hE
  obtain rfl := Host.Outcome.next.inj hE
  split
  · exact Keeps.refl
  · split
    · refine Keeps.step (State.endOp_keeps ..) (by decide) ?_
      refine Keeps.step (State.meterOp_keeps ..) (by decide) ?_
      exact Keeps.refl
    · refine Keeps.ite ?_ ?_
      · refine Keeps.step (State.endOp_keeps ..) (by decide) ?_
        refine Keeps.step (State.meterOp_keeps ..) (by decide) ?_
        exact Keeps.refl
      · split
        · refine Keeps.step (State.endOp_keeps ..) (by decide) ?_
          refine Keeps.step (State.meterOp_keeps ..) (by decide) ?_
          exact Keeps.refl
        · refine Keeps.step (State.queryDone_keeps ..) (by decide) ?_
          refine Keeps.step (State.meterOp_keeps ..) (by decide) ?_
          exact Keeps.refl

theorem execPipInspect_keeps_eq {t : Nat} {s : State} {zz} (hE : execPipInspect t s = .next zz)
    : Keeps [.out, .ctr, .pg, .media, .q, .mem, .tm, .part, .ev, .lk] s zz := by
  unfold execPipInspect at hE
  try dsimp -iota -proj only at hE
  obtain rfl := Host.Outcome.next.inj hE
  split
  · exact Keeps.refl
  · split
    · refine Keeps.step (State.endOp_keeps ..) (by decide) ?_
      refine Keeps.step (State.meterOp_keeps ..) (by decide) ?_
      exact Keeps.refl
    · refine Keeps.step (State.finishOut_keeps ..) (by decide) ?_
      refine Keeps.step (State.writeOut_keeps ..) (by decide) ?_
      refine Keeps.step (State.meterOp_keeps ..) (by decide) ?_
      exact Keeps.refl

/-! ### Attention -/

theorem execSaveDiscard_keeps_eq {t : Nat} {s : State} {zz} (hE : execSaveDiscard t s = .next zz)
    : Keeps [.out, .ctr, .pg, .media, .q, .mem, .tm, .part, .ev, .lk, .att] s zz := by
  unfold execSaveDiscard at hE
  try dsimp -iota -proj only at hE
  obtain rfl := Host.Outcome.next.inj hE
  split
  · exact Keeps.refl
  · split
    · refine Keeps.ite ?_ ?_
      · refine Keeps.step (State.endOp_keeps ..) (by decide) ?_
        refine Keeps.step (State.freeSave_keeps ..) (by decide) ?_
        refine Keeps.step (State.meterOp_keeps ..) (by decide) ?_
        exact Keeps.refl
      · refine Keeps.step (State.endOp_keeps ..) (by decide) ?_
        refine Keeps.step (State.meterOp_keeps ..) (by decide) ?_
        exact Keeps.refl
    · refine Keeps.step (State.endOp_keeps ..) (by decide) ?_
      refine Keeps.step (State.meterOp_keeps ..) (by decide) ?_
      exact Keeps.refl

theorem State.attendReads_keeps (s : State) (o : Op) (g : Geo) (c : Nat) (fs : List (Nat × Nat))
    : Keeps [.ctr, .pg, .tm] s (State.attendReads s o g c fs) := by
  unfold State.attendReads
  try dsimp -iota -proj only
  refine Keeps.step (State.bump_keeps ..) (by decide) ?_
  refine Keeps.foldl (fun _ _ _ => ?_) ?_
  · refine Keeps.step (State.hbmUnits_keeps ..) (by decide) ?_
    refine Keeps.step (State.pin_keeps ..) (by decide) ?_
    assumption
  · exact Keeps.refl

theorem State.beginEntry_keeps (s : State) (t : Nat) (o : Op) (e : Nat) : Keeps
    (Fld.but [.pending, .up, .now, .cfg, .blob, .clk, .pxb, .pwr]) s (State.beginEntry s t o e).2 := by
  unfold State.beginEntry
  try dsimp -iota -proj only
  split
  · exact Keeps.refl
  · refine Keeps.iteBy (fun x : AttEnt × State => x.2) ?_ ?_ <;> try dsimp -iota -proj only
    · exact Keeps.refl
    · refine Keeps.iteBy (fun x : AttEnt × State => x.2) ?_ ?_ <;> try dsimp -iota -proj only
      · exact Keeps.refl
      · split
        · refine Keeps.mk2 ?_
          refine Keeps.step (State.search_keeps ..) (by decide) ?_
          refine Keeps.step (State.queryOf_keeps_eq (by assumption)) (by decide) ?_
          exact Keeps.refl
theorem State.beginEntry_keeps_eq {s : State} {t : Nat} {o : Op} {e : Nat} {x0 zz} (hE : State.beginEntry s t o e =
    (x0, zz)) : Keeps (Fld.but [.pending, .up, .now, .cfg, .blob, .clk, .pxb, .pwr]) s zz := by
  have h := State.beginEntry_keeps s t o e
  rw [hE] at h
  exact h

theorem State.beginAll_keeps (s : State) (t : Nat) (o : Op) : Keeps
    (Fld.but [.pending, .up, .now, .cfg, .blob, .clk, .pxb, .pwr]) s (State.beginAll s t o).2 := by
  unfold State.beginAll
  try dsimp -iota -proj only
  refine Keeps.foldlBy (fun x : List AttEnt × State => x.2) (fun _ _ _ => ?_) ?_ <;> try dsimp -iota -proj only
  · split
    · refine Keeps.step (State.beginEntry_keeps_eq (by assumption)) (by decide) ?_
      assumption
  · exact Keeps.refl
theorem State.beginAll_keeps_eq {s : State} {t : Nat} {o : Op} {x0 zz} (hE : State.beginAll s t o = (x0, zz)) : Keeps
    (Fld.but [.pending, .up, .now, .cfg, .blob, .clk, .pxb, .pwr]) s zz := by
  have h := State.beginAll_keeps s t o
  rw [hE] at h
  exact h

theorem State.forwardOne_keeps (s : State) (o : Op) (g : Geo) (e : Nat) (x : AttEnt) : Keeps [.ctr] s
    (State.forwardOne s o g e x).2.2.2 := by
  unfold State.forwardOne
  try dsimp -iota -proj only
  refine Keeps.iteBy (fun x : AttEnt × EntOut × List (Nat × Nat) × State => x.2.2.2) ?_ ?_ <;> try dsimp -iota -proj only
  · exact Keeps.refl
  · split
    · refine Keeps.iteBy (fun x : AttEnt × EntOut × List (Nat × Nat) × State => x.2.2.2) ?_ ?_ <;> try dsimp -iota -proj only
      · refine Keeps.mk4 ?_
        refine Keeps.ite ?_ ?_
        · refine Keeps.step (State.bump_keeps ..) (by decide) ?_
          refine Keeps.foldl (fun _ _ _ => ?_) ?_
          · refine Keeps.step (State.demand_keeps ..) (by decide) ?_
            assumption
          · refine Keeps.step (State.bump_keeps ..) (by decide) ?_
            refine Keeps.step (State.bump_keeps ..) (by decide) ?_
            exact Keeps.refl
        · refine Keeps.foldl (fun _ _ _ => ?_) ?_
          · refine Keeps.step (State.demand_keeps ..) (by decide) ?_
            assumption
          · refine Keeps.step (State.bump_keeps ..) (by decide) ?_
            refine Keeps.step (State.bump_keeps ..) (by decide) ?_
            exact Keeps.refl
      · refine Keeps.mk4 ?_
        refine Keeps.ite ?_ ?_
        · refine Keeps.step (State.bump_keeps ..) (by decide) ?_
          refine Keeps.step (State.bump_keeps ..) (by decide) ?_
          refine Keeps.step (State.bump_keeps ..) (by decide) ?_
          refine Keeps.foldl (fun _ _ _ => ?_) ?_
          · refine Keeps.step (State.demand_keeps ..) (by decide) ?_
            assumption
          · refine Keeps.step (State.bump_keeps ..) (by decide) ?_
            refine Keeps.step (State.bump_keeps ..) (by decide) ?_
            exact Keeps.refl
        · refine Keeps.step (State.bump_keeps ..) (by decide) ?_
          refine Keeps.step (State.bump_keeps ..) (by decide) ?_
          refine Keeps.foldl (fun _ _ _ => ?_) ?_
          · refine Keeps.step (State.demand_keeps ..) (by decide) ?_
            assumption
          · refine Keeps.step (State.bump_keeps ..) (by decide) ?_
            refine Keeps.step (State.bump_keeps ..) (by decide) ?_
            exact Keeps.refl
theorem State.forwardOne_keeps_eq {s : State} {o : Op} {g : Geo} {e : Nat} {x : AttEnt} {x0 x1 x2 zz} (hE
    : State.forwardOne s o g e x = (x0, x1, x2, zz)) : Keeps [.ctr] s zz := by
  have h := State.forwardOne_keeps s o g e x
  rw [hE] at h
  exact h

theorem Sent.finish_keeps (x : Sent) (t : Nat) (o : Op) (c : Nat)
    : Keeps [.out, .ctr, .pg, .media, .q, .mem, .tm, .part, .ev, .lk, .att] x.s (Sent.finish x t o c) := by
  unfold Sent.finish
  try dsimp -iota -proj only
  refine Keeps.step (State.finishOp_keeps ..) (by decide) ?_
  refine Keeps.step (State.putStatuses_keeps ..) (by decide) ?_
  refine Keeps.step (State.setOp_keeps ..) (by decide) ?_
  refine Keeps.ite ?_ ?_
  · refine Keeps.foldl (fun _ _ _ => ?_) ?_
    · refine Keeps.step (State.saveLose_keeps ..) (by decide) ?_
      assumption
    · exact Keeps.refl
  · exact Keeps.refl

theorem State.fillSave_keeps_eq {s : State} {t : Nat} {o : Op} {es : List (Nat × AttEnt × EntOut)} {zz} (hE
    : State.fillSave s t o es = some zz) : Keeps [.ctr, .att] s zz := by
  unfold State.fillSave at hE
  try dsimp -iota -proj only at hE
  obtain hE | hE := ite_cases hE
  · obtain rfl := Option.some.inj hE
    exact Keeps.refl
  · obtain hE | hE := ite_cases hE
    · obtain rfl := Option.some.inj hE
      exact Keeps.refl
    · obtain hE | hE := ite_cases hE
      · cases hE
      · obtain rfl := Option.some.inj hE
        refine Keeps.step (State.bump_keeps ..) (by decide) ?_
        refine Keeps.step (Keeps.set_att ..) (by decide) ?_
        exact Keeps.refl

theorem Sent.link_keeps (x : Sent) (t : Nat) (o : Op) (c : Nat) (base : Nat) (rs : List (Nat × Sys2Proof.Bytes))
    : Keeps [.ctr, .tm] x.s (Sent.link x t o c base rs).s := by
  unfold Sent.link
  try dsimp -iota -proj only
  refine Keeps.foldlBy (fun x : Sent => x.s) (fun _ _ _ => ?_) ?_ <;> try dsimp -iota -proj only
  · refine Keeps.step (State.place_keeps ..) (by decide) ?_
    assumption
  · exact Keeps.refl

theorem Sent.write_keeps (x : Sent) (t : Nat) (o : Op) (c : Nat) (a : Nat) (bs : Sys2Proof.Bytes)
    : Keeps [.ctr, .mem, .tm] x.s (Sent.write x t o c a bs).s := by
  unfold Sent.write
  try dsimp -iota -proj only
  refine Keeps.iteBy (fun x : Sent => x.s) ?_ ?_ <;> try dsimp -iota -proj only
  · exact Keeps.refl
  · refine Keeps.step (State.writeOut_keeps ..) (by decide) ?_
    exact Keeps.refl

theorem State.sendOut_keeps (s : State) (t : Nat) (o : Op) (g : Geo) (c : Nat) (es : List (Nat × EntOut))
    : Keeps [.out, .ctr, .pg, .media, .q, .mem, .tm, .part, .ev, .lk] s (State.sendOut s t o g c es).s := by
  unfold State.sendOut
  try dsimp -iota -proj only
  split
  · refine Keeps.foldlBy (fun x : Sent => x.s) (fun _ _ _ => ?_) ?_ <;> try dsimp -iota -proj only
    · refine Keeps.iteBy (fun x : Sent => x.s) ?_ ?_ <;> try dsimp -iota -proj only
      · refine Keeps.step (Sent.write_keeps ..) (by decide) ?_
        refine Keeps.step (Sent.write_keeps ..) (by decide) ?_
        assumption
      · refine Keeps.step (Sent.write_keeps ..) (by decide) ?_
        assumption
    · exact Keeps.refl
  · refine Keeps.step (Sent.link_keeps ..) (by decide) ?_
    exact Keeps.refl
  · split
    · exact Keeps.refl
    · refine Keeps.step (State.contribute_keeps ..) (by decide) ?_
      refine Keeps.step (State.bump_keeps ..) (by decide) ?_
      exact Keeps.refl

theorem State.forwardDone_keeps (s : State) (t : Nat) (o : Op) (c : Nat) (ents : List AttEnt)
    : Keeps [.out, .ctr, .pg, .media, .q, .mem, .tm, .part, .ev, .lk, .att] s (State.forwardDone s t o c ents) := by
  unfold State.forwardDone
  try dsimp -iota -proj only
  split
  · refine Keeps.step (State.endOp_keeps ..) (by decide) ?_
    refine Keeps.step (State.freeSave_keeps ..) (by decide) ?_
    refine Keeps.step (State.attendReads_keeps ..) (by decide) ?_
    refine Keeps.step (State.setOp_keeps ..) (by decide) ?_
    refine Keeps.foldlBy (fun x : List (Nat × AttEnt × EntOut) × List (Nat × Nat) × State => x.2.2)
        (fun _ _ _ => ?_) ?_ <;> try dsimp -iota -proj only
    · split
      · refine Keeps.step (State.forwardOne_keeps_eq (by assumption)) (by decide) ?_
        assumption
    · exact Keeps.refl
  · refine Keeps.step (Sent.finish_keeps ..) (by decide) ?_
    refine Keeps.step (State.sendOut_keeps ..) (by decide) ?_
    refine Keeps.step (State.fillSave_keeps_eq (by assumption)) (by decide) ?_
    refine Keeps.step (State.attendReads_keeps ..) (by decide) ?_
    refine Keeps.step (State.setOp_keeps ..) (by decide) ?_
    refine Keeps.foldlBy (fun x : List (Nat × AttEnt × EntOut) × List (Nat × Nat) × State => x.2.2)
        (fun _ _ _ => ?_) ?_ <;> try dsimp -iota -proj only
    · split
      · refine Keeps.step (State.forwardOne_keeps_eq (by assumption)) (by decide) ?_
        assumption
    · exact Keeps.refl

theorem State.dispatchOp_keeps (s : State) (t : Nat) (o : Op)
    : Keeps [.free, .out, .ctr, .pg, .tier, .media, .q, .mem, .tm, .part, .ev, .lk, .att] s (State.dispatchOp s t o) := by
  unfold State.dispatchOp
  try dsimp -iota -proj only
  split
  · split
    · refine Keeps.step (State.endOp_keeps ..) (by decide) ?_
      refine Keeps.ite ?_ ?_
      · refine Keeps.step (State.freeSave_keeps ..) (by decide) ?_
        refine Keeps.step (State.meterItem_keeps_eq (by assumption)) (by decide) ?_
        refine Keeps.step (State.bump_keeps ..) (by decide) ?_
        exact Keeps.refl
      · refine Keeps.step (State.meterItem_keeps_eq (by assumption)) (by decide) ?_
        refine Keeps.step (State.bump_keeps ..) (by decide) ?_
        exact Keeps.refl
    · split
      · refine Keeps.step (State.setOp_keeps ..) (by decide) ?_
        refine Keeps.ite ?_ ?_
        · refine Keeps.step (State.takeSave_keeps ..) (by decide) ?_
          refine Keeps.ite ?_ ?_
          · refine Keeps.step (Keeps.set_att ..) (by decide) ?_
            refine Keeps.ite ?_ ?_
            · refine Keeps.step (State.meterItem_keeps_eq (by assumption)) (by decide) ?_
              refine Keeps.step (State.bump_keeps ..) (by decide) ?_
              exact Keeps.refl
            · refine Keeps.step (State.planAttend_keeps ..) (by decide) ?_
              refine Keeps.step (State.meterItem_keeps_eq (by assumption)) (by decide) ?_
              refine Keeps.step (State.bump_keeps ..) (by decide) ?_
              exact Keeps.refl
          · refine Keeps.ite ?_ ?_
            · refine Keeps.step (State.meterItem_keeps_eq (by assumption)) (by decide) ?_
              refine Keeps.step (State.bump_keeps ..) (by decide) ?_
              exact Keeps.refl
            · refine Keeps.step (State.planAttend_keeps ..) (by decide) ?_
              refine Keeps.step (State.meterItem_keeps_eq (by assumption)) (by decide) ?_
              refine Keeps.step (State.bump_keeps ..) (by decide) ?_
              exact Keeps.refl
        · refine Keeps.ite ?_ ?_
          · refine Keeps.step (Keeps.set_att ..) (by decide) ?_
            refine Keeps.ite ?_ ?_
            · refine Keeps.step (State.meterItem_keeps_eq (by assumption)) (by decide) ?_
              refine Keeps.step (State.bump_keeps ..) (by decide) ?_
              exact Keeps.refl
            · refine Keeps.step (State.planAttend_keeps ..) (by decide) ?_
              refine Keeps.step (State.meterItem_keeps_eq (by assumption)) (by decide) ?_
              refine Keeps.step (State.bump_keeps ..) (by decide) ?_
              exact Keeps.refl
          · refine Keeps.ite ?_ ?_
            · refine Keeps.step (State.meterItem_keeps_eq (by assumption)) (by decide) ?_
              refine Keeps.step (State.bump_keeps ..) (by decide) ?_
              exact Keeps.refl
            · refine Keeps.step (State.planAttend_keeps ..) (by decide) ?_
              refine Keeps.step (State.meterItem_keeps_eq (by assumption)) (by decide) ?_
              refine Keeps.step (State.bump_keeps ..) (by decide) ?_
              exact Keeps.refl
      · refine Keeps.ite ?_ ?_
        · refine Keeps.step (State.takeSave_keeps ..) (by decide) ?_
          refine Keeps.ite ?_ ?_
          · refine Keeps.step (Keeps.set_att ..) (by decide) ?_
            refine Keeps.ite ?_ ?_
            · refine Keeps.step (State.meterItem_keeps_eq (by assumption)) (by decide) ?_
              refine Keeps.step (State.bump_keeps ..) (by decide) ?_
              exact Keeps.refl
            · refine Keeps.step (State.planAttend_keeps ..) (by decide) ?_
              refine Keeps.step (State.meterItem_keeps_eq (by assumption)) (by decide) ?_
              refine Keeps.step (State.bump_keeps ..) (by decide) ?_
              exact Keeps.refl
          · refine Keeps.ite ?_ ?_
            · refine Keeps.step (State.meterItem_keeps_eq (by assumption)) (by decide) ?_
              refine Keeps.step (State.bump_keeps ..) (by decide) ?_
              exact Keeps.refl
            · refine Keeps.step (State.planAttend_keeps ..) (by decide) ?_
              refine Keeps.step (State.meterItem_keeps_eq (by assumption)) (by decide) ?_
              refine Keeps.step (State.bump_keeps ..) (by decide) ?_
              exact Keeps.refl
        · refine Keeps.ite ?_ ?_
          · refine Keeps.step (Keeps.set_att ..) (by decide) ?_
            refine Keeps.ite ?_ ?_
            · refine Keeps.step (State.meterItem_keeps_eq (by assumption)) (by decide) ?_
              refine Keeps.step (State.bump_keeps ..) (by decide) ?_
              exact Keeps.refl
            · refine Keeps.step (State.planAttend_keeps ..) (by decide) ?_
              refine Keeps.step (State.meterItem_keeps_eq (by assumption)) (by decide) ?_
              refine Keeps.step (State.bump_keeps ..) (by decide) ?_
              exact Keeps.refl
          · refine Keeps.ite ?_ ?_
            · refine Keeps.step (State.meterItem_keeps_eq (by assumption)) (by decide) ?_
              refine Keeps.step (State.bump_keeps ..) (by decide) ?_
              exact Keeps.refl
            · refine Keeps.step (State.planAttend_keeps ..) (by decide) ?_
              refine Keeps.step (State.meterItem_keeps_eq (by assumption)) (by decide) ?_
              refine Keeps.step (State.bump_keeps ..) (by decide) ?_
              exact Keeps.refl

theorem execAttendDispatch_keeps_eq {s : State} {zz} (hE : execAttendDispatch s = .next zz)
    : Keeps [.free, .out, .ctr, .pg, .tier, .media, .q, .mem, .tm, .part, .ev, .lk, .att] s zz := by
  unfold execAttendDispatch at hE
  try dsimp -iota -proj only at hE
  obtain rfl := Host.Outcome.next.inj hE
  refine Keeps.ite ?_ ?_
  · refine Keeps.step (Keeps.set_att ..) (by decide) ?_
    exact Keeps.refl
  · split
    · refine Keeps.step (Keeps.set_att ..) (by decide) ?_
      exact Keeps.refl
    · split
      · refine Keeps.step (Keeps.set_att ..) (by decide) ?_
        refine Keeps.step (Keeps.set_att ..) (by decide) ?_
        exact Keeps.refl
      · refine Keeps.ite ?_ ?_
        · refine Keeps.step (Keeps.set_att ..) (by decide) ?_
          refine Keeps.step (State.dispatchOp_keeps ..) (by decide) ?_
          refine Keeps.step (Keeps.set_att ..) (by decide) ?_
          refine Keeps.step (Keeps.set_att ..) (by decide) ?_
          exact Keeps.refl
        · refine Keeps.step (State.dispatchOp_keeps ..) (by decide) ?_
          refine Keeps.step (Keeps.set_att ..) (by decide) ?_
          refine Keeps.step (Keeps.set_att ..) (by decide) ?_
          exact Keeps.refl

theorem Sent.backOne_keeps (w : Sent) (t : Nat) (o : Op) (v : Save) (g : Geo) (c : Nat) (e : Nat) (x : AttEnt)
    : Keeps [.ctr, .mem, .tm] w.s (Sent.backOne w t o v g c e x).2.s := by
  unfold Sent.backOne
  try dsimp -iota -proj only
  refine Keeps.iteBy (fun x : AttEnt × Sent => x.2.s) ?_ ?_ <;> try dsimp -iota -proj only
  · exact Keeps.refl
  · split
    · refine Keeps.iteBy (fun x : AttEnt × Sent => x.2.s) ?_ ?_ <;> try dsimp -iota -proj only
      · refine Keeps.ite ?_ ?_
        · refine Keeps.step (State.bump_keeps ..) (by decide) ?_
          refine Keeps.foldl (fun _ _ _ => ?_) ?_
          · refine Keeps.step (State.demand_keeps ..) (by decide) ?_
            assumption
          · exact Keeps.refl
        · refine Keeps.foldl (fun _ _ _ => ?_) ?_
          · refine Keeps.step (State.demand_keeps ..) (by decide) ?_
            assumption
          · exact Keeps.refl
      · refine Keeps.step (Sent.write_keeps ..) (by decide) ?_
        refine Keeps.step (Sent.write_keeps ..) (by decide) ?_
        refine Keeps.foldl (fun _ _ _ => ?_) ?_
        · refine Keeps.step (State.demand_keeps ..) (by decide) ?_
          assumption
        · exact Keeps.refl
theorem Sent.backOne_keeps_eq {w : Sent} {t : Nat} {o : Op} {v : Save} {g : Geo} {c : Nat} {e : Nat} {x : AttEnt}
    {x0 zz} (hE : Sent.backOne w t o v g c e x = (x0, zz)) : Keeps [.ctr, .mem, .tm] w.s zz.s := by
  have h := Sent.backOne_keeps w t o v g c e x
  rw [hE] at h
  exact h

theorem State.backwardDone_keeps (s : State) (t : Nat) (o : Op) (v : Save) (c : Nat) (need : List (Nat × Nat)) (ents
    : List AttEnt) : Keeps [.out, .ctr, .pg, .media, .q, .mem, .tm, .part, .ev, .lk, .att] s
        (State.backwardDone s t o v c need ents) := by
  unfold State.backwardDone
  try dsimp -iota -proj only
  refine Keeps.step (Sent.finish_keeps ..) (by decide) ?_
  refine Keeps.step (State.leaveSave_keeps ..) (by decide) ?_
  refine Keeps.foldlBy (fun x : List AttEnt × Sent => x.2.s) (fun _ _ _ => ?_) ?_ <;> try dsimp -iota -proj only
  · split
    · refine Keeps.step (Sent.backOne_keeps_eq (by assumption)) (by decide) ?_
      assumption
  · refine Keeps.step (State.attendReads_keeps ..) (by decide) ?_
    exact Keeps.refl

theorem execSaveExpiry_keeps_eq {p : Nat} {id : Nat} {s : State} {zz} (hE : execSaveExpiry p id s = .next zz)
    : Keeps [.ctr, .att] s zz := by
  unfold execSaveExpiry at hE
  try dsimp -iota -proj only at hE
  obtain rfl := Host.Outcome.next.inj hE
  split
  · exact Keeps.refl
  · refine Keeps.ite ?_ ?_
    · exact Keeps.refl
    · refine Keeps.step (State.bump_keeps ..) (by decide) ?_
      refine Keeps.step (State.freeSave_keeps ..) (by decide) ?_
      exact Keeps.refl

theorem State.backwardBegun_keeps (s : State) (t : Nat) (o : Op) (v : Save) : Keeps [.q] s
    (State.backwardBegun s t o v).2.2 := by
  unfold State.backwardBegun
  try dsimp -iota -proj only
  refine Keeps.mk3 ?_
  refine Keeps.step (State.setOp_keeps ..) (by decide) ?_
  exact Keeps.refl
theorem State.backwardBegun_keeps_eq {s : State} {t : Nat} {o : Op} {v : Save} {x0 x1 zz} (hE
    : State.backwardBegun s t o v = (x0, x1, zz)) : Keeps [.q] s zz := by
  have h := State.backwardBegun_keeps s t o v
  rw [hE] at h
  exact h

theorem execAttendBackward_keeps_eq {t : Nat} {s : State} {zz} (hE : execAttendBackward t s = .next zz)
    : Keeps [.free, .out, .ctr, .pg, .media, .q, .mem, .tm, .part, .ev, .lk, .att] s zz := by
  unfold execAttendBackward at hE
  try dsimp -iota -proj only at hE
  obtain rfl := Host.Outcome.next.inj hE
  split
  · exact Keeps.refl
  · split
    · refine Keeps.step (State.endOp_keeps ..) (by decide) ?_
      exact Keeps.refl
    · refine Keeps.ite ?_ ?_
      · exact Keeps.refl
      · split
        · refine Keeps.step (State.fetchSlices_keeps_eq (by assumption)) (by decide) ?_
          refine Keeps.step (State.backwardBegun_keeps ..) (by decide) ?_
          exact Keeps.refl
        · split
          · refine Keeps.step (State.fetchSlices_keeps_eq (by assumption)) (by decide) ?_
            refine Keeps.step (State.backwardBegun_keeps ..) (by decide) ?_
            exact Keeps.refl
          · refine Keeps.step (State.backwardDone_keeps ..) (by decide) ?_
            refine Keeps.step (State.fetchSlices_keeps_eq (by assumption)) (by decide) ?_
            refine Keeps.step (State.backwardBegun_keeps ..) (by decide) ?_
            exact Keeps.refl

theorem State.forwardBegun_keeps (s : State) (t : Nat) (o : Op) : Keeps
    (Fld.but [.pending, .up, .now, .cfg, .blob, .clk, .pxb, .pwr]) s (State.forwardBegun s t o).2.2 := by
  unfold State.forwardBegun
  try dsimp -iota -proj only
  split
  · refine Keeps.mk3 ?_
    refine Keeps.step (State.setOp_keeps ..) (by decide) ?_
    refine Keeps.ofPair2 (by assumption) ?_
    refine Keeps.iteBy (fun x : List AttEnt × State => x.2) ?_ ?_ <;> try dsimp -iota -proj only
    · refine Keeps.step (State.beginAll_keeps ..) (by decide) ?_
      exact Keeps.refl
    · exact Keeps.refl
theorem State.forwardBegun_keeps_eq {s : State} {t : Nat} {o : Op} {x0 x1 zz} (hE : State.forwardBegun s t o =
    (x0, x1, zz)) : Keeps (Fld.but [.pending, .up, .now, .cfg, .blob, .clk, .pxb, .pwr]) s zz := by
  have h := State.forwardBegun_keeps s t o
  rw [hE] at h
  exact h

theorem execAttendForward_keeps_eq {t : Nat} {s : State} {zz} (hE : execAttendForward t s = .next zz) : Keeps
    (Fld.but [.pending, .up, .now, .cfg, .blob, .clk, .pxb, .pwr]) s zz := by
  unfold execAttendForward at hE
  try dsimp -iota -proj only at hE
  obtain rfl := Host.Outcome.next.inj hE
  split
  · exact Keeps.refl
  · split
    · refine Keeps.step (State.fetchSlices_keeps_eq (by assumption)) (by decide) ?_
      refine Keeps.step (State.forwardBegun_keeps ..) (by decide) ?_
      exact Keeps.refl
    · split
      · refine Keeps.step (State.fetchSlices_keeps_eq (by assumption)) (by decide) ?_
        refine Keeps.step (State.forwardBegun_keeps ..) (by decide) ?_
        exact Keeps.refl
      · refine Keeps.step (State.forwardDone_keeps ..) (by decide) ?_
        refine Keeps.step (State.fetchSlices_keeps_eq (by assumption)) (by decide) ?_
        refine Keeps.step (State.forwardBegun_keeps ..) (by decide) ?_
        exact Keeps.refl

end Sys2Proof.Machine
end

