-- ==== Sys2Proof/Laws/KeepsHost.lean ====
section
/-! SUPPORT. Which parts of the state each operation can change: queues, faults, resets and clocks. -/

namespace Sys2Proof.Machine

/-! ### Serving -/

theorem State.derateSet_keeps_eq {s : State} {k : Nat} {v : Nat} {zz} (hE : State.derateSet s k v = .ok zz)
    : Keeps [.out, .cfg, .ctr, .media, .q, .tm, .ev] s zz := by
  unfold State.derateSet at hE
  try dsimp -iota -proj only at hE
  obtain hE | hE := ite_cases hE
  · cases hE
  · obtain rfl := Except.ok.inj hE
    refine Keeps.foldl (fun _ _ _ => ?_) ?_
    · refine Keeps.step (State.reRatio_keeps ..) (by decide) ?_
      assumption
    · refine Keeps.step (State.setObj_keeps ..) (by decide) ?_
      exact Keeps.refl

theorem State.histReset_keeps (s : State) : Keeps [.tm] s (State.histReset s) := by
  unfold State.histReset
  try dsimp -iota -proj only
  refine Keeps.step (Keeps.set_tm ..) (by decide) ?_
  exact Keeps.refl

theorem State.checked_keeps_eq {s : State} {t : State} {x : Nat} {zz} (hE : State.checked s t x = .ok zz)
    : Keeps [.out, .ctr, .media, .q, .tm, .ev] t zz := by
  unfold State.checked at hE
  try dsimp -iota -proj only at hE
  obtain hE | hE := ite_cases hE
  · cases hE
  · obtain rfl := Except.ok.inj hE
    refine Keeps.step (State.reRatio_keeps ..) (by decide) ?_
    exact Keeps.refl

theorem State.putLeaf_keeps (s : State) (x : Nat) (sub : Nat) (c : Nat) (r : LeafCfg) : Keeps [.tm] s
    (State.putLeaf s x sub c r) := by
  unfold State.putLeaf
  try dsimp -iota -proj only
  refine Keeps.foldl (fun _ _ _ => ?_) ?_
  · refine Keeps.step (State.admitLeaf_keeps ..) (by decide) ?_
    refine Keeps.step (State.setLeafQ_keeps ..) (by decide) ?_
    assumption
  · refine Keeps.step (Keeps.set_tm ..) (by decide) ?_
    exact Keeps.refl

theorem State.leafWrite_keeps_eq {s : State} {x : Nat} {sub : Nat} {c : Nat} {b : Sys2Proof.Bytes} {zz} (hE
    : State.leafWrite s x sub c b = .ok zz) : Keeps [.out, .ctr, .media, .q, .tm, .ev] s zz := by
  unfold State.leafWrite at hE
  try dsimp -iota -proj only at hE
  split at hE
  · cases hE
  · obtain hE | hE := ite_cases hE
    · cases hE
    · refine Keeps.step (State.checked_keeps_eq hE) (by decide) ?_
      refine Keeps.step (State.putLeaf_keeps ..) (by decide) ?_
      exact Keeps.refl

theorem State.meterWrite_keeps_eq {s : State} {p : Nat} {c : Nat} {b : Sys2Proof.Bytes} {zz} (hE
    : State.meterWrite s p c b = .ok zz) : Keeps [.tm] s zz := by
  unfold State.meterWrite at hE
  try dsimp -iota -proj only at hE
  obtain hE | hE := ite_cases hE
  · cases hE
  · obtain hE | hE := ite_cases hE
    · cases hE
    · obtain rfl := Except.ok.inj hE
      refine Keeps.step (Keeps.set_tm ..) (by decide) ?_
      exact Keeps.refl

theorem State.putNode_keeps (s : State) (x : Nat) (c : Nat) (r : LeafCfg) : Keeps [.tm] s (State.putNode s x c r) := by
  unfold State.putNode
  try dsimp -iota -proj only
  refine Keeps.foldl (fun _ _ _ => ?_) ?_
  · refine Keeps.step (Keeps.set_tm ..) (by decide) ?_
    assumption
  · refine Keeps.step (Keeps.set_tm ..) (by decide) ?_
    exact Keeps.refl

theorem State.nodeWrite_keeps_eq {s : State} {x : Nat} {c : Nat} {b : Sys2Proof.Bytes} {zz} (hE
    : State.nodeWrite s x c b = .ok zz) : Keeps [.out, .ctr, .media, .q, .tm, .ev] s zz := by
  unfold State.nodeWrite at hE
  try dsimp -iota -proj only at hE
  split at hE
  · cases hE
  · refine Keeps.step (State.checked_keeps_eq hE) (by decide) ?_
    refine Keeps.step (State.putNode_keeps ..) (by decide) ?_
    exact Keeps.refl

theorem State.clearHwm_keeps (s : State) (x : Nat) (sub : Nat) (c : Nat) : Keeps [.tm] s (State.clearHwm s x sub c) := by
  unfold State.clearHwm
  try dsimp -iota -proj only
  refine Keeps.step (State.leafStat_keeps ..) (by decide) ?_
  exact Keeps.refl

theorem execPortServeUnit_keeps_eq {x : Nat} {dir : Nat} {s : State} {zz} (hE : execPortServeUnit x dir s = .next zz)
    : Keeps [.out, .ctr, .media, .tm, .lk] s zz := by
  unfold execPortServeUnit at hE
  try dsimp -iota -proj only at hE
  obtain rfl := Host.Outcome.next.inj hE
  split
  · refine Keeps.step (State.countWaits_keeps ..) (by decide) ?_
    refine Keeps.step (State.rindStep_keeps ..) (by decide) ?_
    exact Keeps.refl
  · split
    · refine Keeps.step (State.kickDie_keeps ..) (by decide) ?_
      refine Keeps.step (State.admitLeaf_keeps ..) (by decide) ?_
      refine Keeps.step (State.serve_keeps ..) (by decide) ?_
      refine Keeps.step (State.chooseUnit_keeps_eq (by assumption)) (by decide) ?_
      refine Keeps.step (State.countWaits_keeps ..) (by decide) ?_
      refine Keeps.step (State.rindStep_keeps ..) (by decide) ?_
      exact Keeps.refl
    · refine Keeps.step (State.admitLeaf_keeps ..) (by decide) ?_
      refine Keeps.step (State.serve_keeps ..) (by decide) ?_
      refine Keeps.step (State.chooseUnit_keeps_eq (by assumption)) (by decide) ?_
      refine Keeps.step (State.countWaits_keeps ..) (by decide) ?_
      refine Keeps.step (State.rindStep_keeps ..) (by decide) ?_
      exact Keeps.refl

theorem State.tmResetEnd_keeps (s : State) (p : Nat) : Keeps [.tm] s (State.tmResetEnd s p) := by
  unfold State.tmResetEnd
  try dsimp -iota -proj only
  refine Keeps.step (Keeps.set_tm ..) (by decide) ?_
  refine Keeps.foldl (fun _ _ _ => ?_) ?_
  · refine Keeps.step (Keeps.set_tm ..) (by decide) ?_
    assumption
  · refine Keeps.foldl (fun _ _ _ => ?_) ?_
    · refine Keeps.ite ?_ ?_
      · refine Keeps.step (State.putLeaf_keeps ..) (by decide) ?_
        assumption
      · assumption
    · exact Keeps.refl

theorem execQueueSample_keeps_eq {s : State} {zz} (hE : execQueueSample s = .next zz) : Keeps [.tm] s zz := by
  unfold execQueueSample at hE
  try dsimp -iota -proj only at hE
  obtain rfl := Host.Outcome.next.inj hE
  refine Keeps.foldl (fun _ _ _ => ?_) ?_
  · split
    · assumption
    · refine Keeps.step (State.leafStat_keeps ..) (by decide) ?_
      assumption
  · refine Keeps.step (Keeps.set_tm ..) (by decide) ?_
    exact Keeps.refl

theorem execWaitingUnitEnqueue_keeps_eq {x : Nat} {dir : Nat} {sub : Nat} {c : Nat} {s : State} {zz} (hE
    : execWaitingUnitEnqueue x dir sub c s = .next zz) : Keeps [.tm] s zz := by
  unfold execWaitingUnitEnqueue at hE
  try dsimp -iota -proj only at hE
  obtain rfl := Host.Outcome.next.inj hE
  refine Keeps.step (State.admitLeaf_keeps ..) (by decide) ?_
  exact Keeps.refl

/-! ### Snapshots -/

theorem State.snapshot_keeps (s : State) (trigger : Nat) (trigQ : Nat) (cover : Op → Bool) (touched : Nat → Bool)
    : Keeps [.out, .ctr, .media, .q, .ev] s (State.snapshot s trigger trigQ cover touched) := by
  unfold State.snapshot
  try dsimp -iota -proj only
  refine Keeps.step (State.completeSnaps_keeps ..) (by decide) ?_
  refine Keeps.step (State.event_keeps ..) (by decide) ?_
  refine Keeps.step (State.bump_keeps ..) (by decide) ?_
  refine Keeps.ite ?_ ?_
  · refine Keeps.step (State.bump_keeps ..) (by decide) ?_
    refine Keeps.step (Keeps.set_ev ..) (by decide) ?_
    exact Keeps.refl
  · refine Keeps.step (Keeps.set_ev ..) (by decide) ?_
    exact Keeps.refl

/-! ### QueueCmds -/

theorem State.regWrite_keeps (s : State) (q : Nat) (r : Sys2Proof.QReg) (w : Nat)
    : Keeps [.out, .ctr, .media, .q, .ev] s (State.regWrite s q r w) := by
  unfold State.regWrite
  try dsimp -iota -proj only
  refine Keeps.ite ?_ ?_
  · refine Keeps.step (State.bump_keeps ..) (by decide) ?_
    refine Keeps.step (State.queueCause_keeps ..) (by decide) ?_
    exact Keeps.refl
  · refine Keeps.step (State.queueEval_keeps ..) (by decide) ?_
    refine Keeps.step (State.setQueue_keeps ..) (by decide) ?_
    exact Keeps.refl

theorem execQueueDisable_keeps_eq {q : Nat} {s : State} {zz} (hE : execQueueDisable q s = .next zz) : Keeps [.q] s zz := by
  unfold execQueueDisable at hE
  try dsimp -iota -proj only at hE
  obtain rfl := Host.Outcome.next.inj hE
  split
  · refine Keeps.step (State.setQueue_keeps ..) (by decide) ?_
    exact Keeps.refl
  · refine Keeps.step (State.setQueue_keeps ..) (by decide) ?_
    exact Keeps.refl
  · exact Keeps.refl

theorem execQueueEnable_keeps_eq {q : Nat} {s : State} {zz} (hE : execQueueEnable q s = .next zz)
    : Keeps [.out, .ctr, .media, .q, .ev] s zz := by
  unfold execQueueEnable at hE
  try dsimp -iota -proj only at hE
  obtain rfl := Host.Outcome.next.inj hE
  refine Keeps.ite ?_ ?_
  · exact Keeps.refl
  · refine Keeps.ite ?_ ?_
    · refine Keeps.step (State.setQueue_keeps ..) (by decide) ?_
      exact Keeps.refl
    · refine Keeps.step (State.queueCause_keeps ..) (by decide) ?_
      exact Keeps.refl

theorem State.badDoorbell_keeps (s : State) (q : Nat) : Keeps [.out, .ctr, .media, .q, .ev] s (State.badDoorbell s q) := by
  unfold State.badDoorbell
  try dsimp -iota -proj only
  refine Keeps.step (State.bump_keeps ..) (by decide) ?_
  refine Keeps.step (State.queueCause_keeps ..) (by decide) ?_
  exact Keeps.refl

theorem State.setCjHead_keeps_eq {s : State} {q : Nat} {idx : Nat} {zz} (hE : State.setCjHead s q idx = .next zz)
    : Keeps [.q] s zz := by
  unfold State.setCjHead at hE
  try dsimp -iota -proj only at hE
  obtain hE | hE := ite_cases hE
  · cases hE
  · obtain rfl := Host.Outcome.next.inj hE
    refine Keeps.step (State.setQueue_keeps ..) (by decide) ?_
    exact Keeps.refl

theorem State.setTail_keeps (s : State) (q : Nat) (idx : Nat) : Keeps [.q] s (State.setTail s q idx) := by
  unfold State.setTail
  try dsimp -iota -proj only
  refine Keeps.step (State.setQueue_keeps ..) (by decide) ?_
  exact Keeps.refl

theorem execList_keeps_eq {q : Nat} {s : State} {zz} (hE : execList q s = .next zz)
    : Keeps [.free, .out, .cfg, .ctr, .pg, .media, .q, .mem, .tm, .part, .ev, .lk] s zz := by
  unfold execList at hE
  try dsimp -iota -proj only at hE
  obtain rfl := Host.Outcome.next.inj hE
  refine Keeps.ite ?_ ?_
  · split
    · first
      | refine Keeps.ofGot (by assumption) ?_
      | refine Keeps.ofStalled (by assumption) ?_
      refine Keeps.step (State.fetchOne_keeps ..) (by decide) ?_
      exact Keeps.refl
    · first
      | refine Keeps.ofGot (by assumption) ?_
      | refine Keeps.ofStalled (by assumption) ?_
      refine Keeps.step (State.fetchOne_keeps ..) (by decide) ?_
      exact Keeps.refl
  · exact Keeps.refl

theorem execCjHeadDoorbell_keeps_eq {port : Nat} {fn : Nat} {q : Nat} {idx : Nat} {s : State} {zz} (hE
    : execCjHeadDoorbell port fn q idx s = .next zz) : Keeps [.out, .ctr, .media, .q, .ev] s zz := by
  unfold execCjHeadDoorbell at hE
  try dsimp -iota -proj only at hE
  obtain hE | hE := ite_cases hE
  · obtain rfl := Host.Outcome.next.inj hE
    exact Keeps.refl
  · obtain hE | hE := ite_cases hE
    · obtain rfl := Host.Outcome.next.inj hE
      refine Keeps.step (State.badDoorbell_keeps ..) (by decide) ?_
      exact Keeps.refl
    · refine Keeps.step (State.setCjHead_keeps_eq hE) (by decide) ?_
      exact Keeps.refl

theorem execMsixUnmask_keeps_eq {port : Nat} {fn : Nat} {vec : Nat} {s : State} {zz} (hE
    : execMsixUnmask port fn vec s = .next zz) : Keeps [.out, .ctr, .q] s zz := by
  unfold execMsixUnmask at hE
  try dsimp -iota -proj only at hE
  obtain rfl := Host.Outcome.next.inj hE
  refine Keeps.ite ?_ ?_
  · exact Keeps.refl
  · refine Keeps.ite ?_ ?_
    · refine Keeps.step (State.msix_keeps ..) (by decide) ?_
      refine Keeps.step (Keeps.set_q ..) (by decide) ?_
      exact Keeps.refl
    · refine Keeps.step (Keeps.set_q ..) (by decide) ?_
      exact Keeps.refl

theorem State.releaseWaiting_keeps (s : State) (q : Nat) : Keeps [.out, .ctr, .pg, .media, .q, .tm, .ev, .lk] s
    (State.releaseWaiting s q) := by
  unfold State.releaseWaiting
  try dsimp -iota -proj only
  refine Keeps.foldl (fun _ _ _ => ?_) ?_
  · split
    · refine Keeps.step (State.release_keeps ..) (by decide) ?_
      refine Keeps.step (State.completeSnaps_keeps ..) (by decide) ?_
      refine Keeps.step (Keeps.set_ev ..) (by decide) ?_
      assumption
    · assumption
  · exact Keeps.refl

theorem execPcieErrorResponse_keeps_eq {e : Sys2Proof.PcieErr} {s : State} {zz} (hE
    : execPcieErrorResponse e s = .next zz)
        : Keeps [.out, .ctr, .pg, .media, .q, .mem, .tm, .part, .ev, .lk, .att] s zz := by
  unfold execPcieErrorResponse at hE
  try dsimp -iota -proj only at hE
  obtain rfl := Host.Outcome.next.inj hE
  split
  · refine Keeps.ite ?_ ?_
    · refine Keeps.step (State.setQueue_keeps ..) (by decide) ?_
      refine Keeps.step (State.queueCause_keeps ..) (by decide) ?_
      refine Keeps.step (State.bump_keeps ..) (by decide) ?_
      exact Keeps.refl
    · refine Keeps.step (State.queueCause_keeps ..) (by decide) ?_
      refine Keeps.step (State.bump_keeps ..) (by decide) ?_
      exact Keeps.refl
  · refine Keeps.step (State.setQueue_keeps ..) (by decide) ?_
    refine Keeps.step (State.releaseWaiting_keeps ..) (by decide) ?_
    refine Keeps.ite ?_ ?_
    · refine Keeps.step (State.snapshot_keeps ..) (by decide) ?_
      refine Keeps.step (State.setQueue_keeps ..) (by decide) ?_
      refine Keeps.step (State.queueCause_keeps ..) (by decide) ?_
      refine Keeps.step (State.bump_keeps ..) (by decide) ?_
      exact Keeps.refl
    · refine Keeps.step (State.setQueue_keeps ..) (by decide) ?_
      refine Keeps.step (State.queueCause_keeps ..) (by decide) ?_
      refine Keeps.step (State.bump_keeps ..) (by decide) ?_
      exact Keeps.refl
  · split
    · refine Keeps.step (State.bump_keeps ..) (by decide) ?_
      exact Keeps.refl
    · refine Keeps.ite ?_ ?_
      · refine Keeps.step (State.partVec_keeps ..) (by decide) ?_
        refine Keeps.step (State.bump_keeps ..) (by decide) ?_
        exact Keeps.refl
      · refine Keeps.step (State.stopOp_keeps ..) (by decide) ?_
        refine Keeps.step (State.partVec_keeps ..) (by decide) ?_
        refine Keeps.step (State.bump_keeps ..) (by decide) ?_
        exact Keeps.refl

theorem execDescriptorFetch_keeps_eq {s : State} {zz} (hE : execDescriptorFetch s = .next zz)
    : Keeps [.free, .out, .cfg, .ctr, .pg, .media, .q, .mem, .tm, .part, .ev, .lk] s zz := by
  unfold execDescriptorFetch at hE
  try dsimp -iota -proj only at hE
  obtain rfl := Host.Outcome.next.inj hE
  split
  · refine Keeps.step (State.rrPass_keeps ..) (by decide) ?_
    refine Keeps.step (State.fetchBurst_keeps ..) (by decide) ?_
    exact Keeps.refl
  · exact Keeps.refl

theorem execJournalFullRecordWrite_keeps_eq {q : Nat} {s : State} {zz} (hE : execJournalFullRecordWrite q s = .next zz)
    : Keeps [.out, .ctr, .pg, .media, .q, .mem, .tm, .ev, .lk] s zz := by
  unfold execJournalFullRecordWrite at hE
  try dsimp -iota -proj only at hE
  obtain rfl := Host.Outcome.next.inj hE
  split
  · exact Keeps.refl
  · split
    · refine Keeps.step (State.setQueue_keeps ..) (by decide) ?_
      exact Keeps.refl
    · refine Keeps.ite ?_ ?_
      · exact Keeps.refl
      · refine Keeps.step (State.release_keeps ..) (by decide) ?_
        refine Keeps.step (State.completeSnaps_keeps ..) (by decide) ?_
        refine Keeps.step (Keeps.set_ev ..) (by decide) ?_
        refine Keeps.step (State.writeRecord_keeps ..) (by decide) ?_
        refine Keeps.step (State.setQueue_keeps ..) (by decide) ?_
        exact Keeps.refl

theorem execModerationTimeTrigger_keeps_eq {q : Nat} {s : State} {zz} (hE : execModerationTimeTrigger q s = .next zz)
    : Keeps [.out, .up, .now, .ctr, .q] s zz := by
  unfold execModerationTimeTrigger at hE
  try dsimp -iota -proj only at hE
  obtain rfl := Host.Outcome.next.inj hE
  split
  · exact Keeps.refl
  · refine Keeps.ite ?_ ?_
    · exact Keeps.refl
    · refine Keeps.step (State.queueMsg_keeps ..) (by decide) ?_
      refine Keeps.step (State.timeTo_keeps ..) (by decide) ?_
      exact Keeps.refl

theorem execNop_keeps_eq {t : Nat} {s : State} {zz} (hE : execNop t s = .next zz)
    : Keeps [.out, .ctr, .pg, .media, .q, .mem, .tm, .part, .ev, .lk] s zz := by
  unfold execNop at hE
  try dsimp -iota -proj only at hE
  obtain rfl := Host.Outcome.next.inj hE
  split
  · refine Keeps.step (State.endOp_keeps ..) (by decide) ?_
    refine Keeps.step (State.meterOp_keeps ..) (by decide) ?_
    exact Keeps.refl
  · exact Keeps.refl

theorem execOttStallResume_keeps_eq {s : State} {zz} (hE : execOttStallResume s = .next zz)
    : Keeps [.free, .out, .cfg, .ctr, .pg, .media, .q, .mem, .tm, .part, .ev, .lk] s zz := by
  unfold execOttStallResume at hE
  try dsimp -iota -proj only at hE
  obtain rfl := Host.Outcome.next.inj hE
  split
  · refine Keeps.step (State.rrPass_keeps ..) (by decide) ?_
    refine Keeps.step (State.fetchBurst_keeps ..) (by decide) ?_
    exact Keeps.refl
  · exact Keeps.refl

theorem execQueueFlush_keeps_eq {q : Nat} {s : State} {zz} (hE : execQueueFlush q s = .next zz)
    : Keeps [.out, .ctr, .media, .q, .ev] s zz := by
  unfold execQueueFlush at hE
  try dsimp -iota -proj only at hE
  obtain rfl := Host.Outcome.next.inj hE
  refine Keeps.step (State.flushQueue_keeps ..) (by decide) ?_
  exact Keeps.refl

theorem execQueueRegisterWrite_keeps_eq {q : Nat} {r : Sys2Proof.QReg} {v : Sys2Proof.W64} {s : State} {zz} (hE
    : execQueueRegisterWrite q r v s = .next zz) : Keeps [.out, .ctr, .media, .q, .ev] s zz := by
  unfold execQueueRegisterWrite at hE
  try dsimp -iota -proj only at hE
  obtain rfl := Host.Outcome.next.inj hE
  refine Keeps.step (State.regWrite_keeps ..) (by decide) ?_
  exact Keeps.refl

theorem execSqTailDoorbell_keeps_eq {port : Nat} {fn : Nat} {q : Nat} {idx : Nat} {s : State} {zz} (hE
    : execSqTailDoorbell port fn q idx s = .next zz) : Keeps [.out, .ctr, .media, .q, .ev] s zz := by
  unfold execSqTailDoorbell at hE
  try dsimp -iota -proj only at hE
  obtain rfl := Host.Outcome.next.inj hE
  refine Keeps.ite ?_ ?_
  · exact Keeps.refl
  · refine Keeps.ite ?_ ?_
    · refine Keeps.step (State.badDoorbell_keeps ..) (by decide) ?_
      exact Keeps.refl
    · refine Keeps.step (State.setTail_keeps ..) (by decide) ?_
      exact Keeps.refl

/-! ### Faults -/

theorem State.resetMsix_keeps (s : State) (k : Nat) (fn : Nat) : Keeps [.q] s (State.resetMsix s k fn) := by
  unfold State.resetMsix
  try dsimp -iota -proj only
  refine Keeps.step (Keeps.set_q ..) (by decide) ?_
  exact Keeps.refl

theorem State.resetFn_keeps (s : State) (k : Nat) (fn : Nat) : Keeps [.q, .dict] s (State.resetFn s k fn) := by
  unfold State.resetFn
  try dsimp -iota -proj only
  refine Keeps.step (State.resetBox_keeps ..) (by decide) ?_
  refine Keeps.step (State.resetMsix_keeps ..) (by decide) ?_
  exact Keeps.refl

theorem State.faultEvent_keeps (s : State) (cls : Nat) (p : Option Nat) (kind : Nat) (field : Nat) (unit : Nat) (ps
    : List Nat) : Keeps [.out, .ctr, .media, .q, .ev] s (State.faultEvent s cls p kind field unit ps) := by
  unfold State.faultEvent
  try dsimp -iota -proj only
  refine Keeps.step (State.eventAs_keeps ..) (by decide) ?_
  split
  · refine Keeps.step (State.bump_keeps ..) (by decide) ?_
    refine Keeps.step (State.bump_keeps ..) (by decide) ?_
    refine Keeps.step (State.bump_keeps ..) (by decide) ?_
    exact Keeps.refl
  · refine Keeps.step (State.bump_keeps ..) (by decide) ?_
    exact Keeps.refl

theorem State.fencedOp_keeps (s : State) (t : Nat)
    : Keeps [.out, .ctr, .pg, .media, .q, .mem, .tm, .part, .ev, .lk, .att] s (State.fencedOp s t) := by
  unfold State.fencedOp
  try dsimp -iota -proj only
  split
  · exact Keeps.refl
  · refine Keeps.ite ?_ ?_
    · exact Keeps.refl
    · refine Keeps.ite ?_ ?_
      · refine Keeps.step (State.setOp_keeps ..) (by decide) ?_
        exact Keeps.refl
      · refine Keeps.step (State.stopOp_keeps ..) (by decide) ?_
        exact Keeps.refl

theorem State.strictPart_keeps (s : State) (p : Nat) (gs : List Nat)
    : Keeps [.out, .ctr, .pg, .media, .q, .mem, .tm, .part, .ev, .lk, .att] s (State.strictPart s p gs) := by
  unfold State.strictPart
  try dsimp -iota -proj only
  refine Keeps.foldl (fun _ _ _ => ?_) ?_
  · refine Keeps.step (State.stopOp_keeps ..) (by decide) ?_
    assumption
  · exact Keeps.refl

theorem State.faultOps_keeps (s : State) (ts : List Nat) (groups : List (Nat × List Nat))
    : Keeps [.out, .ctr, .pg, .media, .q, .mem, .tm, .part, .ev, .lk, .att] s (State.faultOps s ts groups) := by
  unfold State.faultOps
  try dsimp -iota -proj only
  refine Keeps.foldl (fun _ _ _ => ?_) ?_
  · refine Keeps.step (State.fencedOp_keeps ..) (by decide) ?_
    assumption
  · refine Keeps.foldl (fun _ _ _ => ?_) ?_
    · refine Keeps.step (State.strictPart_keeps ..) (by decide) ?_
      assumption
    · exact Keeps.refl

theorem State.setPart_keeps (s : State) (p : Nat) (v : Part) : Keeps [.part] s (State.setPart s p v) := by
  unfold State.setPart
  try dsimp -iota -proj only
  refine Keeps.step (Keeps.set_part ..) (by decide) ?_
  exact Keeps.refl

theorem State.setPort_keeps (s : State) (k : Nat) (v : Port) : Keeps [.part] s (State.setPort s k v) := by
  unfold State.setPort
  try dsimp -iota -proj only
  refine Keeps.step (Keeps.set_part ..) (by decide) ?_
  exact Keeps.refl

theorem State.resetPort_keeps (s : State) (k : Nat) : Keeps [.out, .ctr, .media, .q, .part, .ev, .dict] s
    (State.resetPort s k) := by
  unfold State.resetPort
  try dsimp -iota -proj only
  refine Keeps.foldl (fun _ _ _ => ?_) ?_
  · refine Keeps.step (State.flushQueue_keeps ..) (by decide) ?_
    assumption
  · refine Keeps.foldl (fun _ _ _ => ?_) ?_
    · refine Keeps.step (State.setPart_keeps ..) (by decide) ?_
      assumption
    · refine Keeps.step (State.setPort_keeps ..) (by decide) ?_
      refine Keeps.foldl (fun _ _ _ => ?_) ?_
      · refine Keeps.step (State.resetFn_keeps ..) (by decide) ?_
        assumption
      · exact Keeps.refl

theorem State.fencePcie_keeps (old : State) (s : State) : Keeps [.out, .ctr, .media, .q, .part, .ev, .dict] s
    (State.fencePcie old s) := by
  unfold State.fencePcie
  try dsimp -iota -proj only
  refine Keeps.foldl (fun _ _ _ => ?_) ?_
  · refine Keeps.ite ?_ ?_
    · refine Keeps.step (State.resetPort_keeps ..) (by decide) ?_
      assumption
    · assumption
  · exact Keeps.refl

theorem State.holdGroups_keeps (s : State) (p : Nat) (gs : List Nat) : Keeps [.q, .part] s (State.holdGroups s p gs) := by
  unfold State.holdGroups
  try dsimp -iota -proj only
  refine Keeps.foldl (fun _ _ _ => ?_) ?_
  · refine Keeps.ite ?_ ?_
    · refine Keeps.step (State.setQueue_keeps ..) (by decide) ?_
      assumption
    · assumption
  · refine Keeps.step (State.setPart_keeps ..) (by decide) ?_
    exact Keeps.refl

theorem State.fault_keeps (s : State) (kind : Nat) (field : Nat) (unit : Nat) (origin : Nat) (reason : Nat) (touched
    : List Nat) (lost : List Sys2Proof.Lost) : Keeps (Fld.but [.pending, .up, .now, .cfg, .blob, .clk, .pxb, .pwr]) s
        (State.fault s kind field unit origin reason touched lost) := by
  unfold State.fault
  try dsimp -iota -proj only
  refine Keeps.ite ?_ ?_
  · exact Keeps.refl
  · refine Keeps.foldl (fun _ _ _ => ?_) ?_
    · refine Keeps.step (State.loseStruct_keeps ..) (by decide) ?_
      assumption
    · refine Keeps.step (State.fencePcie_keeps ..) (by decide) ?_
      refine Keeps.step (State.fenceEffects_keeps ..) (by decide) ?_
      refine Keeps.step (State.faultOps_keeps ..) (by decide) ?_
      refine Keeps.ite ?_ ?_
      · refine Keeps.step (State.faultEvent_keeps ..) (by decide) ?_
        refine Keeps.foldl (fun _ _ _ => ?_) ?_
        · refine Keeps.step (State.faultEvent_keeps ..) (by decide) ?_
          assumption
        · refine Keeps.foldl (fun _ _ _ => ?_) ?_
          · refine Keeps.step (State.holdGroups_keeps ..) (by decide) ?_
            assumption
          · refine Keeps.ite ?_ ?_
            · refine Keeps.step (State.snapshot_keeps ..) (by decide) ?_
              refine Keeps.step (State.fenceNote_keeps ..) (by decide) ?_
              exact Keeps.refl
            · refine Keeps.step (State.fenceNote_keeps ..) (by decide) ?_
              exact Keeps.refl
      · refine Keeps.foldl (fun _ _ _ => ?_) ?_
        · refine Keeps.step (State.faultEvent_keeps ..) (by decide) ?_
          assumption
        · refine Keeps.foldl (fun _ _ _ => ?_) ?_
          · refine Keeps.step (State.holdGroups_keeps ..) (by decide) ?_
            assumption
          · refine Keeps.ite ?_ ?_
            · refine Keeps.step (State.snapshot_keeps ..) (by decide) ?_
              refine Keeps.step (State.fenceNote_keeps ..) (by decide) ?_
              exact Keeps.refl
            · refine Keeps.step (State.fenceNote_keeps ..) (by decide) ?_
              exact Keeps.refl

theorem execFaultFence_keeps_eq {kind : Nat} {field : Nat} {unit : Nat} {reason : Nat} {touched : List Nat} {lost
    : List Sys2Proof.Lost} {s : State} {zz} (hE : execFaultFence kind field unit reason touched lost s = .next zz)
        : Keeps (Fld.but [.pending, .up, .now, .cfg, .blob, .clk, .pxb, .pwr]) s zz := by
  unfold execFaultFence at hE
  try dsimp -iota -proj only at hE
  obtain rfl := Host.Outcome.next.inj hE
  refine Keeps.step (State.fault_keeps ..) (by decide) ?_
  exact Keeps.refl

theorem execBistCoreTest_keeps_eq {rind : Bool} {field : Nat} {core : Nat} {pass : Bool} {s : State} {zz} (hE
    : execBistCoreTest rind field core pass s = .next zz) : Keeps
        (Fld.but [.pending, .up, .now, .cfg, .blob, .clk, .pxb, .pwr]) s zz := by
  unfold execBistCoreTest at hE
  try dsimp -iota -proj only at hE
  obtain rfl := Host.Outcome.next.inj hE
  refine Keeps.ite ?_ ?_
  · exact Keeps.refl
  · refine Keeps.ite ?_ ?_
    · refine Keeps.step (State.bump_keeps ..) (by decide) ?_
      exact Keeps.refl
    · refine Keeps.step (State.bump_keeps ..) (by decide) ?_
      refine Keeps.step (State.fault_keeps ..) (by decide) ?_
      refine Keeps.step (State.bump_keeps ..) (by decide) ?_
      exact Keeps.refl

/-! ### Resets -/

theorem State.dropMessages_keeps (s : State) (p : Nat) : Keeps [.q] s (State.dropMessages s p) := by
  unfold State.dropMessages
  try dsimp -iota -proj only
  refine Keeps.step (Keeps.set_q ..) (by decide) ?_
  exact Keeps.refl

theorem State.dropSets_keeps (s : State) (p : Nat) : Keeps [.lk] s (State.dropSets s p) := by
  unfold State.dropSets
  try dsimp -iota -proj only
  refine Keeps.step (Keeps.set_lk ..) (by decide) ?_
  exact Keeps.refl

theorem State.stopQueue_keeps (s : State) (qn : Nat) : Keeps [.out, .ctr, .media, .q, .ev] s (State.stopQueue s qn) := by
  unfold State.stopQueue
  try dsimp -iota -proj only
  refine Keeps.ite ?_ ?_
  · refine Keeps.step (State.setQueue_keeps ..) (by decide) ?_
    refine Keeps.step (State.queueStopped_keeps ..) (by decide) ?_
    exact Keeps.refl
  · exact Keeps.refl

theorem State.beginReset_keeps (s : State) (p : Nat) (cause : Nat)
    : Keeps [.out, .ctr, .media, .q, .tm, .part, .ev, .dict, .lk] s (State.beginReset s p cause) := by
  unfold State.beginReset
  try dsimp -iota -proj only
  refine Keeps.ite ?_ ?_
  · exact Keeps.refl
  · refine Keeps.step (State.endSessions_keeps ..) (by decide) ?_
    refine Keeps.step (State.dropSets_keeps ..) (by decide) ?_
    refine Keeps.step (State.dropHeld_keeps ..) (by decide) ?_
    refine Keeps.step (State.dropMessages_keeps ..) (by decide) ?_
    refine Keeps.foldl (fun _ _ _ => ?_) ?_
    · refine Keeps.step (State.stopQueue_keeps ..) (by decide) ?_
      assumption
    · refine Keeps.step (State.setPart_keeps ..) (by decide) ?_
      exact Keeps.refl

theorem State.resetDone_keeps (s : State) (k : Nat) (p : Nat) : Keeps [.out, .ctr, .q] s (State.resetDone s k p) := by
  unfold State.resetDone
  try dsimp -iota -proj only
  refine Keeps.ite ?_ ?_
  · exact Keeps.refl
  · refine Keeps.ite ?_ ?_
    · refine Keeps.step (State.msix_keeps ..) (by decide) ?_
      exact Keeps.refl
    · refine Keeps.ite ?_ ?_
      · refine Keeps.step (Keeps.set_q ..) (by decide) ?_
        exact Keeps.refl
      · exact Keeps.refl

theorem State.abortOp_keeps (s : State) (t : Nat)
    : Keeps [.out, .ctr, .pg, .media, .q, .mem, .tm, .part, .ev, .lk, .att] s (State.abortOp s t) := by
  unfold State.abortOp
  try dsimp -iota -proj only
  split
  · exact Keeps.refl
  · refine Keeps.step (State.stopOp_keeps ..) (by decide) ?_
    split
    · refine Keeps.step (State.dropRound_keeps ..) (by decide) ?_
      exact Keeps.refl
    · exact Keeps.refl

theorem State.flushRecord_keeps (s : State) (t : Nat) : Keeps [.out, .ctr, .pg, .media, .q, .tm, .part, .ev, .lk] s
    (State.flushRecord s t) := by
  unfold State.flushRecord
  try dsimp -iota -proj only
  split
  · exact Keeps.refl
  · refine Keeps.ite ?_ ?_
    · refine Keeps.step (State.release_keeps ..) (by decide) ?_
      refine Keeps.step (State.completeSnaps_keeps ..) (by decide) ?_
      refine Keeps.step (Keeps.set_ev ..) (by decide) ?_
      refine Keeps.step (State.putResetRecord_keeps ..) (by decide) ?_
      exact Keeps.refl
    · exact Keeps.refl

theorem State.endFlush_keeps (s : State) (q : Nat)
    : Keeps [.out, .ctr, .pg, .media, .q, .mem, .tm, .part, .ev, .lk, .att] s (State.endFlush s q) := by
  unfold State.endFlush
  try dsimp -iota -proj only
  refine Keeps.ite ?_ ?_
  · refine Keeps.step (State.setQueue_keeps ..) (by decide) ?_
    refine Keeps.foldl (fun _ _ _ => ?_) ?_
    · refine Keeps.step (State.flushRecord_keeps ..) (by decide) ?_
      assumption
    · refine Keeps.foldl (fun _ _ _ => ?_) ?_
      · refine Keeps.step (State.abortOp_keeps ..) (by decide) ?_
        assumption
      · refine Keeps.foldl (fun _ _ _ => ?_) ?_
        · refine Keeps.step (State.dropUnits_keeps ..) (by decide) ?_
          assumption
        · exact Keeps.refl
  · refine Keeps.foldl (fun _ _ _ => ?_) ?_
    · refine Keeps.step (State.flushRecord_keeps ..) (by decide) ?_
      assumption
    · refine Keeps.foldl (fun _ _ _ => ?_) ?_
      · refine Keeps.step (State.abortOp_keeps ..) (by decide) ?_
        assumption
      · refine Keeps.foldl (fun _ _ _ => ?_) ?_
        · refine Keeps.step (State.dropUnits_keeps ..) (by decide) ?_
          assumption
        · exact Keeps.refl

theorem State.clearFlr_keeps (s : State) (p : Nat) : Keeps [.part] s (State.clearFlr s p) := by
  unfold State.clearFlr
  try dsimp -iota -proj only
  refine Keeps.step (Keeps.set_part ..) (by decide) ?_
  exact Keeps.refl

theorem State.dropPart_keeps (s : State) (p : Nat) : Keeps [.ctr, .tm] s (State.dropPart s p) := by
  unfold State.dropPart
  try dsimp -iota -proj only
  refine Keeps.foldl (fun _ _ _ => ?_) ?_
  · refine Keeps.step (State.dropUnits_keeps ..) (by decide) ?_
    assumption
  · exact Keeps.refl

theorem State.dropSaves_keeps (s : State) (p : Nat) : Keeps [.att] s (State.dropSaves s p) := by
  unfold State.dropSaves
  try dsimp -iota -proj only
  refine Keeps.step (Keeps.set_att ..) (by decide) ?_
  exact Keeps.refl

theorem State.dropSeqs_keeps (s : State) (p : Nat) : Keeps [.ctr, .pg, .px, .tier, .media, .ix] s (State.dropSeqs s p) := by
  unfold State.dropSeqs
  try dsimp -iota -proj only
  refine Keeps.foldl (fun _ _ _ => ?_) ?_
  · refine Keeps.step (State.discardSeq_keeps ..) (by decide) ?_
    assumption
  · exact Keeps.refl

theorem State.abortJob_keeps (s : State) (p : Nat) (n : Nat) (j : PlanJob)
    : Keeps [.free, .out, .cfg, .ctr, .pg, .media, .q, .mem, .tm, .part, .ev, .lk] s (State.abortJob s p n j) := by
  unfold State.abortJob
  try dsimp -iota -proj only
  refine Keeps.ite ?_ ?_
  · exact Keeps.refl
  · split
    · refine Keeps.step (State.endOp_keeps ..) (by decide) ?_
      refine Keeps.step (State.takeEntry_keeps_eq (by assumption)) (by decide) ?_
      exact Keeps.refl
    · exact Keeps.refl

theorem State.stopPlans_keeps (s : State) (p : Nat)
    : Keeps [.free, .out, .cfg, .ctr, .pg, .tier, .media, .q, .mem, .tm, .part, .ev, .lk] s (State.stopPlans s p) := by
  unfold State.stopPlans
  try dsimp -iota -proj only
  refine Keeps.foldl (fun _ _ _ => ?_) ?_
  · refine Keeps.step (State.setPlan_keeps ..) (by decide) ?_
    refine Keeps.foldl (fun _ _ _ => ?_) ?_
    · refine Keeps.step (State.abortJob_keeps ..) (by decide) ?_
      assumption
    · assumption
  · exact Keeps.refl

theorem State.endReset_keeps (s : State) (p : Nat) : Keeps
    (Fld.but [.pending, .up, .now, .blob, .dict, .boot, .clk, .pxb, .pwr]) s (State.endReset s p) := by
  unfold State.endReset
  try dsimp -iota -proj only
  refine Keeps.step (State.bump_keeps ..) (by decide) ?_
  refine Keeps.step (State.bump_keeps ..) (by decide) ?_
  refine Keeps.step (State.event_keeps ..) (by decide) ?_
  refine Keeps.step (State.pfVec_keeps ..) (by decide) ?_
  refine Keeps.step (State.clearFlr_keeps ..) (by decide) ?_
  refine Keeps.step (State.resetDone_keeps ..) (by decide) ?_
  refine Keeps.step (State.resetDone_keeps ..) (by decide) ?_
  refine Keeps.step (State.setPart_keeps ..) (by decide) ?_
  refine Keeps.step (State.dropSaves_keeps ..) (by decide) ?_
  refine Keeps.step (State.dropSeqs_keeps ..) (by decide) ?_
  refine Keeps.step (State.dropJobs_keeps ..) (by decide) ?_
  refine Keeps.step (State.tmResetEnd_keeps ..) (by decide) ?_
  refine Keeps.step (Keeps.set_q ..) (by decide) ?_
  refine Keeps.foldl (fun _ _ _ => ?_) ?_
  · refine Keeps.step (State.flushRecord_keeps ..) (by decide) ?_
    assumption
  · refine Keeps.step (State.dropPart_keeps ..) (by decide) ?_
    refine Keeps.step (State.stopPlans_keeps ..) (by decide) ?_
    refine Keeps.foldl (fun _ _ _ => ?_) ?_
    · refine Keeps.step (State.abortOp_keeps ..) (by decide) ?_
      assumption
    · exact Keeps.refl

theorem execPortReset_keeps_eq {k : Nat} {cause : Nat} {s : State} {zz} (hE : execPortReset k cause s = .next zz)
    : Keeps [.out, .ctr, .media, .q, .part, .ev, .dict, .pwr] s zz := by
  unfold execPortReset at hE
  try dsimp -iota -proj only at hE
  obtain rfl := Host.Outcome.next.inj hE
  refine Keeps.ite ?_ ?_
  · exact Keeps.refl
  · refine Keeps.step (State.resetPort_keeps ..) (by decide) ?_
    refine Keeps.ite ?_ ?_
    · refine Keeps.step (Keeps.set_pwr ..) (by decide) ?_
      exact Keeps.refl
    · exact Keeps.refl

theorem execResetGraceExpiry_keeps_eq {queue : Bool} {n : Nat} {s : State} {zz} (hE
    : execResetGraceExpiry queue n s = .next zz) : Keeps
        (Fld.but [.pending, .blob, .dict, .boot, .clk, .pxb, .pwr]) s zz := by
  unfold execResetGraceExpiry at hE
  try dsimp -iota -proj only at hE
  obtain rfl := Host.Outcome.next.inj hE
  refine Keeps.ite ?_ ?_
  · split
    · refine Keeps.step (State.endFlush_keeps ..) (by decide) ?_
      refine Keeps.step (State.timeTo_keeps ..) (by decide) ?_
      exact Keeps.refl
    · exact Keeps.refl
  · refine Keeps.ite ?_ ?_
    · refine Keeps.step (State.endReset_keeps ..) (by decide) ?_
      refine Keeps.step (State.timeTo_keeps ..) (by decide) ?_
      exact Keeps.refl
    · exact Keeps.refl

theorem execFunctionLevelReset_keeps_eq {k : Nat} {fn : Nat} {s : State} {zz} (hE
    : execFunctionLevelReset k fn s = .next zz) : Keeps [.out, .ctr, .media, .q, .tm, .part, .ev, .dict, .lk] s zz := by
  unfold execFunctionLevelReset at hE
  try dsimp -iota -proj only at hE
  obtain rfl := Host.Outcome.next.inj hE
  refine Keeps.ite ?_ ?_
  · exact Keeps.refl
  · refine Keeps.ite ?_ ?_
    · refine Keeps.step (State.resetPort_keeps ..) (by decide) ?_
      exact Keeps.refl
    · refine Keeps.ite ?_ ?_
      · exact Keeps.refl
      · refine Keeps.step (State.beginReset_keeps ..) (by decide) ?_
        refine Keeps.step (State.setPort_keeps ..) (by decide) ?_
        refine Keeps.step (State.resetFn_keeps ..) (by decide) ?_
        exact Keeps.refl

/-! ### Values -/

theorem State.clearRead_keeps (s : State) (ix : Nat) (sub : Nat) : Keeps [.cfg, .tm] s (State.clearRead s ix sub) := by
  unfold State.clearRead
  try dsimp -iota -proj only
  refine Keeps.ite ?_ ?_
  · refine Keeps.step (State.setObj_keeps ..) (by decide) ?_
    exact Keeps.refl
  · refine Keeps.ite ?_ ?_
    · refine Keeps.step (State.clearHwm_keeps ..) (by decide) ?_
      exact Keeps.refl
    · refine Keeps.ite ?_ ?_
      · refine Keeps.step (State.clearHwm_keeps ..) (by decide) ?_
        exact Keeps.refl
      · exact Keeps.refl

/-! ### Clocks -/

theorem State.enterHoldover_keeps (s : State) : Keeps [.out, .ctr, .media, .q, .ev, .clk] s (State.enterHoldover s) := by
  unfold State.enterHoldover
  try dsimp -iota -proj only
  refine Keeps.step (State.event_keeps ..) (by decide) ?_
  refine Keeps.step (State.bump_keeps ..) (by decide) ?_
  refine Keeps.step (Keeps.set_clk ..) (by decide) ?_
  exact Keeps.refl

theorem State.pullIn_keeps (s : State) : Keeps [.clk] s (State.pullIn s) := by
  unfold State.pullIn
  try dsimp -iota -proj only
  refine Keeps.ite ?_ ?_
  · refine Keeps.step (Keeps.set_clk ..) (by decide) ?_
    exact Keeps.refl
  · exact Keeps.refl

theorem State.refSelected_keeps (s : State) : Keeps [.out, .ctr, .media, .q, .ev, .clk] s (State.refSelected s) := by
  unfold State.refSelected
  try dsimp -iota -proj only
  refine Keeps.ite ?_ ?_
  · exact Keeps.refl
  · refine Keeps.step (State.pullIn_keeps ..) (by decide) ?_
    split
    · refine Keeps.ite ?_ ?_
      · refine Keeps.ite ?_ ?_
        · refine Keeps.step (State.enterHoldover_keeps ..) (by decide) ?_
          exact Keeps.refl
        · exact Keeps.refl
      · refine Keeps.step (Keeps.set_clk ..) (by decide) ?_
        refine Keeps.ite ?_ ?_
        · refine Keeps.step (State.enterHoldover_keeps ..) (by decide) ?_
          exact Keeps.refl
        · exact Keeps.refl
    · refine Keeps.ite ?_ ?_
      · refine Keeps.step (State.enterHoldover_keeps ..) (by decide) ?_
        exact Keeps.refl
      · exact Keeps.refl

theorem State.timeSet_keeps (s : State) (v : Nat) : Keeps [.now, .clk] s (State.timeSet s v) := by
  unfold State.timeSet
  try dsimp -iota -proj only
  refine Keeps.step (Keeps.set_now_clk ..) (by decide) ?_
  exact Keeps.refl

theorem execHoldover24h_keeps_eq {s : State} {zz} (hE : execHoldover24h s = .next zz)
    : Keeps [.out, .up, .now, .ctr, .media, .q, .ev, .clk] s zz := by
  unfold execHoldover24h at hE
  try dsimp -iota -proj only at hE
  obtain rfl := Host.Outcome.next.inj hE
  refine Keeps.ite ?_ ?_
  · refine Keeps.step (State.event_keeps ..) (by decide) ?_
    refine Keeps.step (Keeps.set_clk ..) (by decide) ?_
    refine Keeps.step (State.timeTo_keeps ..) (by decide) ?_
    exact Keeps.refl
  · exact Keeps.refl

theorem State.lockTo_keeps (s : State) (k : Nat) : Keeps [.out, .ctr, .media, .q, .ev, .clk] s (State.lockTo s k) := by
  unfold State.lockTo
  try dsimp -iota -proj only
  refine Keeps.ite ?_ ?_
  · refine Keeps.step (State.event_keeps ..) (by decide) ?_
    refine Keeps.ite ?_ ?_
    · refine Keeps.step (Keeps.set_clk ..) (by decide) ?_
      exact Keeps.refl
    · refine Keeps.step (State.bump_keeps ..) (by decide) ?_
      refine Keeps.step (Keeps.set_clk ..) (by decide) ?_
      exact Keeps.refl
  · refine Keeps.step (Keeps.set_clk ..) (by decide) ?_
    exact Keeps.refl

theorem State.setRef_keeps (s : State) (k : Nat) (v : RefSt) : Keeps [.clk] s (State.setRef s k v) := by
  unfold State.setRef
  try dsimp -iota -proj only
  refine Keeps.step (Keeps.set_clk ..) (by decide) ?_
  exact Keeps.refl

theorem execRefAbsentTimer_keeps_eq {k : Nat} {s : State} {zz} (hE : execRefAbsentTimer k s = .next zz)
    : Keeps [.up, .now, .clk] s zz := by
  unfold execRefAbsentTimer at hE
  try dsimp -iota -proj only at hE
  obtain rfl := Host.Outcome.next.inj hE
  refine Keeps.ite ?_ ?_
  · refine Keeps.step (State.setRef_keeps ..) (by decide) ?_
    refine Keeps.step (State.timeTo_keeps ..) (by decide) ?_
    exact Keeps.refl
  · exact Keeps.refl

theorem execClockFault_keeps_eq {s : State} {zz} (hE : execClockFault s = .next zz)
    : Keeps [.out, .ctr, .media, .q, .ev, .clk] s zz := by
  unfold execClockFault at hE
  try dsimp -iota -proj only at hE
  obtain rfl := Host.Outcome.next.inj hE
  refine Keeps.ite ?_ ?_
  · refine Keeps.step (State.event_keeps ..) (by decide) ?_
    refine Keeps.step (Keeps.set_clk ..) (by decide) ?_
    exact Keeps.refl
  · exact Keeps.refl

theorem execMeshPullInDone_keeps_eq {s : State} {zz} (hE : execMeshPullInDone s = .next zz)
    : Keeps [.out, .ctr, .media, .q, .ev, .clk] s zz := by
  unfold execMeshPullInDone at hE
  try dsimp -iota -proj only at hE
  obtain rfl := Host.Outcome.next.inj hE
  split
  · refine Keeps.step (State.lockTo_keeps ..) (by decide) ?_
    exact Keeps.refl
  · exact Keeps.refl

theorem State.refLost_keeps (s : State) (k : Nat) : Keeps [.out, .ctr, .media, .q, .ev, .clk] s (State.refLost s k) := by
  unfold State.refLost
  try dsimp -iota -proj only
  refine Keeps.ite ?_ ?_
  · refine Keeps.step (State.pullIn_keeps ..) (by decide) ?_
    refine Keeps.ite ?_ ?_
    · refine Keeps.step (State.enterHoldover_keeps ..) (by decide) ?_
      refine Keeps.ite ?_ ?_
      · refine Keeps.step (Keeps.set_clk ..) (by decide) ?_
        refine Keeps.step (State.bump_keeps ..) (by decide) ?_
        refine Keeps.step (State.setRef_keeps ..) (by decide) ?_
        exact Keeps.refl
      · refine Keeps.step (State.bump_keeps ..) (by decide) ?_
        refine Keeps.step (State.setRef_keeps ..) (by decide) ?_
        exact Keeps.refl
    · refine Keeps.ite ?_ ?_
      · refine Keeps.step (Keeps.set_clk ..) (by decide) ?_
        refine Keeps.step (State.bump_keeps ..) (by decide) ?_
        refine Keeps.step (State.setRef_keeps ..) (by decide) ?_
        exact Keeps.refl
      · refine Keeps.step (State.bump_keeps ..) (by decide) ?_
        refine Keeps.step (State.setRef_keeps ..) (by decide) ?_
        exact Keeps.refl
  · exact Keeps.refl

theorem execPositionsDecoupled_keeps_eq {field : Nat} {s : State} {zz} (hE : execPositionsDecoupled field s = .next zz)
    : Keeps (Fld.but [.pending, .up, .now, .cfg, .blob, .pxb, .pwr]) s zz := by
  unfold execPositionsDecoupled at hE
  try dsimp -iota -proj only at hE
  obtain rfl := Host.Outcome.next.inj hE
  refine Keeps.ite ?_ ?_
  · exact Keeps.refl
  · split
    · refine Keeps.step (State.refLost_keeps ..) (by decide) ?_
      refine Keeps.step (State.fault_keeps ..) (by decide) ?_
      refine Keeps.step (State.event_keeps ..) (by decide) ?_
      refine Keeps.step (State.bump_keeps ..) (by decide) ?_
      exact Keeps.refl
    · refine Keeps.step (State.fault_keeps ..) (by decide) ?_
      refine Keeps.step (State.event_keeps ..) (by decide) ?_
      refine Keeps.step (State.bump_keeps ..) (by decide) ?_
      exact Keeps.refl

theorem execRefEdgesPresent_keeps_eq {k : Nat} {s : State} {zz} (hE : execRefEdgesPresent k s = .next zz)
    : Keeps [.clk] s zz := by
  unfold execRefEdgesPresent at hE
  try dsimp -iota -proj only at hE
  obtain rfl := Host.Outcome.next.inj hE
  refine Keeps.ite ?_ ?_
  · refine Keeps.step (State.setRef_keeps ..) (by decide) ?_
    exact Keeps.refl
  · exact Keeps.refl

theorem execRefLoss_keeps_eq {k : Nat} {s : State} {zz} (hE : execRefLoss k s = .next zz)
    : Keeps [.out, .ctr, .media, .q, .ev, .clk] s zz := by
  unfold execRefLoss at hE
  try dsimp -iota -proj only at hE
  obtain rfl := Host.Outcome.next.inj hE
  refine Keeps.step (State.refLost_keeps ..) (by decide) ?_
  exact Keeps.refl

theorem execRefQualifyTimer_keeps_eq {k : Nat} {s : State} {zz} (hE : execRefQualifyTimer k s = .next zz)
    : Keeps [.up, .now, .clk] s zz := by
  unfold execRefQualifyTimer at hE
  try dsimp -iota -proj only at hE
  obtain rfl := Host.Outcome.next.inj hE
  refine Keeps.ite ?_ ?_
  · refine Keeps.step (State.pullIn_keeps ..) (by decide) ?_
    refine Keeps.step (State.setRef_keeps ..) (by decide) ?_
    refine Keeps.step (State.timeTo_keeps ..) (by decide) ?_
    exact Keeps.refl
  · exact Keeps.refl

end Sys2Proof.Machine
end

