-- ==== Sys2Proof/Laws/KeepsWrites.lean ====
section
/-! SUPPORT. Which parts of the state each operation can change: the dictionary, the mount and the start. -/

namespace Sys2Proof.Machine

/-! ### Writes -/

theorem State.keepDurable_keeps (s : State) (ix : Nat) (sub : Nat) (r : ObjRow) : Keeps [.media] s
    (State.keepDurable s ix sub r) := by
  unfold State.keepDurable
  try dsimp -iota -proj only
  refine Keeps.step (State.touch_keeps ..) (by decide) ?_
  refine Keeps.step (Keeps.set_media ..) (by decide) ?_
  exact Keeps.refl

theorem State.defectWrite_keeps_eq {s : State} {v : Sys2Proof.Bytes} {zz} (hE : State.defectWrite s v = .ok zz) : Keeps
    (Fld.but [.pending, .up, .now, .cfg, .blob, .clk, .pxb, .pwr]) s zz := by
  unfold State.defectWrite at hE
  try dsimp -iota -proj only at hE
  obtain hE | hE := ite_cases hE
  · cases hE
  · obtain hE | hE := ite_cases hE
    · cases hE
    · obtain rfl := Except.ok.inj hE
      refine Keeps.step (State.fault_keeps ..) (by decide) ?_
      exact Keeps.refl

theorem State.forensic_keeps_eq {s : State} {v : Sys2Proof.Bytes} {o : Sys2Proof.ReadOutcome} {zz} (hE
    : State.forensic s v o = .ok zz) : Keeps [.cfg, .blob] s zz := by
  unfold State.forensic at hE
  try dsimp -iota -proj only at hE
  obtain hE | hE := ite_cases hE
  · cases hE
  · obtain hE | hE := ite_cases hE
    · cases hE
    · obtain hE | hE := ite_cases hE
      · cases hE
      · obtain rfl := Except.ok.inj hE
        refine Keeps.step (State.setObj_keeps ..) (by decide) ?_
        refine Keeps.step (State.setBlob_keeps ..) (by decide) ?_
        refine Keeps.step (State.setBlob_keeps ..) (by decide) ?_
        exact Keeps.refl

theorem State.linkEnabled_keeps (s : State) (n : Nat) (v : Nat) : Keeps
    (Fld.but [.pending, .up, .now, .blob, .px, .boot, .clk, .ix, .pxb, .pwr]) s (State.linkEnabled s n v) := by
  unfold State.linkEnabled
  try dsimp -iota -proj only
  refine Keeps.ite ?_ ?_
  · split
    · refine Keeps.step (State.linkDown_keeps ..) (by decide) ?_
      refine Keeps.step (State.setObj_keeps ..) (by decide) ?_
      exact Keeps.refl
    · refine Keeps.step (State.setLink_keeps ..) (by decide) ?_
      refine Keeps.step (State.setObj_keeps ..) (by decide) ?_
      exact Keeps.refl
    · refine Keeps.step (State.setLink_keeps ..) (by decide) ?_
      refine Keeps.step (State.setObj_keeps ..) (by decide) ?_
      exact Keeps.refl
    · refine Keeps.step (State.setObj_keeps ..) (by decide) ?_
      exact Keeps.refl
  · refine Keeps.ite ?_ ?_
    · refine Keeps.step (State.beginAttempt_keeps ..) (by decide) ?_
      refine Keeps.step (State.setObj_keeps ..) (by decide) ?_
      exact Keeps.refl
    · refine Keeps.step (State.setObj_keeps ..) (by decide) ?_
      exact Keeps.refl

theorem State.activateWrite_keeps_eq {s : State} {k : Nat} {zz} (hE : State.activateWrite s k = .ok zz)
    : Keeps [.boot] s zz := by
  unfold State.activateWrite at hE
  try dsimp -iota -proj only at hE
  obtain hE | hE := ite_cases hE
  · cases hE
  · obtain rfl := Except.ok.inj hE
    refine Keeps.step (Keeps.set_boot ..) (by decide) ?_
    exact Keeps.refl

theorem State.flushWhere_keeps (s : State) (p : Nat) (sel : Nat → Queue → Bool) : Keeps [.out, .ctr, .media, .q, .ev] s
    (State.flushWhere s p sel) := by
  unfold State.flushWhere
  try dsimp -iota -proj only
  refine Keeps.foldl (fun _ _ _ => ?_) ?_
  · refine Keeps.step (State.flushQueue_keeps ..) (by decide) ?_
    assumption
  · exact Keeps.refl

theorem State.setupChanged_keeps (s : State) (old : Setup) (p : Nat)
    : Keeps [.out, .ctr, .media, .q, .tm, .part, .ev, .dict, .lk] s (State.setupChanged s old p) := by
  unfold State.setupChanged
  try dsimp -iota -proj only
  refine Keeps.ite ?_ ?_
  · exact Keeps.refl
  · refine Keeps.ite ?_ ?_
    · refine Keeps.step (State.beginReset_keeps ..) (by decide) ?_
      refine Keeps.step (State.endSessions_keeps ..) (by decide) ?_
      refine Keeps.step (State.flushWhere_keeps ..) (by decide) ?_
      exact Keeps.refl
    · refine Keeps.ite ?_ ?_
      · refine Keeps.step (State.setPart_keeps ..) (by decide) ?_
        refine Keeps.step (State.endSessions_keeps ..) (by decide) ?_
        refine Keeps.step (State.flushWhere_keeps ..) (by decide) ?_
        exact Keeps.refl
      · refine Keeps.step (State.endSessions_keeps ..) (by decide) ?_
        refine Keeps.step (State.flushWhere_keeps ..) (by decide) ?_
        exact Keeps.refl

theorem State.setSetup_keeps (s : State) (u : Setup) : Keeps [.out, .ctr, .media, .q, .tm, .part, .ev, .dict, .lk] s
    (State.setSetup s u) := by
  unfold State.setSetup
  try dsimp -iota -proj only
  refine Keeps.ite ?_ ?_
  · exact Keeps.refl
  · refine Keeps.foldl (fun _ _ _ => ?_) ?_
    · refine Keeps.step (State.setupChanged_keeps ..) (by decide) ?_
      assumption
    · refine Keeps.step (Keeps.set_part ..) (by decide) ?_
      exact Keeps.refl

theorem State.batchWrite_keeps_eq {s : State} {b : Sys2Proof.Bytes} {zz} (hE : State.batchWrite s b = .ok zz)
    : Keeps [.out, .ctr, .media, .q, .tm, .part, .ev, .dict, .lk] s zz := by
  unfold State.batchWrite at hE
  try dsimp -iota -proj only at hE
  obtain hE | hE := ite_cases hE
  · cases hE
  · split at hE
    · cases hE
    · split at hE
      · cases hE
      · obtain rfl := Except.ok.inj hE
        refine Keeps.step (State.setSetup_keeps ..) (by decide) ?_
        exact Keeps.refl

theorem State.firmwareWrite_keeps_eq {s : State} {v : Sys2Proof.Bytes} {zz} (hE : State.firmwareWrite s v = .ok zz)
    : Keeps [.media, .boot] s zz := by
  unfold State.firmwareWrite at hE
  try dsimp -iota -proj only at hE
  obtain hE | hE := ite_cases hE
  · cases hE
  · obtain hE | hE := ite_cases hE
    · cases hE
    · obtain hE | hE := ite_cases hE
      · cases hE
      · obtain hE | hE := ite_cases hE
        · cases hE
        · obtain rfl := Except.ok.inj hE
          refine Keeps.step (Keeps.set_media_boot ..) (by decide) ?_
          exact Keeps.refl

theorem State.put_keeps (s : State) (ix : Nat) (sub : Nat) (r : ObjRow) (v : Sys2Proof.Bytes) : Keeps [.cfg, .blob] s
    (State.put s ix sub r v) := by
  unfold State.put
  try dsimp -iota -proj only
  split
  · refine Keeps.step (State.setBlob_keeps ..) (by decide) ?_
    exact Keeps.refl
  · refine Keeps.step (State.setBlob_keeps ..) (by decide) ?_
    exact Keeps.refl
  · refine Keeps.step (State.setBlob_keeps ..) (by decide) ?_
    exact Keeps.refl
  · refine Keeps.step (State.setObj_keeps ..) (by decide) ?_
    exact Keeps.refl

theorem State.setupWrite_keeps_eq {s : State} {ix : Nat} {sub : Nat} {n : Nat} {zz} (hE
    : State.setupWrite s ix sub n = .ok zz) : Keeps [.out, .ctr, .media, .q, .tm, .part, .ev, .dict, .lk] s zz := by
  unfold State.setupWrite at hE
  try dsimp -iota -proj only at hE
  split at hE
  · cases hE
  · obtain rfl := Except.ok.inj hE
    refine Keeps.step (State.setSetup_keeps ..) (by decide) ?_
    exact Keeps.refl

theorem refuseIf_ok {b : Bool} {code : Nat} {k : Wrote} {z : State} (e : refuseIf b code k = .ok z) : k = .ok z := by
  unfold refuseIf at e
  split at e
  · cases e
  · exact e

theorem State.moduleWrite_keeps_eq {s : State} {ix : Nat} {sub : Nat} {r : ObjRow} {v : Sys2Proof.Bytes} {zz} (hE
    : State.moduleWrite s ix sub r v = .ok zz) : Keeps (Fld.but [.pending, .up, .att, .pxb, .pwr]) s zz := by
  unfold State.moduleWrite at hE
  try dsimp -iota -proj only at hE
  split at hE
  · obtain rfl := Except.ok.inj hE
    refine Keeps.step (Keeps.set_boot ..) (by decide) ?_
    exact Keeps.refl
  · obtain rfl := Except.ok.inj hE
    refine Keeps.step (Keeps.set_boot ..) (by decide) ?_
    exact Keeps.refl
  · obtain rfl := Except.ok.inj hE
    refine Keeps.ite ?_ ?_
    · refine Keeps.step (Keeps.set_boot ..) (by decide) ?_
      exact Keeps.refl
    · exact Keeps.refl
  · refine Keeps.step (State.firmwareWrite_keeps_eq hE) (by decide) ?_
    exact Keeps.refl
  · replace hE := refuseIf_ok hE
    refine Keeps.step (State.activateWrite_keeps_eq hE) (by decide) ?_
    exact Keeps.refl
  · replace hE := refuseIf_ok hE
    obtain rfl := Except.ok.inj hE
    refine Keeps.step (Keeps.set_boot ..) (by decide) ?_
    exact Keeps.refl
  · obtain rfl := Except.ok.inj hE
    refine Keeps.step (State.endSessions_keeps ..) (by decide) ?_
    refine Keeps.step (State.put_keeps ..) (by decide) ?_
    exact Keeps.refl
  · obtain rfl := Except.ok.inj hE
    refine Keeps.step (State.endSessions_keeps ..) (by decide) ?_
    refine Keeps.step (State.put_keeps ..) (by decide) ?_
    exact Keeps.refl
  · obtain hE | hE := ite_cases hE
    · replace hE := refuseIf_ok hE
      obtain rfl := Except.ok.inj hE
      refine Keeps.step (State.put_keeps ..) (by decide) ?_
      exact Keeps.refl
    · obtain rfl := Except.ok.inj hE
      refine Keeps.step (State.put_keeps ..) (by decide) ?_
      exact Keeps.refl
  · replace hE := refuseIf_ok hE
    obtain rfl := Except.ok.inj hE
    refine Keeps.foldl (fun _ _ _ => ?_) ?_
    · refine Keeps.step (State.upkeep_keeps ..) (by decide) ?_
      assumption
    · refine Keeps.step (State.put_keeps ..) (by decide) ?_
      exact Keeps.refl
  · obtain rfl := Except.ok.inj hE
    refine Keeps.foldl (fun _ _ _ => ?_) ?_
    · refine Keeps.step (State.upkeep_keeps ..) (by decide) ?_
      assumption
    · refine Keeps.step (State.put_keeps ..) (by decide) ?_
      exact Keeps.refl
  · replace hE := refuseIf_ok hE
    obtain rfl := Except.ok.inj hE
    refine Keeps.step (State.put_keeps ..) (by decide) ?_
    exact Keeps.refl
  · replace hE := refuseIf_ok hE
    obtain rfl := Except.ok.inj hE
    refine Keeps.step (Keeps.set_media ..) (by decide) ?_
    exact Keeps.refl
  · replace hE := refuseIf_ok hE
    obtain rfl := Except.ok.inj hE
    refine Keeps.step (Keeps.set_media ..) (by decide) ?_
    exact Keeps.refl
  · replace hE := refuseIf_ok hE
    obtain rfl := Except.ok.inj hE
    refine Keeps.step (State.purge_keeps ..) (by decide) ?_
    exact Keeps.refl
  · refine Keeps.step (State.batchWrite_keeps_eq hE) (by decide) ?_
    exact Keeps.refl
  · replace hE := refuseIf_ok hE
    obtain rfl := Except.ok.inj hE
    refine Keeps.step (State.put_keeps ..) (by decide) ?_
    exact Keeps.refl
  · obtain rfl := Except.ok.inj hE
    refine Keeps.step (State.refSelected_keeps ..) (by decide) ?_
    refine Keeps.step (State.put_keeps ..) (by decide) ?_
    exact Keeps.refl
  · obtain rfl := Except.ok.inj hE
    refine Keeps.step (State.timeSet_keeps ..) (by decide) ?_
    exact Keeps.refl
  · replace hE := refuseIf_ok hE
    replace hE := refuseIf_ok hE
    obtain rfl := Except.ok.inj hE
    refine Keeps.step (State.setsChanged_keeps ..) (by decide) ?_
    refine Keeps.step (State.put_keeps ..) (by decide) ?_
    exact Keeps.refl
  · obtain rfl := Except.ok.inj hE
    refine Keeps.step (State.sendOffers_keeps ..) (by decide) ?_
    refine Keeps.step (State.lendCheck_keeps ..) (by decide) ?_
    refine Keeps.step (State.put_keeps ..) (by decide) ?_
    exact Keeps.refl
  · replace hE := refuseIf_ok hE
    obtain rfl := Except.ok.inj hE
    refine Keeps.step (State.sendOffers_keeps ..) (by decide) ?_
    refine Keeps.step (State.lendCheck_keeps ..) (by decide) ?_
    refine Keeps.step (State.put_keeps ..) (by decide) ?_
    exact Keeps.refl
  · replace hE := refuseIf_ok hE
    obtain rfl := Except.ok.inj hE
    refine Keeps.step (State.borrow_keeps ..) (by decide) ?_
    refine Keeps.step (State.borrowCheck_keeps ..) (by decide) ?_
    refine Keeps.step (State.put_keeps ..) (by decide) ?_
    exact Keeps.refl
  · obtain hE | hE := ite_cases hE
    · replace hE := refuseIf_ok hE
      obtain rfl := Except.ok.inj hE
      refine Keeps.step (State.put_keeps ..) (by decide) ?_
      exact Keeps.refl
    · obtain hE | hE := ite_cases hE
      · refine Keeps.step (State.setupWrite_keeps_eq hE) (by decide) ?_
        exact Keeps.refl
      · obtain hE | hE := ite_cases hE
        · replace hE := refuseIf_ok hE
          obtain rfl := Except.ok.inj hE
          refine Keeps.ite ?_ ?_
          · refine Keeps.step (State.put_keeps ..) (by decide) ?_
            exact Keeps.refl
          · refine Keeps.step (State.dropJobs_keeps ..) (by decide) ?_
            refine Keeps.step (State.freePips_keeps ..) (by decide) ?_
            refine Keeps.step (State.put_keeps ..) (by decide) ?_
            exact Keeps.refl
        · obtain rfl := Except.ok.inj hE
          refine Keeps.step (State.put_keeps ..) (by decide) ?_
          exact Keeps.refl

theorem State.bindWrite_keeps_eq {s : State} {p : Nat} {sl : Nat} {n : Nat} {zz} (hE
    : State.bindWrite s p sl n = .ok zz) : Keeps [.cfg] s zz := by
  unfold State.bindWrite at hE
  try dsimp -iota -proj only at hE
  obtain hE | hE := ite_cases hE
  · cases hE
  · obtain hE | hE := ite_cases hE
    · obtain rfl := Except.ok.inj hE
      exact Keeps.refl
    · obtain hE | hE := ite_cases hE
      · cases hE
      · obtain hE | hE := ite_cases hE
        · obtain rfl := Except.ok.inj hE
          refine Keeps.step (State.setObj_keeps ..) (by decide) ?_
          exact Keeps.refl
        · obtain hE | hE := ite_cases hE
          · cases hE
          · obtain hE | hE := ite_cases hE
            · cases hE
            · obtain rfl := Except.ok.inj hE
              refine Keeps.step (State.setObj_keeps ..) (by decide) ?_
              exact Keeps.refl

theorem State.queueRegsWrite_keeps_eq {s : State} {q : Nat} {b : Sys2Proof.Bytes} {zz} (hE
    : State.queueRegsWrite s q b = .ok zz) : Keeps [.out, .ctr, .media, .q, .ev] s zz := by
  unfold State.queueRegsWrite at hE
  try dsimp -iota -proj only at hE
  obtain hE | hE := ite_cases hE
  · cases hE
  · obtain hE | hE := ite_cases hE
    · cases hE
    · obtain rfl := Except.ok.inj hE
      refine Keeps.ite ?_ ?_
      · refine Keeps.ite ?_ ?_
        · refine Keeps.step (State.flushQueue_keeps ..) (by decide) ?_
          refine Keeps.ite ?_ ?_
          · split
            · refine Keeps.step (execQueueEnable_keeps_eq (by assumption)) (by decide) ?_
              refine Keeps.step (State.regWrite_keeps ..) (by decide) ?_
              refine Keeps.ite ?_ ?_
              · refine Keeps.ite ?_ ?_
                · refine Keeps.ite ?_ ?_
                  · exact Keeps.refl
                  · refine Keeps.step (State.regWrite_keeps ..) (by decide) ?_
                    exact Keeps.refl
                · refine Keeps.step (State.regWrite_keeps ..) (by decide) ?_
                  refine Keeps.ite ?_ ?_
                  · exact Keeps.refl
                  · refine Keeps.step (State.regWrite_keeps ..) (by decide) ?_
                    exact Keeps.refl
              · refine Keeps.step (State.regWrite_keeps ..) (by decide) ?_
                refine Keeps.ite ?_ ?_
                · refine Keeps.ite ?_ ?_
                  · exact Keeps.refl
                  · refine Keeps.step (State.regWrite_keeps ..) (by decide) ?_
                    exact Keeps.refl
                · refine Keeps.step (State.regWrite_keeps ..) (by decide) ?_
                  refine Keeps.ite ?_ ?_
                  · exact Keeps.refl
                  · refine Keeps.step (State.regWrite_keeps ..) (by decide) ?_
                    exact Keeps.refl
            · refine Keeps.step (State.regWrite_keeps ..) (by decide) ?_
              refine Keeps.ite ?_ ?_
              · refine Keeps.ite ?_ ?_
                · refine Keeps.ite ?_ ?_
                  · exact Keeps.refl
                  · refine Keeps.step (State.regWrite_keeps ..) (by decide) ?_
                    exact Keeps.refl
                · refine Keeps.step (State.regWrite_keeps ..) (by decide) ?_
                  refine Keeps.ite ?_ ?_
                  · exact Keeps.refl
                  · refine Keeps.step (State.regWrite_keeps ..) (by decide) ?_
                    exact Keeps.refl
              · refine Keeps.step (State.regWrite_keeps ..) (by decide) ?_
                refine Keeps.ite ?_ ?_
                · refine Keeps.ite ?_ ?_
                  · exact Keeps.refl
                  · refine Keeps.step (State.regWrite_keeps ..) (by decide) ?_
                    exact Keeps.refl
                · refine Keeps.step (State.regWrite_keeps ..) (by decide) ?_
                  refine Keeps.ite ?_ ?_
                  · exact Keeps.refl
                  · refine Keeps.step (State.regWrite_keeps ..) (by decide) ?_
                    exact Keeps.refl
          · refine Keeps.ite ?_ ?_
            · split
              · refine Keeps.step (execQueueDisable_keeps_eq (by assumption)) (by decide) ?_
                refine Keeps.step (State.regWrite_keeps ..) (by decide) ?_
                refine Keeps.ite ?_ ?_
                · refine Keeps.ite ?_ ?_
                  · refine Keeps.ite ?_ ?_
                    · exact Keeps.refl
                    · refine Keeps.step (State.regWrite_keeps ..) (by decide) ?_
                      exact Keeps.refl
                  · refine Keeps.step (State.regWrite_keeps ..) (by decide) ?_
                    refine Keeps.ite ?_ ?_
                    · exact Keeps.refl
                    · refine Keeps.step (State.regWrite_keeps ..) (by decide) ?_
                      exact Keeps.refl
                · refine Keeps.step (State.regWrite_keeps ..) (by decide) ?_
                  refine Keeps.ite ?_ ?_
                  · refine Keeps.ite ?_ ?_
                    · exact Keeps.refl
                    · refine Keeps.step (State.regWrite_keeps ..) (by decide) ?_
                      exact Keeps.refl
                  · refine Keeps.step (State.regWrite_keeps ..) (by decide) ?_
                    refine Keeps.ite ?_ ?_
                    · exact Keeps.refl
                    · refine Keeps.step (State.regWrite_keeps ..) (by decide) ?_
                      exact Keeps.refl
              · refine Keeps.step (State.regWrite_keeps ..) (by decide) ?_
                refine Keeps.ite ?_ ?_
                · refine Keeps.ite ?_ ?_
                  · refine Keeps.ite ?_ ?_
                    · exact Keeps.refl
                    · refine Keeps.step (State.regWrite_keeps ..) (by decide) ?_
                      exact Keeps.refl
                  · refine Keeps.step (State.regWrite_keeps ..) (by decide) ?_
                    refine Keeps.ite ?_ ?_
                    · exact Keeps.refl
                    · refine Keeps.step (State.regWrite_keeps ..) (by decide) ?_
                      exact Keeps.refl
                · refine Keeps.step (State.regWrite_keeps ..) (by decide) ?_
                  refine Keeps.ite ?_ ?_
                  · refine Keeps.ite ?_ ?_
                    · exact Keeps.refl
                    · refine Keeps.step (State.regWrite_keeps ..) (by decide) ?_
                      exact Keeps.refl
                  · refine Keeps.step (State.regWrite_keeps ..) (by decide) ?_
                    refine Keeps.ite ?_ ?_
                    · exact Keeps.refl
                    · refine Keeps.step (State.regWrite_keeps ..) (by decide) ?_
                      exact Keeps.refl
            · refine Keeps.step (State.regWrite_keeps ..) (by decide) ?_
              refine Keeps.ite ?_ ?_
              · refine Keeps.ite ?_ ?_
                · refine Keeps.ite ?_ ?_
                  · exact Keeps.refl
                  · refine Keeps.step (State.regWrite_keeps ..) (by decide) ?_
                    exact Keeps.refl
                · refine Keeps.step (State.regWrite_keeps ..) (by decide) ?_
                  refine Keeps.ite ?_ ?_
                  · exact Keeps.refl
                  · refine Keeps.step (State.regWrite_keeps ..) (by decide) ?_
                    exact Keeps.refl
              · refine Keeps.step (State.regWrite_keeps ..) (by decide) ?_
                refine Keeps.ite ?_ ?_
                · refine Keeps.ite ?_ ?_
                  · exact Keeps.refl
                  · refine Keeps.step (State.regWrite_keeps ..) (by decide) ?_
                    exact Keeps.refl
                · refine Keeps.step (State.regWrite_keeps ..) (by decide) ?_
                  refine Keeps.ite ?_ ?_
                  · exact Keeps.refl
                  · refine Keeps.step (State.regWrite_keeps ..) (by decide) ?_
                    exact Keeps.refl
        · refine Keeps.ite ?_ ?_
          · split
            · refine Keeps.step (execQueueEnable_keeps_eq (by assumption)) (by decide) ?_
              refine Keeps.step (State.regWrite_keeps ..) (by decide) ?_
              refine Keeps.ite ?_ ?_
              · refine Keeps.ite ?_ ?_
                · refine Keeps.ite ?_ ?_
                  · exact Keeps.refl
                  · refine Keeps.step (State.regWrite_keeps ..) (by decide) ?_
                    exact Keeps.refl
                · refine Keeps.step (State.regWrite_keeps ..) (by decide) ?_
                  refine Keeps.ite ?_ ?_
                  · exact Keeps.refl
                  · refine Keeps.step (State.regWrite_keeps ..) (by decide) ?_
                    exact Keeps.refl
              · refine Keeps.step (State.regWrite_keeps ..) (by decide) ?_
                refine Keeps.ite ?_ ?_
                · refine Keeps.ite ?_ ?_
                  · exact Keeps.refl
                  · refine Keeps.step (State.regWrite_keeps ..) (by decide) ?_
                    exact Keeps.refl
                · refine Keeps.step (State.regWrite_keeps ..) (by decide) ?_
                  refine Keeps.ite ?_ ?_
                  · exact Keeps.refl
                  · refine Keeps.step (State.regWrite_keeps ..) (by decide) ?_
                    exact Keeps.refl
            · refine Keeps.step (State.regWrite_keeps ..) (by decide) ?_
              refine Keeps.ite ?_ ?_
              · refine Keeps.ite ?_ ?_
                · refine Keeps.ite ?_ ?_
                  · exact Keeps.refl
                  · refine Keeps.step (State.regWrite_keeps ..) (by decide) ?_
                    exact Keeps.refl
                · refine Keeps.step (State.regWrite_keeps ..) (by decide) ?_
                  refine Keeps.ite ?_ ?_
                  · exact Keeps.refl
                  · refine Keeps.step (State.regWrite_keeps ..) (by decide) ?_
                    exact Keeps.refl
              · refine Keeps.step (State.regWrite_keeps ..) (by decide) ?_
                refine Keeps.ite ?_ ?_
                · refine Keeps.ite ?_ ?_
                  · exact Keeps.refl
                  · refine Keeps.step (State.regWrite_keeps ..) (by decide) ?_
                    exact Keeps.refl
                · refine Keeps.step (State.regWrite_keeps ..) (by decide) ?_
                  refine Keeps.ite ?_ ?_
                  · exact Keeps.refl
                  · refine Keeps.step (State.regWrite_keeps ..) (by decide) ?_
                    exact Keeps.refl
          · refine Keeps.ite ?_ ?_
            · split
              · refine Keeps.step (execQueueDisable_keeps_eq (by assumption)) (by decide) ?_
                refine Keeps.step (State.regWrite_keeps ..) (by decide) ?_
                refine Keeps.ite ?_ ?_
                · refine Keeps.ite ?_ ?_
                  · refine Keeps.ite ?_ ?_
                    · exact Keeps.refl
                    · refine Keeps.step (State.regWrite_keeps ..) (by decide) ?_
                      exact Keeps.refl
                  · refine Keeps.step (State.regWrite_keeps ..) (by decide) ?_
                    refine Keeps.ite ?_ ?_
                    · exact Keeps.refl
                    · refine Keeps.step (State.regWrite_keeps ..) (by decide) ?_
                      exact Keeps.refl
                · refine Keeps.step (State.regWrite_keeps ..) (by decide) ?_
                  refine Keeps.ite ?_ ?_
                  · refine Keeps.ite ?_ ?_
                    · exact Keeps.refl
                    · refine Keeps.step (State.regWrite_keeps ..) (by decide) ?_
                      exact Keeps.refl
                  · refine Keeps.step (State.regWrite_keeps ..) (by decide) ?_
                    refine Keeps.ite ?_ ?_
                    · exact Keeps.refl
                    · refine Keeps.step (State.regWrite_keeps ..) (by decide) ?_
                      exact Keeps.refl
              · refine Keeps.step (State.regWrite_keeps ..) (by decide) ?_
                refine Keeps.ite ?_ ?_
                · refine Keeps.ite ?_ ?_
                  · refine Keeps.ite ?_ ?_
                    · exact Keeps.refl
                    · refine Keeps.step (State.regWrite_keeps ..) (by decide) ?_
                      exact Keeps.refl
                  · refine Keeps.step (State.regWrite_keeps ..) (by decide) ?_
                    refine Keeps.ite ?_ ?_
                    · exact Keeps.refl
                    · refine Keeps.step (State.regWrite_keeps ..) (by decide) ?_
                      exact Keeps.refl
                · refine Keeps.step (State.regWrite_keeps ..) (by decide) ?_
                  refine Keeps.ite ?_ ?_
                  · refine Keeps.ite ?_ ?_
                    · exact Keeps.refl
                    · refine Keeps.step (State.regWrite_keeps ..) (by decide) ?_
                      exact Keeps.refl
                  · refine Keeps.step (State.regWrite_keeps ..) (by decide) ?_
                    refine Keeps.ite ?_ ?_
                    · exact Keeps.refl
                    · refine Keeps.step (State.regWrite_keeps ..) (by decide) ?_
                      exact Keeps.refl
            · refine Keeps.step (State.regWrite_keeps ..) (by decide) ?_
              refine Keeps.ite ?_ ?_
              · refine Keeps.ite ?_ ?_
                · refine Keeps.ite ?_ ?_
                  · exact Keeps.refl
                  · refine Keeps.step (State.regWrite_keeps ..) (by decide) ?_
                    exact Keeps.refl
                · refine Keeps.step (State.regWrite_keeps ..) (by decide) ?_
                  refine Keeps.ite ?_ ?_
                  · exact Keeps.refl
                  · refine Keeps.step (State.regWrite_keeps ..) (by decide) ?_
                    exact Keeps.refl
              · refine Keeps.step (State.regWrite_keeps ..) (by decide) ?_
                refine Keeps.ite ?_ ?_
                · refine Keeps.ite ?_ ?_
                  · exact Keeps.refl
                  · refine Keeps.step (State.regWrite_keeps ..) (by decide) ?_
                    exact Keeps.refl
                · refine Keeps.step (State.regWrite_keeps ..) (by decide) ?_
                  refine Keeps.ite ?_ ?_
                  · exact Keeps.refl
                  · refine Keeps.step (State.regWrite_keeps ..) (by decide) ?_
                    exact Keeps.refl
      · refine Keeps.step (State.regWrite_keeps ..) (by decide) ?_
        refine Keeps.ite ?_ ?_
        · refine Keeps.step (State.flushQueue_keeps ..) (by decide) ?_
          refine Keeps.ite ?_ ?_
          · split
            · refine Keeps.step (execQueueEnable_keeps_eq (by assumption)) (by decide) ?_
              refine Keeps.step (State.regWrite_keeps ..) (by decide) ?_
              refine Keeps.ite ?_ ?_
              · refine Keeps.ite ?_ ?_
                · refine Keeps.ite ?_ ?_
                  · exact Keeps.refl
                  · refine Keeps.step (State.regWrite_keeps ..) (by decide) ?_
                    exact Keeps.refl
                · refine Keeps.step (State.regWrite_keeps ..) (by decide) ?_
                  refine Keeps.ite ?_ ?_
                  · exact Keeps.refl
                  · refine Keeps.step (State.regWrite_keeps ..) (by decide) ?_
                    exact Keeps.refl
              · refine Keeps.step (State.regWrite_keeps ..) (by decide) ?_
                refine Keeps.ite ?_ ?_
                · refine Keeps.ite ?_ ?_
                  · exact Keeps.refl
                  · refine Keeps.step (State.regWrite_keeps ..) (by decide) ?_
                    exact Keeps.refl
                · refine Keeps.step (State.regWrite_keeps ..) (by decide) ?_
                  refine Keeps.ite ?_ ?_
                  · exact Keeps.refl
                  · refine Keeps.step (State.regWrite_keeps ..) (by decide) ?_
                    exact Keeps.refl
            · refine Keeps.step (State.regWrite_keeps ..) (by decide) ?_
              refine Keeps.ite ?_ ?_
              · refine Keeps.ite ?_ ?_
                · refine Keeps.ite ?_ ?_
                  · exact Keeps.refl
                  · refine Keeps.step (State.regWrite_keeps ..) (by decide) ?_
                    exact Keeps.refl
                · refine Keeps.step (State.regWrite_keeps ..) (by decide) ?_
                  refine Keeps.ite ?_ ?_
                  · exact Keeps.refl
                  · refine Keeps.step (State.regWrite_keeps ..) (by decide) ?_
                    exact Keeps.refl
              · refine Keeps.step (State.regWrite_keeps ..) (by decide) ?_
                refine Keeps.ite ?_ ?_
                · refine Keeps.ite ?_ ?_
                  · exact Keeps.refl
                  · refine Keeps.step (State.regWrite_keeps ..) (by decide) ?_
                    exact Keeps.refl
                · refine Keeps.step (State.regWrite_keeps ..) (by decide) ?_
                  refine Keeps.ite ?_ ?_
                  · exact Keeps.refl
                  · refine Keeps.step (State.regWrite_keeps ..) (by decide) ?_
                    exact Keeps.refl
          · refine Keeps.ite ?_ ?_
            · split
              · refine Keeps.step (execQueueDisable_keeps_eq (by assumption)) (by decide) ?_
                refine Keeps.step (State.regWrite_keeps ..) (by decide) ?_
                refine Keeps.ite ?_ ?_
                · refine Keeps.ite ?_ ?_
                  · refine Keeps.ite ?_ ?_
                    · exact Keeps.refl
                    · refine Keeps.step (State.regWrite_keeps ..) (by decide) ?_
                      exact Keeps.refl
                  · refine Keeps.step (State.regWrite_keeps ..) (by decide) ?_
                    refine Keeps.ite ?_ ?_
                    · exact Keeps.refl
                    · refine Keeps.step (State.regWrite_keeps ..) (by decide) ?_
                      exact Keeps.refl
                · refine Keeps.step (State.regWrite_keeps ..) (by decide) ?_
                  refine Keeps.ite ?_ ?_
                  · refine Keeps.ite ?_ ?_
                    · exact Keeps.refl
                    · refine Keeps.step (State.regWrite_keeps ..) (by decide) ?_
                      exact Keeps.refl
                  · refine Keeps.step (State.regWrite_keeps ..) (by decide) ?_
                    refine Keeps.ite ?_ ?_
                    · exact Keeps.refl
                    · refine Keeps.step (State.regWrite_keeps ..) (by decide) ?_
                      exact Keeps.refl
              · refine Keeps.step (State.regWrite_keeps ..) (by decide) ?_
                refine Keeps.ite ?_ ?_
                · refine Keeps.ite ?_ ?_
                  · refine Keeps.ite ?_ ?_
                    · exact Keeps.refl
                    · refine Keeps.step (State.regWrite_keeps ..) (by decide) ?_
                      exact Keeps.refl
                  · refine Keeps.step (State.regWrite_keeps ..) (by decide) ?_
                    refine Keeps.ite ?_ ?_
                    · exact Keeps.refl
                    · refine Keeps.step (State.regWrite_keeps ..) (by decide) ?_
                      exact Keeps.refl
                · refine Keeps.step (State.regWrite_keeps ..) (by decide) ?_
                  refine Keeps.ite ?_ ?_
                  · refine Keeps.ite ?_ ?_
                    · exact Keeps.refl
                    · refine Keeps.step (State.regWrite_keeps ..) (by decide) ?_
                      exact Keeps.refl
                  · refine Keeps.step (State.regWrite_keeps ..) (by decide) ?_
                    refine Keeps.ite ?_ ?_
                    · exact Keeps.refl
                    · refine Keeps.step (State.regWrite_keeps ..) (by decide) ?_
                      exact Keeps.refl
            · refine Keeps.step (State.regWrite_keeps ..) (by decide) ?_
              refine Keeps.ite ?_ ?_
              · refine Keeps.ite ?_ ?_
                · refine Keeps.ite ?_ ?_
                  · exact Keeps.refl
                  · refine Keeps.step (State.regWrite_keeps ..) (by decide) ?_
                    exact Keeps.refl
                · refine Keeps.step (State.regWrite_keeps ..) (by decide) ?_
                  refine Keeps.ite ?_ ?_
                  · exact Keeps.refl
                  · refine Keeps.step (State.regWrite_keeps ..) (by decide) ?_
                    exact Keeps.refl
              · refine Keeps.step (State.regWrite_keeps ..) (by decide) ?_
                refine Keeps.ite ?_ ?_
                · refine Keeps.ite ?_ ?_
                  · exact Keeps.refl
                  · refine Keeps.step (State.regWrite_keeps ..) (by decide) ?_
                    exact Keeps.refl
                · refine Keeps.step (State.regWrite_keeps ..) (by decide) ?_
                  refine Keeps.ite ?_ ?_
                  · exact Keeps.refl
                  · refine Keeps.step (State.regWrite_keeps ..) (by decide) ?_
                    exact Keeps.refl
        · refine Keeps.ite ?_ ?_
          · split
            · refine Keeps.step (execQueueEnable_keeps_eq (by assumption)) (by decide) ?_
              refine Keeps.step (State.regWrite_keeps ..) (by decide) ?_
              refine Keeps.ite ?_ ?_
              · refine Keeps.ite ?_ ?_
                · refine Keeps.ite ?_ ?_
                  · exact Keeps.refl
                  · refine Keeps.step (State.regWrite_keeps ..) (by decide) ?_
                    exact Keeps.refl
                · refine Keeps.step (State.regWrite_keeps ..) (by decide) ?_
                  refine Keeps.ite ?_ ?_
                  · exact Keeps.refl
                  · refine Keeps.step (State.regWrite_keeps ..) (by decide) ?_
                    exact Keeps.refl
              · refine Keeps.step (State.regWrite_keeps ..) (by decide) ?_
                refine Keeps.ite ?_ ?_
                · refine Keeps.ite ?_ ?_
                  · exact Keeps.refl
                  · refine Keeps.step (State.regWrite_keeps ..) (by decide) ?_
                    exact Keeps.refl
                · refine Keeps.step (State.regWrite_keeps ..) (by decide) ?_
                  refine Keeps.ite ?_ ?_
                  · exact Keeps.refl
                  · refine Keeps.step (State.regWrite_keeps ..) (by decide) ?_
                    exact Keeps.refl
            · refine Keeps.step (State.regWrite_keeps ..) (by decide) ?_
              refine Keeps.ite ?_ ?_
              · refine Keeps.ite ?_ ?_
                · refine Keeps.ite ?_ ?_
                  · exact Keeps.refl
                  · refine Keeps.step (State.regWrite_keeps ..) (by decide) ?_
                    exact Keeps.refl
                · refine Keeps.step (State.regWrite_keeps ..) (by decide) ?_
                  refine Keeps.ite ?_ ?_
                  · exact Keeps.refl
                  · refine Keeps.step (State.regWrite_keeps ..) (by decide) ?_
                    exact Keeps.refl
              · refine Keeps.step (State.regWrite_keeps ..) (by decide) ?_
                refine Keeps.ite ?_ ?_
                · refine Keeps.ite ?_ ?_
                  · exact Keeps.refl
                  · refine Keeps.step (State.regWrite_keeps ..) (by decide) ?_
                    exact Keeps.refl
                · refine Keeps.step (State.regWrite_keeps ..) (by decide) ?_
                  refine Keeps.ite ?_ ?_
                  · exact Keeps.refl
                  · refine Keeps.step (State.regWrite_keeps ..) (by decide) ?_
                    exact Keeps.refl
          · refine Keeps.ite ?_ ?_
            · split
              · refine Keeps.step (execQueueDisable_keeps_eq (by assumption)) (by decide) ?_
                refine Keeps.step (State.regWrite_keeps ..) (by decide) ?_
                refine Keeps.ite ?_ ?_
                · refine Keeps.ite ?_ ?_
                  · refine Keeps.ite ?_ ?_
                    · exact Keeps.refl
                    · refine Keeps.step (State.regWrite_keeps ..) (by decide) ?_
                      exact Keeps.refl
                  · refine Keeps.step (State.regWrite_keeps ..) (by decide) ?_
                    refine Keeps.ite ?_ ?_
                    · exact Keeps.refl
                    · refine Keeps.step (State.regWrite_keeps ..) (by decide) ?_
                      exact Keeps.refl
                · refine Keeps.step (State.regWrite_keeps ..) (by decide) ?_
                  refine Keeps.ite ?_ ?_
                  · refine Keeps.ite ?_ ?_
                    · exact Keeps.refl
                    · refine Keeps.step (State.regWrite_keeps ..) (by decide) ?_
                      exact Keeps.refl
                  · refine Keeps.step (State.regWrite_keeps ..) (by decide) ?_
                    refine Keeps.ite ?_ ?_
                    · exact Keeps.refl
                    · refine Keeps.step (State.regWrite_keeps ..) (by decide) ?_
                      exact Keeps.refl
              · refine Keeps.step (State.regWrite_keeps ..) (by decide) ?_
                refine Keeps.ite ?_ ?_
                · refine Keeps.ite ?_ ?_
                  · refine Keeps.ite ?_ ?_
                    · exact Keeps.refl
                    · refine Keeps.step (State.regWrite_keeps ..) (by decide) ?_
                      exact Keeps.refl
                  · refine Keeps.step (State.regWrite_keeps ..) (by decide) ?_
                    refine Keeps.ite ?_ ?_
                    · exact Keeps.refl
                    · refine Keeps.step (State.regWrite_keeps ..) (by decide) ?_
                      exact Keeps.refl
                · refine Keeps.step (State.regWrite_keeps ..) (by decide) ?_
                  refine Keeps.ite ?_ ?_
                  · refine Keeps.ite ?_ ?_
                    · exact Keeps.refl
                    · refine Keeps.step (State.regWrite_keeps ..) (by decide) ?_
                      exact Keeps.refl
                  · refine Keeps.step (State.regWrite_keeps ..) (by decide) ?_
                    refine Keeps.ite ?_ ?_
                    · exact Keeps.refl
                    · refine Keeps.step (State.regWrite_keeps ..) (by decide) ?_
                      exact Keeps.refl
            · refine Keeps.step (State.regWrite_keeps ..) (by decide) ?_
              refine Keeps.ite ?_ ?_
              · refine Keeps.ite ?_ ?_
                · refine Keeps.ite ?_ ?_
                  · exact Keeps.refl
                  · refine Keeps.step (State.regWrite_keeps ..) (by decide) ?_
                    exact Keeps.refl
                · refine Keeps.step (State.regWrite_keeps ..) (by decide) ?_
                  refine Keeps.ite ?_ ?_
                  · exact Keeps.refl
                  · refine Keeps.step (State.regWrite_keeps ..) (by decide) ?_
                    exact Keeps.refl
              · refine Keeps.step (State.regWrite_keeps ..) (by decide) ?_
                refine Keeps.ite ?_ ?_
                · refine Keeps.ite ?_ ?_
                  · exact Keeps.refl
                  · refine Keeps.step (State.regWrite_keeps ..) (by decide) ?_
                    exact Keeps.refl
                · refine Keeps.step (State.regWrite_keeps ..) (by decide) ?_
                  refine Keeps.ite ?_ ?_
                  · exact Keeps.refl
                  · refine Keeps.step (State.regWrite_keeps ..) (by decide) ?_
                    exact Keeps.refl

theorem State.partWrite_keeps_eq {s : State} {p : Nat} {off : Nat} {sub : Nat} {r : ObjRow} {v : Sys2Proof.Bytes} {zz}
    (hE : State.partWrite s p off sub r v = .ok zz)
        : Keeps [.out, .cfg, .ctr, .blob, .media, .q, .tm, .part, .ev, .dict, .lk] s zz := by
  unfold State.partWrite at hE
  try dsimp -iota -proj only at hE
  split at hE
  · obtain rfl := Except.ok.inj hE
    refine Keeps.ite ?_ ?_
    · refine Keeps.step (State.beginReset_keeps ..) (by decide) ?_
      exact Keeps.refl
    · exact Keeps.refl
  · replace hE := refuseIf_ok hE
    refine Keeps.step (State.setupWrite_keeps_eq hE) (by decide) ?_
    exact Keeps.refl
  · refine Keeps.step (State.setupWrite_keeps_eq hE) (by decide) ?_
    exact Keeps.refl
  · replace hE := refuseIf_ok hE
    obtain rfl := Except.ok.inj hE
    refine Keeps.step (State.put_keeps ..) (by decide) ?_
    exact Keeps.refl
  · obtain hE | hE := ite_cases hE
    · obtain rfl := Except.ok.inj hE
      exact Keeps.refl
    · obtain rfl := Except.ok.inj hE
      refine Keeps.step (State.event_keeps ..) (by decide) ?_
      refine Keeps.foldl (fun _ _ _ => ?_) ?_
      · refine Keeps.ite ?_ ?_
        · refine Keeps.step (State.setQueue_keeps ..) (by decide) ?_
          assumption
        · assumption
      · refine Keeps.step (State.setPart_keeps ..) (by decide) ?_
        exact Keeps.refl
  · refine Keeps.step (State.bindWrite_keeps_eq hE) (by decide) ?_
    exact Keeps.refl
  · replace hE := refuseIf_ok hE
    obtain rfl := Except.ok.inj hE
    refine Keeps.step (State.put_keeps ..) (by decide) ?_
    exact Keeps.refl
  · replace hE := refuseIf_ok hE
    obtain rfl := Except.ok.inj hE
    refine Keeps.step (State.put_keeps ..) (by decide) ?_
    exact Keeps.refl
  · refine Keeps.step (State.queueRegsWrite_keeps_eq hE) (by decide) ?_
    exact Keeps.refl
  · replace hE := refuseIf_ok hE
    replace hE := refuseIf_ok hE
    obtain rfl := Except.ok.inj hE
    refine Keeps.step (State.put_keeps ..) (by decide) ?_
    exact Keeps.refl
  · replace hE := refuseIf_ok hE
    obtain rfl := Except.ok.inj hE
    refine Keeps.step (State.put_keeps ..) (by decide) ?_
    exact Keeps.refl
  · replace hE := refuseIf_ok hE
    obtain rfl := Except.ok.inj hE
    refine Keeps.step (State.put_keeps ..) (by decide) ?_
    exact Keeps.refl
  · obtain hE | hE := ite_cases hE
    · replace hE := refuseIf_ok hE
      replace hE := refuseIf_ok hE
      obtain rfl := Except.ok.inj hE
      refine Keeps.step (State.put_keeps ..) (by decide) ?_
      exact Keeps.refl
    · obtain rfl := Except.ok.inj hE
      refine Keeps.step (State.put_keeps ..) (by decide) ?_
      exact Keeps.refl

theorem State.tmWrite_keeps_eq {s : State} {ix : Nat} {sub : Nat} {r : ObjRow} {v : Sys2Proof.Bytes} {zz} (hE
    : State.tmWrite s ix sub r v = .ok zz) : Keeps [.out, .cfg, .ctr, .blob, .media, .q, .tm, .ev] s zz := by
  unfold State.tmWrite at hE
  try dsimp -iota -proj only at hE
  obtain hE | hE := ite_cases hE
  · obtain rfl := Except.ok.inj hE
    refine Keeps.ite ?_ ?_
    · refine Keeps.step (State.histReset_keeps ..) (by decide) ?_
      exact Keeps.refl
    · exact Keeps.refl
  · obtain hE | hE := ite_cases hE
    · refine Keeps.step (State.derateSet_keeps_eq hE) (by decide) ?_
      exact Keeps.refl
    · obtain hE | hE := ite_cases hE
      · replace hE := refuseIf_ok hE
        obtain rfl := Except.ok.inj hE
        refine Keeps.step (State.put_keeps ..) (by decide) ?_
        exact Keeps.refl
      · obtain hE | hE := ite_cases hE
        · refine Keeps.step (State.leafWrite_keeps_eq hE) (by decide) ?_
          exact Keeps.refl
        · obtain hE | hE := ite_cases hE
          · refine Keeps.step (State.nodeWrite_keeps_eq hE) (by decide) ?_
            exact Keeps.refl
          · obtain hE | hE := ite_cases hE
            · refine Keeps.step (State.leafWrite_keeps_eq hE) (by decide) ?_
              exact Keeps.refl
            · obtain hE | hE := ite_cases hE
              · refine Keeps.step (State.meterWrite_keeps_eq hE) (by decide) ?_
                exact Keeps.refl
              · obtain rfl := Except.ok.inj hE
                refine Keeps.step (State.put_keeps ..) (by decide) ?_
                exact Keeps.refl

theorem State.tokenWrite_keeps_eq {s : State} {v : Sys2Proof.Bytes} {zz} (hE : State.tokenWrite s v = .ok zz)
    : Keeps [.boot] s zz := by
  unfold State.tokenWrite at hE
  try dsimp -iota -proj only at hE
  obtain hE | hE := ite_cases hE
  · cases hE
  · obtain rfl := Except.ok.inj hE
    refine Keeps.step (Keeps.set_boot ..) (by decide) ?_
    exact Keeps.refl

theorem State.writeObj_keeps_eq {s : State} {ix : Nat} {sub : Nat} {r : ObjRow} {v : Sys2Proof.Bytes} {o
    : Sys2Proof.ReadOutcome} {zz} (hE : State.writeObj s ix sub r v o = .ok zz) : Keeps
        (Fld.but [.pending, .up, .pxb, .pwr]) s zz := by
  unfold State.writeObj at hE
  try dsimp -iota -proj only at hE
  obtain hE | hE := ite_cases hE
  · refine Keeps.step (State.moduleWrite_keeps_eq hE) (by decide) ?_
    exact Keeps.refl
  · obtain hE | hE := ite_cases hE
    · refine Keeps.step (State.partWrite_keeps_eq hE) (by decide) ?_
      exact Keeps.refl
    · obtain hE | hE := ite_cases hE
      · refine Keeps.step (State.tmWrite_keeps_eq hE) (by decide) ?_
        exact Keeps.refl
      · obtain hE | hE := ite_cases hE
        · obtain hE | hE := ite_cases hE
          · obtain rfl := Except.ok.inj hE
            refine Keeps.step (State.linkEnabled_keeps ..) (by decide) ?_
            exact Keeps.refl
          · replace hE := refuseIf_ok hE
            obtain rfl := Except.ok.inj hE
            refine Keeps.step (State.put_keeps ..) (by decide) ?_
            exact Keeps.refl
        · split at hE
          · obtain rfl := Except.ok.inj hE
            refine Keeps.ite ?_ ?_
            · refine Keeps.step (State.snapshot_keeps ..) (by decide) ?_
              exact Keeps.refl
            · exact Keeps.refl
          · refine Keeps.step (State.defectWrite_keeps_eq hE) (by decide) ?_
            exact Keeps.refl
          · replace hE := refuseIf_ok hE
            refine Keeps.step (State.tokenWrite_keeps_eq hE) (by decide) ?_
            exact Keeps.refl
          · refine Keeps.step (State.forensic_keeps_eq hE) (by decide) ?_
            exact Keeps.refl
          · obtain rfl := Except.ok.inj hE
            refine Keeps.step (State.put_keeps ..) (by decide) ?_
            exact Keeps.refl

theorem State.writeValue_keeps_eq {s : State} {ix : Nat} {sub : Nat} {r : ObjRow} {v : Sys2Proof.Bytes} {o
    : Sys2Proof.ReadOutcome} {zz} (hE : State.writeValue s ix sub r v o = .ok zz) : Keeps
        (Fld.but [.pending, .up, .pxb, .pwr]) s zz := by
  unfold State.writeValue at hE
  try dsimp -iota -proj only at hE
  obtain hE | hE := ite_cases hE
  · cases hE
  · obtain hE | hE := ite_cases hE
    · cases hE
    · split at hE
      · cases hE
      · obtain hE | hE := ite_cases hE
        · cases hE
        · split at hE
          · cases hE
          · obtain hE | hE := ite_cases hE
            · obtain hE | hE := ite_cases hE
              · cases hE
              · obtain rfl := Except.ok.inj hE
                refine Keeps.step (State.keepDurable_keeps ..) (by decide) ?_
                refine Keeps.step (State.writeObj_keeps_eq (by assumption)) (by decide) ?_
                exact Keeps.refl
            · obtain hE | hE := ite_cases hE
              · obtain hE | hE := ite_cases hE
                · obtain rfl := Except.ok.inj hE
                  refine Keeps.step (State.writeObj_keeps_eq (by assumption)) (by decide) ?_
                  exact Keeps.refl
                · obtain hE | hE := ite_cases hE
                  · cases hE
                  · obtain rfl := Except.ok.inj hE
                    refine Keeps.foldl (fun _ _ _ => ?_) ?_
                    · split
                      · refine Keeps.step (State.keepDurable_keeps ..) (by decide) ?_
                        assumption
                      · assumption
                    · refine Keeps.step (State.writeObj_keeps_eq (by assumption)) (by decide) ?_
                      exact Keeps.refl
              · obtain rfl := Except.ok.inj hE
                refine Keeps.step (State.writeObj_keeps_eq (by assumption)) (by decide) ?_
                exact Keeps.refl

/-! ### Mount -/

theorem State.restoreObj_keeps (s : State) (k : Nat) (v : Sys2Proof.Bytes) : Keeps [.cfg, .blob, .part] s
    (State.restoreObj s k v) := by
  unfold State.restoreObj
  try dsimp -iota -proj only
  refine Keeps.ite ?_ ?_
  · refine Keeps.step (Keeps.set_part ..) (by decide) ?_
    exact Keeps.refl
  · refine Keeps.ite ?_ ?_
    · exact Keeps.refl
    · split
      · refine Keeps.ite ?_ ?_
        · refine Keeps.step (State.setObj_keeps ..) (by decide) ?_
          exact Keeps.refl
        · refine Keeps.step (State.setBlob_keeps ..) (by decide) ?_
          exact Keeps.refl
      · exact Keeps.refl

theorem State.restoreCfg_keeps (s : State) : Keeps [.cfg, .blob, .part] s (State.restoreCfg s) := by
  unfold State.restoreCfg
  try dsimp -iota -proj only
  refine Keeps.foldl (fun _ _ _ => ?_) ?_
  · split
    · refine Keeps.step (State.restoreObj_keeps ..) (by decide) ?_
      assumption
    · assumption
  · exact Keeps.refl

theorem State.mount_keeps (s : State) : Keeps [.cfg, .blob, .pg, .px, .media, .part, .ev, .ix] s (State.mount s) := by
  unfold State.mount
  try dsimp -iota -proj only
  refine Keeps.step (Keeps.set_pg_px_media_ev_ix ..) (by decide) ?_
  refine Keeps.step (State.restoreCfg_keeps ..) (by decide) ?_
  refine Keeps.step (Keeps.set_media ..) (by decide) ?_
  exact Keeps.refl

theorem State.format_keeps (s : State) : Keeps [.ctr, .media, .boot] s (State.format s) := by
  unfold State.format
  try dsimp -iota -proj only
  refine Keeps.step (Keeps.set_media_boot ..) (by decide) ?_
  refine Keeps.foldl (fun _ _ _ => ?_) ?_
  · refine Keeps.step (State.bump_keeps ..) (by decide) ?_
    refine Keeps.step (State.bump_keeps ..) (by decide) ?_
    assumption
  · exact Keeps.refl

theorem State.mountTouch_keeps (old : State) (s : State) : Keeps [.media] s (State.mountTouch old s) := by
  unfold State.mountTouch
  try dsimp -iota -proj only
  refine Keeps.foldl (fun _ _ _ => ?_) ?_
  · refine Keeps.step (State.touch_keeps ..) (by decide) ?_
    assumption
  · exact Keeps.refl

theorem State.mediaMount_keeps (s : State) : Keeps [.cfg, .ctr, .blob, .pg, .px, .media, .part, .ev, .boot, .ix] s
    (State.mediaMount s) := by
  unfold State.mediaMount
  try dsimp -iota -proj only
  refine Keeps.ite ?_ ?_
  · refine Keeps.step (State.format_keeps ..) (by decide) ?_
    exact Keeps.refl
  · refine Keeps.step (State.mountTouch_keeps ..) (by decide) ?_
    refine Keeps.step (State.mount_keeps ..) (by decide) ?_
    exact Keeps.refl

/-! ### Start -/

theorem State.applyStart_keeps (s : State) : Keeps [.px, .part, .boot, .clk] s (State.applyStart s) := by
  unfold State.applyStart
  try dsimp -iota -proj only
  refine Keeps.step (Keeps.set_px_part_boot_clk ..) (by decide) ?_
  exact Keeps.refl

theorem State.rejectTrial_keeps (s : State) : Keeps [.boot] s (State.rejectTrial s) := by
  unfold State.rejectTrial
  try dsimp -iota -proj only
  refine Keeps.step (Keeps.set_boot ..) (by decide) ?_
  exact Keeps.refl

theorem State.closeAttempt_keeps (s : State) : Keeps [.boot] s (State.closeAttempt s) := by
  unfold State.closeAttempt
  try dsimp -iota -proj only
  split
  · exact Keeps.refl
  · refine Keeps.ite ?_ ?_
    · refine Keeps.ite ?_ ?_
      · refine Keeps.step (State.rejectTrial_keeps ..) (by decide) ?_
        refine Keeps.step (Keeps.set_boot ..) (by decide) ?_
        exact Keeps.refl
      · refine Keeps.step (Keeps.set_boot ..) (by decide) ?_
        exact Keeps.refl
    · refine Keeps.ite ?_ ?_
      · refine Keeps.ite ?_ ?_
        · refine Keeps.step (State.rejectTrial_keeps ..) (by decide) ?_
          exact Keeps.refl
        · refine Keeps.step (Keeps.set_boot ..) (by decide) ?_
          exact Keeps.refl
      · exact Keeps.refl

theorem State.attempt_keeps (s : State) (f : Attempt → Attempt) : Keeps [.boot] s (State.attempt s f) := by
  unfold State.attempt
  try dsimp -iota -proj only
  split
  · exact Keeps.refl
  · refine Keeps.step (Keeps.set_boot ..) (by decide) ?_
    exact Keeps.refl

theorem State.failStart_keeps (s : State) (phase : Nat) (reason : Nat) (detail : Nat) : Keeps [.boot] s
    (State.failStart s phase reason detail) := by
  unfold State.failStart
  try dsimp -iota -proj only
  refine Keeps.ite ?_ ?_
  · refine Keeps.step (State.rejectTrial_keeps ..) (by decide) ?_
    refine Keeps.step (Keeps.set_boot ..) (by decide) ?_
    refine Keeps.step (State.attempt_keeps ..) (by decide) ?_
    exact Keeps.refl
  · refine Keeps.step (Keeps.set_boot ..) (by decide) ?_
    refine Keeps.step (State.attempt_keeps ..) (by decide) ?_
    exact Keeps.refl

theorem State.spoilSlots_keeps (s : State) (ks : List Nat) : Keeps [.boot] s (State.spoilSlots s ks) := by
  unfold State.spoilSlots
  try dsimp -iota -proj only
  refine Keeps.foldl (fun _ _ _ => ?_) ?_
  · refine Keeps.ite ?_ ?_
    · assumption
    · refine Keeps.step (Keeps.set_boot ..) (by decide) ?_
      assumption
  · exact Keeps.refl

theorem State.selectImage_keeps (s : State) : Keeps [.boot] s (State.selectImage s).2 := by
  unfold State.selectImage
  try dsimp -iota -proj only
  split
  · refine Keeps.mk2 ?_
    refine Keeps.step (State.spoilSlots_keeps ..) (by decide) ?_
    exact Keeps.refl
  · exact Keeps.refl
theorem State.selectImage_keeps_eq {s : State} {x0 zz} (hE : State.selectImage s = (x0, zz)) : Keeps [.boot] s zz := by
  have h := State.selectImage_keeps s
  rw [hE] at h
  exact h

theorem State.beginStart_keeps (s : State) (nor : Nat) (ctl : Nat)
    : Keeps [.out, .ctr, .px, .media, .q, .part, .ev, .boot, .clk] s (State.beginStart s nor ctl) := by
  unfold State.beginStart
  try dsimp -iota -proj only
  refine Keeps.ite ?_ ?_
  · refine Keeps.step (Keeps.set_boot ..) (by decide) ?_
    refine Keeps.step (Keeps.set_boot ..) (by decide) ?_
    exact Keeps.refl
  · split
    · refine Keeps.ite ?_ ?_
      · refine Keeps.step (State.failStart_keeps ..) (by decide) ?_
        refine Keeps.ite ?_ ?_
        · refine Keeps.step (Keeps.set_ev ..) (by decide) ?_
          refine Keeps.step (State.applyStart_keeps ..) (by decide) ?_
          refine Keeps.ite ?_ ?_
          · refine Keeps.step (State.bump_keeps ..) (by decide) ?_
            refine Keeps.step (Keeps.set_boot ..) (by decide) ?_
            refine Keeps.step (State.selectImage_keeps_eq (by assumption)) (by decide) ?_
            refine Keeps.step (State.closeAttempt_keeps ..) (by decide) ?_
            refine Keeps.step (Keeps.set_boot ..) (by decide) ?_
            exact Keeps.refl
          · refine Keeps.step (Keeps.set_boot ..) (by decide) ?_
            refine Keeps.step (State.selectImage_keeps_eq (by assumption)) (by decide) ?_
            refine Keeps.step (State.closeAttempt_keeps ..) (by decide) ?_
            refine Keeps.step (Keeps.set_boot ..) (by decide) ?_
            exact Keeps.refl
        · refine Keeps.step (State.event_keeps ..) (by decide) ?_
          refine Keeps.step (Keeps.set_ev ..) (by decide) ?_
          refine Keeps.step (State.applyStart_keeps ..) (by decide) ?_
          refine Keeps.ite ?_ ?_
          · refine Keeps.step (State.bump_keeps ..) (by decide) ?_
            refine Keeps.step (Keeps.set_boot ..) (by decide) ?_
            refine Keeps.step (State.selectImage_keeps_eq (by assumption)) (by decide) ?_
            refine Keeps.step (State.closeAttempt_keeps ..) (by decide) ?_
            refine Keeps.step (Keeps.set_boot ..) (by decide) ?_
            exact Keeps.refl
          · refine Keeps.step (Keeps.set_boot ..) (by decide) ?_
            refine Keeps.step (State.selectImage_keeps_eq (by assumption)) (by decide) ?_
            refine Keeps.step (State.closeAttempt_keeps ..) (by decide) ?_
            refine Keeps.step (Keeps.set_boot ..) (by decide) ?_
            exact Keeps.refl
      · refine Keeps.ite ?_ ?_
        · refine Keeps.step (Keeps.set_ev ..) (by decide) ?_
          refine Keeps.step (State.applyStart_keeps ..) (by decide) ?_
          refine Keeps.ite ?_ ?_
          · refine Keeps.step (State.bump_keeps ..) (by decide) ?_
            refine Keeps.step (Keeps.set_boot ..) (by decide) ?_
            refine Keeps.step (State.selectImage_keeps_eq (by assumption)) (by decide) ?_
            refine Keeps.step (State.closeAttempt_keeps ..) (by decide) ?_
            refine Keeps.step (Keeps.set_boot ..) (by decide) ?_
            exact Keeps.refl
          · refine Keeps.step (Keeps.set_boot ..) (by decide) ?_
            refine Keeps.step (State.selectImage_keeps_eq (by assumption)) (by decide) ?_
            refine Keeps.step (State.closeAttempt_keeps ..) (by decide) ?_
            refine Keeps.step (Keeps.set_boot ..) (by decide) ?_
            exact Keeps.refl
        · refine Keeps.step (State.event_keeps ..) (by decide) ?_
          refine Keeps.step (Keeps.set_ev ..) (by decide) ?_
          refine Keeps.step (State.applyStart_keeps ..) (by decide) ?_
          refine Keeps.ite ?_ ?_
          · refine Keeps.step (State.bump_keeps ..) (by decide) ?_
            refine Keeps.step (Keeps.set_boot ..) (by decide) ?_
            refine Keeps.step (State.selectImage_keeps_eq (by assumption)) (by decide) ?_
            refine Keeps.step (State.closeAttempt_keeps ..) (by decide) ?_
            refine Keeps.step (Keeps.set_boot ..) (by decide) ?_
            exact Keeps.refl
          · refine Keeps.step (Keeps.set_boot ..) (by decide) ?_
            refine Keeps.step (State.selectImage_keeps_eq (by assumption)) (by decide) ?_
            refine Keeps.step (State.closeAttempt_keeps ..) (by decide) ?_
            refine Keeps.step (Keeps.set_boot ..) (by decide) ?_
            exact Keeps.refl

theorem State.wiped_keeps (s : State) : Keeps (Fld.but [.pending, .free, .out, .up, .pxb]) s s.wiped :=
  ⟨fun f hf => by cases f <;> first | rfl | exact (hf (by decide)).elim,
    fun h => ⟨h.1, h.2.1, fun _ he => by cases he⟩, Nat.le_refl _⟩

theorem State.restart_keeps (s : State) : Keeps (Fld.but [.pending, .free, .up, .pxb]) s (State.restart s) := by
  unfold State.restart
  try dsimp -iota -proj only
  refine Keeps.step (State.beginStart_keeps ..) (by decide) ?_
  refine Keeps.step (State.wiped_keeps ..) (by decide) ?_
  exact Keeps.refl

theorem State.enableVfs_keeps (s : State) (k : Nat) : Keeps [.free, .part] s (State.enableVfs s k) := by
  unfold State.enableVfs
  try dsimp -iota -proj only
  split
  · refine Keeps.step (State.setPort_keeps ..) (by decide) ?_
    refine Keeps.step (State.takeFree_keeps_eq (by assumption)) (by decide) ?_
    exact Keeps.refl

theorem State.portsUp_keeps (s : State) : Keeps [.free, .part] s (State.portsUp s) := by
  unfold State.portsUp
  try dsimp -iota -proj only
  refine Keeps.foldl (fun _ _ _ => ?_) ?_
  · refine Keeps.step (State.enableVfs_keeps ..) (by decide) ?_
    assumption
  · exact Keeps.refl

theorem State.calibrateAll_keeps (s : State) : Keeps [.ctr, .ix] s (State.calibrateAll s) := by
  unfold State.calibrateAll
  try dsimp -iota -proj only
  refine Keeps.step (State.bump_keeps ..) (by decide) ?_
  refine Keeps.step (State.bump_keeps ..) (by decide) ?_
  refine Keeps.step (Keeps.set_ix ..) (by decide) ?_
  exact Keeps.refl

theorem State.deriveTm_keeps (s : State) : Keeps [.tm] s (State.deriveTm s) := by
  unfold State.deriveTm
  try dsimp -iota -proj only
  refine Keeps.step (Keeps.set_tm ..) (by decide) ?_
  exact Keeps.refl

theorem State.grantCredits_keeps (s : State) (n : Nat) : Keeps [.out, .lk] s (State.grantCredits s n) := by
  unfold State.grantCredits
  try dsimp -iota -proj only
  refine Keeps.ite ?_ ?_
  · refine Keeps.step (State.sendCredit_keeps ..) (by decide) ?_
    refine Keeps.step (State.setLink_keeps ..) (by decide) ?_
    exact Keeps.refl
  · exact Keeps.refl

theorem State.dictionaryReady_keeps (s : State) : Keeps [.out, .ctr, .px, .tm, .boot, .lk, .ix] s
    (State.dictionaryReady s) := by
  unfold State.dictionaryReady
  try dsimp -iota -proj only
  refine Keeps.step (State.attempt_keeps ..) (by decide) ?_
  refine Keeps.foldl (fun _ _ _ => ?_) ?_
  · refine Keeps.step (State.grantCredits_keeps ..) (by decide) ?_
    assumption
  · refine Keeps.step (State.markRefill_keeps ..) (by decide) ?_
    refine Keeps.step (State.deriveTm_keeps ..) (by decide) ?_
    refine Keeps.step (Keeps.set_boot ..) (by decide) ?_
    refine Keeps.ite ?_ ?_
    · exact Keeps.refl
    · refine Keeps.step (State.calibrateAll_keeps ..) (by decide) ?_
      exact Keeps.refl

theorem State.trainLinks_keeps (s : State) : Keeps [.lk] s (State.trainLinks s) := by
  unfold State.trainLinks
  try dsimp -iota -proj only
  refine Keeps.foldl (fun _ _ _ => ?_) ?_
  · refine Keeps.ite ?_ ?_
    · refine Keeps.ite ?_ ?_
      · refine Keeps.step (State.beginAttempt_keeps ..) (by decide) ?_
        assumption
      · assumption
    · refine Keeps.step (State.setLink_keeps ..) (by decide) ?_
      assumption
  · exact Keeps.refl

theorem State.phaseDone_keeps_eq {s : State} {p : Nat} {zz} (hE : State.phaseDone s p = .ok zz) : Keeps
    (Fld.but [.pending, .up, .tier, .q, .mem, .dict, .clk, .att, .pxb, .pwr]) s zz := by
  unfold State.phaseDone at hE
  try dsimp -iota -proj only at hE
  split at hE
  · obtain rfl := Except.ok.inj hE
    refine Keeps.step (State.portsUp_keeps ..) (by decide) ?_
    refine Keeps.step (Keeps.set_now ..) (by decide) ?_
    exact Keeps.refl
  · obtain hE | hE := ite_cases hE
    · cases hE
    · obtain rfl := Except.ok.inj hE
      exact Keeps.refl
  · obtain hE | hE := ite_cases hE
    · obtain rfl := Except.ok.inj hE
      exact Keeps.refl
    · obtain hE | hE := ite_cases hE
      · cases hE
      · obtain hE | hE := ite_cases hE
        · cases hE
        · obtain rfl := Except.ok.inj hE
          refine Keeps.step (Keeps.set_media ..) (by decide) ?_
          exact Keeps.refl
  · obtain hE | hE := ite_cases hE
    · cases hE
    · obtain rfl := Except.ok.inj hE
      refine Keeps.step (State.trainLinks_keeps ..) (by decide) ?_
      refine Keeps.step (State.mediaMount_keeps ..) (by decide) ?_
      exact Keeps.refl
  · obtain rfl := Except.ok.inj hE
    refine Keeps.step (State.dictionaryReady_keeps ..) (by decide) ?_
    exact Keeps.refl
  · obtain rfl := Except.ok.inj hE
    exact Keeps.refl

theorem State.commitTrial_keeps (s : State) : Keeps [.boot] s (State.commitTrial s) := by
  unfold State.commitTrial
  try dsimp -iota -proj only
  refine Keeps.ite ?_ ?_
  · exact Keeps.refl
  · refine Keeps.step (Keeps.set_boot ..) (by decide) ?_
    exact Keeps.refl

theorem execStartSettle_keeps_eq {s : State} {zz} (hE : execStartSettle s = .next zz) : Keeps [.up, .now, .boot] s zz := by
  unfold execStartSettle at hE
  try dsimp -iota -proj only at hE
  obtain rfl := Host.Outcome.next.inj hE
  refine Keeps.ite ?_ ?_
  · refine Keeps.ite ?_ ?_
    · refine Keeps.step (State.commitTrial_keeps ..) (by decide) ?_
      refine Keeps.step (Keeps.set_boot ..) (by decide) ?_
      refine Keeps.step (State.attempt_keeps ..) (by decide) ?_
      refine Keeps.step (State.timeTo_keeps ..) (by decide) ?_
      exact Keeps.refl
    · refine Keeps.step (Keeps.set_boot ..) (by decide) ?_
      refine Keeps.step (State.attempt_keeps ..) (by decide) ?_
      refine Keeps.step (State.timeTo_keeps ..) (by decide) ?_
      exact Keeps.refl
  · exact Keeps.refl

theorem execStartFailRestart_keeps_eq {s : State} {zz} (hE : execStartFailRestart s = .next zz) : Keeps
    (Fld.but [.pending, .free, .pxb]) s zz := by
  unfold execStartFailRestart at hE
  try dsimp -iota -proj only at hE
  obtain rfl := Host.Outcome.next.inj hE
  refine Keeps.ite ?_ ?_
  · refine Keeps.step (State.restart_keeps ..) (by decide) ?_
    refine Keeps.step (State.timeTo_keeps ..) (by decide) ?_
    exact Keeps.refl
  · exact Keeps.refl

theorem State.distrust_keeps (s : State) (kind : Nat) (unit : Nat) : Keeps [.media] s (State.distrust s kind unit) := by
  unfold State.distrust
  try dsimp -iota -proj only
  refine Keeps.step (Keeps.set_media ..) (by decide) ?_
  exact Keeps.refl

theorem State.fenceFound_keeps (s : State) (f : Sys2Proof.Found) : Keeps
    (Fld.but [.pending, .up, .now, .cfg, .blob, .clk, .pxb, .pwr]) s (State.fenceFound s f) := by
  unfold State.fenceFound
  try dsimp -iota -proj only
  refine Keeps.ite ?_ ?_
  · refine Keeps.ite ?_ ?_
    · refine Keeps.step (State.distrust_keeps ..) (by decide) ?_
      exact Keeps.refl
    · exact Keeps.refl
  · refine Keeps.ite ?_ ?_
    · exact Keeps.refl
    · refine Keeps.step (State.bump_keeps ..) (by decide) ?_
      refine Keeps.step (State.fence_keeps ..) (by decide) ?_
      exact Keeps.refl

theorem execNorRetry_keeps_eq {nor : Nat} {ctl : Nat} {s : State} {zz} (hE : execNorRetry nor ctl s = .next zz)
    : Keeps [.out, .up, .now, .ctr, .px, .media, .q, .part, .ev, .boot, .clk] s zz := by
  unfold execNorRetry at hE
  try dsimp -iota -proj only at hE
  obtain rfl := Host.Outcome.next.inj hE
  refine Keeps.ite ?_ ?_
  · refine Keeps.step (State.beginStart_keeps ..) (by decide) ?_
    refine Keeps.step (Keeps.set_boot ..) (by decide) ?_
    refine Keeps.step (State.timeTo_keeps ..) (by decide) ?_
    exact Keeps.refl
  · exact Keeps.refl

theorem execPowerOnReset_keeps_eq {straps : Nat} {nor : Nat} {ctl : Nat} {s : State} {zz} (hE
    : execPowerOnReset straps nor ctl s = .next zz) : Keeps (Fld.but [.pending, .free, .up, .pxb]) s zz := by
  unfold execPowerOnReset at hE
  try dsimp -iota -proj only at hE
  obtain rfl := Host.Outcome.next.inj hE
  refine Keeps.ite ?_ ?_
  · refine Keeps.step (State.event_keeps ..) (by decide) ?_
    refine Keeps.step (State.beginStart_keeps ..) (by decide) ?_
    refine Keeps.step (Keeps.set_boot_pwr ..) (by decide) ?_
    refine Keeps.step (State.wiped_keeps ..) (by decide) ?_
    exact Keeps.refl
  · refine Keeps.step (State.beginStart_keeps ..) (by decide) ?_
    refine Keeps.step (Keeps.set_boot_pwr ..) (by decide) ?_
    refine Keeps.step (State.wiped_keeps ..) (by decide) ?_
    exact Keeps.refl

theorem execStartPhaseBudgetExpiry_keeps_eq {s : State} {zz} (hE : execStartPhaseBudgetExpiry s = .next zz)
    : Keeps [.up, .now, .boot] s zz := by
  unfold execStartPhaseBudgetExpiry at hE
  try dsimp -iota -proj only at hE
  obtain rfl := Host.Outcome.next.inj hE
  refine Keeps.ite ?_ ?_
  · exact Keeps.refl
  · refine Keeps.step (State.failStart_keeps ..) (by decide) ?_
    refine Keeps.step (State.timeTo_keeps ..) (by decide) ?_
    exact Keeps.refl

theorem State.advance_keeps (s : State) : Keeps [.boot] s (State.advance s) := by
  unfold State.advance
  try dsimp -iota -proj only
  refine Keeps.step (State.attempt_keeps ..) (by decide) ?_
  refine Keeps.step (Keeps.set_boot ..) (by decide) ?_
  exact Keeps.refl

theorem execStartPhaseComplete_keeps_eq {found : List Sys2Proof.Found} {reason : Nat} {detail : Nat} {s : State} {zz}
    (hE : execStartPhaseComplete found reason detail s = .next zz) : Keeps
        (Fld.but [.pending, .up, .clk, .pxb, .pwr]) s zz := by
  unfold execStartPhaseComplete at hE
  try dsimp -iota -proj only at hE
  obtain rfl := Host.Outcome.next.inj hE
  refine Keeps.ite ?_ ?_
  · exact Keeps.refl
  · refine Keeps.ite ?_ ?_
    · refine Keeps.step (State.failStart_keeps ..) (by decide) ?_
      refine Keeps.foldl (fun _ _ _ => ?_) ?_
      · refine Keeps.step (State.fenceFound_keeps ..) (by decide) ?_
        assumption
      · exact Keeps.refl
    · refine Keeps.ite ?_ ?_
      · refine Keeps.foldl (fun _ _ _ => ?_) ?_
        · refine Keeps.step (State.fenceFound_keeps ..) (by decide) ?_
          assumption
        · exact Keeps.refl
      · split
        · refine Keeps.step (State.advance_keeps ..) (by decide) ?_
          refine Keeps.step (State.phaseDone_keeps_eq (by assumption)) (by decide) ?_
          refine Keeps.foldl (fun _ _ _ => ?_) ?_
          · refine Keeps.step (State.fenceFound_keeps ..) (by decide) ?_
            assumption
          · exact Keeps.refl
        · refine Keeps.step (State.failStart_keeps ..) (by decide) ?_
          refine Keeps.foldl (fun _ _ _ => ?_) ?_
          · refine Keeps.step (State.fenceFound_keeps ..) (by decide) ?_
            assumption
          · exact Keeps.refl

/-! ### Requests -/

theorem State.notifyNext_keeps (s : State) (k : Nat) : Keeps [.out, .ctr, .q, .dict] s (State.notifyNext s k) := by
  unfold State.notifyNext
  try dsimp -iota -proj only
  split
  · exact Keeps.refl
  · refine Keeps.step (State.setBox_keeps ..) (by decide) ?_
    exact Keeps.refl
  · split
    · refine Keeps.step (State.partVec_keeps ..) (by decide) ?_
      refine Keeps.step (Keeps.set_out ..) (by decide) ?_
      refine Keeps.step (State.setBox_keeps ..) (by decide) ?_
      exact Keeps.refl
    · refine Keeps.step (State.msix_keeps ..) (by decide) ?_
      refine Keeps.step (Keeps.set_out ..) (by decide) ?_
      refine Keeps.step (State.setBox_keeps ..) (by decide) ?_
      exact Keeps.refl
    · refine Keeps.step (Keeps.set_out ..) (by decide) ?_
      refine Keeps.step (State.setBox_keeps ..) (by decide) ?_
      exact Keeps.refl

theorem State.restartIfAsked_keeps (s : State) : Keeps (Fld.but [.pending, .free, .up, .pxb]) s
    (State.restartIfAsked s) := by
  unfold State.restartIfAsked
  try dsimp -iota -proj only
  split
  · exact Keeps.refl
  · refine Keeps.step (State.restart_keeps ..) (by decide) ?_
    exact Keeps.refl
  · refine Keeps.step (State.restart_keeps ..) (by decide) ?_
    refine Keeps.step (Keeps.set_boot ..) (by decide) ?_
    exact Keeps.refl

theorem Ans.send_keeps (a : Ans) (z : Sys2Proof.Zdp) (svc : Nat) (ix : Nat) (sub : Nat) : Keeps
    (Fld.but [.pending, .up, .pxb]) a.st (Ans.send a z svc ix sub) := by
  unfold Ans.send
  try dsimp -iota -proj only
  refine Keeps.ite ?_ ?_
  · refine Keeps.step (State.abort_keeps ..) (by decide) ?_
    exact Keeps.refl
  · refine Keeps.ite ?_ ?_
    · refine Keeps.step (State.restartIfAsked_keeps ..) (by decide) ?_
      refine Keeps.step (State.zdpSend_keeps ..) (by decide) ?_
      refine Keeps.step (State.bump_keeps ..) (by decide) ?_
      exact Keeps.refl
    · refine Keeps.step (State.syncBegin_keeps ..) (by decide) ?_
      exact Keeps.refl

theorem State.gate_keeps {W : List Fld} {s0 s : State} {z : Zdp} {svc ix sub : Nat} {body : Session → State → Ans}
    (hw : within [.dict] W = true) (h : ∀ x t, Keeps W s0 t → Keeps W s0 (body x t).st) (k : Keeps W s0 s) :
    Keeps W s0 (s.gate z svc ix sub body).st := by
  unfold State.gate
  try dsimp -iota -proj only
  split
  · exact k
  · split
    · exact k
    split
    · exact k
    · have k1 : Keeps W s0 (s.modSession z.ep fun x => { x with lastAt := s.up }) := Keeps.step
        (State.modSession_keeps ..) hw k
      split
      · exact k1
      · split
        · exact k1
        · split
          · exact h _ _ k1
          · split
            · exact h _ _ k1
            · split
              · exact h _ _ (Keeps.step (State.modSession_keeps ..) hw k1)
              · exact k1

theorem State.request_keeps {W : List Fld} {s0 s : State} {z : Zdp} {svc ix sub : Nat} {body : Session → State → Ans}
    (hw : within (Fld.but [.pending, .up, .pxb]) W = true) (h : ∀ x t, Keeps W s0 t → Keeps W s0 (body x t).st) (k
        : Keeps W s0 s) :
    Keeps W s0 (s.request z svc ix sub body) :=
  Keeps.step (Ans.send_keeps ..) hw (State.gate_keeps (within_trans rfl hw) h k)

theorem State.trigger_keeps (s : State) (ix : Nat) (sub : Nat) : Keeps [.dict] s (State.trigger s ix sub) := by
  unfold State.trigger
  try dsimp -iota -proj only
  refine Keeps.step (Keeps.set_dict ..) (by decide) ?_
  exact Keeps.refl

theorem refuse_keeps (s : State) (c : Nat) : Keeps [] s (refuse s c).st := by
  unfold refuse
  try dsimp -iota -proj only
  exact Keeps.refl

theorem State.applyWrite_keeps (s : State) (ix : Nat) (sub : Nat) (r : ObjRow) (v : Sys2Proof.Bytes) (o
    : Sys2Proof.ReadOutcome) : Keeps (Fld.but [.pending, .up, .pxb, .pwr]) s (State.applyWrite s ix sub r v o).st := by
  unfold State.applyWrite
  try dsimp -iota -proj only
  split
  · refine Keeps.step (refuse_keeps ..) (by decide) ?_
    exact Keeps.refl
  · refine Keeps.step (State.trigger_keeps ..) (by decide) ?_
    refine Keeps.step (State.writeValue_keeps_eq (by assumption)) (by decide) ?_
    exact Keeps.refl

theorem State.writeReq_keeps (s : State) (ix : Nat) (sub : Nat) (v : Sys2Proof.Bytes) (o : Sys2Proof.ReadOutcome) (x
    : Session) : Keeps (Fld.but [.pending, .up, .pxb, .pwr]) s (State.writeReq s ix sub v o x).st := by
  unfold State.writeReq
  try dsimp -iota -proj only
  split
  · refine Keeps.step (refuse_keeps ..) (by decide) ?_
    exact Keeps.refl
  · refine Keeps.iteBy (fun x : Ans => x.st) ?_ ?_ <;> try dsimp -iota -proj only
    · refine Keeps.step (refuse_keeps ..) (by decide) ?_
      exact Keeps.refl
    · refine Keeps.iteBy (fun x : Ans => x.st) ?_ ?_ <;> try dsimp -iota -proj only
      · refine Keeps.step (refuse_keeps ..) (by decide) ?_
        exact Keeps.refl
      · refine Keeps.step (State.applyWrite_keeps ..) (by decide) ?_
        exact Keeps.refl

theorem State.zWrite_keeps (s : State) (z : Sys2Proof.Zdp) (ix : Nat) (sub : Nat) (v : Sys2Proof.Bytes) (o
    : Sys2Proof.ReadOutcome) : Keeps (Fld.but [.pending, .up, .pxb]) s (State.zWrite s z ix sub v o) := by
  unfold State.zWrite
  try dsimp -iota -proj only
  refine State.request_keeps (by decide) (fun _ _ _ => ?_) ?_
  · refine Keeps.step (State.writeReq_keeps ..) (by decide) ?_
    assumption
  · exact Keeps.refl

theorem State.writeWhole_keeps (s : State) (ix : Nat) (sub : Nat) (v : Sys2Proof.Bytes) (x : Session) : Keeps
    (Fld.but [.pending, .up, .pxb, .pwr]) s (State.writeWhole s ix sub v x).st := by
  unfold State.writeWhole
  try dsimp -iota -proj only
  split
  · refine Keeps.step (refuse_keeps ..) (by decide) ?_
    exact Keeps.refl
  · refine Keeps.iteBy (fun x : Ans => x.st) ?_ ?_ <;> try dsimp -iota -proj only
    · refine Keeps.step (refuse_keeps ..) (by decide) ?_
      exact Keeps.refl
    · refine Keeps.iteBy (fun x : Ans => x.st) ?_ ?_ <;> try dsimp -iota -proj only
      · refine Keeps.step (refuse_keeps ..) (by decide) ?_
        exact Keeps.refl
      · refine Keeps.step (State.applyWrite_keeps ..) (by decide) ?_
        exact Keeps.refl

theorem State.zWhole_keeps (s : State) (z : Sys2Proof.Zdp) (ix : Nat) (sub : Nat) (v : Sys2Proof.Bytes) : Keeps
    (Fld.but [.pending, .up, .pxb]) s (State.zWhole s z ix sub v) := by
  unfold State.zWhole
  try dsimp -iota -proj only
  refine State.request_keeps (by decide) (fun _ _ _ => ?_) ?_
  · refine Keeps.step (State.writeWhole_keeps ..) (by decide) ?_
    assumption
  · exact Keeps.refl

theorem State.describeObj_keeps (s : State) (ix : Nat) (sub : Nat) (x : Session) : Keeps [] s
    (State.describeObj s ix sub x).st := by
  unfold State.describeObj
  try dsimp -iota -proj only
  split
  · refine Keeps.step (refuse_keeps ..) (by decide) ?_
    exact Keeps.refl
  · refine Keeps.iteBy (fun x : Ans => x.st) ?_ ?_ <;> try dsimp -iota -proj only
    · refine Keeps.step (refuse_keeps ..) (by decide) ?_
      exact Keeps.refl
    · exact Keeps.refl

theorem State.readObj_keeps (s : State) (ix : Nat) (sub : Nat) (x : Session) : Keeps [.cfg, .tm] s
    (State.readObj s ix sub x).st := by
  unfold State.readObj
  try dsimp -iota -proj only
  split
  · refine Keeps.step (refuse_keeps ..) (by decide) ?_
    exact Keeps.refl
  · refine Keeps.iteBy (fun x : Ans => x.st) ?_ ?_ <;> try dsimp -iota -proj only
    · refine Keeps.step (refuse_keeps ..) (by decide) ?_
      exact Keeps.refl
    · refine Keeps.step (State.clearRead_keeps ..) (by decide) ?_
      exact Keeps.refl

theorem State.zRead_keeps (s : State) (z : Sys2Proof.Zdp) (ix : Nat) (sub : Nat) : Keeps
    (Fld.but [.pending, .up, .pxb]) s (State.zRead s z ix sub) := by
  unfold State.zRead
  try dsimp -iota -proj only
  refine State.request_keeps (by decide) (fun _ _ _ => ?_) ?_
  · refine Keeps.step (State.readObj_keeps ..) (by decide) ?_
    assumption
  · exact Keeps.refl

theorem State.segAbort_keeps (s : State) (z : Sys2Proof.Zdp) (x : Session) : Keeps [.dict] s (State.segAbort s z x).st := by
  unfold State.segAbort
  try dsimp -iota -proj only
  split
  · exact Keeps.refl
  · refine Keeps.step (State.modSession_keeps ..) (by decide) ?_
    exact Keeps.refl

theorem State.endXfer_keeps (s : State) (e : Sys2Proof.Endpoint) : Keeps [.dict] s (State.endXfer s e) := by
  unfold State.endXfer
  try dsimp -iota -proj only
  refine Keeps.step (State.modSession_keeps ..) (by decide) ?_
  exact Keeps.refl

theorem State.lateSegment_keeps (s : State) (z : Sys2Proof.Zdp) (ix : Nat) (sub : Nat) (x : Session) : Keeps [.dict] s
    (State.lateSegment s z ix sub x).st := by
  unfold State.lateSegment
  try dsimp -iota -proj only
  refine Keeps.iteBy (fun x : Ans => x.st) ?_ ?_ <;> try dsimp -iota -proj only
  · refine Keeps.step (refuse_keeps ..) (by decide) ?_
    refine Keeps.step (State.modSession_keeps ..) (by decide) ?_
    exact Keeps.refl
  · refine Keeps.step (refuse_keeps ..) (by decide) ?_
    exact Keeps.refl

theorem State.segData_keeps (s : State) (z : Sys2Proof.Zdp) (ix : Nat) (sub : Nat) (off : Nat) (data : Sys2Proof.Bytes)
    (x : Session) : Keeps [.dict] s (State.segData s z ix sub off data x).st := by
  unfold State.segData
  try dsimp -iota -proj only
  split
  · refine Keeps.step (State.lateSegment_keeps ..) (by decide) ?_
    exact Keeps.refl
  · split
    · refine Keeps.step (refuse_keeps ..) (by decide) ?_
      exact Keeps.refl
    · refine Keeps.iteBy (fun x : Ans => x.st) ?_ ?_ <;> try dsimp -iota -proj only
      · refine Keeps.iteBy (fun x : Ans => x.st) ?_ ?_ <;> try dsimp -iota -proj only
        · refine Keeps.step (refuse_keeps ..) (by decide) ?_
          refine Keeps.step (State.modSession_keeps ..) (by decide) ?_
          exact Keeps.refl
        · refine Keeps.iteBy (fun x : Ans => x.st) ?_ ?_ <;> try dsimp -iota -proj only
          · refine Keeps.step (State.modSession_keeps ..) (by decide) ?_
            exact Keeps.refl
          · refine Keeps.iteBy (fun x : Ans => x.st) ?_ ?_ <;> try dsimp -iota -proj only
            · refine Keeps.step (refuse_keeps ..) (by decide) ?_
              refine Keeps.step (State.endXfer_keeps ..) (by decide) ?_
              refine Keeps.step (State.modSession_keeps ..) (by decide) ?_
              exact Keeps.refl
            · refine Keeps.step (State.modSession_keeps ..) (by decide) ?_
              refine Keeps.step (State.modSession_keeps ..) (by decide) ?_
              exact Keeps.refl
      · refine Keeps.iteBy (fun x : Ans => x.st) ?_ ?_ <;> try dsimp -iota -proj only
        · refine Keeps.step (refuse_keeps ..) (by decide) ?_
          refine Keeps.step (State.modSession_keeps ..) (by decide) ?_
          exact Keeps.refl
        · refine Keeps.iteBy (fun x : Ans => x.st) ?_ ?_ <;> try dsimp -iota -proj only
          · refine Keeps.step (State.modSession_keeps ..) (by decide) ?_
            refine Keeps.step (State.modSession_keeps ..) (by decide) ?_
            exact Keeps.refl
          · refine Keeps.step (refuse_keeps ..) (by decide) ?_
            refine Keeps.step (State.endXfer_keeps ..) (by decide) ?_
            refine Keeps.step (State.modSession_keeps ..) (by decide) ?_
            exact Keeps.refl

theorem State.segEnd_keeps (s : State) (z : Sys2Proof.Zdp) (ix : Nat) (sub : Nat) (check : Nat) (o
    : Sys2Proof.ReadOutcome) (x : Session) : Keeps (Fld.but [.pending, .up, .pxb, .pwr]) s
        (State.segEnd s z ix sub check o x).st := by
  unfold State.segEnd
  try dsimp -iota -proj only
  split
  · refine Keeps.step (State.lateSegment_keeps ..) (by decide) ?_
    exact Keeps.refl
  · split
    · refine Keeps.step (refuse_keeps ..) (by decide) ?_
      exact Keeps.refl
    · refine Keeps.iteBy (fun x : Ans => x.st) ?_ ?_ <;> try dsimp -iota -proj only
      · refine Keeps.step (refuse_keeps ..) (by decide) ?_
        refine Keeps.step (State.endXfer_keeps ..) (by decide) ?_
        exact Keeps.refl
      · refine Keeps.iteBy (fun x : Ans => x.st) ?_ ?_ <;> try dsimp -iota -proj only
        · refine Keeps.step (refuse_keeps ..) (by decide) ?_
          refine Keeps.step (State.endXfer_keeps ..) (by decide) ?_
          exact Keeps.refl
        · refine Keeps.step (State.applyWrite_keeps ..) (by decide) ?_
          refine Keeps.step (State.endXfer_keeps ..) (by decide) ?_
          exact Keeps.refl

theorem State.takeOutcome_keeps (s : State) : Keeps [.free] s (State.takeOutcome s).2 := by
  unfold State.takeOutcome
  try dsimp -iota -proj only
  split
  · refine Keeps.step (State.takeFree_keeps_eq (by assumption)) (by decide) ?_
    exact Keeps.refl
theorem State.takeOutcome_keeps_eq {s : State} {x0 zz} (hE : State.takeOutcome s = (x0, zz)) : Keeps [.free] s zz := by
  have h := State.takeOutcome_keeps s
  rw [hE] at h
  exact h

theorem State.segReadInit_keeps (s : State) (z : Sys2Proof.Zdp) (ix : Nat) (sub : Nat) (x : Session)
    : Keeps [.cfg, .tm, .dict] s (State.segReadInit s z ix sub x).st := by
  unfold State.segReadInit
  try dsimp -iota -proj only
  split
  · refine Keeps.step (refuse_keeps ..) (by decide) ?_
    exact Keeps.refl
  · refine Keeps.step (State.modSession_keeps ..) (by decide) ?_
    refine Keeps.step (State.clearRead_keeps ..) (by decide) ?_
    exact Keeps.refl

theorem State.segWriteInit_keeps (s : State) (z : Sys2Proof.Zdp) (ix : Nat) (sub : Nat) (total : Nat) (x : Session)
    : Keeps [.dict] s (State.segWriteInit s z ix sub total x).st := by
  unfold State.segWriteInit
  try dsimp -iota -proj only
  split
  · refine Keeps.step (refuse_keeps ..) (by decide) ?_
    exact Keeps.refl
  · refine Keeps.iteBy (fun x : Ans => x.st) ?_ ?_ <;> try dsimp -iota -proj only
    · refine Keeps.step (refuse_keeps ..) (by decide) ?_
      exact Keeps.refl
    · refine Keeps.iteBy (fun x : Ans => x.st) ?_ ?_ <;> try dsimp -iota -proj only
      · refine Keeps.step (refuse_keeps ..) (by decide) ?_
        exact Keeps.refl
      · refine Keeps.step (State.modSession_keeps ..) (by decide) ?_
        exact Keeps.refl

theorem State.unwatchObj_keeps (s : State) (z : Sys2Proof.Zdp) (ix : Nat) (sub : Nat) : Keeps [.dict] s
    (State.unwatchObj s z ix sub).st := by
  unfold State.unwatchObj
  try dsimp -iota -proj only
  split
  · refine Keeps.step (refuse_keeps ..) (by decide) ?_
    exact Keeps.refl
  · refine Keeps.step (State.modSession_keeps ..) (by decide) ?_
    exact Keeps.refl

theorem State.watchObj_keeps (s : State) (z : Sys2Proof.Zdp) (ix : Nat) (sub : Nat) (x : Session) : Keeps [.dict] s
    (State.watchObj s z ix sub x).st := by
  unfold State.watchObj
  try dsimp -iota -proj only
  split
  · refine Keeps.step (refuse_keeps ..) (by decide) ?_
    exact Keeps.refl
  · refine Keeps.iteBy (fun x : Ans => x.st) ?_ ?_ <;> try dsimp -iota -proj only
    · refine Keeps.step (refuse_keeps ..) (by decide) ?_
      exact Keeps.refl
    · refine Keeps.iteBy (fun x : Ans => x.st) ?_ ?_ <;> try dsimp -iota -proj only
      · exact Keeps.refl
      · refine Keeps.iteBy (fun x : Ans => x.st) ?_ ?_ <;> try dsimp -iota -proj only
        · refine Keeps.step (refuse_keeps ..) (by decide) ?_
          exact Keeps.refl
        · refine Keeps.step (State.modSession_keeps ..) (by decide) ?_
          exact Keeps.refl

theorem State.openSession_keeps (s : State) (z : Sys2Proof.Zdp) (role : Nat) (p : Nat) : Keeps [.dict] s
    (State.openSession s z role p).st := by
  unfold State.openSession
  try dsimp -iota -proj only
  refine Keeps.iteBy (fun x : Ans => x.st) ?_ ?_ <;> try dsimp -iota -proj only
  · refine Keeps.step (refuse_keeps ..) (by decide) ?_
    exact Keeps.refl
  · refine Keeps.iteBy (fun x : Ans => x.st) ?_ ?_ <;> try dsimp -iota -proj only
    · refine Keeps.step (refuse_keeps ..) (by decide) ?_
      exact Keeps.refl
    · refine Keeps.iteBy (fun x : Ans => x.st) ?_ ?_ <;> try dsimp -iota -proj only
      · refine Keeps.step (refuse_keeps ..) (by decide) ?_
        exact Keeps.refl
      · refine Keeps.iteBy (fun x : Ans => x.st) ?_ ?_ <;> try dsimp -iota -proj only
        · refine Keeps.step (refuse_keeps ..) (by decide) ?_
          exact Keeps.refl
        · refine Keeps.iteBy (fun x : Ans => x.st) ?_ ?_ <;> try dsimp -iota -proj only
          · refine Keeps.step (refuse_keeps ..) (by decide) ?_
            exact Keeps.refl
          · refine Keeps.iteBy (fun x : Ans => x.st) ?_ ?_ <;> try dsimp -iota -proj only
            · refine Keeps.step (refuse_keeps ..) (by decide) ?_
              exact Keeps.refl
            · refine Keeps.iteBy (fun x : Ans => x.st) ?_ ?_ <;> try dsimp -iota -proj only
              · refine Keeps.step (refuse_keeps ..) (by decide) ?_
                exact Keeps.refl
              · split
                · refine Keeps.step (refuse_keeps ..) (by decide) ?_
                  exact Keeps.refl
                · refine Keeps.step (Keeps.set_dict ..) (by decide) ?_
                  exact Keeps.refl

theorem State.notifySend_keeps (s : State) (e : Sys2Proof.Endpoint) (msg : Sys2Proof.Bytes)
    : Keeps [.out, .ctr, .q, .tm, .dict] s (State.notifySend s e msg) := by
  unfold State.notifySend
  try dsimp -iota -proj only
  split
  · refine Keeps.step (State.zdpSend_keeps ..) (by decide) ?_
    refine Keeps.step (State.bump_keeps ..) (by decide) ?_
    exact Keeps.refl
  · refine Keeps.ite ?_ ?_
    · refine Keeps.step (State.setBox_keeps ..) (by decide) ?_
      refine Keeps.step (State.bump_keeps ..) (by decide) ?_
      exact Keeps.refl
    · split
      · refine Keeps.step (State.partVec_keeps ..) (by decide) ?_
        refine Keeps.step (Keeps.set_out ..) (by decide) ?_
        refine Keeps.step (State.setBox_keeps ..) (by decide) ?_
        refine Keeps.step (State.bump_keeps ..) (by decide) ?_
        exact Keeps.refl
      · refine Keeps.step (State.msix_keeps ..) (by decide) ?_
        refine Keeps.step (Keeps.set_out ..) (by decide) ?_
        refine Keeps.step (State.setBox_keeps ..) (by decide) ?_
        refine Keeps.step (State.bump_keeps ..) (by decide) ?_
        exact Keeps.refl
      · refine Keeps.step (Keeps.set_out ..) (by decide) ?_
        refine Keeps.step (State.setBox_keeps ..) (by decide) ?_
        refine Keeps.step (State.bump_keeps ..) (by decide) ?_
        exact Keeps.refl

theorem State.notifyWatch_keeps (s : State) (e : Sys2Proof.Endpoint) (ix : Nat) (sub : Nat)
    : Keeps [.out, .up, .now, .ctr, .q, .tm, .dict] s (State.notifyWatch s e ix sub) := by
  unfold State.notifyWatch
  try dsimp -iota -proj only
  split
  · exact Keeps.refl
  · split
    · exact Keeps.refl
    · refine Keeps.ite ?_ ?_
      · exact Keeps.refl
      · refine Keeps.step (State.notifySend_keeps ..) (by decide) ?_
        refine Keeps.step (State.modSession_keeps ..) (by decide) ?_
        split
        · refine Keeps.step (State.timeTo_keeps ..) (by decide) ?_
          exact Keeps.refl
        · exact Keeps.refl

theorem State.idleClose_keeps (s : State) (e : Sys2Proof.Endpoint) : Keeps [.out, .up, .now, .ctr, .tm, .dict] s
    (State.idleClose s e) := by
  unfold State.idleClose
  try dsimp -iota -proj only
  split
  · exact Keeps.refl
  · refine Keeps.ite ?_ ?_
    · exact Keeps.refl
    · refine Keeps.step (State.dropSession_keeps ..) (by decide) ?_
      split
      · refine Keeps.ite ?_ ?_
        · refine Keeps.step (State.timeTo_keeps ..) (by decide) ?_
          exact Keeps.refl
        · refine Keeps.step (State.abortSend_keeps ..) (by decide) ?_
          refine Keeps.step (State.timeTo_keeps ..) (by decide) ?_
          exact Keeps.refl
      · refine Keeps.step (State.timeTo_keeps ..) (by decide) ?_
        exact Keeps.refl

theorem State.timeoutXfer_keeps (s : State) (e : Sys2Proof.Endpoint) : Keeps [.out, .up, .now, .ctr, .tm, .dict] s
    (State.timeoutXfer s e) := by
  unfold State.timeoutXfer
  try dsimp -iota -proj only
  split
  · exact Keeps.refl
  · split
    · exact Keeps.refl
    · refine Keeps.ite ?_ ?_
      · refine Keeps.step (State.endXfer_keeps ..) (by decide) ?_
        refine Keeps.step (State.timeTo_keeps ..) (by decide) ?_
        exact Keeps.refl
      · refine Keeps.step (State.abortSend_keeps ..) (by decide) ?_
        refine Keeps.step (State.bump_keeps ..) (by decide) ?_
        refine Keeps.step (State.endXfer_keeps ..) (by decide) ?_
        refine Keeps.step (State.timeTo_keeps ..) (by decide) ?_
        exact Keeps.refl

end Sys2Proof.Machine
end

