-- ==== Sys2Proof/Laws/KeepsZdp.lean ====
section
/-! SUPPORT. Which parts of the state each operation can change: the management requests. -/

namespace Sys2Proof.Machine

/-! ### ZdpCmds -/

theorem askDerateWrite_keeps (z : Sys2Proof.Zdp) (kind : Nat) (v : Sys2Proof.Bytes) (s : State) : Keeps
    (Fld.but [.pending, .up, .pxb]) s (askDerateWrite z kind v s) := by
  unfold askDerateWrite
  try dsimp -iota -proj only
  refine Keeps.step (State.zWrite_keeps ..) (by decide) ?_
  exact Keeps.refl

theorem askBorrowBytes_keeps (z : Sys2Proof.Zdp) (v : Sys2Proof.Bytes) (s : State) : Keeps
    (Fld.but [.pending, .up, .pxb]) s (askBorrowBytes z v s) := by
  unfold askBorrowBytes
  try dsimp -iota -proj only
  refine Keeps.step (State.zWrite_keeps ..) (by decide) ?_
  exact Keeps.refl

theorem askCollSetsWrite_keeps (z : Sys2Proof.Zdp) (v : Sys2Proof.Bytes) (s : State) : Keeps
    (Fld.but [.pending, .up, .pxb]) s (askCollSetsWrite z v s) := by
  unfold askCollSetsWrite
  try dsimp -iota -proj only
  refine Keeps.step (State.zWhole_keeps ..) (by decide) ?_
  exact Keeps.refl

theorem askDefectAdd_keeps (z : Sys2Proof.Zdp) (v : Sys2Proof.Bytes) (s : State) : Keeps
    (Fld.but [.pending, .up, .pxb]) s (askDefectAdd z v s) := by
  unfold askDefectAdd
  try dsimp -iota -proj only
  refine Keeps.step (State.zWrite_keeps ..) (by decide) ?_
  exact Keeps.refl

theorem askDescribe_keeps (z : Sys2Proof.Zdp) (ix : Nat) (sub : Nat) (s : State) : Keeps
    (Fld.but [.pending, .up, .pxb]) s (askDescribe z ix sub s) := by
  unfold askDescribe
  try dsimp -iota -proj only
  refine State.request_keeps (by decide) (fun _ _ _ => ?_) ?_
  · refine Keeps.step (State.describeObj_keeps ..) (by decide) ?_
    assumption
  · exact Keeps.refl

theorem askDomainPurge_keeps (z : Sys2Proof.Zdp) (v : Sys2Proof.Bytes) (s : State) : Keeps
    (Fld.but [.pending, .up, .pxb]) s (askDomainPurge z v s) := by
  unfold askDomainPurge
  try dsimp -iota -proj only
  refine Keeps.step (State.zWrite_keeps ..) (by decide) ?_
  exact Keeps.refl

theorem askFactoryToken_keeps (z : Sys2Proof.Zdp) (v : Sys2Proof.Bytes) (s : State) : Keeps
    (Fld.but [.pending, .up, .pxb]) s (askFactoryToken z v s) := by
  unfold askFactoryToken
  try dsimp -iota -proj only
  refine Keeps.step (State.zWhole_keeps ..) (by decide) ?_
  exact Keeps.refl

theorem askFirmwareActivate_keeps (z : Sys2Proof.Zdp) (v : Sys2Proof.Bytes) (s : State) : Keeps
    (Fld.but [.pending, .up, .pxb]) s (askFirmwareActivate z v s) := by
  unfold askFirmwareActivate
  try dsimp -iota -proj only
  refine Keeps.step (State.zWrite_keeps ..) (by decide) ?_
  exact Keeps.refl

theorem askFirmwareUpdate_keeps (z : Sys2Proof.Zdp) (v : Sys2Proof.Bytes) (s : State) : Keeps
    (Fld.but [.pending, .up, .pxb]) s (askFirmwareUpdate z v s) := by
  unfold askFirmwareUpdate
  try dsimp -iota -proj only
  refine Keeps.step (State.zWhole_keeps ..) (by decide) ?_
  exact Keeps.refl

theorem askForensicRead_keeps (z : Sys2Proof.Zdp) (v : Sys2Proof.Bytes) (o : Sys2Proof.ReadOutcome) (s : State) : Keeps
    (Fld.but [.pending, .up, .pxb]) s (askForensicRead z v o s) := by
  unfold askForensicRead
  try dsimp -iota -proj only
  refine Keeps.step (State.zWrite_keeps ..) (by decide) ?_
  exact Keeps.refl

theorem askFrameQuotaWrite_keeps (z : Sys2Proof.Zdp) (p : Nat) (v : Sys2Proof.Bytes) (s : State) : Keeps
    (Fld.but [.pending, .up, .pxb]) s (askFrameQuotaWrite z p v s) := by
  unfold askFrameQuotaWrite
  try dsimp -iota -proj only
  refine Keeps.step (State.zWrite_keeps ..) (by decide) ?_
  exact Keeps.refl

theorem askHistReset_keeps (z : Sys2Proof.Zdp) (s : State) : Keeps (Fld.but [.pending, .up, .pxb]) s (askHistReset z s) := by
  unfold askHistReset
  try dsimp -iota -proj only
  refine Keeps.step (State.zWrite_keeps ..) (by decide) ?_
  exact Keeps.refl

theorem askIndexGeometryWrite_keeps (z : Sys2Proof.Zdp) (n : Nat) (sub : Nat) (v : Sys2Proof.Bytes) (s : State) : Keeps
    (Fld.but [.pending, .up, .pxb]) s (askIndexGeometryWrite z n sub v s) := by
  unfold askIndexGeometryWrite
  try dsimp -iota -proj only
  refine Keeps.step (State.zWrite_keeps ..) (by decide) ?_
  exact Keeps.refl

theorem askJobResume_keeps (z : Sys2Proof.Zdp) (p : Nat) (v : Sys2Proof.Bytes) (s : State) : Keeps
    (Fld.but [.pending, .up, .pxb]) s (askJobResume z p v s) := by
  unfold askJobResume
  try dsimp -iota -proj only
  refine Keeps.step (State.zWrite_keeps ..) (by decide) ?_
  exact Keeps.refl

theorem askKxlOwnerLinksWrite_keeps (z : Sys2Proof.Zdp) (sub : Nat) (v : Sys2Proof.Bytes) (s : State) : Keeps
    (Fld.but [.pending, .up, .pxb]) s (askKxlOwnerLinksWrite z sub v s) := by
  unfold askKxlOwnerLinksWrite
  try dsimp -iota -proj only
  refine Keeps.step (State.zWrite_keeps ..) (by decide) ?_
  exact Keeps.refl

theorem askLeafCfgWrite_keeps (z : Sys2Proof.Zdp) (p : Nat) (c : Nat) (x : Nat) (v : Sys2Proof.Bytes) (s : State)
    : Keeps (Fld.but [.pending, .up, .pxb]) s (askLeafCfgWrite z p c x v s) := by
  unfold askLeafCfgWrite
  try dsimp -iota -proj only
  refine Keeps.step (State.zWrite_keeps ..) (by decide) ?_
  exact Keeps.refl

theorem askLeafStatsRead_keeps (z : Sys2Proof.Zdp) (p : Nat) (c : Nat) (x : Nat) (s : State) : Keeps
    (Fld.but [.pending, .up, .pxb]) s (askLeafStatsRead z p c x s) := by
  unfold askLeafStatsRead
  try dsimp -iota -proj only
  refine Keeps.step (State.zRead_keeps ..) (by decide) ?_
  exact Keeps.refl

theorem askLendBytes_keeps (z : Sys2Proof.Zdp) (v : Sys2Proof.Bytes) (s : State) : Keeps
    (Fld.but [.pending, .up, .pxb]) s (askLendBytes z v s) := by
  unfold askLendBytes
  try dsimp -iota -proj only
  refine Keeps.step (State.zWrite_keeps ..) (by decide) ?_
  exact Keeps.refl

theorem askLendEnable_keeps (z : Sys2Proof.Zdp) (v : Sys2Proof.Bytes) (s : State) : Keeps
    (Fld.but [.pending, .up, .pxb]) s (askLendEnable z v s) := by
  unfold askLendEnable
  try dsimp -iota -proj only
  refine Keeps.step (State.zWrite_keeps ..) (by decide) ?_
  exact Keeps.refl

theorem askLinkEnable_keeps (z : Sys2Proof.Zdp) (n : Nat) (v : Sys2Proof.Bytes) (s : State) : Keeps
    (Fld.but [.pending, .up, .pxb]) s (askLinkEnable z n v s) := by
  unfold askLinkEnable
  try dsimp -iota -proj only
  refine Keeps.step (State.zWrite_keeps ..) (by decide) ?_
  exact Keeps.refl

theorem askMediaSync_keeps (z : Sys2Proof.Zdp) (s : State) : Keeps (Fld.but [.pending, .up, .pxb]) s (askMediaSync z s) := by
  unfold askMediaSync
  try dsimp -iota -proj only
  refine Keeps.step (State.zWrite_keeps ..) (by decide) ?_
  exact Keeps.refl

theorem askMeterCfgWrite_keeps (z : Sys2Proof.Zdp) (p : Nat) (c : Nat) (v : Sys2Proof.Bytes) (s : State) : Keeps
    (Fld.but [.pending, .up, .pxb]) s (askMeterCfgWrite z p c v s) := by
  unfold askMeterCfgWrite
  try dsimp -iota -proj only
  refine Keeps.step (State.zWrite_keeps ..) (by decide) ?_
  exact Keeps.refl

theorem askNodeCfgWrite_keeps (z : Sys2Proof.Zdp) (c : Nat) (x : Nat) (v : Sys2Proof.Bytes) (s : State) : Keeps
    (Fld.but [.pending, .up, .pxb]) s (askNodeCfgWrite z c x v s) := by
  unfold askNodeCfgWrite
  try dsimp -iota -proj only
  refine Keeps.step (State.zWrite_keeps ..) (by decide) ?_
  exact Keeps.refl

theorem askOttCapWrite_keeps (z : Sys2Proof.Zdp) (p : Nat) (v : Sys2Proof.Bytes) (s : State) : Keeps
    (Fld.but [.pending, .up, .pxb]) s (askOttCapWrite z p v s) := by
  unfold askOttCapWrite
  try dsimp -iota -proj only
  refine Keeps.step (State.zWrite_keeps ..) (by decide) ?_
  exact Keeps.refl

theorem askOttHwmRead_keeps (z : Sys2Proof.Zdp) (p : Nat) (s : State) : Keeps (Fld.but [.pending, .up, .pxb]) s
    (askOttHwmRead z p s) := by
  unfold askOttHwmRead
  try dsimp -iota -proj only
  refine Keeps.step (State.zRead_keeps ..) (by decide) ?_
  exact Keeps.refl

theorem askOttReserveWrite_keeps (z : Sys2Proof.Zdp) (p : Nat) (v : Sys2Proof.Bytes) (s : State) : Keeps
    (Fld.but [.pending, .up, .pxb]) s (askOttReserveWrite z p v s) := by
  unfold askOttReserveWrite
  try dsimp -iota -proj only
  refine Keeps.step (State.zWrite_keeps ..) (by decide) ?_
  exact Keeps.refl

theorem askPartitionDisable_keeps (z : Sys2Proof.Zdp) (p : Nat) (v : Sys2Proof.Bytes) (s : State) : Keeps
    (Fld.but [.pending, .up, .pxb]) s (askPartitionDisable z p v s) := by
  unfold askPartitionDisable
  try dsimp -iota -proj only
  refine Keeps.step (State.zWrite_keeps ..) (by decide) ?_
  exact Keeps.refl

theorem askPartitionReset_keeps (z : Sys2Proof.Zdp) (p : Nat) (v : Sys2Proof.Bytes) (s : State) : Keeps
    (Fld.but [.pending, .up, .pxb]) s (askPartitionReset z p v s) := by
  unfold askPartitionReset
  try dsimp -iota -proj only
  refine Keeps.step (State.zWrite_keeps ..) (by decide) ?_
  exact Keeps.refl

theorem askPlanWrite_keeps (z : Sys2Proof.Zdp) (p : Nat) (n : Nat) (v : Sys2Proof.Bytes) (s : State) : Keeps
    (Fld.but [.pending, .up, .pxb]) s (askPlanWrite z p n v s) := by
  unfold askPlanWrite
  try dsimp -iota -proj only
  refine Keeps.step (State.zWhole_keeps ..) (by decide) ?_
  exact Keeps.refl

theorem askProfileBindingWrite_keeps (z : Sys2Proof.Zdp) (p : Nat) (slot : Nat) (v : Sys2Proof.Bytes) (s : State)
    : Keeps (Fld.but [.pending, .up, .pxb]) s (askProfileBindingWrite z p slot v s) := by
  unfold askProfileBindingWrite
  try dsimp -iota -proj only
  refine Keeps.step (State.zWrite_keeps ..) (by decide) ?_
  exact Keeps.refl

theorem askProjWrite_keeps (z : Sys2Proof.Zdp) (n : Nat) (v : Sys2Proof.Bytes) (s : State) : Keeps
    (Fld.but [.pending, .up, .pxb]) s (askProjWrite z n v s) := by
  unfold askProjWrite
  try dsimp -iota -proj only
  refine Keeps.step (State.zWhole_keeps ..) (by decide) ?_
  exact Keeps.refl

theorem askProtectionBatch_keeps (z : Sys2Proof.Zdp) (v : Sys2Proof.Bytes) (s : State) : Keeps
    (Fld.but [.pending, .up, .pxb]) s (askProtectionBatch z v s) := by
  unfold askProtectionBatch
  try dsimp -iota -proj only
  refine Keeps.step (State.zWhole_keeps ..) (by decide) ?_
  exact Keeps.refl

theorem askProtectionWrite_keeps (z : Sys2Proof.Zdp) (p : Nat) (sub : Nat) (v : Sys2Proof.Bytes) (s : State) : Keeps
    (Fld.but [.pending, .up, .pxb]) s (askProtectionWrite z p sub v s) := by
  unfold askProtectionWrite
  try dsimp -iota -proj only
  refine Keeps.step (State.zWrite_keeps ..) (by decide) ?_
  exact Keeps.refl

theorem askRead_keeps (z : Sys2Proof.Zdp) (ix : Nat) (sub : Nat) (s : State) : Keeps (Fld.but [.pending, .up, .pxb]) s
    (askRead z ix sub s) := by
  unfold askRead
  try dsimp -iota -proj only
  refine Keeps.step (State.zRead_keeps ..) (by decide) ?_
  exact Keeps.refl

theorem askRefSelect_keeps (z : Sys2Proof.Zdp) (v : Sys2Proof.Bytes) (s : State) : Keeps
    (Fld.but [.pending, .up, .pxb]) s (askRefSelect z v s) := by
  unfold askRefSelect
  try dsimp -iota -proj only
  refine Keeps.step (State.zWrite_keeps ..) (by decide) ?_
  exact Keeps.refl

theorem askRestart_keeps (z : Sys2Proof.Zdp) (v : Sys2Proof.Bytes) (s : State) : Keeps (Fld.but [.pending, .up, .pxb]) s
    (askRestart z v s) := by
  unfold askRestart
  try dsimp -iota -proj only
  refine Keeps.step (State.zWrite_keeps ..) (by decide) ?_
  exact Keeps.refl

theorem askSegAbort_keeps (z : Sys2Proof.Zdp) (ix : Nat) (sub : Nat) (s : State) : Keeps
    (Fld.but [.pending, .up, .pxb]) s (askSegAbort z ix sub s) := by
  unfold askSegAbort
  try dsimp -iota -proj only
  refine State.request_keeps (by decide) (fun _ _ _ => ?_) ?_
  · refine Keeps.step (State.segAbort_keeps ..) (by decide) ?_
    assumption
  · exact Keeps.refl

theorem askSegData_keeps (z : Sys2Proof.Zdp) (ix : Nat) (sub : Nat) (offset : Nat) (data : Sys2Proof.Bytes) (s : State)
    : Keeps (Fld.but [.pending, .up, .pxb]) s (askSegData z ix sub offset data s) := by
  unfold askSegData
  try dsimp -iota -proj only
  refine State.request_keeps (by decide) (fun _ _ _ => ?_) ?_
  · refine Keeps.step (State.segData_keeps ..) (by decide) ?_
    assumption
  · exact Keeps.refl

theorem askSegEnd_keeps (z : Sys2Proof.Zdp) (ix : Nat) (sub : Nat) (check : Nat) (s : State) : Keeps
    (Fld.but [.pending, .up, .pxb]) s (askSegEnd z ix sub check s) := by
  unfold askSegEnd
  try dsimp -iota -proj only
  refine Keeps.ite ?_ ?_
  · refine State.request_keeps (by decide) (fun _ _ _ => ?_) ?_
    · refine Keeps.step (State.segEnd_keeps ..) (by decide) ?_
      assumption
    · refine Keeps.step (State.takeOutcome_keeps ..) (by decide) ?_
      exact Keeps.refl
  · refine State.request_keeps (by decide) (fun _ _ _ => ?_) ?_
    · refine Keeps.step (State.segEnd_keeps ..) (by decide) ?_
      assumption
    · exact Keeps.refl

theorem askSegReadInit_keeps (z : Sys2Proof.Zdp) (ix : Nat) (sub : Nat) (s : State) : Keeps
    (Fld.but [.pending, .up, .pxb]) s (askSegReadInit z ix sub s) := by
  unfold askSegReadInit
  try dsimp -iota -proj only
  refine State.request_keeps (by decide) (fun _ _ _ => ?_) ?_
  · refine Keeps.step (State.segReadInit_keeps ..) (by decide) ?_
    assumption
  · exact Keeps.refl

theorem askSegWriteInit_keeps (z : Sys2Proof.Zdp) (ix : Nat) (sub : Nat) (total : Nat) (s : State) : Keeps
    (Fld.but [.pending, .up, .pxb]) s (askSegWriteInit z ix sub total s) := by
  unfold askSegWriteInit
  try dsimp -iota -proj only
  refine State.request_keeps (by decide) (fun _ _ _ => ?_) ?_
  · refine Keeps.step (State.segWriteInit_keeps ..) (by decide) ?_
    assumption
  · exact Keeps.refl

theorem askShareDomainWrite_keeps (z : Sys2Proof.Zdp) (d : Nat) (sub : Nat) (v : Sys2Proof.Bytes) (s : State) : Keeps
    (Fld.but [.pending, .up, .pxb]) s (askShareDomainWrite z d sub v s) := by
  unfold askShareDomainWrite
  try dsimp -iota -proj only
  refine Keeps.step (State.zWrite_keeps ..) (by decide) ?_
  exact Keeps.refl

theorem askShutdownPrepare_keeps (z : Sys2Proof.Zdp) (s : State) : Keeps (Fld.but [.pending, .up, .pxb]) s
    (askShutdownPrepare z s) := by
  unfold askShutdownPrepare
  try dsimp -iota -proj only
  refine Keeps.step (State.zWrite_keeps ..) (by decide) ?_
  exact Keeps.refl

theorem askSnapshotRequest_keeps (z : Sys2Proof.Zdp) (v : Sys2Proof.Bytes) (s : State) : Keeps
    (Fld.but [.pending, .up, .pxb]) s (askSnapshotRequest z v s) := by
  unfold askSnapshotRequest
  try dsimp -iota -proj only
  refine Keeps.step (State.zWrite_keeps ..) (by decide) ?_
  exact Keeps.refl

theorem askStartFailClear_keeps (z : Sys2Proof.Zdp) (v : Sys2Proof.Bytes) (s : State) : Keeps
    (Fld.but [.pending, .up, .pxb]) s (askStartFailClear z v s) := by
  unfold askStartFailClear
  try dsimp -iota -proj only
  refine Keeps.step (State.zWrite_keeps ..) (by decide) ?_
  exact Keeps.refl

theorem askTimeSet_keeps (z : Sys2Proof.Zdp) (v : Sys2Proof.Bytes) (s : State) : Keeps (Fld.but [.pending, .up, .pxb]) s
    (askTimeSet z v s) := by
  unfold askTimeSet
  try dsimp -iota -proj only
  refine Keeps.step (State.zWrite_keeps ..) (by decide) ?_
  exact Keeps.refl

theorem askUnwatch_keeps (z : Sys2Proof.Zdp) (ix : Nat) (sub : Nat) (s : State) : Keeps
    (Fld.but [.pending, .up, .pxb]) s (askUnwatch z ix sub s) := by
  unfold askUnwatch
  try dsimp -iota -proj only
  refine State.request_keeps (by decide) (fun _ _ _ => ?_) ?_
  · refine Keeps.step (State.unwatchObj_keeps ..) (by decide) ?_
    assumption
  · exact Keeps.refl

theorem askUpprojWrite_keeps (z : Sys2Proof.Zdp) (n : Nat) (v : Sys2Proof.Bytes) (s : State) : Keeps
    (Fld.but [.pending, .up, .pxb]) s (askUpprojWrite z n v s) := by
  unfold askUpprojWrite
  try dsimp -iota -proj only
  refine Keeps.step (State.zWhole_keeps ..) (by decide) ?_
  exact Keeps.refl

theorem askWatch_keeps (z : Sys2Proof.Zdp) (ix : Nat) (sub : Nat) (s : State) : Keeps (Fld.but [.pending, .up, .pxb]) s
    (askWatch z ix sub s) := by
  unfold askWatch
  try dsimp -iota -proj only
  refine State.request_keeps (by decide) (fun _ _ _ => ?_) ?_
  · refine Keeps.step (State.watchObj_keeps ..) (by decide) ?_
    assumption
  · exact Keeps.refl

theorem askWrite_keeps (z : Sys2Proof.Zdp) (ix : Nat) (sub : Nat) (v : Sys2Proof.Bytes) (s : State) : Keeps
    (Fld.but [.pending, .up, .pxb]) s (askWrite z ix sub v s) := by
  unfold askWrite
  try dsimp -iota -proj only
  refine Keeps.ite ?_ ?_
  · refine Keeps.step (State.zWrite_keeps ..) (by decide) ?_
    refine Keeps.step (State.takeOutcome_keeps ..) (by decide) ?_
    exact Keeps.refl
  · refine Keeps.step (State.zWrite_keeps ..) (by decide) ?_
    exact Keeps.refl

theorem askZdpClose_keeps (z : Sys2Proof.Zdp) (s : State) : Keeps (Fld.but [.pending, .up, .pxb]) s (askZdpClose z s) := by
  unfold askZdpClose
  try dsimp -iota -proj only
  refine State.request_keeps (by decide) (fun _ _ _ => ?_) ?_
  · refine Keeps.step (State.dropSession_keeps ..) (by decide) ?_
    assumption
  · exact Keeps.refl

theorem askZdpOpen_keeps (z : Sys2Proof.Zdp) (role : Nat) (part : Nat) (s : State) : Keeps
    (Fld.but [.pending, .up, .pxb]) s (askZdpOpen z role part s) := by
  unfold askZdpOpen
  try dsimp -iota -proj only
  refine Keeps.step (Ans.send_keeps ..) (by decide) ?_
  refine Keeps.step (State.openSession_keeps ..) (by decide) ?_
  exact Keeps.refl

theorem zdpApply_keeps (i : Sys2Proof.Instr) (s : State) : Keeps (Fld.but [.pending, .up, .pxb]) s (zdpApply i s) := by
  unfold zdpApply
  try dsimp -iota -proj only
  split
  · refine Keeps.step (askOttHwmRead_keeps ..) (by decide) ?_
    exact Keeps.refl
  · refine Keeps.step (askOttReserveWrite_keeps ..) (by decide) ?_
    exact Keeps.refl
  · refine Keeps.step (askOttCapWrite_keeps ..) (by decide) ?_
    exact Keeps.refl
  · refine Keeps.step (askMediaSync_keeps ..) (by decide) ?_
    exact Keeps.refl
  · refine Keeps.step (askShutdownPrepare_keeps ..) (by decide) ?_
    exact Keeps.refl
  · refine Keeps.step (askDomainPurge_keeps ..) (by decide) ?_
    exact Keeps.refl
  · refine Keeps.step (askShareDomainWrite_keeps ..) (by decide) ?_
    exact Keeps.refl
  · refine Keeps.step (askProfileBindingWrite_keeps ..) (by decide) ?_
    exact Keeps.refl
  · refine Keeps.step (askUpprojWrite_keeps ..) (by decide) ?_
    exact Keeps.refl
  · refine Keeps.step (askProjWrite_keeps ..) (by decide) ?_
    exact Keeps.refl
  · refine Keeps.step (askIndexGeometryWrite_keeps ..) (by decide) ?_
    exact Keeps.refl
  · refine Keeps.step (askPlanWrite_keeps ..) (by decide) ?_
    exact Keeps.refl
  · refine Keeps.step (askLeafStatsRead_keeps ..) (by decide) ?_
    exact Keeps.refl
  · refine Keeps.step (askLeafCfgWrite_keeps ..) (by decide) ?_
    exact Keeps.refl
  · refine Keeps.step (askNodeCfgWrite_keeps ..) (by decide) ?_
    exact Keeps.refl
  · refine Keeps.step (askMeterCfgWrite_keeps ..) (by decide) ?_
    exact Keeps.refl
  · refine Keeps.step (askDerateWrite_keeps ..) (by decide) ?_
    exact Keeps.refl
  · refine Keeps.step (askHistReset_keeps ..) (by decide) ?_
    exact Keeps.refl
  · refine Keeps.step (askSnapshotRequest_keeps ..) (by decide) ?_
    exact Keeps.refl
  · refine Keeps.step (askJobResume_keeps ..) (by decide) ?_
    exact Keeps.refl
  · refine Keeps.step (askPartitionReset_keeps ..) (by decide) ?_
    exact Keeps.refl
  · refine Keeps.step (askPartitionDisable_keeps ..) (by decide) ?_
    exact Keeps.refl
  · refine Keeps.step (askProtectionWrite_keeps ..) (by decide) ?_
    exact Keeps.refl
  · refine Keeps.step (askProtectionBatch_keeps ..) (by decide) ?_
    exact Keeps.refl
  · refine Keeps.step (askFrameQuotaWrite_keeps ..) (by decide) ?_
    exact Keeps.refl
  · refine Keeps.step (askZdpOpen_keeps ..) (by decide) ?_
    exact Keeps.refl
  · refine Keeps.step (askZdpClose_keeps ..) (by decide) ?_
    exact Keeps.refl
  · refine Keeps.step (askDescribe_keeps ..) (by decide) ?_
    exact Keeps.refl
  · refine Keeps.step (askRead_keeps ..) (by decide) ?_
    exact Keeps.refl
  · refine Keeps.step (askWrite_keeps ..) (by decide) ?_
    exact Keeps.refl
  · refine Keeps.step (askSegReadInit_keeps ..) (by decide) ?_
    exact Keeps.refl
  · refine Keeps.step (askSegWriteInit_keeps ..) (by decide) ?_
    exact Keeps.refl
  · refine Keeps.step (askSegData_keeps ..) (by decide) ?_
    exact Keeps.refl
  · refine Keeps.step (askSegEnd_keeps ..) (by decide) ?_
    exact Keeps.refl
  · refine Keeps.step (askSegAbort_keeps ..) (by decide) ?_
    exact Keeps.refl
  · refine Keeps.step (askWatch_keeps ..) (by decide) ?_
    exact Keeps.refl
  · refine Keeps.step (askUnwatch_keeps ..) (by decide) ?_
    exact Keeps.refl
  · refine Keeps.step (askKxlOwnerLinksWrite_keeps ..) (by decide) ?_
    exact Keeps.refl
  · refine Keeps.step (askRestart_keeps ..) (by decide) ?_
    exact Keeps.refl
  · refine Keeps.step (askStartFailClear_keeps ..) (by decide) ?_
    exact Keeps.refl
  · refine Keeps.step (askFirmwareUpdate_keeps ..) (by decide) ?_
    exact Keeps.refl
  · refine Keeps.step (askFirmwareActivate_keeps ..) (by decide) ?_
    exact Keeps.refl
  · refine Keeps.step (askDefectAdd_keeps ..) (by decide) ?_
    exact Keeps.refl
  · refine Keeps.step (askFactoryToken_keeps ..) (by decide) ?_
    exact Keeps.refl
  · refine Keeps.step (askForensicRead_keeps ..) (by decide) ?_
    exact Keeps.refl
  · refine Keeps.step (askRefSelect_keeps ..) (by decide) ?_
    exact Keeps.refl
  · refine Keeps.step (askTimeSet_keeps ..) (by decide) ?_
    exact Keeps.refl
  · refine Keeps.step (askCollSetsWrite_keeps ..) (by decide) ?_
    exact Keeps.refl
  · refine Keeps.step (askLendEnable_keeps ..) (by decide) ?_
    exact Keeps.refl
  · refine Keeps.step (askLendBytes_keeps ..) (by decide) ?_
    exact Keeps.refl
  · refine Keeps.step (askBorrowBytes_keeps ..) (by decide) ?_
    exact Keeps.refl
  · refine Keeps.step (askLinkEnable_keeps ..) (by decide) ?_
    exact Keeps.refl
  · exact Keeps.refl

theorem State.zdpIn_keeps {W : List Fld} {s0 s : State} {z : Zdp} {i : Instr} {ask : State → State}
    (hw : within (Fld.but [.pending, .up, .now, .cfg, .blob, .px, .boot, .clk, .ix, .pxb, .pwr]) W = true) (h
        : ∀ t, Keeps W s0 t → Keeps W s0 (ask t)) (k : Keeps W s0 s) : Keeps W s0 (s.zdpIn z i ask) := by
  unfold State.zdpIn
  split
  · exact k
  · split
    · exact State.receive_keeps hw h k
    · exact h _ k

theorem execDescribe_keeps_eq {z : Sys2Proof.Zdp} {ix : Nat} {sub : Nat} {s : State} {zz} (hE
    : execDescribe z ix sub s = .next zz) : Keeps (Fld.but [.pending, .up, .pxb]) s zz := by
  unfold execDescribe at hE
  try dsimp -iota -proj only at hE
  obtain rfl := Host.Outcome.next.inj hE
  refine State.zdpIn_keeps (by decide) (fun _ _ => ?_) ?_
  · refine Keeps.step (askDescribe_keeps ..) (by decide) ?_
    assumption
  · exact Keeps.refl

theorem execProtectionWrite_keeps_eq {z : Sys2Proof.Zdp} {p : Nat} {sub : Nat} {v : Sys2Proof.Bytes} {s : State} {zz}
    (hE : execProtectionWrite z p sub v s = .next zz) : Keeps (Fld.but [.pending, .up, .pxb]) s zz := by
  unfold execProtectionWrite at hE
  try dsimp -iota -proj only at hE
  obtain rfl := Host.Outcome.next.inj hE
  refine State.zdpIn_keeps (by decide) (fun _ _ => ?_) ?_
  · refine Keeps.step (askProtectionWrite_keeps ..) (by decide) ?_
    assumption
  · exact Keeps.refl

theorem execLeafStatsRead_keeps_eq {z : Sys2Proof.Zdp} {p : Nat} {c : Nat} {x : Nat} {s : State} {zz} (hE
    : execLeafStatsRead z p c x s = .next zz) : Keeps (Fld.but [.pending, .up, .pxb]) s zz := by
  unfold execLeafStatsRead at hE
  try dsimp -iota -proj only at hE
  obtain rfl := Host.Outcome.next.inj hE
  refine State.zdpIn_keeps (by decide) (fun _ _ => ?_) ?_
  · refine Keeps.step (askLeafStatsRead_keeps ..) (by decide) ?_
    assumption
  · exact Keeps.refl

theorem execHistReset_keeps_eq {z : Sys2Proof.Zdp} {s : State} {zz} (hE : execHistReset z s = .next zz) : Keeps
    (Fld.but [.pending, .up, .pxb]) s zz := by
  unfold execHistReset at hE
  try dsimp -iota -proj only at hE
  obtain rfl := Host.Outcome.next.inj hE
  refine State.zdpIn_keeps (by decide) (fun _ _ => ?_) ?_
  · refine Keeps.step (askHistReset_keeps ..) (by decide) ?_
    assumption
  · exact Keeps.refl

theorem execCanFrameIgnored_keeps_eq {s : State} {zz} (hE : execCanFrameIgnored s = .next zz) : Keeps [.ctr] s zz := by
  unfold execCanFrameIgnored at hE
  try dsimp -iota -proj only at hE
  obtain rfl := Host.Outcome.next.inj hE
  refine Keeps.step (State.bump_keeps ..) (by decide) ?_
  exact Keeps.refl

theorem execDefectAdd_keeps_eq {z : Sys2Proof.Zdp} {v : Sys2Proof.Bytes} {s : State} {zz} (hE
    : execDefectAdd z v s = .next zz) : Keeps (Fld.but [.pending, .up, .pxb]) s zz := by
  unfold execDefectAdd at hE
  try dsimp -iota -proj only at hE
  obtain rfl := Host.Outcome.next.inj hE
  refine State.zdpIn_keeps (by decide) (fun _ _ => ?_) ?_
  · refine Keeps.step (askDefectAdd_keeps ..) (by decide) ?_
    assumption
  · exact Keeps.refl

theorem execNotifyAck_keeps_eq {k : Nat} {fn : Nat} {s : State} {zz} (hE : execNotifyAck k fn s = .next zz)
    : Keeps [.out, .ctr, .q, .dict] s zz := by
  unfold execNotifyAck at hE
  try dsimp -iota -proj only at hE
  obtain rfl := Host.Outcome.next.inj hE
  refine Keeps.ite ?_ ?_
  · refine Keeps.step (State.notifyNext_keeps ..) (by decide) ?_
    exact Keeps.refl
  · exact Keeps.refl

theorem execUpprojWrite_keeps_eq {z : Sys2Proof.Zdp} {n : Nat} {v : Sys2Proof.Bytes} {s : State} {zz} (hE
    : execUpprojWrite z n v s = .next zz) : Keeps (Fld.but [.pending, .up, .pxb]) s zz := by
  unfold execUpprojWrite at hE
  try dsimp -iota -proj only at hE
  obtain rfl := Host.Outcome.next.inj hE
  refine State.zdpIn_keeps (by decide) (fun _ _ => ?_) ?_
  · refine Keeps.step (askUpprojWrite_keeps ..) (by decide) ?_
    assumption
  · exact Keeps.refl

theorem execPartitionDisable_keeps_eq {z : Sys2Proof.Zdp} {p : Nat} {v : Sys2Proof.Bytes} {s : State} {zz} (hE
    : execPartitionDisable z p v s = .next zz) : Keeps (Fld.but [.pending, .up, .pxb]) s zz := by
  unfold execPartitionDisable at hE
  try dsimp -iota -proj only at hE
  obtain rfl := Host.Outcome.next.inj hE
  refine State.zdpIn_keeps (by decide) (fun _ _ => ?_) ?_
  · refine Keeps.step (askPartitionDisable_keeps ..) (by decide) ?_
    assumption
  · exact Keeps.refl

theorem execFactoryToken_keeps_eq {z : Sys2Proof.Zdp} {v : Sys2Proof.Bytes} {s : State} {zz} (hE
    : execFactoryToken z v s = .next zz) : Keeps (Fld.but [.pending, .up, .pxb]) s zz := by
  unfold execFactoryToken at hE
  try dsimp -iota -proj only at hE
  obtain rfl := Host.Outcome.next.inj hE
  refine State.zdpIn_keeps (by decide) (fun _ _ => ?_) ?_
  · refine Keeps.step (askFactoryToken_keeps ..) (by decide) ?_
    assumption
  · exact Keeps.refl

theorem execWatch_keeps_eq {z : Sys2Proof.Zdp} {ix : Nat} {sub : Nat} {s : State} {zz} (hE
    : execWatch z ix sub s = .next zz) : Keeps (Fld.but [.pending, .up, .pxb]) s zz := by
  unfold execWatch at hE
  try dsimp -iota -proj only at hE
  obtain rfl := Host.Outcome.next.inj hE
  refine State.zdpIn_keeps (by decide) (fun _ _ => ?_) ?_
  · refine Keeps.step (askWatch_keeps ..) (by decide) ?_
    assumption
  · exact Keeps.refl

theorem execProjWrite_keeps_eq {z : Sys2Proof.Zdp} {n : Nat} {v : Sys2Proof.Bytes} {s : State} {zz} (hE
    : execProjWrite z n v s = .next zz) : Keeps (Fld.but [.pending, .up, .pxb]) s zz := by
  unfold execProjWrite at hE
  try dsimp -iota -proj only at hE
  obtain rfl := Host.Outcome.next.inj hE
  refine State.zdpIn_keeps (by decide) (fun _ _ => ?_) ?_
  · refine Keeps.step (askProjWrite_keeps ..) (by decide) ?_
    assumption
  · exact Keeps.refl

theorem execOttCapWrite_keeps_eq {z : Sys2Proof.Zdp} {p : Nat} {v : Sys2Proof.Bytes} {s : State} {zz} (hE
    : execOttCapWrite z p v s = .next zz) : Keeps (Fld.but [.pending, .up, .pxb]) s zz := by
  unfold execOttCapWrite at hE
  try dsimp -iota -proj only at hE
  obtain rfl := Host.Outcome.next.inj hE
  refine State.zdpIn_keeps (by decide) (fun _ _ => ?_) ?_
  · refine Keeps.step (askOttCapWrite_keeps ..) (by decide) ?_
    assumption
  · exact Keeps.refl

theorem execNotify_keeps_eq {e : Sys2Proof.Endpoint} {ix : Nat} {sub : Nat} {s : State} {zz} (hE
    : execNotify e ix sub s = .next zz) : Keeps [.out, .up, .now, .ctr, .q, .tm, .dict] s zz := by
  unfold execNotify at hE
  try dsimp -iota -proj only at hE
  obtain rfl := Host.Outcome.next.inj hE
  refine Keeps.step (State.notifyWatch_keeps ..) (by decide) ?_
  exact Keeps.refl

theorem execMediaSync_keeps_eq {z : Sys2Proof.Zdp} {s : State} {zz} (hE : execMediaSync z s = .next zz) : Keeps
    (Fld.but [.pending, .up, .pxb]) s zz := by
  unfold execMediaSync at hE
  try dsimp -iota -proj only at hE
  obtain rfl := Host.Outcome.next.inj hE
  refine State.zdpIn_keeps (by decide) (fun _ _ => ?_) ?_
  · refine Keeps.step (askMediaSync_keeps ..) (by decide) ?_
    assumption
  · exact Keeps.refl

theorem execWrite_keeps_eq {z : Sys2Proof.Zdp} {ix : Nat} {sub : Nat} {v : Sys2Proof.Bytes} {s : State} {zz} (hE
    : execWrite z ix sub v s = .next zz) : Keeps (Fld.but [.pending, .up, .pxb]) s zz := by
  unfold execWrite at hE
  try dsimp -iota -proj only at hE
  obtain rfl := Host.Outcome.next.inj hE
  refine State.zdpIn_keeps (by decide) (fun _ _ => ?_) ?_
  · refine Keeps.step (askWrite_keeps ..) (by decide) ?_
    assumption
  · exact Keeps.refl

theorem execBorrowBytes_keeps_eq {z : Sys2Proof.Zdp} {v : Sys2Proof.Bytes} {s : State} {zz} (hE
    : execBorrowBytes z v s = .next zz) : Keeps (Fld.but [.pending, .up, .pxb]) s zz := by
  unfold execBorrowBytes at hE
  try dsimp -iota -proj only at hE
  obtain rfl := Host.Outcome.next.inj hE
  refine State.zdpIn_keeps (by decide) (fun _ _ => ?_) ?_
  · refine Keeps.step (askBorrowBytes_keeps ..) (by decide) ?_
    assumption
  · exact Keeps.refl

theorem execLinkEnable_keeps_eq {z : Sys2Proof.Zdp} {n : Nat} {v : Sys2Proof.Bytes} {s : State} {zz} (hE
    : execLinkEnable z n v s = .next zz) : Keeps (Fld.but [.pending, .up, .pxb]) s zz := by
  unfold execLinkEnable at hE
  try dsimp -iota -proj only at hE
  obtain rfl := Host.Outcome.next.inj hE
  refine State.zdpIn_keeps (by decide) (fun _ _ => ?_) ?_
  · refine Keeps.step (askLinkEnable_keeps ..) (by decide) ?_
    assumption
  · exact Keeps.refl

theorem execMeterCfgWrite_keeps_eq {z : Sys2Proof.Zdp} {p : Nat} {c : Nat} {v : Sys2Proof.Bytes} {s : State} {zz} (hE
    : execMeterCfgWrite z p c v s = .next zz) : Keeps (Fld.but [.pending, .up, .pxb]) s zz := by
  unfold execMeterCfgWrite at hE
  try dsimp -iota -proj only at hE
  obtain rfl := Host.Outcome.next.inj hE
  refine State.zdpIn_keeps (by decide) (fun _ _ => ?_) ?_
  · refine Keeps.step (askMeterCfgWrite_keeps ..) (by decide) ?_
    assumption
  · exact Keeps.refl

theorem execOttHwmRead_keeps_eq {z : Sys2Proof.Zdp} {p : Nat} {s : State} {zz} (hE : execOttHwmRead z p s = .next zz)
    : Keeps (Fld.but [.pending, .up, .pxb]) s zz := by
  unfold execOttHwmRead at hE
  try dsimp -iota -proj only at hE
  obtain rfl := Host.Outcome.next.inj hE
  refine State.zdpIn_keeps (by decide) (fun _ _ => ?_) ?_
  · refine Keeps.step (askOttHwmRead_keeps ..) (by decide) ?_
    assumption
  · exact Keeps.refl

theorem execForensicRead_keeps_eq {z : Sys2Proof.Zdp} {v : Sys2Proof.Bytes} {o : Sys2Proof.ReadOutcome} {s : State} {zz}
    (hE : execForensicRead z v o s = .next zz) : Keeps (Fld.but [.pending, .up, .pxb]) s zz := by
  unfold execForensicRead at hE
  try dsimp -iota -proj only at hE
  obtain rfl := Host.Outcome.next.inj hE
  refine State.zdpIn_keeps (by decide) (fun _ _ => ?_) ?_
  · refine Keeps.step (askForensicRead_keeps ..) (by decide) ?_
    assumption
  · exact Keeps.refl

theorem execFirmwareActivate_keeps_eq {z : Sys2Proof.Zdp} {v : Sys2Proof.Bytes} {s : State} {zz} (hE
    : execFirmwareActivate z v s = .next zz) : Keeps (Fld.but [.pending, .up, .pxb]) s zz := by
  unfold execFirmwareActivate at hE
  try dsimp -iota -proj only at hE
  obtain rfl := Host.Outcome.next.inj hE
  refine State.zdpIn_keeps (by decide) (fun _ _ => ?_) ?_
  · refine Keeps.step (askFirmwareActivate_keeps ..) (by decide) ?_
    assumption
  · exact Keeps.refl

theorem execLeafCfgWrite_keeps_eq {z : Sys2Proof.Zdp} {p : Nat} {c : Nat} {x : Nat} {v : Sys2Proof.Bytes} {s : State}
    {zz} (hE : execLeafCfgWrite z p c x v s = .next zz) : Keeps (Fld.but [.pending, .up, .pxb]) s zz := by
  unfold execLeafCfgWrite at hE
  try dsimp -iota -proj only at hE
  obtain rfl := Host.Outcome.next.inj hE
  refine State.zdpIn_keeps (by decide) (fun _ _ => ?_) ?_
  · refine Keeps.step (askLeafCfgWrite_keeps ..) (by decide) ?_
    assumption
  · exact Keeps.refl

theorem execShutdownPrepare_keeps_eq {z : Sys2Proof.Zdp} {s : State} {zz} (hE : execShutdownPrepare z s = .next zz)
    : Keeps (Fld.but [.pending, .up, .pxb]) s zz := by
  unfold execShutdownPrepare at hE
  try dsimp -iota -proj only at hE
  obtain rfl := Host.Outcome.next.inj hE
  refine State.zdpIn_keeps (by decide) (fun _ _ => ?_) ?_
  · refine Keeps.step (askShutdownPrepare_keeps ..) (by decide) ?_
    assumption
  · exact Keeps.refl

theorem execSegEnd_keeps_eq {z : Sys2Proof.Zdp} {ix : Nat} {sub : Nat} {check : Nat} {s : State} {zz} (hE
    : execSegEnd z ix sub check s = .next zz) : Keeps (Fld.but [.pending, .up, .pxb]) s zz := by
  unfold execSegEnd at hE
  try dsimp -iota -proj only at hE
  obtain rfl := Host.Outcome.next.inj hE
  refine State.zdpIn_keeps (by decide) (fun _ _ => ?_) ?_
  · refine Keeps.step (askSegEnd_keeps ..) (by decide) ?_
    assumption
  · exact Keeps.refl

theorem execRefSelect_keeps_eq {z : Sys2Proof.Zdp} {v : Sys2Proof.Bytes} {s : State} {zz} (hE
    : execRefSelect z v s = .next zz) : Keeps (Fld.but [.pending, .up, .pxb]) s zz := by
  unfold execRefSelect at hE
  try dsimp -iota -proj only at hE
  obtain rfl := Host.Outcome.next.inj hE
  refine State.zdpIn_keeps (by decide) (fun _ _ => ?_) ?_
  · refine Keeps.step (askRefSelect_keeps ..) (by decide) ?_
    assumption
  · exact Keeps.refl

theorem execTimeSet_keeps_eq {z : Sys2Proof.Zdp} {v : Sys2Proof.Bytes} {s : State} {zz} (hE
    : execTimeSet z v s = .next zz) : Keeps (Fld.but [.pending, .up, .pxb]) s zz := by
  unfold execTimeSet at hE
  try dsimp -iota -proj only at hE
  obtain rfl := Host.Outcome.next.inj hE
  refine State.zdpIn_keeps (by decide) (fun _ _ => ?_) ?_
  · refine Keeps.step (askTimeSet_keeps ..) (by decide) ?_
    assumption
  · exact Keeps.refl

theorem execOttReserveWrite_keeps_eq {z : Sys2Proof.Zdp} {p : Nat} {v : Sys2Proof.Bytes} {s : State} {zz} (hE
    : execOttReserveWrite z p v s = .next zz) : Keeps (Fld.but [.pending, .up, .pxb]) s zz := by
  unfold execOttReserveWrite at hE
  try dsimp -iota -proj only at hE
  obtain rfl := Host.Outcome.next.inj hE
  refine State.zdpIn_keeps (by decide) (fun _ _ => ?_) ?_
  · refine Keeps.step (askOttReserveWrite_keeps ..) (by decide) ?_
    assumption
  · exact Keeps.refl

theorem execDomainPurge_keeps_eq {z : Sys2Proof.Zdp} {v : Sys2Proof.Bytes} {s : State} {zz} (hE
    : execDomainPurge z v s = .next zz) : Keeps (Fld.but [.pending, .up, .pxb]) s zz := by
  unfold execDomainPurge at hE
  try dsimp -iota -proj only at hE
  obtain rfl := Host.Outcome.next.inj hE
  refine State.zdpIn_keeps (by decide) (fun _ _ => ?_) ?_
  · refine Keeps.step (askDomainPurge_keeps ..) (by decide) ?_
    assumption
  · exact Keeps.refl

theorem execProfileBindingWrite_keeps_eq {z : Sys2Proof.Zdp} {p : Nat} {slot : Nat} {v : Sys2Proof.Bytes} {s : State}
    {zz} (hE : execProfileBindingWrite z p slot v s = .next zz) : Keeps (Fld.but [.pending, .up, .pxb]) s zz := by
  unfold execProfileBindingWrite at hE
  try dsimp -iota -proj only at hE
  obtain rfl := Host.Outcome.next.inj hE
  refine State.zdpIn_keeps (by decide) (fun _ _ => ?_) ?_
  · refine Keeps.step (askProfileBindingWrite_keeps ..) (by decide) ?_
    assumption
  · exact Keeps.refl

theorem execLendBytes_keeps_eq {z : Sys2Proof.Zdp} {v : Sys2Proof.Bytes} {s : State} {zz} (hE
    : execLendBytes z v s = .next zz) : Keeps (Fld.but [.pending, .up, .pxb]) s zz := by
  unfold execLendBytes at hE
  try dsimp -iota -proj only at hE
  obtain rfl := Host.Outcome.next.inj hE
  refine State.zdpIn_keeps (by decide) (fun _ _ => ?_) ?_
  · refine Keeps.step (askLendBytes_keeps ..) (by decide) ?_
    assumption
  · exact Keeps.refl

theorem execPartitionReset_keeps_eq {z : Sys2Proof.Zdp} {p : Nat} {v : Sys2Proof.Bytes} {s : State} {zz} (hE
    : execPartitionReset z p v s = .next zz) : Keeps (Fld.but [.pending, .up, .pxb]) s zz := by
  unfold execPartitionReset at hE
  try dsimp -iota -proj only at hE
  obtain rfl := Host.Outcome.next.inj hE
  refine State.zdpIn_keeps (by decide) (fun _ _ => ?_) ?_
  · refine Keeps.step (askPartitionReset_keeps ..) (by decide) ?_
    assumption
  · exact Keeps.refl

theorem execLendEnable_keeps_eq {z : Sys2Proof.Zdp} {v : Sys2Proof.Bytes} {s : State} {zz} (hE
    : execLendEnable z v s = .next zz) : Keeps (Fld.but [.pending, .up, .pxb]) s zz := by
  unfold execLendEnable at hE
  try dsimp -iota -proj only at hE
  obtain rfl := Host.Outcome.next.inj hE
  refine State.zdpIn_keeps (by decide) (fun _ _ => ?_) ?_
  · refine Keeps.step (askLendEnable_keeps ..) (by decide) ?_
    assumption
  · exact Keeps.refl

theorem execSegReadInit_keeps_eq {z : Sys2Proof.Zdp} {ix : Nat} {sub : Nat} {s : State} {zz} (hE
    : execSegReadInit z ix sub s = .next zz) : Keeps (Fld.but [.pending, .up, .pxb]) s zz := by
  unfold execSegReadInit at hE
  try dsimp -iota -proj only at hE
  obtain rfl := Host.Outcome.next.inj hE
  refine State.zdpIn_keeps (by decide) (fun _ _ => ?_) ?_
  · refine Keeps.step (askSegReadInit_keeps ..) (by decide) ?_
    assumption
  · exact Keeps.refl

theorem execCanBusOff_keeps_eq {millis : Nat} {s : State} {zz} (hE : execCanBusOff millis s = .next zz)
    : Keeps [.up, .now, .dict] s zz := by
  unfold execCanBusOff at hE
  try dsimp -iota -proj only at hE
  obtain rfl := Host.Outcome.next.inj hE
  refine Keeps.ite ?_ ?_
  · refine Keeps.step (State.timeTo_keeps ..) (by decide) ?_
    exact Keeps.refl
  · refine Keeps.step (Keeps.set_dict ..) (by decide) ?_
    refine Keeps.step (State.timeTo_keeps ..) (by decide) ?_
    exact Keeps.refl

theorem execCollSetsWrite_keeps_eq {z : Sys2Proof.Zdp} {v : Sys2Proof.Bytes} {s : State} {zz} (hE
    : execCollSetsWrite z v s = .next zz) : Keeps (Fld.but [.pending, .up, .pxb]) s zz := by
  unfold execCollSetsWrite at hE
  try dsimp -iota -proj only at hE
  obtain rfl := Host.Outcome.next.inj hE
  refine State.zdpIn_keeps (by decide) (fun _ _ => ?_) ?_
  · refine Keeps.step (askCollSetsWrite_keeps ..) (by decide) ?_
    assumption
  · exact Keeps.refl

theorem execDerateWrite_keeps_eq {z : Sys2Proof.Zdp} {kind : Nat} {v : Sys2Proof.Bytes} {s : State} {zz} (hE
    : execDerateWrite z kind v s = .next zz) : Keeps (Fld.but [.pending, .up, .pxb]) s zz := by
  unfold execDerateWrite at hE
  try dsimp -iota -proj only at hE
  obtain rfl := Host.Outcome.next.inj hE
  refine State.zdpIn_keeps (by decide) (fun _ _ => ?_) ?_
  · refine Keeps.step (askDerateWrite_keeps ..) (by decide) ?_
    assumption
  · exact Keeps.refl

theorem execFirmwareUpdate_keeps_eq {z : Sys2Proof.Zdp} {v : Sys2Proof.Bytes} {s : State} {zz} (hE
    : execFirmwareUpdate z v s = .next zz) : Keeps (Fld.but [.pending, .up, .pxb]) s zz := by
  unfold execFirmwareUpdate at hE
  try dsimp -iota -proj only at hE
  obtain rfl := Host.Outcome.next.inj hE
  refine State.zdpIn_keeps (by decide) (fun _ _ => ?_) ?_
  · refine Keeps.step (askFirmwareUpdate_keeps ..) (by decide) ?_
    assumption
  · exact Keeps.refl

theorem execFrameQuotaWrite_keeps_eq {z : Sys2Proof.Zdp} {p : Nat} {v : Sys2Proof.Bytes} {s : State} {zz} (hE
    : execFrameQuotaWrite z p v s = .next zz) : Keeps (Fld.but [.pending, .up, .pxb]) s zz := by
  unfold execFrameQuotaWrite at hE
  try dsimp -iota -proj only at hE
  obtain rfl := Host.Outcome.next.inj hE
  refine State.zdpIn_keeps (by decide) (fun _ _ => ?_) ?_
  · refine Keeps.step (askFrameQuotaWrite_keeps ..) (by decide) ?_
    assumption
  · exact Keeps.refl

theorem execIndexGeometryWrite_keeps_eq {z : Sys2Proof.Zdp} {n : Nat} {sub : Nat} {v : Sys2Proof.Bytes} {s : State} {zz}
    (hE : execIndexGeometryWrite z n sub v s = .next zz) : Keeps (Fld.but [.pending, .up, .pxb]) s zz := by
  unfold execIndexGeometryWrite at hE
  try dsimp -iota -proj only at hE
  obtain rfl := Host.Outcome.next.inj hE
  refine State.zdpIn_keeps (by decide) (fun _ _ => ?_) ?_
  · refine Keeps.step (askIndexGeometryWrite_keeps ..) (by decide) ?_
    assumption
  · exact Keeps.refl

theorem execJobResume_keeps_eq {z : Sys2Proof.Zdp} {p : Nat} {v : Sys2Proof.Bytes} {s : State} {zz} (hE
    : execJobResume z p v s = .next zz) : Keeps (Fld.but [.pending, .up, .pxb]) s zz := by
  unfold execJobResume at hE
  try dsimp -iota -proj only at hE
  obtain rfl := Host.Outcome.next.inj hE
  refine State.zdpIn_keeps (by decide) (fun _ _ => ?_) ?_
  · refine Keeps.step (askJobResume_keeps ..) (by decide) ?_
    assumption
  · exact Keeps.refl

theorem execKxlOwnerLinksWrite_keeps_eq {z : Sys2Proof.Zdp} {sub : Nat} {v : Sys2Proof.Bytes} {s : State} {zz} (hE
    : execKxlOwnerLinksWrite z sub v s = .next zz) : Keeps (Fld.but [.pending, .up, .pxb]) s zz := by
  unfold execKxlOwnerLinksWrite at hE
  try dsimp -iota -proj only at hE
  obtain rfl := Host.Outcome.next.inj hE
  refine State.zdpIn_keeps (by decide) (fun _ _ => ?_) ?_
  · refine Keeps.step (askKxlOwnerLinksWrite_keeps ..) (by decide) ?_
    assumption
  · exact Keeps.refl

theorem execNodeCfgWrite_keeps_eq {z : Sys2Proof.Zdp} {c : Nat} {x : Nat} {v : Sys2Proof.Bytes} {s : State} {zz} (hE
    : execNodeCfgWrite z c x v s = .next zz) : Keeps (Fld.but [.pending, .up, .pxb]) s zz := by
  unfold execNodeCfgWrite at hE
  try dsimp -iota -proj only at hE
  obtain rfl := Host.Outcome.next.inj hE
  refine State.zdpIn_keeps (by decide) (fun _ _ => ?_) ?_
  · refine Keeps.step (askNodeCfgWrite_keeps ..) (by decide) ?_
    assumption
  · exact Keeps.refl

theorem execPlanWrite_keeps_eq {z : Sys2Proof.Zdp} {p : Nat} {n : Nat} {v : Sys2Proof.Bytes} {s : State} {zz} (hE
    : execPlanWrite z p n v s = .next zz) : Keeps (Fld.but [.pending, .up, .pxb]) s zz := by
  unfold execPlanWrite at hE
  try dsimp -iota -proj only at hE
  obtain rfl := Host.Outcome.next.inj hE
  refine State.zdpIn_keeps (by decide) (fun _ _ => ?_) ?_
  · refine Keeps.step (askPlanWrite_keeps ..) (by decide) ?_
    assumption
  · exact Keeps.refl

theorem execProtectionBatch_keeps_eq {z : Sys2Proof.Zdp} {v : Sys2Proof.Bytes} {s : State} {zz} (hE
    : execProtectionBatch z v s = .next zz) : Keeps (Fld.but [.pending, .up, .pxb]) s zz := by
  unfold execProtectionBatch at hE
  try dsimp -iota -proj only at hE
  obtain rfl := Host.Outcome.next.inj hE
  refine State.zdpIn_keeps (by decide) (fun _ _ => ?_) ?_
  · refine Keeps.step (askProtectionBatch_keeps ..) (by decide) ?_
    assumption
  · exact Keeps.refl

theorem execRead_keeps_eq {z : Sys2Proof.Zdp} {ix : Nat} {sub : Nat} {s : State} {zz} (hE
    : execRead z ix sub s = .next zz) : Keeps (Fld.but [.pending, .up, .pxb]) s zz := by
  unfold execRead at hE
  try dsimp -iota -proj only at hE
  obtain rfl := Host.Outcome.next.inj hE
  refine State.zdpIn_keeps (by decide) (fun _ _ => ?_) ?_
  · refine Keeps.step (askRead_keeps ..) (by decide) ?_
    assumption
  · exact Keeps.refl

theorem execRestart_keeps_eq {z : Sys2Proof.Zdp} {v : Sys2Proof.Bytes} {s : State} {zz} (hE
    : execRestart z v s = .next zz) : Keeps (Fld.but [.pending, .up, .pxb]) s zz := by
  unfold execRestart at hE
  try dsimp -iota -proj only at hE
  obtain rfl := Host.Outcome.next.inj hE
  refine State.zdpIn_keeps (by decide) (fun _ _ => ?_) ?_
  · refine Keeps.step (askRestart_keeps ..) (by decide) ?_
    assumption
  · exact Keeps.refl

theorem execSegAbort_keeps_eq {z : Sys2Proof.Zdp} {ix : Nat} {sub : Nat} {s : State} {zz} (hE
    : execSegAbort z ix sub s = .next zz) : Keeps (Fld.but [.pending, .up, .pxb]) s zz := by
  unfold execSegAbort at hE
  try dsimp -iota -proj only at hE
  obtain rfl := Host.Outcome.next.inj hE
  refine State.zdpIn_keeps (by decide) (fun _ _ => ?_) ?_
  · refine Keeps.step (askSegAbort_keeps ..) (by decide) ?_
    assumption
  · exact Keeps.refl

theorem execSegData_keeps_eq {z : Sys2Proof.Zdp} {ix : Nat} {sub : Nat} {offset : Nat} {data : Sys2Proof.Bytes} {s
    : State} {zz} (hE : execSegData z ix sub offset data s = .next zz) : Keeps (Fld.but [.pending, .up, .pxb]) s zz := by
  unfold execSegData at hE
  try dsimp -iota -proj only at hE
  obtain rfl := Host.Outcome.next.inj hE
  refine State.zdpIn_keeps (by decide) (fun _ _ => ?_) ?_
  · refine Keeps.step (askSegData_keeps ..) (by decide) ?_
    assumption
  · exact Keeps.refl

theorem execSegWriteInit_keeps_eq {z : Sys2Proof.Zdp} {ix : Nat} {sub : Nat} {total : Nat} {s : State} {zz} (hE
    : execSegWriteInit z ix sub total s = .next zz) : Keeps (Fld.but [.pending, .up, .pxb]) s zz := by
  unfold execSegWriteInit at hE
  try dsimp -iota -proj only at hE
  obtain rfl := Host.Outcome.next.inj hE
  refine State.zdpIn_keeps (by decide) (fun _ _ => ?_) ?_
  · refine Keeps.step (askSegWriteInit_keeps ..) (by decide) ?_
    assumption
  · exact Keeps.refl

theorem execSegmentTimeout_keeps_eq {e : Sys2Proof.Endpoint} {s : State} {zz} (hE : execSegmentTimeout e s = .next zz)
    : Keeps [.out, .up, .now, .ctr, .tm, .dict] s zz := by
  unfold execSegmentTimeout at hE
  try dsimp -iota -proj only at hE
  obtain rfl := Host.Outcome.next.inj hE
  refine Keeps.step (State.timeoutXfer_keeps ..) (by decide) ?_
  exact Keeps.refl

theorem execSessionIdle_keeps_eq {node : Nat} {s : State} {zz} (hE : execSessionIdle node s = .next zz)
    : Keeps [.out, .up, .now, .ctr, .tm, .dict] s zz := by
  unfold execSessionIdle at hE
  try dsimp -iota -proj only at hE
  obtain rfl := Host.Outcome.next.inj hE
  refine Keeps.step (State.idleClose_keeps ..) (by decide) ?_
  exact Keeps.refl

theorem execShareDomainWrite_keeps_eq {z : Sys2Proof.Zdp} {d : Nat} {sub : Nat} {v : Sys2Proof.Bytes} {s : State} {zz}
    (hE : execShareDomainWrite z d sub v s = .next zz) : Keeps (Fld.but [.pending, .up, .pxb]) s zz := by
  unfold execShareDomainWrite at hE
  try dsimp -iota -proj only at hE
  obtain rfl := Host.Outcome.next.inj hE
  refine State.zdpIn_keeps (by decide) (fun _ _ => ?_) ?_
  · refine Keeps.step (askShareDomainWrite_keeps ..) (by decide) ?_
    assumption
  · exact Keeps.refl

theorem execSnapshotRequest_keeps_eq {z : Sys2Proof.Zdp} {v : Sys2Proof.Bytes} {s : State} {zz} (hE
    : execSnapshotRequest z v s = .next zz) : Keeps (Fld.but [.pending, .up, .pxb]) s zz := by
  unfold execSnapshotRequest at hE
  try dsimp -iota -proj only at hE
  obtain rfl := Host.Outcome.next.inj hE
  refine State.zdpIn_keeps (by decide) (fun _ _ => ?_) ?_
  · refine Keeps.step (askSnapshotRequest_keeps ..) (by decide) ?_
    assumption
  · exact Keeps.refl

theorem execStartFailClear_keeps_eq {z : Sys2Proof.Zdp} {v : Sys2Proof.Bytes} {s : State} {zz} (hE
    : execStartFailClear z v s = .next zz) : Keeps (Fld.but [.pending, .up, .pxb]) s zz := by
  unfold execStartFailClear at hE
  try dsimp -iota -proj only at hE
  obtain rfl := Host.Outcome.next.inj hE
  refine State.zdpIn_keeps (by decide) (fun _ _ => ?_) ?_
  · refine Keeps.step (askStartFailClear_keeps ..) (by decide) ?_
    assumption
  · exact Keeps.refl

theorem execUnwatch_keeps_eq {z : Sys2Proof.Zdp} {ix : Nat} {sub : Nat} {s : State} {zz} (hE
    : execUnwatch z ix sub s = .next zz) : Keeps (Fld.but [.pending, .up, .pxb]) s zz := by
  unfold execUnwatch at hE
  try dsimp -iota -proj only at hE
  obtain rfl := Host.Outcome.next.inj hE
  refine State.zdpIn_keeps (by decide) (fun _ _ => ?_) ?_
  · refine Keeps.step (askUnwatch_keeps ..) (by decide) ?_
    assumption
  · exact Keeps.refl

theorem execZdpClose_keeps_eq {z : Sys2Proof.Zdp} {s : State} {zz} (hE : execZdpClose z s = .next zz) : Keeps
    (Fld.but [.pending, .up, .pxb]) s zz := by
  unfold execZdpClose at hE
  try dsimp -iota -proj only at hE
  obtain rfl := Host.Outcome.next.inj hE
  refine State.zdpIn_keeps (by decide) (fun _ _ => ?_) ?_
  · refine Keeps.step (askZdpClose_keeps ..) (by decide) ?_
    assumption
  · exact Keeps.refl

theorem execZdpOpen_keeps_eq {z : Sys2Proof.Zdp} {role : Nat} {part : Nat} {s : State} {zz} (hE
    : execZdpOpen z role part s = .next zz) : Keeps (Fld.but [.pending, .up, .pxb]) s zz := by
  unfold execZdpOpen at hE
  try dsimp -iota -proj only at hE
  obtain rfl := Host.Outcome.next.inj hE
  refine State.zdpIn_keeps (by decide) (fun _ _ => ?_) ?_
  · refine Keeps.step (askZdpOpen_keeps ..) (by decide) ?_
    assumption
  · exact Keeps.refl

end Sys2Proof.Machine
end

