-- ==== Sys2Proof/Laws/KeepsCmds.lean ====
section
/-! SUPPORT. Which parts of the state each operation can change: the page endpoint block, frames and power. -/

namespace Sys2Proof.Machine

/-! ### Px -/

theorem State.setPx_keeps (s : State) (k : Nat) (l : PxLink) : Keeps [.pxb] s (State.setPx s k l) := by
  unfold State.setPx
  try dsimp -iota -proj only
  refine Keeps.ite ?_ ?_
  · refine Keeps.step (Keeps.set_pxb ..) (by decide) ?_
    exact Keeps.refl
  · refine Keeps.step (Keeps.set_pxb ..) (by decide) ?_
    exact Keeps.refl

theorem State.pxBegin_keeps (s : State) (k : Nat) (a : Nat) : Keeps [.pxb] s (State.pxBegin s k a) := by
  unfold State.pxBegin
  try dsimp -iota -proj only
  refine Keeps.step (State.setPx_keeps ..) (by decide) ?_
  exact Keeps.refl

theorem State.pxIrq_keeps (s : State) (b : Nat) : Keeps [.pxb] s (State.pxIrq s b) := by
  unfold State.pxIrq
  try dsimp -iota -proj only
  refine Keeps.ite ?_ ?_
  · exact Keeps.refl
  · refine Keeps.step (Keeps.set_pxb ..) (by decide) ?_
    exact Keeps.refl

theorem State.pxDown_keeps (s : State) (k : Nat) (reason : Nat) : Keeps [.pxb] s (State.pxDown s k reason) := by
  unfold State.pxDown
  try dsimp -iota -proj only
  refine Keeps.step (State.pxIrq_keeps ..) (by decide) ?_
  refine Keeps.step (Keeps.set_pxb ..) (by decide) ?_
  refine Keeps.step (State.setPx_keeps ..) (by decide) ?_
  exact Keeps.refl

theorem State.pxFails_keeps (s : State) (k : Nat) : Keeps [.pxb] s (State.pxFails s k) := by
  unfold State.pxFails
  try dsimp -iota -proj only
  refine Keeps.ite ?_ ?_
  · refine Keeps.step (State.pxBegin_keeps ..) (by decide) ?_
    exact Keeps.refl
  · refine Keeps.step (State.pxDown_keeps ..) (by decide) ?_
    exact Keeps.refl

theorem State.pxTraining_keeps (s : State) (k : Nat) : Keeps [.out] s (State.pxTraining s k) := by
  unfold State.pxTraining
  try dsimp -iota -proj only
  refine Keeps.step (Keeps.set_out ..) (by decide) ?_
  exact Keeps.refl

theorem State.setPxLk_keeps (s : State) (k : Nat) (l : Link) : Keeps [.pxb] s (State.setPxLk s k l) := by
  unfold State.setPxLk
  try dsimp -iota -proj only
  refine Keeps.step (State.setPx_keeps ..) (by decide) ?_
  exact Keeps.refl

theorem State.pxCredit_keeps (s : State) (k : Nat) : Keeps [.out] s (State.pxCredit s k) := by
  unfold State.pxCredit
  try dsimp -iota -proj only
  refine Keeps.step (Keeps.set_out ..) (by decide) ?_
  exact Keeps.refl

theorem State.pxCtrl_keeps (s : State) (k : Nat) (v : Nat) : Keeps [.pxb] s (State.pxCtrl s k v) := by
  unfold State.pxCtrl
  try dsimp -iota -proj only
  refine Keeps.ite ?_ ?_
  · exact Keeps.refl
  · refine Keeps.ite ?_ ?_
    · refine Keeps.ite ?_ ?_
      · refine Keeps.step (State.pxBegin_keeps ..) (by decide) ?_
        refine Keeps.step (State.setPx_keeps ..) (by decide) ?_
        exact Keeps.refl
      · refine Keeps.step (State.setPx_keeps ..) (by decide) ?_
        exact Keeps.refl
    · split
      · refine Keeps.step (State.setPx_keeps ..) (by decide) ?_
        exact Keeps.refl
      · refine Keeps.step (State.setPx_keeps ..) (by decide) ?_
        exact Keeps.refl
      · refine Keeps.step (State.pxDown_keeps ..) (by decide) ?_
        refine Keeps.step (State.setPx_keeps ..) (by decide) ?_
        exact Keeps.refl

theorem State.pxUp_keeps (s : State) (k : Nat) (rate : Nat) (lanes : Nat) (partner : Nat) (limits : List Nat)
    : Keeps [.pxb] s (State.pxUp s k rate lanes partner limits) := by
  unfold State.pxUp
  try dsimp -iota -proj only
  refine Keeps.step (State.pxIrq_keeps ..) (by decide) ?_
  refine Keeps.step (State.setPxLk_keeps ..) (by decide) ?_
  exact Keeps.refl

theorem execPxLinkEnable_keeps_eq {k : Nat} {v : Nat} {s : State} {zz} (hE : execPxLinkEnable k v s = .next zz)
    : Keeps [.pxb] s zz := by
  unfold execPxLinkEnable at hE
  try dsimp -iota -proj only at hE
  obtain rfl := Host.Outcome.next.inj hE
  refine Keeps.step (State.pxCtrl_keeps ..) (by decide) ?_
  exact Keeps.refl

theorem State.pxPump_keeps (s : State) (k : Nat) : Keeps [.out, .pxb] s (State.pxPump s k) := by
  unfold State.pxPump
  try dsimp -iota -proj only
  refine Keeps.ite ?_ ?_
  · exact Keeps.refl
  · refine Keeps.step (Keeps.set_out ..) (by decide) ?_
    refine Keeps.step (State.setPx_keeps ..) (by decide) ?_
    exact Keeps.refl

theorem State.pxReturn_keeps (s : State) (k : Nat) (vl : Nat) (c : Nat) : Keeps [.out, .pxb] s
    (State.pxReturn s k vl c) := by
  unfold State.pxReturn
  try dsimp -iota -proj only
  refine Keeps.ite ?_ ?_
  · exact Keeps.refl
  · refine Keeps.step (State.pxCredit_keeps ..) (by decide) ?_
    refine Keeps.step (State.setPxLk_keeps ..) (by decide) ?_
    exact Keeps.refl

theorem State.pxDrain_keeps (s : State) (a1 : List PxItem) : Keeps [.out, .pxb] s (State.pxDrain s a1) := by
  unfold State.pxDrain
  try dsimp -iota -proj only
  split
  · refine Keeps.step (Keeps.set_pxb ..) (by decide) ?_
    exact Keeps.refl
  · refine Keeps.ite ?_ ?_
    · refine Keeps.step (State.pxDrain_keeps ..) (by decide) ?_
      refine Keeps.step (State.pxReturn_keeps ..) (by decide) ?_
      exact Keeps.refl
    · refine Keeps.step (Keeps.set_pxb ..) (by decide) ?_
      exact Keeps.refl

theorem State.pxWatch_keeps (s : State) (b : PxBeat) : Keeps [.pxb] s (State.pxWatch s b) := by
  unfold State.pxWatch
  try dsimp -iota -proj only
  split
  · refine Keeps.foldl (fun _ _ _ => ?_) ?_
    · refine Keeps.ite ?_ ?_
      · refine Keeps.step (State.pxIrq_keeps ..) (by decide) ?_
        assumption
      · assumption
    · exact Keeps.refl
  · exact Keeps.refl

theorem execPxDeliveryBeat_keeps_eq {s : State} {zz} (hE : execPxDeliveryBeat s = .next zz) : Keeps [.out, .pxb] s zz := by
  unfold execPxDeliveryBeat at hE
  try dsimp -iota -proj only at hE
  obtain rfl := Host.Outcome.next.inj hE
  split
  · exact Keeps.refl
  · split
    · refine Keeps.step (State.pxDrain_keeps ..) (by decide) ?_
      exact Keeps.refl
    · refine Keeps.step (State.pxDrain_keeps ..) (by decide) ?_
      refine Keeps.step (State.pxWatch_keeps ..) (by decide) ?_
      refine Keeps.step (Keeps.set_out ..) (by decide) ?_
      exact Keeps.refl

theorem execPxRegisterWrite_keeps_eq {off : Nat} {v : Nat} {s : State} {zz} (hE
    : execPxRegisterWrite off v s = .next zz) : Keeps [.pxb] s zz := by
  unfold execPxRegisterWrite at hE
  try dsimp -iota -proj only at hE
  obtain rfl := Host.Outcome.next.inj hE
  refine Keeps.ite ?_ ?_
  · exact Keeps.refl
  · refine Keeps.ite ?_ ?_
    · refine Keeps.step (Keeps.set_pxb ..) (by decide) ?_
      exact Keeps.refl
    · refine Keeps.ite ?_ ?_
      · refine Keeps.step (Keeps.set_pxb ..) (by decide) ?_
        exact Keeps.refl
      · refine Keeps.ite ?_ ?_
        · refine Keeps.step (Keeps.set_pxb ..) (by decide) ?_
          exact Keeps.refl
        · refine Keeps.ite ?_ ?_
          · refine Keeps.step (Keeps.set_pxb ..) (by decide) ?_
            exact Keeps.refl
          · refine Keeps.ite ?_ ?_
            · refine Keeps.step (State.pxCtrl_keeps ..) (by decide) ?_
              exact Keeps.refl
            · refine Keeps.ite ?_ ?_
              · refine Keeps.ite ?_ ?_
                · exact Keeps.refl
                · refine Keeps.step (State.setPx_keeps ..) (by decide) ?_
                  exact Keeps.refl
              · refine Keeps.ite ?_ ?_
                · refine Keeps.step (Keeps.set_pxb ..) (by decide) ?_
                  exact Keeps.refl
                · exact Keeps.refl

theorem State.pxAck_keeps (s : State) (k : Nat) : Keeps [.out, .pxb] s (State.pxAck s k) := by
  unfold State.pxAck
  try dsimp -iota -proj only
  refine Keeps.step (State.setPxLk_keeps ..) (by decide) ?_
  refine Keeps.step (Keeps.set_out ..) (by decide) ?_
  exact Keeps.refl

theorem State.pxNak_keeps (s : State) (k : Nat) : Keeps [.out, .pxb] s (State.pxNak s k) := by
  unfold State.pxNak
  try dsimp -iota -proj only
  refine Keeps.step (State.setPx_keeps ..) (by decide) ?_
  refine Keeps.step (Keeps.set_out ..) (by decide) ?_
  exact Keeps.refl

theorem State.pxRelease_keeps (s : State) (k : Nat) (n : Nat) : Keeps [.pxb] s (State.pxRelease s k n) := by
  unfold State.pxRelease
  try dsimp -iota -proj only
  refine Keeps.step (State.setPxLk_keeps ..) (by decide) ?_
  exact Keeps.refl

theorem execPxReset_keeps_eq {level : Bool} {s : State} {zz} (hE : execPxReset level s = .next zz) : Keeps [.pxb] s zz := by
  unfold execPxReset at hE
  try dsimp -iota -proj only at hE
  obtain rfl := Host.Outcome.next.inj hE
  refine Keeps.ite ?_ ?_
  · refine Keeps.step (Keeps.set_pxb ..) (by decide) ?_
    exact Keeps.refl
  · refine Keeps.step (Keeps.set_pxb ..) (by decide) ?_
    exact Keeps.refl

theorem State.pxAccept_keeps (s : State) (k : Nat) (vl : Nat) (len : Nat) : Keeps [.out, .pxb] s
    (State.pxAccept s k vl len) := by
  unfold State.pxAccept
  try dsimp -iota -proj only
  refine Keeps.ite ?_ ?_
  · refine Keeps.step (State.pxAck_keeps ..) (by decide) ?_
    refine Keeps.step (State.setPxLk_keeps ..) (by decide) ?_
    exact Keeps.refl
  · refine Keeps.step (State.setPxLk_keeps ..) (by decide) ?_
    exact Keeps.refl

theorem State.pxRejected_keeps (s : State) (k : Nat) (n : Nat) : Keeps [.pxb] s (State.pxRejected s k n) := by
  unfold State.pxRejected
  try dsimp -iota -proj only
  refine Keeps.step (State.setPx_keeps ..) (by decide) ?_
  exact Keeps.refl

theorem execPxLinkDown_keeps_eq {k : Nat} {reason : Nat} {s : State} {zz} (hE : execPxLinkDown k reason s = .next zz)
    : Keeps [.pxb] s zz := by
  unfold execPxLinkDown at hE
  try dsimp -iota -proj only at hE
  obtain rfl := Host.Outcome.next.inj hE
  refine Keeps.ite ?_ ?_
  · exact Keeps.refl
  · refine Keeps.step (State.pxDown_keeps ..) (by decide) ?_
    exact Keeps.refl

theorem State.pxReplay_keeps (s : State) (k : Nat) : Keeps [.out, .pxb] s (State.pxReplay s k) := by
  unfold State.pxReplay
  try dsimp -iota -proj only
  refine Keeps.ite ?_ ?_
  · refine Keeps.step (State.pxDown_keeps ..) (by decide) ?_
    exact Keeps.refl
  · refine Keeps.step (State.setPx_keeps ..) (by decide) ?_
    refine Keeps.step (Keeps.set_out ..) (by decide) ?_
    exact Keeps.refl

theorem execPxFrameAccept_keeps_eq {k : Nat} {typ : Nat} {vl : Nat} {hdr : Sys2Proof.Bytes} {payload : Sys2Proof.Bytes}
    {s : State} {zz} (hE : execPxFrameAccept k typ vl hdr payload s = .next zz) : Keeps [.out, .pxb] s zz := by
  unfold execPxFrameAccept at hE
  try dsimp -iota -proj only at hE
  obtain rfl := Host.Outcome.next.inj hE
  refine Keeps.ite ?_ ?_
  · exact Keeps.refl
  · refine Keeps.ite ?_ ?_
    · refine Keeps.step (State.pxDown_keeps ..) (by decide) ?_
      exact Keeps.refl
    · split
      · refine Keeps.step (State.pxReturn_keeps ..) (by decide) ?_
        refine Keeps.step (State.setPx_keeps ..) (by decide) ?_
        refine Keeps.step (State.pxAccept_keeps ..) (by decide) ?_
        exact Keeps.refl
      · refine Keeps.step (State.pxDrain_keeps ..) (by decide) ?_
        refine Keeps.step (State.pxAccept_keeps ..) (by decide) ?_
        exact Keeps.refl

theorem execPxIrqClear_keeps_eq {v : Nat} {s : State} {zz} (hE : execPxIrqClear v s = .next zz) : Keeps [.pxb] s zz := by
  unfold execPxIrqClear at hE
  try dsimp -iota -proj only at hE
  obtain rfl := Host.Outcome.next.inj hE
  refine Keeps.ite ?_ ?_
  · exact Keeps.refl
  · refine Keeps.step (Keeps.set_pxb ..) (by decide) ?_
    exact Keeps.refl

theorem execPxLinkDisable_keeps_eq {k : Nat} {v : Nat} {s : State} {zz} (hE : execPxLinkDisable k v s = .next zz)
    : Keeps [.pxb] s zz := by
  unfold execPxLinkDisable at hE
  try dsimp -iota -proj only at hE
  obtain rfl := Host.Outcome.next.inj hE
  refine Keeps.step (State.pxCtrl_keeps ..) (by decide) ?_
  exact Keeps.refl

theorem execPxMarker_keeps_eq {k : Nat} {event : Nat} {part : Nat} {plan : Nat} {pos : Nat} {s : State} {zz} (hE
    : execPxMarker k event part plan pos s = .next zz) : Keeps [.out, .pxb] s zz := by
  unfold execPxMarker at hE
  try dsimp -iota -proj only at hE
  obtain rfl := Host.Outcome.next.inj hE
  refine Keeps.ite ?_ ?_
  · exact Keeps.refl
  · refine Keeps.ite ?_ ?_
    · refine Keeps.step (State.pxIrq_keeps ..) (by decide) ?_
      refine Keeps.step (State.pxRejected_keeps ..) (by decide) ?_
      exact Keeps.refl
    · refine Keeps.ite ?_ ?_
      · exact Keeps.refl
      · refine Keeps.step (State.pxPump_keeps ..) (by decide) ?_
        refine Keeps.step (State.setPx_keeps ..) (by decide) ?_
        exact Keeps.refl

theorem execPxRequest_keeps_eq {kind : Nat} {len : Nat} {beats : Nat} {r : Sys2Proof.Req} {s : State} {zz} (hE
    : execPxRequest kind len beats r s = .next zz) : Keeps [.out, .pxb] s zz := by
  unfold execPxRequest at hE
  try dsimp -iota -proj only at hE
  obtain rfl := Host.Outcome.next.inj hE
  refine Keeps.ite ?_ ?_
  · exact Keeps.refl
  · refine Keeps.ite ?_ ?_
    · refine Keeps.step (State.pxIrq_keeps ..) (by decide) ?_
      refine Keeps.step (State.pxRejected_keeps ..) (by decide) ?_
      exact Keeps.refl
    · refine Keeps.ite ?_ ?_
      · exact Keeps.refl
      · refine Keeps.step (State.pxPump_keeps ..) (by decide) ?_
        refine Keeps.step (State.setPx_keeps ..) (by decide) ?_
        exact Keeps.refl

/-! ### LinkCmds -/

theorem State.equalised_keeps (s : State) (e : Sys2Proof.LinkEnd) (ls : List Nat) : Keeps
    (Fld.but [.pending, .up, .now, .cfg, .blob, .clk, .pwr]) s (State.equalised s e ls) := by
  unfold State.equalised
  try dsimp -iota -proj only
  split
  · refine Keeps.ite ?_ ?_
    · exact Keeps.refl
    · refine Keeps.ite ?_ ?_
      · refine Keeps.step (State.sendTraining_keeps ..) (by decide) ?_
        refine Keeps.step (State.setLink_keeps ..) (by decide) ?_
        refine Keeps.step (State.setLink_keeps ..) (by decide) ?_
        exact Keeps.refl
      · refine Keeps.step (State.attemptFails_keeps ..) (by decide) ?_
        refine Keeps.step (State.setLink_keeps ..) (by decide) ?_
        exact Keeps.refl
  · refine Keeps.ite ?_ ?_
    · exact Keeps.refl
    · refine Keeps.ite ?_ ?_
      · refine Keeps.step (State.pxTraining_keeps ..) (by decide) ?_
        refine Keeps.step (State.setPxLk_keeps ..) (by decide) ?_
        refine Keeps.step (State.setPxLk_keeps ..) (by decide) ?_
        exact Keeps.refl
      · refine Keeps.step (State.pxFails_keeps ..) (by decide) ?_
        refine Keeps.step (State.setPxLk_keeps ..) (by decide) ?_
        exact Keeps.refl

theorem execEqualiseTimeout_keeps_eq {e : Sys2Proof.LinkEnd} {s : State} {zz} (hE : execEqualiseTimeout e s = .next zz)
    : Keeps (Fld.but [.pending, .cfg, .blob, .clk, .pwr]) s zz := by
  unfold execEqualiseTimeout at hE
  try dsimp -iota -proj only at hE
  obtain rfl := Host.Outcome.next.inj hE
  split
  · exact Keeps.refl
  · split
    · refine Keeps.step (State.equalised_keeps ..) (by decide) ?_
      refine Keeps.step (State.takeFree_keeps_eq (by assumption)) (by decide) ?_
      refine Keeps.step (State.timeTo_keeps ..) (by decide) ?_
      exact Keeps.refl

theorem State.reqBad_keeps (s : State) (r : Sys2Proof.Req) : Keeps [.out, .ctr, .media, .q, .ev] s (State.reqBad s r) := by
  unfold State.reqBad
  try dsimp -iota -proj only
  refine Keeps.step (State.reject_keeps ..) (by decide) ?_
  refine Keeps.step (State.badDoorbell_keeps ..) (by decide) ?_
  exact Keeps.refl

theorem State.onCjHead_keeps_eq {s : State} {r : Sys2Proof.Req} {zz} (hE : State.onCjHead s r = .next zz)
    : Keeps [.out, .ctr, .media, .q, .ev] s zz := by
  unfold State.onCjHead at hE
  try dsimp -iota -proj only at hE
  obtain hE | hE := ite_cases hE
  · obtain rfl := Host.Outcome.next.inj hE
    refine Keeps.step (State.reqBad_keeps ..) (by decide) ?_
    exact Keeps.refl
  · refine Keeps.step (State.setCjHead_keeps_eq hE) (by decide) ?_
    exact Keeps.refl

theorem State.lentUnits_keeps (s : State) (e : Lent) (a : Nat) (n : Nat) : Keeps [.ctr, .tm] s
    (State.lentUnits s e a n) := by
  unfold State.lentUnits
  try dsimp -iota -proj only
  refine Keeps.step (State.hbmUnits_keeps ..) (by decide) ?_
  exact Keeps.refl

theorem State.respond_keeps (s : State) (r : Sys2Proof.Req) (sub : Nat) (vl : Nat) (status : Nat) (bs
    : Sys2Proof.Bytes) : Keeps [.ctr, .tm] s (State.respond s r sub vl status bs) := by
  unfold State.respond
  try dsimp -iota -proj only
  refine Keeps.step (State.place_keeps ..) (by decide) ?_
  exact Keeps.refl

theorem State.onLeaseRead_keeps (s : State) (r : Sys2Proof.Req) : Keeps [.ctr, .tm] s (State.onLeaseRead s r) := by
  unfold State.onLeaseRead
  try dsimp -iota -proj only
  split
  · refine Keeps.ite ?_ ?_
    · refine Keeps.step (State.respond_keeps ..) (by decide) ?_
      refine Keeps.step (State.lentUnits_keeps ..) (by decide) ?_
      exact Keeps.refl
    · refine Keeps.step (State.reject_keeps ..) (by decide) ?_
      refine Keeps.step (State.respond_keeps ..) (by decide) ?_
      exact Keeps.refl
  · refine Keeps.step (State.reject_keeps ..) (by decide) ?_
    refine Keeps.step (State.respond_keeps ..) (by decide) ?_
    exact Keeps.refl

theorem State.onLeaseWrite_keeps (s : State) (n : Nat) (id : Nat) (a : Nat) (d : Sys2Proof.Bytes)
    : Keeps [.ctr, .tm, .lk] s (State.onLeaseWrite s n id a d) := by
  unfold State.onLeaseWrite
  try dsimp -iota -proj only
  split
  · refine Keeps.ite ?_ ?_
    · refine Keeps.step (State.reject_keeps ..) (by decide) ?_
      exact Keeps.refl
    · refine Keeps.step (State.lentUnits_keeps ..) (by decide) ?_
      refine Keeps.step (Keeps.set_lk ..) (by decide) ?_
      exact Keeps.refl
  · refine Keeps.step (State.reject_keeps ..) (by decide) ?_
    exact Keeps.refl

theorem State.onGrant_keeps (s : State) (n : Nat) (id : Nat) (term : Nat) (notice : Nat) (bytes : Nat)
    : Keeps [.out, .ctr, .media, .q, .tm, .ev, .lk] s (State.onGrant s n id term notice bytes) := by
  unfold State.onGrant
  try dsimp -iota -proj only
  split
  · refine Keeps.ite ?_ ?_
    · exact Keeps.refl
    · refine Keeps.step (State.leaseEvent_keeps ..) (by decide) ?_
      refine Keeps.step (Keeps.set_lk ..) (by decide) ?_
      exact Keeps.refl
  · split
    · refine Keeps.step (State.borrow_keeps ..) (by decide) ?_
      refine Keeps.step (State.leaseEvent_keeps ..) (by decide) ?_
      refine Keeps.step (Keeps.set_lk ..) (by decide) ?_
      exact Keeps.refl
    · refine Keeps.step (State.reject_keeps ..) (by decide) ?_
      exact Keeps.refl

theorem State.onOfferFrame_keeps (s : State) (n : Nat) (bytes : Nat) : Keeps [.ctr, .tm, .lk] s
    (State.onOfferFrame s n bytes) := by
  unfold State.onOfferFrame
  try dsimp -iota -proj only
  refine Keeps.step (State.borrow_keeps ..) (by decide) ?_
  refine Keeps.step (Keeps.set_lk ..) (by decide) ?_
  exact Keeps.refl

theorem State.onReleased_keeps (s : State) (n : Nat) (id : Nat) : Keeps [.out, .ctr, .media, .q, .tm, .ev, .lk] s
    (State.onReleased s n id) := by
  unfold State.onReleased
  try dsimp -iota -proj only
  split
  · refine Keeps.step (State.endLent_keeps ..) (by decide) ?_
    exact Keeps.refl
  · exact Keeps.refl

theorem State.onRenew_keeps (s : State) (n : Nat) (id : Nat) : Keeps [.ctr, .tm, .lk] s (State.onRenew s n id) := by
  unfold State.onRenew
  try dsimp -iota -proj only
  split
  · refine Keeps.ite ?_ ?_
    · exact Keeps.refl
    · refine Keeps.step (State.sendLend_keeps ..) (by decide) ?_
      refine Keeps.step (Keeps.set_lk ..) (by decide) ?_
      exact Keeps.refl
  · refine Keeps.step (State.sendLend_keeps ..) (by decide) ?_
    exact Keeps.refl

theorem State.onRequest_keeps (s : State) (n : Nat) (bytes : Nat) : Keeps [.out, .ctr, .media, .q, .tm, .ev, .lk] s
    (State.onRequest s n bytes) := by
  unfold State.onRequest
  try dsimp -iota -proj only
  split
  · refine Keeps.ite ?_ ?_
    · refine Keeps.step (State.sendLend_keeps ..) (by decide) ?_
      exact Keeps.refl
    · refine Keeps.step (State.sendOffers_keeps ..) (by decide) ?_
      refine Keeps.step (State.leaseEvent_keeps ..) (by decide) ?_
      refine Keeps.step (State.sendLend_keeps ..) (by decide) ?_
      refine Keeps.step (Keeps.set_lk ..) (by decide) ?_
      exact Keeps.refl
  · refine Keeps.step (State.sendLend_keeps ..) (by decide) ?_
    exact Keeps.refl

theorem State.onRevoke_keeps (s : State) (n : Nat) (id : Nat) (notice : Nat)
    : Keeps [.free, .out, .ctr, .pg, .tier, .media, .q, .tm, .ev, .lk] s (State.onRevoke s n id notice) := by
  unfold State.onRevoke
  try dsimp -iota -proj only
  split
  · refine Keeps.step (State.revokeLease_keeps ..) (by decide) ?_
    exact Keeps.refl
  · exact Keeps.refl

theorem State.onLend_keeps (s : State) (n : Nat) (i : Sys2Proof.Instr)
    : Keeps [.free, .out, .ctr, .pg, .tier, .media, .q, .tm, .ev, .lk] s (State.onLend s n i) := by
  unfold State.onLend
  try dsimp -iota -proj only
  split
  · refine Keeps.step (State.onOfferFrame_keeps ..) (by decide) ?_
    refine Keeps.step (State.linkCount_keeps ..) (by decide) ?_
    exact Keeps.refl
  · refine Keeps.step (State.onRequest_keeps ..) (by decide) ?_
    refine Keeps.step (State.linkCount_keeps ..) (by decide) ?_
    exact Keeps.refl
  · refine Keeps.step (State.onGrant_keeps ..) (by decide) ?_
    refine Keeps.step (State.linkCount_keeps ..) (by decide) ?_
    exact Keeps.refl
  · refine Keeps.ite ?_ ?_
    · refine Keeps.step (State.linkCount_keeps ..) (by decide) ?_
      exact Keeps.refl
    · refine Keeps.step (Keeps.set_lk ..) (by decide) ?_
      refine Keeps.step (State.linkCount_keeps ..) (by decide) ?_
      exact Keeps.refl
  · refine Keeps.step (State.onRenew_keeps ..) (by decide) ?_
    refine Keeps.step (State.linkCount_keeps ..) (by decide) ?_
    exact Keeps.refl
  · refine Keeps.step (State.onRevoke_keeps ..) (by decide) ?_
    refine Keeps.step (State.linkCount_keeps ..) (by decide) ?_
    exact Keeps.refl
  · refine Keeps.step (State.onReleased_keeps ..) (by decide) ?_
    refine Keeps.step (State.linkCount_keeps ..) (by decide) ?_
    exact Keeps.refl
  · refine Keeps.step (State.linkCount_keeps ..) (by decide) ?_
    exact Keeps.refl

theorem State.onPull_keeps_eq {s : State} {r : Sys2Proof.Req} {zz} (hE : State.onPull s r = some (.next zz))
    : Keeps [.free, .out, .cfg, .ctr, .pg, .tier, .media, .q, .mem, .tm, .part, .ev, .lk] s zz := by
  unfold State.onPull at hE
  try dsimp -iota -proj only at hE
  split at hE
  · cases hE
  · obtain hE | hE := ite_cases hE
    · obtain rfl := Host.Outcome.next.inj (Option.some.inj hE)
      refine Keeps.step (State.reject_keeps ..) (by decide) ?_
      refine Keeps.step (State.endOp_keeps ..) (by decide) ?_
      refine Keeps.ite ?_ ?_
      · refine Keeps.step (State.idlePlan_keeps ..) (by decide) ?_
        refine Keeps.step (State.takeEntry_keeps_eq (by assumption)) (by decide) ?_
        exact Keeps.refl
      · refine Keeps.step (State.takeEntry_keeps_eq (by assumption)) (by decide) ?_
        exact Keeps.refl
    · obtain rfl := Host.Outcome.next.inj (Option.some.inj hE)
      refine Keeps.step (State.stagePositions_keeps ..) (by decide) ?_
      refine Keeps.step (State.setPlan_keeps ..) (by decide) ?_
      refine Keeps.step (State.takeEntry_keeps_eq (by assumption)) (by decide) ?_
      exact Keeps.refl

theorem State.leaseGot_keeps (s : State) (r : LeaseRd)
    : Keeps [.free, .out, .ctr, .pg, .tier, .media, .q, .tm, .ev, .lk] s (State.leaseGot s r) := by
  unfold State.leaseGot
  try dsimp -iota -proj only
  refine Keeps.ite ?_ ?_
  · exact Keeps.refl
  · split
    · refine Keeps.step (Keeps.set_lk ..) (by decide) ?_
      exact Keeps.refl
    · split
      · refine Keeps.ite ?_ ?_
        · refine Keeps.step (State.promoteRead_keeps ..) (by decide) ?_
          refine Keeps.step (State.arrive_keeps ..) (by decide) ?_
          refine Keeps.step (Keeps.set_lk ..) (by decide) ?_
          exact Keeps.refl
        · refine Keeps.step (State.arrive_keeps ..) (by decide) ?_
          refine Keeps.step (Keeps.set_lk ..) (by decide) ?_
          exact Keeps.refl
      · refine Keeps.ite ?_ ?_
        · refine Keeps.step (Keeps.set_lk ..) (by decide) ?_
          exact Keeps.refl
        · refine Keeps.ite ?_ ?_
          · refine Keeps.step (State.leaseCheck_keeps ..) (by decide) ?_
            refine Keeps.step (State.loseTN_keeps ..) (by decide) ?_
            refine Keeps.ite ?_ ?_
            · refine Keeps.step (State.startWriteBack_keeps ..) (by decide) ?_
              refine Keeps.step (Keeps.set_lk ..) (by decide) ?_
              exact Keeps.refl
            · refine Keeps.step (State.promoteRead_keeps ..) (by decide) ?_
              refine Keeps.step (Keeps.set_lk ..) (by decide) ?_
              exact Keeps.refl
          · refine Keeps.ite ?_ ?_
            · refine Keeps.step (State.startWriteBack_keeps ..) (by decide) ?_
              refine Keeps.step (Keeps.set_lk ..) (by decide) ?_
              exact Keeps.refl
            · refine Keeps.step (State.promoteRead_keeps ..) (by decide) ?_
              refine Keeps.step (Keeps.set_lk ..) (by decide) ?_
              exact Keeps.refl

theorem State.onResponse_keeps (s : State) (n : Nat) (rtag : Nat) (status : Nat) (last : Bool) (d : Sys2Proof.Bytes)
    : Keeps [.free, .out, .ctr, .pg, .tier, .media, .q, .tm, .ev, .lk] s (State.onResponse s n rtag status last d) := by
  unfold State.onResponse
  try dsimp -iota -proj only
  split
  · refine Keeps.ite ?_ ?_
    · refine Keeps.step (State.reject_keeps ..) (by decide) ?_
      exact Keeps.refl
    · refine Keeps.ite ?_ ?_
      · refine Keeps.step (State.leaseGot_keeps ..) (by decide) ?_
        refine Keeps.step (Keeps.set_lk ..) (by decide) ?_
        exact Keeps.refl
      · refine Keeps.step (Keeps.set_lk ..) (by decide) ?_
        exact Keeps.refl
  · refine Keeps.step (State.reject_keeps ..) (by decide) ?_
    exact Keeps.refl

theorem State.onSubmit_keeps_eq {s : State} {r : Sys2Proof.Req} {zz} (hE : State.onSubmit s r = some (.next zz))
    : Keeps [.out, .ctr, .media, .q, .mem, .ev] s zz := by
  unfold State.onSubmit at hE
  try dsimp -iota -proj only at hE
  obtain hE | hE := ite_cases hE
  · obtain rfl := Host.Outcome.next.inj (Option.some.inj hE)
    refine Keeps.step (State.reqBad_keeps ..) (by decide) ?_
    exact Keeps.refl
  · obtain hE | hE := ite_cases hE
    · cases hE
    · obtain rfl := Host.Outcome.next.inj (Option.some.inj hE)
      refine Keeps.step (State.setTail_keeps ..) (by decide) ?_
      refine Keeps.foldl (fun _ _ _ => ?_) ?_
      · refine Keeps.step (State.windowWrite_keeps ..) (by decide) ?_
        assumption
      · exact Keeps.refl

theorem State.onTail_keeps (s : State) (r : Sys2Proof.Req) : Keeps [.out, .ctr, .media, .q, .ev] s (State.onTail s r) := by
  unfold State.onTail
  try dsimp -iota -proj only
  refine Keeps.ite ?_ ?_
  · refine Keeps.step (State.reqBad_keeps ..) (by decide) ?_
    exact Keeps.refl
  · refine Keeps.step (State.setTail_keeps ..) (by decide) ?_
    exact Keeps.refl

theorem State.onWindowRead_keeps (s : State) (r : Sys2Proof.Req) : Keeps [.ctr, .tm] s (State.onWindowRead s r) := by
  unfold State.onWindowRead
  try dsimp -iota -proj only
  refine Keeps.ite ?_ ?_
  · refine Keeps.step (State.respond_keeps ..) (by decide) ?_
    exact Keeps.refl
  · refine Keeps.step (State.reject_keeps ..) (by decide) ?_
    refine Keeps.step (State.respond_keeps ..) (by decide) ?_
    exact Keeps.refl

theorem State.onWindowWrite_keeps (s : State) (r : Sys2Proof.Req) : Keeps [.ctr, .mem] s (State.onWindowWrite s r) := by
  unfold State.onWindowWrite
  try dsimp -iota -proj only
  refine Keeps.ite ?_ ?_
  · refine Keeps.step (State.windowWrite_keeps ..) (by decide) ?_
    exact Keeps.refl
  · refine Keeps.step (State.reject_keeps ..) (by decide) ?_
    exact Keeps.refl

theorem State.applyFrame_keeps_eq {s : State} {i : Sys2Proof.Instr} {zz} (hE : State.applyFrame s i = some (.next zz))
    : Keeps (Fld.but [.pending, .up, .pxb]) s zz := by
  unfold State.applyFrame at hE
  try dsimp -iota -proj only at hE
  split at hE
  · refine Keeps.step (State.onSubmit_keeps_eq hE) (by decide) ?_
    exact Keeps.refl
  · obtain rfl := Host.Outcome.next.inj (Option.some.inj hE)
    refine Keeps.step (State.onTail_keeps ..) (by decide) ?_
    exact Keeps.refl
  · injection hE with hE
    refine Keeps.step (State.onCjHead_keeps_eq hE) (by decide) ?_
    exact Keeps.refl
  · refine Keeps.step (State.onPull_keeps_eq hE) (by decide) ?_
    exact Keeps.refl
  · obtain rfl := Host.Outcome.next.inj (Option.some.inj hE)
    refine Keeps.step (State.onWindowWrite_keeps ..) (by decide) ?_
    exact Keeps.refl
  · obtain rfl := Host.Outcome.next.inj (Option.some.inj hE)
    refine Keeps.step (State.onWindowRead_keeps ..) (by decide) ?_
    exact Keeps.refl
  · obtain rfl := Host.Outcome.next.inj (Option.some.inj hE)
    refine Keeps.step (State.onLeaseRead_keeps ..) (by decide) ?_
    exact Keeps.refl
  · obtain rfl := Host.Outcome.next.inj (Option.some.inj hE)
    refine Keeps.step (State.mark_keeps ..) (by decide) ?_
    exact Keeps.refl
  · obtain rfl := Host.Outcome.next.inj (Option.some.inj hE)
    refine Keeps.step (State.mark_keeps ..) (by decide) ?_
    exact Keeps.refl
  · obtain ⟨_, _, hE⟩ := Option.map_eq_some_iff.mp hE
    obtain rfl := Host.Outcome.next.inj hE
    refine Keeps.step (State.collFrame_keeps_eq (by assumption)) (by decide) ?_
    exact Keeps.refl
  · obtain rfl := Host.Outcome.next.inj (Option.some.inj hE)
    refine Keeps.step (State.onResponse_keeps ..) (by decide) ?_
    exact Keeps.refl
  · obtain rfl := Host.Outcome.next.inj (Option.some.inj hE)
    refine Keeps.step (State.onLeaseWrite_keeps ..) (by decide) ?_
    exact Keeps.refl
  · obtain rfl := Host.Outcome.next.inj (Option.some.inj hE)
    refine Keeps.step (State.reject_keeps ..) (by decide) ?_
    exact Keeps.refl
  · obtain rfl := Host.Outcome.next.inj (Option.some.inj hE)
    refine Keeps.step (State.onLend_keeps ..) (by decide) ?_
    exact Keeps.refl
  · obtain rfl := Host.Outcome.next.inj (Option.some.inj hE)
    refine Keeps.step (State.onLend_keeps ..) (by decide) ?_
    exact Keeps.refl
  · obtain rfl := Host.Outcome.next.inj (Option.some.inj hE)
    refine Keeps.step (State.onLend_keeps ..) (by decide) ?_
    exact Keeps.refl
  · obtain rfl := Host.Outcome.next.inj (Option.some.inj hE)
    refine Keeps.step (State.onLend_keeps ..) (by decide) ?_
    exact Keeps.refl
  · obtain rfl := Host.Outcome.next.inj (Option.some.inj hE)
    refine Keeps.step (State.onLend_keeps ..) (by decide) ?_
    exact Keeps.refl
  · obtain rfl := Host.Outcome.next.inj (Option.some.inj hE)
    refine Keeps.step (State.onLend_keeps ..) (by decide) ?_
    exact Keeps.refl
  · obtain rfl := Host.Outcome.next.inj (Option.some.inj hE)
    refine Keeps.step (State.onLend_keeps ..) (by decide) ?_
    exact Keeps.refl
  · obtain rfl := Host.Outcome.next.inj (Option.some.inj hE)
    refine Keeps.step (zdpApply_keeps ..) (by decide) ?_
    exact Keeps.refl

theorem State.frameIn_keeps_eq {s : State} {n : Nat} {i : Sys2Proof.Instr} {zz} (hE : State.frameIn s n i = .next zz)
    : Keeps (Fld.but [.pending, .up, .pxb]) s zz := by
  unfold State.frameIn at hE
  try dsimp -iota -proj only at hE
  refine State.receiveRes_keeps_eq (by decide) (fun _ _ _ hE => ?_) ?_ hE
  · refine Keeps.step (State.applyFrame_keeps_eq hE) (by decide) ?_
    assumption
  · exact Keeps.refl

theorem execSubmit_keeps_eq {r : Sys2Proof.Req} {s : State} {zz} (hE : execSubmit r s = .next zz) : Keeps
    (Fld.but [.pending, .up, .pxb]) s zz := by
  unfold execSubmit at hE
  try dsimp -iota -proj only at hE
  refine Keeps.step (State.frameIn_keeps_eq hE) (by decide) ?_
  exact Keeps.refl

theorem execCreditPeriod_keeps_eq {e : Sys2Proof.LinkEnd} {s : State} {zz} (hE : execCreditPeriod e s = .next zz)
    : Keeps [.out] s zz := by
  unfold execCreditPeriod at hE
  try dsimp -iota -proj only at hE
  obtain rfl := Host.Outcome.next.inj hE
  split
  · refine Keeps.ite ?_ ?_
    · refine Keeps.step (State.sendCredit_keeps ..) (by decide) ?_
      exact Keeps.refl
    · exact Keeps.refl
  · refine Keeps.ite ?_ ?_
    · exact Keeps.refl
    · refine Keeps.step (State.pxCredit_keeps ..) (by decide) ?_
      exact Keeps.refl

theorem execEqualisationDone_keeps_eq {e : Sys2Proof.LinkEnd} {ls : List Nat} {s : State} {zz} (hE
    : execEqualisationDone e ls s = .next zz) : Keeps (Fld.but [.pending, .up, .now, .cfg, .blob, .clk, .pwr]) s zz := by
  unfold execEqualisationDone at hE
  try dsimp -iota -proj only at hE
  obtain rfl := Host.Outcome.next.inj hE
  refine Keeps.step (State.equalised_keeps ..) (by decide) ?_
  exact Keeps.refl

theorem execTail_keeps_eq {r : Sys2Proof.Req} {s : State} {zz} (hE : execTail r s = .next zz) : Keeps
    (Fld.but [.pending, .up, .pxb]) s zz := by
  unfold execTail at hE
  try dsimp -iota -proj only at hE
  refine Keeps.step (State.frameIn_keeps_eq hE) (by decide) ?_
  exact Keeps.refl

theorem execLeaseRenewTimer_keeps_eq {k : Nat} {s : State} {zz} (hE : execLeaseRenewTimer k s = .next zz)
    : Keeps [.up, .now, .ctr, .tm, .lk] s zz := by
  unfold execLeaseRenewTimer at hE
  try dsimp -iota -proj only at hE
  obtain rfl := Host.Outcome.next.inj hE
  split
  · exact Keeps.refl
  · refine Keeps.ite ?_ ?_
    · exact Keeps.refl
    · split
      · refine Keeps.step (State.sendLend_keeps ..) (by decide) ?_
        refine Keeps.step (Keeps.set_lk ..) (by decide) ?_
        refine Keeps.step (State.timeTo_keeps ..) (by decide) ?_
        exact Keeps.refl
      · refine Keeps.step (Keeps.set_lk ..) (by decide) ?_
        refine Keeps.step (State.timeTo_keeps ..) (by decide) ?_
        exact Keeps.refl

theorem State.cutLink_keeps (s : State) (e : Sys2Proof.LinkEnd) (reason : Nat) : Keeps
    (Fld.but [.pending, .up, .now, .cfg, .blob, .px, .boot, .clk, .ix, .pwr]) s (State.cutLink s e reason) := by
  unfold State.cutLink
  try dsimp -iota -proj only
  split
  · refine Keeps.ite ?_ ?_
    · refine Keeps.step (State.linkDown_keeps ..) (by decide) ?_
      exact Keeps.refl
    · exact Keeps.refl
  · refine Keeps.ite ?_ ?_
    · exact Keeps.refl
    · refine Keeps.step (State.pxDown_keeps ..) (by decide) ?_
      exact Keeps.refl

theorem execLossOfLock_keeps_eq {e : Sys2Proof.LinkEnd} {s : State} {zz} (hE : execLossOfLock e s = .next zz) : Keeps
    (Fld.but [.pending, .up, .now, .cfg, .blob, .px, .boot, .clk, .ix, .pwr]) s zz := by
  unfold execLossOfLock at hE
  try dsimp -iota -proj only at hE
  obtain rfl := Host.Outcome.next.inj hE
  refine Keeps.step (State.cutLink_keeps ..) (by decide) ?_
  exact Keeps.refl

theorem execTrainingBlock_keeps_eq {e : Sys2Proof.LinkEnd} {role : Nat} {lanes : Nat} {rates : Nat} {id : Nat} {ls
    : List Nat} {s : State} {zz} (hE : execTrainingBlock e role lanes rates id ls s = .next zz) : Keeps
        (Fld.but [.pending, .up, .now, .cfg, .blob, .clk, .pwr]) s zz := by
  unfold execTrainingBlock at hE
  try dsimp -iota -proj only at hE
  obtain rfl := Host.Outcome.next.inj hE
  split
  · refine Keeps.ite ?_ ?_
    · refine Keeps.step (State.beginAttempt_keeps ..) (by decide) ?_
      refine Keeps.step (State.linkDown_keeps ..) (by decide) ?_
      exact Keeps.refl
    · refine Keeps.ite ?_ ?_
      · exact Keeps.refl
      · split
        · refine Keeps.step (State.linkUp_keeps ..) (by decide) ?_
          exact Keeps.refl
        · refine Keeps.step (State.attemptFails_keeps ..) (by decide) ?_
          exact Keeps.refl
  · refine Keeps.ite ?_ ?_
    · exact Keeps.refl
    · refine Keeps.ite ?_ ?_
      · refine Keeps.step (State.pxBegin_keeps ..) (by decide) ?_
        refine Keeps.step (State.pxDown_keeps ..) (by decide) ?_
        exact Keeps.refl
      · refine Keeps.ite ?_ ?_
        · exact Keeps.refl
        · refine Keeps.ite ?_ ?_
          · refine Keeps.step (State.pxFails_keeps ..) (by decide) ?_
            exact Keeps.refl
          · split
            · refine Keeps.step (State.pxUp_keeps ..) (by decide) ?_
              exact Keeps.refl
            · refine Keeps.step (State.pxFails_keeps ..) (by decide) ?_
              exact Keeps.refl

theorem execWindowRead_keeps_eq {r : Sys2Proof.Req} {s : State} {zz} (hE : execWindowRead r s = .next zz) : Keeps
    (Fld.but [.pending, .up, .pxb]) s zz := by
  unfold execWindowRead at hE
  try dsimp -iota -proj only at hE
  refine Keeps.step (State.frameIn_keeps_eq hE) (by decide) ?_
  exact Keeps.refl

theorem execGrant_keeps_eq {n : Nat} {id : Nat} {term : Nat} {notice : Nat} {b : Nat} {s : State} {zz} (hE
    : execGrant n id term notice b s = .next zz) : Keeps (Fld.but [.pending, .up, .pxb]) s zz := by
  unfold execGrant at hE
  try dsimp -iota -proj only at hE
  refine Keeps.step (State.frameIn_keeps_eq hE) (by decide) ?_
  exact Keeps.refl

theorem execSinkFrameReject_keeps_eq {n : Nat} {vl : Nat} {a : Nat} {d : Sys2Proof.Bytes} {s : State} {zz} (hE
    : execSinkFrameReject n vl a d s = .next zz) : Keeps (Fld.but [.pending, .up, .pxb]) s zz := by
  unfold execSinkFrameReject at hE
  try dsimp -iota -proj only at hE
  refine Keeps.step (State.frameIn_keeps_eq hE) (by decide) ?_
  exact Keeps.refl

theorem execFrameDiscarded_keeps_eq {e : Sys2Proof.LinkEnd} {cause : Nat} {s : State} {zz} (hE
    : execFrameDiscarded e cause s = .next zz) : Keeps [.out, .ctr, .lk, .pxb] s zz := by
  unfold execFrameDiscarded at hE
  try dsimp -iota -proj only at hE
  obtain rfl := Host.Outcome.next.inj hE
  split
  · refine Keeps.ite ?_ ?_
    · exact Keeps.refl
    · refine Keeps.ite ?_ ?_
      · refine Keeps.step (State.sendAck_keeps ..) (by decide) ?_
        exact Keeps.refl
      · refine Keeps.ite ?_ ?_
        · refine Keeps.step (State.sendNak_keeps ..) (by decide) ?_
          refine Keeps.step (State.setLink_keeps ..) (by decide) ?_
          refine Keeps.ite ?_ ?_
          · refine Keeps.step (State.linkCount_keeps ..) (by decide) ?_
            exact Keeps.refl
          · refine Keeps.ite ?_ ?_
            · refine Keeps.step (State.linkCount_keeps ..) (by decide) ?_
              exact Keeps.refl
            · exact Keeps.refl
        · refine Keeps.step (State.setLink_keeps ..) (by decide) ?_
          refine Keeps.ite ?_ ?_
          · refine Keeps.step (State.linkCount_keeps ..) (by decide) ?_
            exact Keeps.refl
          · refine Keeps.ite ?_ ?_
            · refine Keeps.step (State.linkCount_keeps ..) (by decide) ?_
              exact Keeps.refl
            · exact Keeps.refl
  · refine Keeps.ite ?_ ?_
    · exact Keeps.refl
    · refine Keeps.ite ?_ ?_
      · refine Keeps.step (State.pxAck_keeps ..) (by decide) ?_
        exact Keeps.refl
      · refine Keeps.ite ?_ ?_
        · refine Keeps.step (State.pxNak_keeps ..) (by decide) ?_
          refine Keeps.step (State.setPx_keeps ..) (by decide) ?_
          exact Keeps.refl
        · refine Keeps.step (State.setPx_keeps ..) (by decide) ?_
          exact Keeps.refl

theorem execAck_keeps_eq {e : Sys2Proof.LinkEnd} {f : Nat} {s : State} {zz} (hE : execAck e f s = .next zz)
    : Keeps [.out, .ctr, .pg, .media, .q, .mem, .tm, .part, .ev, .lk, .pxb] s zz := by
  unfold execAck at hE
  try dsimp -iota -proj only at hE
  obtain rfl := Host.Outcome.next.inj hE
  split
  · split
    · refine Keeps.step (State.releaseFrames_keeps ..) (by decide) ?_
      exact Keeps.refl
    · exact Keeps.refl
  · split
    · refine Keeps.ite ?_ ?_
      · exact Keeps.refl
      · refine Keeps.step (State.pxPump_keeps ..) (by decide) ?_
        refine Keeps.step (State.pxRelease_keeps ..) (by decide) ?_
        exact Keeps.refl
    · exact Keeps.refl

theorem execDataResponse_keeps_eq {n : Nat} {vl : Nat} {rtag : Nat} {status : Nat} {addr : Nat} {last : Bool} {d
    : Sys2Proof.Bytes} {s : State} {zz} (hE : execDataResponse n vl rtag status addr last d s = .next zz) : Keeps
        (Fld.but [.pending, .up, .pxb]) s zz := by
  unfold execDataResponse at hE
  try dsimp -iota -proj only at hE
  refine Keeps.step (State.frameIn_keeps_eq hE) (by decide) ?_
  exact Keeps.refl

theorem execCjHead_keeps_eq {r : Sys2Proof.Req} {s : State} {zz} (hE : execCjHead r s = .next zz) : Keeps
    (Fld.but [.pending, .up, .pxb]) s zz := by
  unfold execCjHead at hE
  try dsimp -iota -proj only at hE
  refine Keeps.step (State.frameIn_keeps_eq hE) (by decide) ?_
  exact Keeps.refl

theorem execRetrainInterval_keeps_eq {e : Sys2Proof.LinkEnd} {s : State} {zz} (hE : execRetrainInterval e s = .next zz)
    : Keeps [.up, .now, .lk, .pxb] s zz := by
  unfold execRetrainInterval at hE
  try dsimp -iota -proj only at hE
  obtain rfl := Host.Outcome.next.inj hE
  split
  · refine Keeps.ite ?_ ?_
    · refine Keeps.step (State.beginAttempt_keeps ..) (by decide) ?_
      refine Keeps.step (State.timeTo_keeps ..) (by decide) ?_
      exact Keeps.refl
    · exact Keeps.refl
  · refine Keeps.ite ?_ ?_
    · refine Keeps.step (State.pxBegin_keeps ..) (by decide) ?_
      refine Keeps.step (State.timeTo_keeps ..) (by decide) ?_
      exact Keeps.refl
    · exact Keeps.refl

theorem execLendOfferPeriod_keeps_eq {s : State} {zz} (hE : execLendOfferPeriod s = .next zz)
    : Keeps [.up, .now, .ctr, .tm, .lk] s zz := by
  unfold execLendOfferPeriod at hE
  try dsimp -iota -proj only at hE
  obtain rfl := Host.Outcome.next.inj hE
  refine Keeps.step (State.sendOffers_keeps ..) (by decide) ?_
  refine Keeps.step (Keeps.set_lk ..) (by decide) ?_
  refine Keeps.step (State.timeTo_keeps ..) (by decide) ?_
  exact Keeps.refl

theorem execTrainingAttemptTimeout_keeps_eq {e : Sys2Proof.LinkEnd} {s : State} {zz} (hE
    : execTrainingAttemptTimeout e s = .next zz) : Keeps (Fld.but [.pending, .cfg, .blob, .clk, .pwr]) s zz := by
  unfold execTrainingAttemptTimeout at hE
  try dsimp -iota -proj only at hE
  obtain rfl := Host.Outcome.next.inj hE
  split
  · exact Keeps.refl
  · split
    · refine Keeps.step (State.attemptFails_keeps ..) (by decide) ?_
      refine Keeps.step (State.timeTo_keeps ..) (by decide) ?_
      exact Keeps.refl
    · refine Keeps.ite ?_ ?_
      · refine Keeps.step (State.timeTo_keeps ..) (by decide) ?_
        exact Keeps.refl
      · refine Keeps.step (State.pxFails_keeps ..) (by decide) ?_
        refine Keeps.step (State.timeTo_keeps ..) (by decide) ?_
        exact Keeps.refl

theorem execAckDelayExpiry_keeps_eq {e : Sys2Proof.LinkEnd} {s : State} {zz} (hE : execAckDelayExpiry e s = .next zz)
    : Keeps [.out, .up, .now, .lk, .pxb] s zz := by
  unfold execAckDelayExpiry at hE
  try dsimp -iota -proj only at hE
  obtain rfl := Host.Outcome.next.inj hE
  split
  · split
    · refine Keeps.step (State.sendAck_keeps ..) (by decide) ?_
      refine Keeps.step (State.timeTo_keeps ..) (by decide) ?_
      exact Keeps.refl
    · exact Keeps.refl
  · split
    · refine Keeps.ite ?_ ?_
      · exact Keeps.refl
      · refine Keeps.step (State.pxAck_keeps ..) (by decide) ?_
        refine Keeps.step (State.timeTo_keeps ..) (by decide) ?_
        exact Keeps.refl
    · exact Keeps.refl

theorem execCollFrame_keeps_eq {n : Nat} {vl : Nat} {set : Nat} {member : Nat} {kind : Nat} {fp32 : Bool} {p : Nat}
    {round : Nat} {off : Nat} {total : Nat} {d : Sys2Proof.Bytes} {s : State} {zz} (hE
        : execCollFrame n vl set member kind fp32 p round off total d s = .next zz) : Keeps
            (Fld.but [.pending, .up, .pxb]) s zz := by
  unfold execCollFrame at hE
  try dsimp -iota -proj only at hE
  refine Keeps.step (State.frameIn_keeps_eq hE) (by decide) ?_
  exact Keeps.refl

theorem execCredit_keeps_eq {e : Sys2Proof.LinkEnd} {ls : List Nat} {s : State} {zz} (hE
    : execCredit e ls s = .next zz) : Keeps [.out, .lk, .pxb] s zz := by
  unfold execCredit at hE
  try dsimp -iota -proj only at hE
  obtain rfl := Host.Outcome.next.inj hE
  split
  · refine Keeps.ite ?_ ?_
    · refine Keeps.step (State.setLink_keeps ..) (by decide) ?_
      exact Keeps.refl
    · exact Keeps.refl
  · refine Keeps.ite ?_ ?_
    · exact Keeps.refl
    · refine Keeps.step (State.pxPump_keeps ..) (by decide) ?_
      refine Keeps.step (State.setPxLk_keeps ..) (by decide) ?_
      exact Keeps.refl

theorem execDeny_keeps_eq {n : Nat} {id : Nat} {s : State} {zz} (hE : execDeny n id s = .next zz) : Keeps
    (Fld.but [.pending, .up, .pxb]) s zz := by
  unfold execDeny at hE
  try dsimp -iota -proj only at hE
  refine Keeps.step (State.frameIn_keeps_eq hE) (by decide) ?_
  exact Keeps.refl

theorem execLeaseNoticeEnd_keeps_eq {lent : Bool} {k : Nat} {s : State} {zz} (hE
    : execLeaseNoticeEnd lent k s = .next zz)
        : Keeps [.free, .out, .up, .now, .ctr, .pg, .tier, .media, .q, .tm, .ev, .lk] s zz := by
  unfold execLeaseNoticeEnd at hE
  try dsimp -iota -proj only at hE
  obtain rfl := Host.Outcome.next.inj hE
  refine Keeps.ite ?_ ?_
  · split
    · exact Keeps.refl
    · refine Keeps.step (State.endLent_keeps ..) (by decide) ?_
      refine Keeps.step (State.timeTo_keeps ..) (by decide) ?_
      exact Keeps.refl
  · split
    · exact Keeps.refl
    · refine Keeps.ite ?_ ?_
      · exact Keeps.refl
      · refine Keeps.step (State.endLease_keeps ..) (by decide) ?_
        split
        · refine Keeps.step (State.sendLend_keeps ..) (by decide) ?_
          refine Keeps.step (State.timeTo_keeps ..) (by decide) ?_
          exact Keeps.refl
        · refine Keeps.step (State.timeTo_keeps ..) (by decide) ?_
          exact Keeps.refl

theorem execLeaseRead_keeps_eq {r : Sys2Proof.Req} {s : State} {zz} (hE : execLeaseRead r s = .next zz) : Keeps
    (Fld.but [.pending, .up, .pxb]) s zz := by
  unfold execLeaseRead at hE
  try dsimp -iota -proj only at hE
  refine Keeps.step (State.frameIn_keeps_eq hE) (by decide) ?_
  exact Keeps.refl

theorem execLeaseTermEnd_keeps_eq {k : Nat} {s : State} {zz} (hE : execLeaseTermEnd k s = .next zz)
    : Keeps [.free, .out, .up, .now, .ctr, .pg, .tier, .media, .q, .tm, .ev, .lk] s zz := by
  unfold execLeaseTermEnd at hE
  try dsimp -iota -proj only at hE
  obtain rfl := Host.Outcome.next.inj hE
  split
  · exact Keeps.refl
  · refine Keeps.ite ?_ ?_
    · exact Keeps.refl
    · refine Keeps.step (State.revokeLease_keeps ..) (by decide) ?_
      refine Keeps.step (State.timeTo_keeps ..) (by decide) ?_
      exact Keeps.refl

theorem execLeaseWrite_keeps_eq {n : Nat} {vl : Nat} {id : Nat} {a : Nat} {d : Sys2Proof.Bytes} {s : State} {zz} (hE
    : execLeaseWrite n vl id a d s = .next zz) : Keeps (Fld.but [.pending, .up, .pxb]) s zz := by
  unfold execLeaseWrite at hE
  try dsimp -iota -proj only at hE
  refine Keeps.step (State.frameIn_keeps_eq hE) (by decide) ?_
  exact Keeps.refl

theorem execMarkStart_keeps_eq {n : Nat} {p : Nat} {k : Nat} {i : Nat} {s : State} {zz} (hE
    : execMarkStart n p k i s = .next zz) : Keeps (Fld.but [.pending, .up, .pxb]) s zz := by
  unfold execMarkStart at hE
  try dsimp -iota -proj only at hE
  refine Keeps.step (State.frameIn_keeps_eq hE) (by decide) ?_
  exact Keeps.refl

theorem execMarkStepBegin_keeps_eq {n : Nat} {p : Nat} {k : Nat} {s : State} {zz} (hE
    : execMarkStepBegin n p k s = .next zz) : Keeps (Fld.but [.pending, .up, .pxb]) s zz := by
  unfold execMarkStepBegin at hE
  try dsimp -iota -proj only at hE
  refine Keeps.step (State.frameIn_keeps_eq hE) (by decide) ?_
  exact Keeps.refl

theorem execNak_keeps_eq {e : Sys2Proof.LinkEnd} {f : Nat} {s : State} {zz} (hE : execNak e f s = .next zz) : Keeps
    (Fld.but [.pending, .up, .now, .cfg, .blob, .px, .boot, .clk, .ix, .pwr]) s zz := by
  unfold execNak at hE
  try dsimp -iota -proj only at hE
  obtain rfl := Host.Outcome.next.inj hE
  split
  · refine Keeps.ite ?_ ?_
    · exact Keeps.refl
    · split
      · refine Keeps.step (State.replayAll_keeps ..) (by decide) ?_
        refine Keeps.step (State.setLink_keeps ..) (by decide) ?_
        refine Keeps.step (State.releaseFrames_keeps ..) (by decide) ?_
        refine Keeps.step (State.linkCount_keeps ..) (by decide) ?_
        exact Keeps.refl
      · refine Keeps.step (State.linkCount_keeps ..) (by decide) ?_
        exact Keeps.refl
  · refine Keeps.ite ?_ ?_
    · exact Keeps.refl
    · split
      · refine Keeps.step (State.pxPump_keeps ..) (by decide) ?_
        refine Keeps.step (State.pxReplay_keeps ..) (by decide) ?_
        refine Keeps.step (State.setPxLk_keeps ..) (by decide) ?_
        refine Keeps.step (State.pxRelease_keeps ..) (by decide) ?_
        exact Keeps.refl
      · exact Keeps.refl

theorem execOffer_keeps_eq {n : Nat} {b : Nat} {s : State} {zz} (hE : execOffer n b s = .next zz) : Keeps
    (Fld.but [.pending, .up, .pxb]) s zz := by
  unfold execOffer at hE
  try dsimp -iota -proj only at hE
  refine Keeps.step (State.frameIn_keeps_eq hE) (by decide) ?_
  exact Keeps.refl

theorem execProtocolFrame_keeps_eq {e : Sys2Proof.LinkEnd} {s : State} {zz} (hE : execProtocolFrame e s = .next zz)
    : Keeps (Fld.but [.pending, .up, .now, .cfg, .blob, .px, .boot, .clk, .ix, .pwr]) s zz := by
  unfold execProtocolFrame at hE
  try dsimp -iota -proj only at hE
  obtain rfl := Host.Outcome.next.inj hE
  refine Keeps.step (State.cutLink_keeps ..) (by decide) ?_
  exact Keeps.refl

theorem execPull_keeps_eq {r : Sys2Proof.Req} {s : State} {zz} (hE : execPull r s = .next zz) : Keeps
    (Fld.but [.pending, .up, .pxb]) s zz := by
  unfold execPull at hE
  try dsimp -iota -proj only at hE
  refine Keeps.step (State.frameIn_keeps_eq hE) (by decide) ?_
  exact Keeps.refl

theorem execReleased_keeps_eq {n : Nat} {id : Nat} {s : State} {zz} (hE : execReleased n id s = .next zz) : Keeps
    (Fld.but [.pending, .up, .pxb]) s zz := by
  unfold execReleased at hE
  try dsimp -iota -proj only at hE
  refine Keeps.step (State.frameIn_keeps_eq hE) (by decide) ?_
  exact Keeps.refl

theorem execRenew_keeps_eq {n : Nat} {id : Nat} {s : State} {zz} (hE : execRenew n id s = .next zz) : Keeps
    (Fld.but [.pending, .up, .pxb]) s zz := by
  unfold execRenew at hE
  try dsimp -iota -proj only at hE
  refine Keeps.step (State.frameIn_keeps_eq hE) (by decide) ?_
  exact Keeps.refl

theorem execReplayTimeout_keeps_eq {e : Sys2Proof.LinkEnd} {s : State} {zz} (hE : execReplayTimeout e s = .next zz)
    : Keeps (Fld.but [.pending, .cfg, .blob, .px, .boot, .clk, .ix, .pwr]) s zz := by
  unfold execReplayTimeout at hE
  try dsimp -iota -proj only at hE
  obtain rfl := Host.Outcome.next.inj hE
  split
  · split
    · exact Keeps.refl
    · refine Keeps.step (State.replayAll_keeps ..) (by decide) ?_
      refine Keeps.step (State.linkCount_keeps ..) (by decide) ?_
      refine Keeps.step (State.timeTo_keeps ..) (by decide) ?_
      exact Keeps.refl
  · split
    · exact Keeps.refl
    · refine Keeps.ite ?_ ?_
      · exact Keeps.refl
      · refine Keeps.step (State.pxReplay_keeps ..) (by decide) ?_
        refine Keeps.step (State.timeTo_keeps ..) (by decide) ?_
        exact Keeps.refl

theorem State.applyHeld_keeps_eq {s : State} {n : Nat} {vl : Nat} {a3 : Nat} {zz} (hE
    : State.applyHeld s n vl a3 = .next zz) : Keeps (Fld.but [.pending, .up, .pxb]) s zz := by
  unfold State.applyHeld at hE
  try dsimp -iota -proj only at hE
  split at hE
  · obtain rfl := Host.Outcome.next.inj hE
    exact Keeps.refl
  · split at hE
    · obtain rfl := Host.Outcome.next.inj hE
      exact Keeps.refl
    · split at hE
      · obtain rfl := Host.Outcome.next.inj hE
        exact Keeps.refl
      · refine Keeps.step (State.applyHeld_keeps_eq hE) (by decide) ?_
        refine Keeps.ite ?_ ?_
        · refine Keeps.step (State.returnCredits_keeps ..) (by decide) ?_
          refine Keeps.step (State.setLink_keeps ..) (by decide) ?_
          refine Keeps.step (State.applyFrame_keeps_eq (by assumption)) (by decide) ?_
          exact Keeps.refl
        · refine Keeps.step (State.setLink_keeps ..) (by decide) ?_
          refine Keeps.step (State.applyFrame_keeps_eq (by assumption)) (by decide) ?_
          exact Keeps.refl
      · simp_all

theorem State.applyVls_keeps_eq {s : State} {n : Nat} {a2 : List Nat} {zz} (hE : State.applyVls s n a2 = .next zz)
    : Keeps (Fld.but [.pending, .up, .pxb]) s zz := by
  unfold State.applyVls at hE
  try dsimp -iota -proj only at hE
  split at hE
  · obtain rfl := Host.Outcome.next.inj hE
    exact Keeps.refl
  · split at hE
    · refine Keeps.step (State.applyVls_keeps_eq hE) (by decide) ?_
      refine Keeps.step (State.applyHeld_keeps_eq (by assumption)) (by decide) ?_
      exact Keeps.refl
    · simp_all

theorem execReqHeldApply_keeps_eq {n : Nat} {s : State} {zz} (hE : execReqHeldApply n s = .next zz) : Keeps
    (Fld.but [.pending, .up, .pxb]) s zz := by
  unfold execReqHeldApply at hE
  try dsimp -iota -proj only at hE
  refine Keeps.step (State.applyVls_keeps_eq hE) (by decide) ?_
  exact Keeps.refl

theorem execRequest_keeps_eq {n : Nat} {b : Nat} {s : State} {zz} (hE : execRequest n b s = .next zz) : Keeps
    (Fld.but [.pending, .up, .pxb]) s zz := by
  unfold execRequest at hE
  try dsimp -iota -proj only at hE
  refine Keeps.step (State.frameIn_keeps_eq hE) (by decide) ?_
  exact Keeps.refl

theorem execRevoke_keeps_eq {n : Nat} {id : Nat} {notice : Nat} {s : State} {zz} (hE
    : execRevoke n id notice s = .next zz) : Keeps (Fld.but [.pending, .up, .pxb]) s zz := by
  unfold execRevoke at hE
  try dsimp -iota -proj only at hE
  refine Keeps.step (State.frameIn_keeps_eq hE) (by decide) ?_
  exact Keeps.refl

theorem execWindowWrite_keeps_eq {r : Sys2Proof.Req} {s : State} {zz} (hE : execWindowWrite r s = .next zz) : Keeps
    (Fld.but [.pending, .up, .pxb]) s zz := by
  unfold execWindowWrite at hE
  try dsimp -iota -proj only at hE
  refine Keeps.step (State.frameIn_keeps_eq hE) (by decide) ?_
  exact Keeps.refl

/-! ### Power -/

theorem State.envEvent_keeps (s : State) (sev : Nat) (ps : List Nat) : Keeps [.out, .ctr, .media, .q, .ev] s
    (State.envEvent s sev ps) := by
  unfold State.envEvent
  try dsimp -iota -proj only
  refine Keeps.step (State.bump_keeps ..) (by decide) ?_
  refine Keeps.step (State.pfVec_keeps ..) (by decide) ?_
  refine Keeps.step (State.logEvent_keeps ..) (by decide) ?_
  exact Keeps.refl

theorem State.powerFailed_keeps (s : State) (mv : Nat) : Keeps [.out, .ctr, .media, .q, .ev, .pwr] s
    (State.powerFailed s mv) := by
  unfold State.powerFailed
  try dsimp -iota -proj only
  refine Keeps.ite ?_ ?_
  · exact Keeps.refl
  · refine Keeps.step (State.envEvent_keeps ..) (by decide) ?_
    refine Keeps.step (State.bump_keeps ..) (by decide) ?_
    refine Keeps.step (Keeps.set_pwr ..) (by decide) ?_
    exact Keeps.refl

theorem State.railsOff_keeps (s : State) : Keeps (Fld.but [.pending, .free, .out, .up, .pxb]) s (State.railsOff s) := by
  unfold State.railsOff
  try dsimp -iota -proj only
  refine Keeps.step (Keeps.set_pwr ..) (by decide) ?_
  refine Keeps.step (State.wiped_keeps ..) (by decide) ?_
  exact Keeps.refl

theorem State.tripOff_keeps (s : State) : Keeps (Fld.but [.pending, .free, .up, .pxb]) s (State.tripOff s) := by
  unfold State.tripOff
  try dsimp -iota -proj only
  refine Keeps.step (Keeps.set_pwr ..) (by decide) ?_
  refine Keeps.step (State.railsOff_keeps ..) (by decide) ?_
  refine Keeps.step (Keeps.set_media ..) (by decide) ?_
  refine Keeps.step (State.powerFailed_keeps ..) (by decide) ?_
  exact Keeps.refl

theorem State.trip_keeps (s : State) (code : Nat) (value : Nat) : Keeps (Fld.but [.pending, .up, .pxb]) s
    (State.trip s code value) := by
  unfold State.trip
  try dsimp -iota -proj only
  refine Keeps.ite ?_ ?_
  · exact Keeps.refl
  · refine Keeps.ite ?_ ?_
    · refine Keeps.step (State.syncBegin_keeps ..) (by decide) ?_
      refine Keeps.step (Keeps.set_media ..) (by decide) ?_
      refine Keeps.step (Keeps.set_pwr ..) (by decide) ?_
      refine Keeps.step (State.bump_keeps ..) (by decide) ?_
      refine Keeps.step (State.envEvent_keeps ..) (by decide) ?_
      exact Keeps.refl
    · refine Keeps.step (State.tripOff_keeps ..) (by decide) ?_
      refine Keeps.step (Keeps.set_pwr ..) (by decide) ?_
      refine Keeps.step (State.bump_keeps ..) (by decide) ?_
      refine Keeps.step (State.envEvent_keeps ..) (by decide) ?_
      exact Keeps.refl

theorem execPcieRenegotiation_keeps_eq {k : Nat} {lanes : Nat} {gts : Nat} {s : State} {zz} (hE
    : execPcieRenegotiation k lanes gts s = .next zz) : Keeps [.free, .out, .ctr, .media, .q, .tm, .part, .ev] s zz := by
  unfold execPcieRenegotiation at hE
  try dsimp -iota -proj only at hE
  obtain rfl := Host.Outcome.next.inj hE
  refine Keeps.ite ?_ ?_
  · exact Keeps.refl
  · refine Keeps.step (State.reRatio_keeps ..) (by decide) ?_
    refine Keeps.ite ?_ ?_
    · refine Keeps.step (State.enableVfs_keeps ..) (by decide) ?_
      refine Keeps.step (Keeps.set_tm ..) (by decide) ?_
      exact Keeps.refl
    · refine Keeps.step (Keeps.set_tm ..) (by decide) ?_
      exact Keeps.refl

theorem State.sensorTo_keeps (s : State) (code : Nat) (st : Nat) : Keeps [.out, .ctr, .media, .q, .ev, .pwr] s
    (State.sensorTo s code st) := by
  unfold State.sensorTo
  try dsimp -iota -proj only
  refine Keeps.ite ?_ ?_
  · exact Keeps.refl
  · refine Keeps.step (State.envEvent_keeps ..) (by decide) ?_
    refine Keeps.step (Keeps.set_pwr ..) (by decide) ?_
    exact Keeps.refl

theorem State.sample_keeps (s : State) (x : Sys2Proof.Sample) : Keeps [.out, .ctr, .media, .q, .ev, .pwr] s
    (State.sample s x) := by
  unfold State.sample
  try dsimp -iota -proj only
  split
  · refine Keeps.ite ?_ ?_
    · exact Keeps.refl
    · refine Keeps.step (State.envEvent_keeps ..) (by decide) ?_
      refine Keeps.step (Keeps.set_pwr ..) (by decide) ?_
      refine Keeps.step (Keeps.set_pwr ..) (by decide) ?_
      exact Keeps.refl
  · refine Keeps.ite ?_ ?_
    · exact Keeps.refl
    · refine Keeps.step (State.sensorTo_keeps ..) (by decide) ?_
      refine Keeps.step (Keeps.set_pwr ..) (by decide) ?_
      exact Keeps.refl

theorem State.tripGo_keeps (s : State) : Keeps (Fld.but [.pending, .free, .up, .pxb]) s (State.tripGo s) := by
  unfold State.tripGo
  try dsimp -iota -proj only
  split
  · refine Keeps.ite ?_ ?_
    · exact Keeps.refl
    · refine Keeps.step (State.tripOff_keeps ..) (by decide) ?_
      exact Keeps.refl
  · exact Keeps.refl

theorem execPerstRelease_keeps_eq {k : Nat} {s : State} {zz} (hE : execPerstRelease k s = .next zz)
    : Keeps [.free, .part, .pwr] s zz := by
  unfold execPerstRelease at hE
  try dsimp -iota -proj only at hE
  obtain rfl := Host.Outcome.next.inj hE
  refine Keeps.ite ?_ ?_
  · exact Keeps.refl
  · refine Keeps.ite ?_ ?_
    · refine Keeps.step (State.enableVfs_keeps ..) (by decide) ?_
      refine Keeps.step (Keeps.set_pwr ..) (by decide) ?_
      exact Keeps.refl
    · refine Keeps.step (Keeps.set_pwr ..) (by decide) ?_
      exact Keeps.refl

theorem execPorstAssert_keeps_eq {s : State} {zz} (hE : execPorstAssert s = .next zz) : Keeps
    (Fld.but [.pending, .free, .out, .up, .pxb]) s zz := by
  unfold execPorstAssert at hE
  try dsimp -iota -proj only at hE
  obtain rfl := Host.Outcome.next.inj hE
  refine Keeps.ite ?_ ?_
  · refine Keeps.step (State.wiped_keeps ..) (by decide) ?_
    exact Keeps.refl
  · exact Keeps.refl

theorem execInputFallsBelow40V_keeps_eq {s : State} {zz} (hE : execInputFallsBelow40V s = .next zz) : Keeps
    (Fld.but [.pending, .free, .out, .up, .pxb]) s zz := by
  unfold execInputFallsBelow40V at hE
  try dsimp -iota -proj only at hE
  obtain rfl := Host.Outcome.next.inj hE
  refine Keeps.ite ?_ ?_
  · refine Keeps.step (State.railsOff_keeps ..) (by decide) ?_
    exact Keeps.refl
  · exact Keeps.refl

theorem execSensorSample_keeps_eq {rs : List Sys2Proof.Sample} {s : State} {zz} (hE : execSensorSample rs s = .next zz)
    : Keeps (Fld.but [.pending, .pxb]) s zz := by
  unfold execSensorSample at hE
  try dsimp -iota -proj only at hE
  obtain rfl := Host.Outcome.next.inj hE
  refine Keeps.ite ?_ ?_
  · exact Keeps.refl
  · split
    · refine Keeps.step (State.trip_keeps ..) (by decide) ?_
      refine Keeps.step (State.tripGo_keeps ..) (by decide) ?_
      refine Keeps.step (Keeps.set_pwr ..) (by decide) ?_
      refine Keeps.foldl (fun _ _ _ => ?_) ?_
      · refine Keeps.step (State.sample_keeps ..) (by decide) ?_
        assumption
      · refine Keeps.step (State.timeTo_keeps ..) (by decide) ?_
        exact Keeps.refl
    · refine Keeps.step (State.tripGo_keeps ..) (by decide) ?_
      refine Keeps.step (Keeps.set_pwr ..) (by decide) ?_
      refine Keeps.foldl (fun _ _ _ => ?_) ?_
      · refine Keeps.step (State.sample_keeps ..) (by decide) ?_
        assumption
      · refine Keeps.step (State.timeTo_keeps ..) (by decide) ?_
        exact Keeps.refl

theorem execOperandWindowAccess_keeps_eq {k : Nat} {fn : Nat} {off : Nat} {n : Nat} {data : Option Sys2Proof.Bytes} {s
    : State} {zz} (hE : execOperandWindowAccess k fn off n data s = .next zz) : Keeps [.out, .ctr, .mem] s zz := by
  unfold execOperandWindowAccess at hE
  try dsimp -iota -proj only at hE
  obtain rfl := Host.Outcome.next.inj hE
  refine Keeps.ite ?_ ?_
  · exact Keeps.refl
  · split
    · refine Keeps.step (State.windowWrite_keeps ..) (by decide) ?_
      refine Keeps.ite ?_ ?_
      · refine Keeps.step (State.bump_keeps ..) (by decide) ?_
        exact Keeps.refl
      · exact Keeps.refl
    · refine Keeps.step (Keeps.set_out ..) (by decide) ?_
      refine Keeps.ite ?_ ?_
      · refine Keeps.step (State.bump_keeps ..) (by decide) ?_
        exact Keeps.refl
      · exact Keeps.refl

theorem execPowerFail_keeps_eq {mv : Nat} {s : State} {zz} (hE : execPowerFail mv s = .next zz)
    : Keeps [.out, .ctr, .media, .q, .ev, .pwr] s zz := by
  unfold execPowerFail at hE
  try dsimp -iota -proj only at hE
  obtain rfl := Host.Outcome.next.inj hE
  refine Keeps.step (State.powerFailed_keeps ..) (by decide) ?_
  exact Keeps.refl

theorem execPowerReturn_keeps_eq {s : State} {zz} (hE : execPowerReturn s = .next zz) : Keeps
    (Fld.but [.pending, .free, .pxb]) s zz := by
  unfold execPowerReturn at hE
  try dsimp -iota -proj only at hE
  obtain rfl := Host.Outcome.next.inj hE
  refine Keeps.ite ?_ ?_
  · refine Keeps.step (State.restart_keeps ..) (by decide) ?_
    refine Keeps.step (Keeps.set_pwr ..) (by decide) ?_
    refine Keeps.step (State.timeTo_keeps ..) (by decide) ?_
    exact Keeps.refl
  · exact Keeps.refl

theorem execTapController_keeps_eq {ev : Sys2Proof.TapEv} {s : State} {zz} (hE : execTapController ev s = .next zz)
    : Keeps [.free, .out, .pwr] s zz := by
  unfold execTapController at hE
  try dsimp -iota -proj only at hE
  obtain rfl := Host.Outcome.next.inj hE
  refine Keeps.ite ?_ ?_
  · exact Keeps.refl
  · split
    · refine Keeps.step (Keeps.set_pwr ..) (by decide) ?_
      exact Keeps.refl
    · split
      · refine Keeps.step (Keeps.set_pwr ..) (by decide) ?_
        refine Keeps.step (State.takeFree_keeps_eq (by assumption)) (by decide) ?_
        exact Keeps.refl
    · refine Keeps.ite ?_ ?_
      · refine Keeps.step (Keeps.set_out ..) (by decide) ?_
        refine Keeps.step (Keeps.set_pwr ..) (by decide) ?_
        exact Keeps.refl
      · refine Keeps.step (Keeps.set_pwr ..) (by decide) ?_
        exact Keeps.refl

end Sys2Proof.Machine
end

