-- ==== Sys2Proof/Laws/State.lean ====
section
/-! SUPPORT. What the updates of the state read back as, field by field, and the records they store. -/

namespace Sys2Proof.Machine

variable (s : State)

/-! ### `bump` changes only `ctr` -/

@[simp] theorem State.bump_pending (ix sub n : Nat) : (s.bump ix sub n).pending = s.pending := rfl
@[simp] theorem State.bump_free (ix sub n : Nat) : (s.bump ix sub n).free = s.free := rfl
@[simp] theorem State.bump_out (ix sub n : Nat) : (s.bump ix sub n).out = s.out := rfl
@[simp] theorem State.bump_up (ix sub n : Nat) : (s.bump ix sub n).up = s.up := rfl
@[simp] theorem State.bump_now (ix sub n : Nat) : (s.bump ix sub n).now = s.now := rfl
@[simp] theorem State.bump_cfg (ix sub n : Nat) : (s.bump ix sub n).cfg = s.cfg := rfl
@[simp] theorem State.bump_blob (ix sub n : Nat) : (s.bump ix sub n).blob = s.blob := rfl
@[simp] theorem State.bump_pg (ix sub n : Nat) : (s.bump ix sub n).pg = s.pg := rfl
@[simp] theorem State.bump_px (ix sub n : Nat) : (s.bump ix sub n).px = s.px := rfl
@[simp] theorem State.bump_tier (ix sub n : Nat) : (s.bump ix sub n).tier = s.tier := rfl
@[simp] theorem State.bump_media (ix sub n : Nat) : (s.bump ix sub n).media = s.media := rfl
@[simp] theorem State.bump_q (ix sub n : Nat) : (s.bump ix sub n).q = s.q := rfl
@[simp] theorem State.bump_mem (ix sub n : Nat) : (s.bump ix sub n).mem = s.mem := rfl
@[simp] theorem State.bump_tm (ix sub n : Nat) : (s.bump ix sub n).tm = s.tm := rfl
@[simp] theorem State.bump_part (ix sub n : Nat) : (s.bump ix sub n).part = s.part := rfl
@[simp] theorem State.bump_ev (ix sub n : Nat) : (s.bump ix sub n).ev = s.ev := rfl
@[simp] theorem State.bump_dict (ix sub n : Nat) : (s.bump ix sub n).dict = s.dict := rfl
@[simp] theorem State.bump_boot (ix sub n : Nat) : (s.bump ix sub n).boot = s.boot := rfl
@[simp] theorem State.bump_clk (ix sub n : Nat) : (s.bump ix sub n).clk = s.clk := rfl
@[simp] theorem State.bump_lk (ix sub n : Nat) : (s.bump ix sub n).lk = s.lk := rfl
@[simp] theorem State.bump_ix (ix sub n : Nat) : (s.bump ix sub n).ix = s.ix := rfl
@[simp] theorem State.bump_att (ix sub n : Nat) : (s.bump ix sub n).att = s.att := rfl
@[simp] theorem State.bump_pxb (ix sub n : Nat) : (s.bump ix sub n).pxb = s.pxb := rfl
@[simp] theorem State.bump_pwr (ix sub n : Nat) : (s.bump ix sub n).pwr = s.pwr := rfl

/-! ### `setObj` changes only `cfg` -/

@[simp] theorem State.setObj_pending (ix sub v : Nat) : (s.setObj ix sub v).pending = s.pending := rfl
@[simp] theorem State.setObj_free (ix sub v : Nat) : (s.setObj ix sub v).free = s.free := rfl
@[simp] theorem State.setObj_out (ix sub v : Nat) : (s.setObj ix sub v).out = s.out := rfl
@[simp] theorem State.setObj_up (ix sub v : Nat) : (s.setObj ix sub v).up = s.up := rfl
@[simp] theorem State.setObj_now (ix sub v : Nat) : (s.setObj ix sub v).now = s.now := rfl
@[simp] theorem State.setObj_ctr (ix sub v : Nat) : (s.setObj ix sub v).ctr = s.ctr := rfl
@[simp] theorem State.setObj_blob (ix sub v : Nat) : (s.setObj ix sub v).blob = s.blob := rfl
@[simp] theorem State.setObj_pg (ix sub v : Nat) : (s.setObj ix sub v).pg = s.pg := rfl
@[simp] theorem State.setObj_px (ix sub v : Nat) : (s.setObj ix sub v).px = s.px := rfl
@[simp] theorem State.setObj_tier (ix sub v : Nat) : (s.setObj ix sub v).tier = s.tier := rfl
@[simp] theorem State.setObj_media (ix sub v : Nat) : (s.setObj ix sub v).media = s.media := rfl
@[simp] theorem State.setObj_q (ix sub v : Nat) : (s.setObj ix sub v).q = s.q := rfl
@[simp] theorem State.setObj_mem (ix sub v : Nat) : (s.setObj ix sub v).mem = s.mem := rfl
@[simp] theorem State.setObj_tm (ix sub v : Nat) : (s.setObj ix sub v).tm = s.tm := rfl
@[simp] theorem State.setObj_part (ix sub v : Nat) : (s.setObj ix sub v).part = s.part := rfl
@[simp] theorem State.setObj_ev (ix sub v : Nat) : (s.setObj ix sub v).ev = s.ev := rfl
@[simp] theorem State.setObj_dict (ix sub v : Nat) : (s.setObj ix sub v).dict = s.dict := rfl
@[simp] theorem State.setObj_boot (ix sub v : Nat) : (s.setObj ix sub v).boot = s.boot := rfl
@[simp] theorem State.setObj_clk (ix sub v : Nat) : (s.setObj ix sub v).clk = s.clk := rfl
@[simp] theorem State.setObj_lk (ix sub v : Nat) : (s.setObj ix sub v).lk = s.lk := rfl
@[simp] theorem State.setObj_ix (ix sub v : Nat) : (s.setObj ix sub v).ix = s.ix := rfl
@[simp] theorem State.setObj_att (ix sub v : Nat) : (s.setObj ix sub v).att = s.att := rfl
@[simp] theorem State.setObj_pxb (ix sub v : Nat) : (s.setObj ix sub v).pxb = s.pxb := rfl
@[simp] theorem State.setObj_pwr (ix sub v : Nat) : (s.setObj ix sub v).pwr = s.pwr := rfl

/-! ### `setBlob` changes only `blob` -/

@[simp] theorem State.setBlob_pending (ix sub : Nat) (v : Bytes) : (s.setBlob ix sub v).pending = s.pending := rfl
@[simp] theorem State.setBlob_free (ix sub : Nat) (v : Bytes) : (s.setBlob ix sub v).free = s.free := rfl
@[simp] theorem State.setBlob_out (ix sub : Nat) (v : Bytes) : (s.setBlob ix sub v).out = s.out := rfl
@[simp] theorem State.setBlob_up (ix sub : Nat) (v : Bytes) : (s.setBlob ix sub v).up = s.up := rfl
@[simp] theorem State.setBlob_now (ix sub : Nat) (v : Bytes) : (s.setBlob ix sub v).now = s.now := rfl
@[simp] theorem State.setBlob_cfg (ix sub : Nat) (v : Bytes) : (s.setBlob ix sub v).cfg = s.cfg := rfl
@[simp] theorem State.setBlob_ctr (ix sub : Nat) (v : Bytes) : (s.setBlob ix sub v).ctr = s.ctr := rfl
@[simp] theorem State.setBlob_pg (ix sub : Nat) (v : Bytes) : (s.setBlob ix sub v).pg = s.pg := rfl
@[simp] theorem State.setBlob_px (ix sub : Nat) (v : Bytes) : (s.setBlob ix sub v).px = s.px := rfl
@[simp] theorem State.setBlob_tier (ix sub : Nat) (v : Bytes) : (s.setBlob ix sub v).tier = s.tier := rfl
@[simp] theorem State.setBlob_media (ix sub : Nat) (v : Bytes) : (s.setBlob ix sub v).media = s.media := rfl
@[simp] theorem State.setBlob_q (ix sub : Nat) (v : Bytes) : (s.setBlob ix sub v).q = s.q := rfl
@[simp] theorem State.setBlob_mem (ix sub : Nat) (v : Bytes) : (s.setBlob ix sub v).mem = s.mem := rfl
@[simp] theorem State.setBlob_tm (ix sub : Nat) (v : Bytes) : (s.setBlob ix sub v).tm = s.tm := rfl
@[simp] theorem State.setBlob_part (ix sub : Nat) (v : Bytes) : (s.setBlob ix sub v).part = s.part := rfl
@[simp] theorem State.setBlob_ev (ix sub : Nat) (v : Bytes) : (s.setBlob ix sub v).ev = s.ev := rfl
@[simp] theorem State.setBlob_dict (ix sub : Nat) (v : Bytes) : (s.setBlob ix sub v).dict = s.dict := rfl
@[simp] theorem State.setBlob_boot (ix sub : Nat) (v : Bytes) : (s.setBlob ix sub v).boot = s.boot := rfl
@[simp] theorem State.setBlob_clk (ix sub : Nat) (v : Bytes) : (s.setBlob ix sub v).clk = s.clk := rfl
@[simp] theorem State.setBlob_lk (ix sub : Nat) (v : Bytes) : (s.setBlob ix sub v).lk = s.lk := rfl
@[simp] theorem State.setBlob_ix (ix sub : Nat) (v : Bytes) : (s.setBlob ix sub v).ix = s.ix := rfl
@[simp] theorem State.setBlob_att (ix sub : Nat) (v : Bytes) : (s.setBlob ix sub v).att = s.att := rfl
@[simp] theorem State.setBlob_pxb (ix sub : Nat) (v : Bytes) : (s.setBlob ix sub v).pxb = s.pxb := rfl
@[simp] theorem State.setBlob_pwr (ix sub : Nat) (v : Bytes) : (s.setBlob ix sub v).pwr = s.pwr := rfl

/-! ### `touch` changes only `media` -/

@[simp] theorem State.touch_pending (k : MetaKey) : (s.touch k).pending = s.pending := rfl
@[simp] theorem State.touch_free (k : MetaKey) : (s.touch k).free = s.free := rfl
@[simp] theorem State.touch_out (k : MetaKey) : (s.touch k).out = s.out := rfl
@[simp] theorem State.touch_up (k : MetaKey) : (s.touch k).up = s.up := rfl
@[simp] theorem State.touch_now (k : MetaKey) : (s.touch k).now = s.now := rfl
@[simp] theorem State.touch_cfg (k : MetaKey) : (s.touch k).cfg = s.cfg := rfl
@[simp] theorem State.touch_ctr (k : MetaKey) : (s.touch k).ctr = s.ctr := rfl
@[simp] theorem State.touch_blob (k : MetaKey) : (s.touch k).blob = s.blob := rfl
@[simp] theorem State.touch_pg (k : MetaKey) : (s.touch k).pg = s.pg := rfl
@[simp] theorem State.touch_px (k : MetaKey) : (s.touch k).px = s.px := rfl
@[simp] theorem State.touch_tier (k : MetaKey) : (s.touch k).tier = s.tier := rfl
@[simp] theorem State.touch_q (k : MetaKey) : (s.touch k).q = s.q := rfl
@[simp] theorem State.touch_mem (k : MetaKey) : (s.touch k).mem = s.mem := rfl
@[simp] theorem State.touch_tm (k : MetaKey) : (s.touch k).tm = s.tm := rfl
@[simp] theorem State.touch_part (k : MetaKey) : (s.touch k).part = s.part := rfl
@[simp] theorem State.touch_ev (k : MetaKey) : (s.touch k).ev = s.ev := rfl
@[simp] theorem State.touch_dict (k : MetaKey) : (s.touch k).dict = s.dict := rfl
@[simp] theorem State.touch_boot (k : MetaKey) : (s.touch k).boot = s.boot := rfl
@[simp] theorem State.touch_clk (k : MetaKey) : (s.touch k).clk = s.clk := rfl
@[simp] theorem State.touch_lk (k : MetaKey) : (s.touch k).lk = s.lk := rfl
@[simp] theorem State.touch_ix (k : MetaKey) : (s.touch k).ix = s.ix := rfl
@[simp] theorem State.touch_att (k : MetaKey) : (s.touch k).att = s.att := rfl
@[simp] theorem State.touch_pxb (k : MetaKey) : (s.touch k).pxb = s.pxb := rfl
@[simp] theorem State.touch_pwr (k : MetaKey) : (s.touch k).pwr = s.pwr := rfl

/-! ### `timeTo` changes only `up` and `now` -/

@[simp] theorem State.timeTo_pending (t : Nat) : (s.timeTo t).pending = s.pending := rfl
@[simp] theorem State.timeTo_free (t : Nat) : (s.timeTo t).free = s.free := rfl
@[simp] theorem State.timeTo_out (t : Nat) : (s.timeTo t).out = s.out := rfl
@[simp] theorem State.timeTo_cfg (t : Nat) : (s.timeTo t).cfg = s.cfg := rfl
@[simp] theorem State.timeTo_ctr (t : Nat) : (s.timeTo t).ctr = s.ctr := rfl
@[simp] theorem State.timeTo_blob (t : Nat) : (s.timeTo t).blob = s.blob := rfl
@[simp] theorem State.timeTo_pg (t : Nat) : (s.timeTo t).pg = s.pg := rfl
@[simp] theorem State.timeTo_px (t : Nat) : (s.timeTo t).px = s.px := rfl
@[simp] theorem State.timeTo_tier (t : Nat) : (s.timeTo t).tier = s.tier := rfl
@[simp] theorem State.timeTo_media (t : Nat) : (s.timeTo t).media = s.media := rfl
@[simp] theorem State.timeTo_q (t : Nat) : (s.timeTo t).q = s.q := rfl
@[simp] theorem State.timeTo_mem (t : Nat) : (s.timeTo t).mem = s.mem := rfl
@[simp] theorem State.timeTo_tm (t : Nat) : (s.timeTo t).tm = s.tm := rfl
@[simp] theorem State.timeTo_part (t : Nat) : (s.timeTo t).part = s.part := rfl
@[simp] theorem State.timeTo_ev (t : Nat) : (s.timeTo t).ev = s.ev := rfl
@[simp] theorem State.timeTo_dict (t : Nat) : (s.timeTo t).dict = s.dict := rfl
@[simp] theorem State.timeTo_boot (t : Nat) : (s.timeTo t).boot = s.boot := rfl
@[simp] theorem State.timeTo_clk (t : Nat) : (s.timeTo t).clk = s.clk := rfl
@[simp] theorem State.timeTo_lk (t : Nat) : (s.timeTo t).lk = s.lk := rfl
@[simp] theorem State.timeTo_ix (t : Nat) : (s.timeTo t).ix = s.ix := rfl
@[simp] theorem State.timeTo_att (t : Nat) : (s.timeTo t).att = s.att := rfl
@[simp] theorem State.timeTo_pxb (t : Nat) : (s.timeTo t).pxb = s.pxb := rfl
@[simp] theorem State.timeTo_pwr (t : Nat) : (s.timeTo t).pwr = s.pwr := rfl

/-! ### `setQueue` changes only `q` -/

@[simp] theorem State.setQueue_pending (n : Nat) (v : Queue) : (s.setQueue n v).pending = s.pending := rfl
@[simp] theorem State.setQueue_free (n : Nat) (v : Queue) : (s.setQueue n v).free = s.free := rfl
@[simp] theorem State.setQueue_out (n : Nat) (v : Queue) : (s.setQueue n v).out = s.out := rfl
@[simp] theorem State.setQueue_up (n : Nat) (v : Queue) : (s.setQueue n v).up = s.up := rfl
@[simp] theorem State.setQueue_now (n : Nat) (v : Queue) : (s.setQueue n v).now = s.now := rfl
@[simp] theorem State.setQueue_cfg (n : Nat) (v : Queue) : (s.setQueue n v).cfg = s.cfg := rfl
@[simp] theorem State.setQueue_ctr (n : Nat) (v : Queue) : (s.setQueue n v).ctr = s.ctr := rfl
@[simp] theorem State.setQueue_blob (n : Nat) (v : Queue) : (s.setQueue n v).blob = s.blob := rfl
@[simp] theorem State.setQueue_pg (n : Nat) (v : Queue) : (s.setQueue n v).pg = s.pg := rfl
@[simp] theorem State.setQueue_px (n : Nat) (v : Queue) : (s.setQueue n v).px = s.px := rfl
@[simp] theorem State.setQueue_tier (n : Nat) (v : Queue) : (s.setQueue n v).tier = s.tier := rfl
@[simp] theorem State.setQueue_media (n : Nat) (v : Queue) : (s.setQueue n v).media = s.media := rfl
@[simp] theorem State.setQueue_mem (n : Nat) (v : Queue) : (s.setQueue n v).mem = s.mem := rfl
@[simp] theorem State.setQueue_tm (n : Nat) (v : Queue) : (s.setQueue n v).tm = s.tm := rfl
@[simp] theorem State.setQueue_part (n : Nat) (v : Queue) : (s.setQueue n v).part = s.part := rfl
@[simp] theorem State.setQueue_ev (n : Nat) (v : Queue) : (s.setQueue n v).ev = s.ev := rfl
@[simp] theorem State.setQueue_dict (n : Nat) (v : Queue) : (s.setQueue n v).dict = s.dict := rfl
@[simp] theorem State.setQueue_boot (n : Nat) (v : Queue) : (s.setQueue n v).boot = s.boot := rfl
@[simp] theorem State.setQueue_clk (n : Nat) (v : Queue) : (s.setQueue n v).clk = s.clk := rfl
@[simp] theorem State.setQueue_lk (n : Nat) (v : Queue) : (s.setQueue n v).lk = s.lk := rfl
@[simp] theorem State.setQueue_ix (n : Nat) (v : Queue) : (s.setQueue n v).ix = s.ix := rfl
@[simp] theorem State.setQueue_att (n : Nat) (v : Queue) : (s.setQueue n v).att = s.att := rfl
@[simp] theorem State.setQueue_pxb (n : Nat) (v : Queue) : (s.setQueue n v).pxb = s.pxb := rfl
@[simp] theorem State.setQueue_pwr (n : Nat) (v : Queue) : (s.setQueue n v).pwr = s.pwr := rfl

/-! ### `setOp` changes only `q` -/

@[simp] theorem State.setOp_pending (t : Nat) (o : Op) : (s.setOp t o).pending = s.pending := rfl
@[simp] theorem State.setOp_free (t : Nat) (o : Op) : (s.setOp t o).free = s.free := rfl
@[simp] theorem State.setOp_out (t : Nat) (o : Op) : (s.setOp t o).out = s.out := rfl
@[simp] theorem State.setOp_up (t : Nat) (o : Op) : (s.setOp t o).up = s.up := rfl
@[simp] theorem State.setOp_now (t : Nat) (o : Op) : (s.setOp t o).now = s.now := rfl
@[simp] theorem State.setOp_cfg (t : Nat) (o : Op) : (s.setOp t o).cfg = s.cfg := rfl
@[simp] theorem State.setOp_ctr (t : Nat) (o : Op) : (s.setOp t o).ctr = s.ctr := rfl
@[simp] theorem State.setOp_blob (t : Nat) (o : Op) : (s.setOp t o).blob = s.blob := rfl
@[simp] theorem State.setOp_pg (t : Nat) (o : Op) : (s.setOp t o).pg = s.pg := rfl
@[simp] theorem State.setOp_px (t : Nat) (o : Op) : (s.setOp t o).px = s.px := rfl
@[simp] theorem State.setOp_tier (t : Nat) (o : Op) : (s.setOp t o).tier = s.tier := rfl
@[simp] theorem State.setOp_media (t : Nat) (o : Op) : (s.setOp t o).media = s.media := rfl
@[simp] theorem State.setOp_mem (t : Nat) (o : Op) : (s.setOp t o).mem = s.mem := rfl
@[simp] theorem State.setOp_tm (t : Nat) (o : Op) : (s.setOp t o).tm = s.tm := rfl
@[simp] theorem State.setOp_part (t : Nat) (o : Op) : (s.setOp t o).part = s.part := rfl
@[simp] theorem State.setOp_ev (t : Nat) (o : Op) : (s.setOp t o).ev = s.ev := rfl
@[simp] theorem State.setOp_dict (t : Nat) (o : Op) : (s.setOp t o).dict = s.dict := rfl
@[simp] theorem State.setOp_boot (t : Nat) (o : Op) : (s.setOp t o).boot = s.boot := rfl
@[simp] theorem State.setOp_clk (t : Nat) (o : Op) : (s.setOp t o).clk = s.clk := rfl
@[simp] theorem State.setOp_lk (t : Nat) (o : Op) : (s.setOp t o).lk = s.lk := rfl
@[simp] theorem State.setOp_ix (t : Nat) (o : Op) : (s.setOp t o).ix = s.ix := rfl
@[simp] theorem State.setOp_att (t : Nat) (o : Op) : (s.setOp t o).att = s.att := rfl
@[simp] theorem State.setOp_pxb (t : Nat) (o : Op) : (s.setOp t o).pxb = s.pxb := rfl
@[simp] theorem State.setOp_pwr (t : Nat) (o : Op) : (s.setOp t o).pwr = s.pwr := rfl

/-! ### `setSeq` changes only `pg` -/

@[simp] theorem State.setSeq_pending (n : Nat) (v : Seq) : (s.setSeq n v).pending = s.pending := rfl
@[simp] theorem State.setSeq_free (n : Nat) (v : Seq) : (s.setSeq n v).free = s.free := rfl
@[simp] theorem State.setSeq_out (n : Nat) (v : Seq) : (s.setSeq n v).out = s.out := rfl
@[simp] theorem State.setSeq_up (n : Nat) (v : Seq) : (s.setSeq n v).up = s.up := rfl
@[simp] theorem State.setSeq_now (n : Nat) (v : Seq) : (s.setSeq n v).now = s.now := rfl
@[simp] theorem State.setSeq_cfg (n : Nat) (v : Seq) : (s.setSeq n v).cfg = s.cfg := rfl
@[simp] theorem State.setSeq_ctr (n : Nat) (v : Seq) : (s.setSeq n v).ctr = s.ctr := rfl
@[simp] theorem State.setSeq_blob (n : Nat) (v : Seq) : (s.setSeq n v).blob = s.blob := rfl
@[simp] theorem State.setSeq_px (n : Nat) (v : Seq) : (s.setSeq n v).px = s.px := rfl
@[simp] theorem State.setSeq_tier (n : Nat) (v : Seq) : (s.setSeq n v).tier = s.tier := rfl
@[simp] theorem State.setSeq_media (n : Nat) (v : Seq) : (s.setSeq n v).media = s.media := rfl
@[simp] theorem State.setSeq_q (n : Nat) (v : Seq) : (s.setSeq n v).q = s.q := rfl
@[simp] theorem State.setSeq_mem (n : Nat) (v : Seq) : (s.setSeq n v).mem = s.mem := rfl
@[simp] theorem State.setSeq_tm (n : Nat) (v : Seq) : (s.setSeq n v).tm = s.tm := rfl
@[simp] theorem State.setSeq_part (n : Nat) (v : Seq) : (s.setSeq n v).part = s.part := rfl
@[simp] theorem State.setSeq_ev (n : Nat) (v : Seq) : (s.setSeq n v).ev = s.ev := rfl
@[simp] theorem State.setSeq_dict (n : Nat) (v : Seq) : (s.setSeq n v).dict = s.dict := rfl
@[simp] theorem State.setSeq_boot (n : Nat) (v : Seq) : (s.setSeq n v).boot = s.boot := rfl
@[simp] theorem State.setSeq_clk (n : Nat) (v : Seq) : (s.setSeq n v).clk = s.clk := rfl
@[simp] theorem State.setSeq_lk (n : Nat) (v : Seq) : (s.setSeq n v).lk = s.lk := rfl
@[simp] theorem State.setSeq_ix (n : Nat) (v : Seq) : (s.setSeq n v).ix = s.ix := rfl
@[simp] theorem State.setSeq_att (n : Nat) (v : Seq) : (s.setSeq n v).att = s.att := rfl
@[simp] theorem State.setSeq_pxb (n : Nat) (v : Seq) : (s.setSeq n v).pxb = s.pxb := rfl
@[simp] theorem State.setSeq_pwr (n : Nat) (v : Seq) : (s.setSeq n v).pwr = s.pwr := rfl

/-! ### `setFrame` changes only `pg` -/

@[simp] theorem State.setFrame_pending (n : Nat) (v : Frame) : (s.setFrame n v).pending = s.pending := rfl
@[simp] theorem State.setFrame_free (n : Nat) (v : Frame) : (s.setFrame n v).free = s.free := rfl
@[simp] theorem State.setFrame_out (n : Nat) (v : Frame) : (s.setFrame n v).out = s.out := rfl
@[simp] theorem State.setFrame_up (n : Nat) (v : Frame) : (s.setFrame n v).up = s.up := rfl
@[simp] theorem State.setFrame_now (n : Nat) (v : Frame) : (s.setFrame n v).now = s.now := rfl
@[simp] theorem State.setFrame_cfg (n : Nat) (v : Frame) : (s.setFrame n v).cfg = s.cfg := rfl
@[simp] theorem State.setFrame_ctr (n : Nat) (v : Frame) : (s.setFrame n v).ctr = s.ctr := rfl
@[simp] theorem State.setFrame_blob (n : Nat) (v : Frame) : (s.setFrame n v).blob = s.blob := rfl
@[simp] theorem State.setFrame_px (n : Nat) (v : Frame) : (s.setFrame n v).px = s.px := rfl
@[simp] theorem State.setFrame_tier (n : Nat) (v : Frame) : (s.setFrame n v).tier = s.tier := rfl
@[simp] theorem State.setFrame_media (n : Nat) (v : Frame) : (s.setFrame n v).media = s.media := rfl
@[simp] theorem State.setFrame_q (n : Nat) (v : Frame) : (s.setFrame n v).q = s.q := rfl
@[simp] theorem State.setFrame_mem (n : Nat) (v : Frame) : (s.setFrame n v).mem = s.mem := rfl
@[simp] theorem State.setFrame_tm (n : Nat) (v : Frame) : (s.setFrame n v).tm = s.tm := rfl
@[simp] theorem State.setFrame_part (n : Nat) (v : Frame) : (s.setFrame n v).part = s.part := rfl
@[simp] theorem State.setFrame_ev (n : Nat) (v : Frame) : (s.setFrame n v).ev = s.ev := rfl
@[simp] theorem State.setFrame_dict (n : Nat) (v : Frame) : (s.setFrame n v).dict = s.dict := rfl
@[simp] theorem State.setFrame_boot (n : Nat) (v : Frame) : (s.setFrame n v).boot = s.boot := rfl
@[simp] theorem State.setFrame_clk (n : Nat) (v : Frame) : (s.setFrame n v).clk = s.clk := rfl
@[simp] theorem State.setFrame_lk (n : Nat) (v : Frame) : (s.setFrame n v).lk = s.lk := rfl
@[simp] theorem State.setFrame_ix (n : Nat) (v : Frame) : (s.setFrame n v).ix = s.ix := rfl
@[simp] theorem State.setFrame_att (n : Nat) (v : Frame) : (s.setFrame n v).att = s.att := rfl
@[simp] theorem State.setFrame_pxb (n : Nat) (v : Frame) : (s.setFrame n v).pxb = s.pxb := rfl
@[simp] theorem State.setFrame_pwr (n : Nat) (v : Frame) : (s.setFrame n v).pwr = s.pwr := rfl

/-! ### `setDie` changes only `media` -/

@[simp] theorem State.setDie_pending (n : Nat) (v : Die) : (s.setDie n v).pending = s.pending := rfl
@[simp] theorem State.setDie_free (n : Nat) (v : Die) : (s.setDie n v).free = s.free := rfl
@[simp] theorem State.setDie_out (n : Nat) (v : Die) : (s.setDie n v).out = s.out := rfl
@[simp] theorem State.setDie_up (n : Nat) (v : Die) : (s.setDie n v).up = s.up := rfl
@[simp] theorem State.setDie_now (n : Nat) (v : Die) : (s.setDie n v).now = s.now := rfl
@[simp] theorem State.setDie_cfg (n : Nat) (v : Die) : (s.setDie n v).cfg = s.cfg := rfl
@[simp] theorem State.setDie_ctr (n : Nat) (v : Die) : (s.setDie n v).ctr = s.ctr := rfl
@[simp] theorem State.setDie_blob (n : Nat) (v : Die) : (s.setDie n v).blob = s.blob := rfl
@[simp] theorem State.setDie_pg (n : Nat) (v : Die) : (s.setDie n v).pg = s.pg := rfl
@[simp] theorem State.setDie_px (n : Nat) (v : Die) : (s.setDie n v).px = s.px := rfl
@[simp] theorem State.setDie_tier (n : Nat) (v : Die) : (s.setDie n v).tier = s.tier := rfl
@[simp] theorem State.setDie_q (n : Nat) (v : Die) : (s.setDie n v).q = s.q := rfl
@[simp] theorem State.setDie_mem (n : Nat) (v : Die) : (s.setDie n v).mem = s.mem := rfl
@[simp] theorem State.setDie_tm (n : Nat) (v : Die) : (s.setDie n v).tm = s.tm := rfl
@[simp] theorem State.setDie_part (n : Nat) (v : Die) : (s.setDie n v).part = s.part := rfl
@[simp] theorem State.setDie_ev (n : Nat) (v : Die) : (s.setDie n v).ev = s.ev := rfl
@[simp] theorem State.setDie_dict (n : Nat) (v : Die) : (s.setDie n v).dict = s.dict := rfl
@[simp] theorem State.setDie_boot (n : Nat) (v : Die) : (s.setDie n v).boot = s.boot := rfl
@[simp] theorem State.setDie_clk (n : Nat) (v : Die) : (s.setDie n v).clk = s.clk := rfl
@[simp] theorem State.setDie_lk (n : Nat) (v : Die) : (s.setDie n v).lk = s.lk := rfl
@[simp] theorem State.setDie_ix (n : Nat) (v : Die) : (s.setDie n v).ix = s.ix := rfl
@[simp] theorem State.setDie_att (n : Nat) (v : Die) : (s.setDie n v).att = s.att := rfl
@[simp] theorem State.setDie_pxb (n : Nat) (v : Die) : (s.setDie n v).pxb = s.pxb := rfl
@[simp] theorem State.setDie_pwr (n : Nat) (v : Die) : (s.setDie n v).pwr = s.pwr := rfl

/-! ### `setPlan` changes only `tier` -/

@[simp] theorem State.setPlan_pending (p n : Nat) (v : Plan) : (s.setPlan p n v).pending = s.pending := rfl
@[simp] theorem State.setPlan_free (p n : Nat) (v : Plan) : (s.setPlan p n v).free = s.free := rfl
@[simp] theorem State.setPlan_out (p n : Nat) (v : Plan) : (s.setPlan p n v).out = s.out := rfl
@[simp] theorem State.setPlan_up (p n : Nat) (v : Plan) : (s.setPlan p n v).up = s.up := rfl
@[simp] theorem State.setPlan_now (p n : Nat) (v : Plan) : (s.setPlan p n v).now = s.now := rfl
@[simp] theorem State.setPlan_cfg (p n : Nat) (v : Plan) : (s.setPlan p n v).cfg = s.cfg := rfl
@[simp] theorem State.setPlan_ctr (p n : Nat) (v : Plan) : (s.setPlan p n v).ctr = s.ctr := rfl
@[simp] theorem State.setPlan_blob (p n : Nat) (v : Plan) : (s.setPlan p n v).blob = s.blob := rfl
@[simp] theorem State.setPlan_pg (p n : Nat) (v : Plan) : (s.setPlan p n v).pg = s.pg := rfl
@[simp] theorem State.setPlan_px (p n : Nat) (v : Plan) : (s.setPlan p n v).px = s.px := rfl
@[simp] theorem State.setPlan_media (p n : Nat) (v : Plan) : (s.setPlan p n v).media = s.media := rfl
@[simp] theorem State.setPlan_q (p n : Nat) (v : Plan) : (s.setPlan p n v).q = s.q := rfl
@[simp] theorem State.setPlan_mem (p n : Nat) (v : Plan) : (s.setPlan p n v).mem = s.mem := rfl
@[simp] theorem State.setPlan_tm (p n : Nat) (v : Plan) : (s.setPlan p n v).tm = s.tm := rfl
@[simp] theorem State.setPlan_part (p n : Nat) (v : Plan) : (s.setPlan p n v).part = s.part := rfl
@[simp] theorem State.setPlan_ev (p n : Nat) (v : Plan) : (s.setPlan p n v).ev = s.ev := rfl
@[simp] theorem State.setPlan_dict (p n : Nat) (v : Plan) : (s.setPlan p n v).dict = s.dict := rfl
@[simp] theorem State.setPlan_boot (p n : Nat) (v : Plan) : (s.setPlan p n v).boot = s.boot := rfl
@[simp] theorem State.setPlan_clk (p n : Nat) (v : Plan) : (s.setPlan p n v).clk = s.clk := rfl
@[simp] theorem State.setPlan_lk (p n : Nat) (v : Plan) : (s.setPlan p n v).lk = s.lk := rfl
@[simp] theorem State.setPlan_ix (p n : Nat) (v : Plan) : (s.setPlan p n v).ix = s.ix := rfl
@[simp] theorem State.setPlan_att (p n : Nat) (v : Plan) : (s.setPlan p n v).att = s.att := rfl
@[simp] theorem State.setPlan_pxb (p n : Nat) (v : Plan) : (s.setPlan p n v).pxb = s.pxb := rfl
@[simp] theorem State.setPlan_pwr (p n : Nat) (v : Plan) : (s.setPlan p n v).pwr = s.pwr := rfl

/-! ### `setPart` changes only `part` -/

@[simp] theorem State.setPart_pending (p : Nat) (v : Part) : (s.setPart p v).pending = s.pending := rfl
@[simp] theorem State.setPart_free (p : Nat) (v : Part) : (s.setPart p v).free = s.free := rfl
@[simp] theorem State.setPart_out (p : Nat) (v : Part) : (s.setPart p v).out = s.out := rfl
@[simp] theorem State.setPart_up (p : Nat) (v : Part) : (s.setPart p v).up = s.up := rfl
@[simp] theorem State.setPart_now (p : Nat) (v : Part) : (s.setPart p v).now = s.now := rfl
@[simp] theorem State.setPart_cfg (p : Nat) (v : Part) : (s.setPart p v).cfg = s.cfg := rfl
@[simp] theorem State.setPart_ctr (p : Nat) (v : Part) : (s.setPart p v).ctr = s.ctr := rfl
@[simp] theorem State.setPart_blob (p : Nat) (v : Part) : (s.setPart p v).blob = s.blob := rfl
@[simp] theorem State.setPart_pg (p : Nat) (v : Part) : (s.setPart p v).pg = s.pg := rfl
@[simp] theorem State.setPart_px (p : Nat) (v : Part) : (s.setPart p v).px = s.px := rfl
@[simp] theorem State.setPart_tier (p : Nat) (v : Part) : (s.setPart p v).tier = s.tier := rfl
@[simp] theorem State.setPart_media (p : Nat) (v : Part) : (s.setPart p v).media = s.media := rfl
@[simp] theorem State.setPart_q (p : Nat) (v : Part) : (s.setPart p v).q = s.q := rfl
@[simp] theorem State.setPart_mem (p : Nat) (v : Part) : (s.setPart p v).mem = s.mem := rfl
@[simp] theorem State.setPart_tm (p : Nat) (v : Part) : (s.setPart p v).tm = s.tm := rfl
@[simp] theorem State.setPart_ev (p : Nat) (v : Part) : (s.setPart p v).ev = s.ev := rfl
@[simp] theorem State.setPart_dict (p : Nat) (v : Part) : (s.setPart p v).dict = s.dict := rfl
@[simp] theorem State.setPart_boot (p : Nat) (v : Part) : (s.setPart p v).boot = s.boot := rfl
@[simp] theorem State.setPart_clk (p : Nat) (v : Part) : (s.setPart p v).clk = s.clk := rfl
@[simp] theorem State.setPart_lk (p : Nat) (v : Part) : (s.setPart p v).lk = s.lk := rfl
@[simp] theorem State.setPart_ix (p : Nat) (v : Part) : (s.setPart p v).ix = s.ix := rfl
@[simp] theorem State.setPart_att (p : Nat) (v : Part) : (s.setPart p v).att = s.att := rfl
@[simp] theorem State.setPart_pxb (p : Nat) (v : Part) : (s.setPart p v).pxb = s.pxb := rfl
@[simp] theorem State.setPart_pwr (p : Nat) (v : Part) : (s.setPart p v).pwr = s.pwr := rfl

/-! ### `setPort` changes only `part` -/

@[simp] theorem State.setPort_pending (k : Nat) (v : Port) : (s.setPort k v).pending = s.pending := rfl
@[simp] theorem State.setPort_free (k : Nat) (v : Port) : (s.setPort k v).free = s.free := rfl
@[simp] theorem State.setPort_out (k : Nat) (v : Port) : (s.setPort k v).out = s.out := rfl
@[simp] theorem State.setPort_up (k : Nat) (v : Port) : (s.setPort k v).up = s.up := rfl
@[simp] theorem State.setPort_now (k : Nat) (v : Port) : (s.setPort k v).now = s.now := rfl
@[simp] theorem State.setPort_cfg (k : Nat) (v : Port) : (s.setPort k v).cfg = s.cfg := rfl
@[simp] theorem State.setPort_ctr (k : Nat) (v : Port) : (s.setPort k v).ctr = s.ctr := rfl
@[simp] theorem State.setPort_blob (k : Nat) (v : Port) : (s.setPort k v).blob = s.blob := rfl
@[simp] theorem State.setPort_pg (k : Nat) (v : Port) : (s.setPort k v).pg = s.pg := rfl
@[simp] theorem State.setPort_px (k : Nat) (v : Port) : (s.setPort k v).px = s.px := rfl
@[simp] theorem State.setPort_tier (k : Nat) (v : Port) : (s.setPort k v).tier = s.tier := rfl
@[simp] theorem State.setPort_media (k : Nat) (v : Port) : (s.setPort k v).media = s.media := rfl
@[simp] theorem State.setPort_q (k : Nat) (v : Port) : (s.setPort k v).q = s.q := rfl
@[simp] theorem State.setPort_mem (k : Nat) (v : Port) : (s.setPort k v).mem = s.mem := rfl
@[simp] theorem State.setPort_tm (k : Nat) (v : Port) : (s.setPort k v).tm = s.tm := rfl
@[simp] theorem State.setPort_ev (k : Nat) (v : Port) : (s.setPort k v).ev = s.ev := rfl
@[simp] theorem State.setPort_dict (k : Nat) (v : Port) : (s.setPort k v).dict = s.dict := rfl
@[simp] theorem State.setPort_boot (k : Nat) (v : Port) : (s.setPort k v).boot = s.boot := rfl
@[simp] theorem State.setPort_clk (k : Nat) (v : Port) : (s.setPort k v).clk = s.clk := rfl
@[simp] theorem State.setPort_lk (k : Nat) (v : Port) : (s.setPort k v).lk = s.lk := rfl
@[simp] theorem State.setPort_ix (k : Nat) (v : Port) : (s.setPort k v).ix = s.ix := rfl
@[simp] theorem State.setPort_att (k : Nat) (v : Port) : (s.setPort k v).att = s.att := rfl
@[simp] theorem State.setPort_pxb (k : Nat) (v : Port) : (s.setPort k v).pxb = s.pxb := rfl
@[simp] theorem State.setPort_pwr (k : Nat) (v : Port) : (s.setPort k v).pwr = s.pwr := rfl

/-! ### `setLink` changes only `lk` -/

@[simp] theorem State.setLink_pending (n : Nat) (v : Link) : (s.setLink n v).pending = s.pending := rfl
@[simp] theorem State.setLink_free (n : Nat) (v : Link) : (s.setLink n v).free = s.free := rfl
@[simp] theorem State.setLink_out (n : Nat) (v : Link) : (s.setLink n v).out = s.out := rfl
@[simp] theorem State.setLink_up (n : Nat) (v : Link) : (s.setLink n v).up = s.up := rfl
@[simp] theorem State.setLink_now (n : Nat) (v : Link) : (s.setLink n v).now = s.now := rfl
@[simp] theorem State.setLink_cfg (n : Nat) (v : Link) : (s.setLink n v).cfg = s.cfg := rfl
@[simp] theorem State.setLink_ctr (n : Nat) (v : Link) : (s.setLink n v).ctr = s.ctr := rfl
@[simp] theorem State.setLink_blob (n : Nat) (v : Link) : (s.setLink n v).blob = s.blob := rfl
@[simp] theorem State.setLink_pg (n : Nat) (v : Link) : (s.setLink n v).pg = s.pg := rfl
@[simp] theorem State.setLink_px (n : Nat) (v : Link) : (s.setLink n v).px = s.px := rfl
@[simp] theorem State.setLink_tier (n : Nat) (v : Link) : (s.setLink n v).tier = s.tier := rfl
@[simp] theorem State.setLink_media (n : Nat) (v : Link) : (s.setLink n v).media = s.media := rfl
@[simp] theorem State.setLink_q (n : Nat) (v : Link) : (s.setLink n v).q = s.q := rfl
@[simp] theorem State.setLink_mem (n : Nat) (v : Link) : (s.setLink n v).mem = s.mem := rfl
@[simp] theorem State.setLink_tm (n : Nat) (v : Link) : (s.setLink n v).tm = s.tm := rfl
@[simp] theorem State.setLink_part (n : Nat) (v : Link) : (s.setLink n v).part = s.part := rfl
@[simp] theorem State.setLink_ev (n : Nat) (v : Link) : (s.setLink n v).ev = s.ev := rfl
@[simp] theorem State.setLink_dict (n : Nat) (v : Link) : (s.setLink n v).dict = s.dict := rfl
@[simp] theorem State.setLink_boot (n : Nat) (v : Link) : (s.setLink n v).boot = s.boot := rfl
@[simp] theorem State.setLink_clk (n : Nat) (v : Link) : (s.setLink n v).clk = s.clk := rfl
@[simp] theorem State.setLink_ix (n : Nat) (v : Link) : (s.setLink n v).ix = s.ix := rfl
@[simp] theorem State.setLink_att (n : Nat) (v : Link) : (s.setLink n v).att = s.att := rfl
@[simp] theorem State.setLink_pxb (n : Nat) (v : Link) : (s.setLink n v).pxb = s.pxb := rfl
@[simp] theorem State.setLink_pwr (n : Nat) (v : Link) : (s.setLink n v).pwr = s.pwr := rfl

/-! ### `linkCount` changes only `ctr` -/

@[simp] theorem State.linkCount_pending (n sub k : Nat) : (s.linkCount n sub k).pending = s.pending := rfl
@[simp] theorem State.linkCount_free (n sub k : Nat) : (s.linkCount n sub k).free = s.free := rfl
@[simp] theorem State.linkCount_out (n sub k : Nat) : (s.linkCount n sub k).out = s.out := rfl
@[simp] theorem State.linkCount_up (n sub k : Nat) : (s.linkCount n sub k).up = s.up := rfl
@[simp] theorem State.linkCount_now (n sub k : Nat) : (s.linkCount n sub k).now = s.now := rfl
@[simp] theorem State.linkCount_cfg (n sub k : Nat) : (s.linkCount n sub k).cfg = s.cfg := rfl
@[simp] theorem State.linkCount_blob (n sub k : Nat) : (s.linkCount n sub k).blob = s.blob := rfl
@[simp] theorem State.linkCount_pg (n sub k : Nat) : (s.linkCount n sub k).pg = s.pg := rfl
@[simp] theorem State.linkCount_px (n sub k : Nat) : (s.linkCount n sub k).px = s.px := rfl
@[simp] theorem State.linkCount_tier (n sub k : Nat) : (s.linkCount n sub k).tier = s.tier := rfl
@[simp] theorem State.linkCount_media (n sub k : Nat) : (s.linkCount n sub k).media = s.media := rfl
@[simp] theorem State.linkCount_q (n sub k : Nat) : (s.linkCount n sub k).q = s.q := rfl
@[simp] theorem State.linkCount_mem (n sub k : Nat) : (s.linkCount n sub k).mem = s.mem := rfl
@[simp] theorem State.linkCount_tm (n sub k : Nat) : (s.linkCount n sub k).tm = s.tm := rfl
@[simp] theorem State.linkCount_part (n sub k : Nat) : (s.linkCount n sub k).part = s.part := rfl
@[simp] theorem State.linkCount_ev (n sub k : Nat) : (s.linkCount n sub k).ev = s.ev := rfl
@[simp] theorem State.linkCount_dict (n sub k : Nat) : (s.linkCount n sub k).dict = s.dict := rfl
@[simp] theorem State.linkCount_boot (n sub k : Nat) : (s.linkCount n sub k).boot = s.boot := rfl
@[simp] theorem State.linkCount_clk (n sub k : Nat) : (s.linkCount n sub k).clk = s.clk := rfl
@[simp] theorem State.linkCount_lk (n sub k : Nat) : (s.linkCount n sub k).lk = s.lk := rfl
@[simp] theorem State.linkCount_ix (n sub k : Nat) : (s.linkCount n sub k).ix = s.ix := rfl
@[simp] theorem State.linkCount_att (n sub k : Nat) : (s.linkCount n sub k).att = s.att := rfl
@[simp] theorem State.linkCount_pxb (n sub k : Nat) : (s.linkCount n sub k).pxb = s.pxb := rfl
@[simp] theorem State.linkCount_pwr (n sub k : Nat) : (s.linkCount n sub k).pwr = s.pwr := rfl

/-! ### `setPip` changes only `ix` -/

@[simp] theorem State.setPip_pending (n : Nat) (v : Pip) : (s.setPip n v).pending = s.pending := rfl
@[simp] theorem State.setPip_free (n : Nat) (v : Pip) : (s.setPip n v).free = s.free := rfl
@[simp] theorem State.setPip_out (n : Nat) (v : Pip) : (s.setPip n v).out = s.out := rfl
@[simp] theorem State.setPip_up (n : Nat) (v : Pip) : (s.setPip n v).up = s.up := rfl
@[simp] theorem State.setPip_now (n : Nat) (v : Pip) : (s.setPip n v).now = s.now := rfl
@[simp] theorem State.setPip_cfg (n : Nat) (v : Pip) : (s.setPip n v).cfg = s.cfg := rfl
@[simp] theorem State.setPip_ctr (n : Nat) (v : Pip) : (s.setPip n v).ctr = s.ctr := rfl
@[simp] theorem State.setPip_blob (n : Nat) (v : Pip) : (s.setPip n v).blob = s.blob := rfl
@[simp] theorem State.setPip_pg (n : Nat) (v : Pip) : (s.setPip n v).pg = s.pg := rfl
@[simp] theorem State.setPip_px (n : Nat) (v : Pip) : (s.setPip n v).px = s.px := rfl
@[simp] theorem State.setPip_tier (n : Nat) (v : Pip) : (s.setPip n v).tier = s.tier := rfl
@[simp] theorem State.setPip_media (n : Nat) (v : Pip) : (s.setPip n v).media = s.media := rfl
@[simp] theorem State.setPip_q (n : Nat) (v : Pip) : (s.setPip n v).q = s.q := rfl
@[simp] theorem State.setPip_mem (n : Nat) (v : Pip) : (s.setPip n v).mem = s.mem := rfl
@[simp] theorem State.setPip_tm (n : Nat) (v : Pip) : (s.setPip n v).tm = s.tm := rfl
@[simp] theorem State.setPip_part (n : Nat) (v : Pip) : (s.setPip n v).part = s.part := rfl
@[simp] theorem State.setPip_ev (n : Nat) (v : Pip) : (s.setPip n v).ev = s.ev := rfl
@[simp] theorem State.setPip_dict (n : Nat) (v : Pip) : (s.setPip n v).dict = s.dict := rfl
@[simp] theorem State.setPip_boot (n : Nat) (v : Pip) : (s.setPip n v).boot = s.boot := rfl
@[simp] theorem State.setPip_clk (n : Nat) (v : Pip) : (s.setPip n v).clk = s.clk := rfl
@[simp] theorem State.setPip_lk (n : Nat) (v : Pip) : (s.setPip n v).lk = s.lk := rfl
@[simp] theorem State.setPip_att (n : Nat) (v : Pip) : (s.setPip n v).att = s.att := rfl
@[simp] theorem State.setPip_pxb (n : Nat) (v : Pip) : (s.setPip n v).pxb = s.pxb := rfl
@[simp] theorem State.setPip_pwr (n : Nat) (v : Pip) : (s.setPip n v).pwr = s.pwr := rfl

/-! ### `setArray` changes only `ix` -/

@[simp] theorem State.setArray_pending (n : Nat) (v : AnArray) : (s.setArray n v).pending = s.pending := rfl
@[simp] theorem State.setArray_free (n : Nat) (v : AnArray) : (s.setArray n v).free = s.free := rfl
@[simp] theorem State.setArray_out (n : Nat) (v : AnArray) : (s.setArray n v).out = s.out := rfl
@[simp] theorem State.setArray_up (n : Nat) (v : AnArray) : (s.setArray n v).up = s.up := rfl
@[simp] theorem State.setArray_now (n : Nat) (v : AnArray) : (s.setArray n v).now = s.now := rfl
@[simp] theorem State.setArray_cfg (n : Nat) (v : AnArray) : (s.setArray n v).cfg = s.cfg := rfl
@[simp] theorem State.setArray_ctr (n : Nat) (v : AnArray) : (s.setArray n v).ctr = s.ctr := rfl
@[simp] theorem State.setArray_blob (n : Nat) (v : AnArray) : (s.setArray n v).blob = s.blob := rfl
@[simp] theorem State.setArray_pg (n : Nat) (v : AnArray) : (s.setArray n v).pg = s.pg := rfl
@[simp] theorem State.setArray_px (n : Nat) (v : AnArray) : (s.setArray n v).px = s.px := rfl
@[simp] theorem State.setArray_tier (n : Nat) (v : AnArray) : (s.setArray n v).tier = s.tier := rfl
@[simp] theorem State.setArray_media (n : Nat) (v : AnArray) : (s.setArray n v).media = s.media := rfl
@[simp] theorem State.setArray_q (n : Nat) (v : AnArray) : (s.setArray n v).q = s.q := rfl
@[simp] theorem State.setArray_mem (n : Nat) (v : AnArray) : (s.setArray n v).mem = s.mem := rfl
@[simp] theorem State.setArray_tm (n : Nat) (v : AnArray) : (s.setArray n v).tm = s.tm := rfl
@[simp] theorem State.setArray_part (n : Nat) (v : AnArray) : (s.setArray n v).part = s.part := rfl
@[simp] theorem State.setArray_ev (n : Nat) (v : AnArray) : (s.setArray n v).ev = s.ev := rfl
@[simp] theorem State.setArray_dict (n : Nat) (v : AnArray) : (s.setArray n v).dict = s.dict := rfl
@[simp] theorem State.setArray_boot (n : Nat) (v : AnArray) : (s.setArray n v).boot = s.boot := rfl
@[simp] theorem State.setArray_clk (n : Nat) (v : AnArray) : (s.setArray n v).clk = s.clk := rfl
@[simp] theorem State.setArray_lk (n : Nat) (v : AnArray) : (s.setArray n v).lk = s.lk := rfl
@[simp] theorem State.setArray_att (n : Nat) (v : AnArray) : (s.setArray n v).att = s.att := rfl
@[simp] theorem State.setArray_pxb (n : Nat) (v : AnArray) : (s.setArray n v).pxb = s.pxb := rfl
@[simp] theorem State.setArray_pwr (n : Nat) (v : AnArray) : (s.setArray n v).pwr = s.pwr := rfl

/-! ### `setRef` changes only `clk` -/

@[simp] theorem State.setRef_pending (k : Nat) (v : RefSt) : (s.setRef k v).pending = s.pending := rfl
@[simp] theorem State.setRef_free (k : Nat) (v : RefSt) : (s.setRef k v).free = s.free := rfl
@[simp] theorem State.setRef_out (k : Nat) (v : RefSt) : (s.setRef k v).out = s.out := rfl
@[simp] theorem State.setRef_up (k : Nat) (v : RefSt) : (s.setRef k v).up = s.up := rfl
@[simp] theorem State.setRef_now (k : Nat) (v : RefSt) : (s.setRef k v).now = s.now := rfl
@[simp] theorem State.setRef_cfg (k : Nat) (v : RefSt) : (s.setRef k v).cfg = s.cfg := rfl
@[simp] theorem State.setRef_ctr (k : Nat) (v : RefSt) : (s.setRef k v).ctr = s.ctr := rfl
@[simp] theorem State.setRef_blob (k : Nat) (v : RefSt) : (s.setRef k v).blob = s.blob := rfl
@[simp] theorem State.setRef_pg (k : Nat) (v : RefSt) : (s.setRef k v).pg = s.pg := rfl
@[simp] theorem State.setRef_px (k : Nat) (v : RefSt) : (s.setRef k v).px = s.px := rfl
@[simp] theorem State.setRef_tier (k : Nat) (v : RefSt) : (s.setRef k v).tier = s.tier := rfl
@[simp] theorem State.setRef_media (k : Nat) (v : RefSt) : (s.setRef k v).media = s.media := rfl
@[simp] theorem State.setRef_q (k : Nat) (v : RefSt) : (s.setRef k v).q = s.q := rfl
@[simp] theorem State.setRef_mem (k : Nat) (v : RefSt) : (s.setRef k v).mem = s.mem := rfl
@[simp] theorem State.setRef_tm (k : Nat) (v : RefSt) : (s.setRef k v).tm = s.tm := rfl
@[simp] theorem State.setRef_part (k : Nat) (v : RefSt) : (s.setRef k v).part = s.part := rfl
@[simp] theorem State.setRef_ev (k : Nat) (v : RefSt) : (s.setRef k v).ev = s.ev := rfl
@[simp] theorem State.setRef_dict (k : Nat) (v : RefSt) : (s.setRef k v).dict = s.dict := rfl
@[simp] theorem State.setRef_boot (k : Nat) (v : RefSt) : (s.setRef k v).boot = s.boot := rfl
@[simp] theorem State.setRef_lk (k : Nat) (v : RefSt) : (s.setRef k v).lk = s.lk := rfl
@[simp] theorem State.setRef_ix (k : Nat) (v : RefSt) : (s.setRef k v).ix = s.ix := rfl
@[simp] theorem State.setRef_att (k : Nat) (v : RefSt) : (s.setRef k v).att = s.att := rfl
@[simp] theorem State.setRef_pxb (k : Nat) (v : RefSt) : (s.setRef k v).pxb = s.pxb := rfl
@[simp] theorem State.setRef_pwr (k : Nat) (v : RefSt) : (s.setRef k v).pwr = s.pwr := rfl

/-! ### `setBox` changes only `dict` -/

@[simp] theorem State.setBox_pending (k : Nat) (v : Mailbox) : (s.setBox k v).pending = s.pending := rfl
@[simp] theorem State.setBox_free (k : Nat) (v : Mailbox) : (s.setBox k v).free = s.free := rfl
@[simp] theorem State.setBox_out (k : Nat) (v : Mailbox) : (s.setBox k v).out = s.out := rfl
@[simp] theorem State.setBox_up (k : Nat) (v : Mailbox) : (s.setBox k v).up = s.up := rfl
@[simp] theorem State.setBox_now (k : Nat) (v : Mailbox) : (s.setBox k v).now = s.now := rfl
@[simp] theorem State.setBox_cfg (k : Nat) (v : Mailbox) : (s.setBox k v).cfg = s.cfg := rfl
@[simp] theorem State.setBox_ctr (k : Nat) (v : Mailbox) : (s.setBox k v).ctr = s.ctr := rfl
@[simp] theorem State.setBox_blob (k : Nat) (v : Mailbox) : (s.setBox k v).blob = s.blob := rfl
@[simp] theorem State.setBox_pg (k : Nat) (v : Mailbox) : (s.setBox k v).pg = s.pg := rfl
@[simp] theorem State.setBox_px (k : Nat) (v : Mailbox) : (s.setBox k v).px = s.px := rfl
@[simp] theorem State.setBox_tier (k : Nat) (v : Mailbox) : (s.setBox k v).tier = s.tier := rfl
@[simp] theorem State.setBox_media (k : Nat) (v : Mailbox) : (s.setBox k v).media = s.media := rfl
@[simp] theorem State.setBox_q (k : Nat) (v : Mailbox) : (s.setBox k v).q = s.q := rfl
@[simp] theorem State.setBox_mem (k : Nat) (v : Mailbox) : (s.setBox k v).mem = s.mem := rfl
@[simp] theorem State.setBox_tm (k : Nat) (v : Mailbox) : (s.setBox k v).tm = s.tm := rfl
@[simp] theorem State.setBox_part (k : Nat) (v : Mailbox) : (s.setBox k v).part = s.part := rfl
@[simp] theorem State.setBox_ev (k : Nat) (v : Mailbox) : (s.setBox k v).ev = s.ev := rfl
@[simp] theorem State.setBox_boot (k : Nat) (v : Mailbox) : (s.setBox k v).boot = s.boot := rfl
@[simp] theorem State.setBox_clk (k : Nat) (v : Mailbox) : (s.setBox k v).clk = s.clk := rfl
@[simp] theorem State.setBox_lk (k : Nat) (v : Mailbox) : (s.setBox k v).lk = s.lk := rfl
@[simp] theorem State.setBox_ix (k : Nat) (v : Mailbox) : (s.setBox k v).ix = s.ix := rfl
@[simp] theorem State.setBox_att (k : Nat) (v : Mailbox) : (s.setBox k v).att = s.att := rfl
@[simp] theorem State.setBox_pxb (k : Nat) (v : Mailbox) : (s.setBox k v).pxb = s.pxb := rfl
@[simp] theorem State.setBox_pwr (k : Nat) (v : Mailbox) : (s.setBox k v).pwr = s.pwr := rfl

/-! ### `modSession` changes only `dict` -/

@[simp] theorem State.modSession_pending (e : Endpoint) (f : Session → Session) : (s.modSession e f).pending = s.pending := rfl
@[simp] theorem State.modSession_free (e : Endpoint) (f : Session → Session) : (s.modSession e f).free = s.free := rfl
@[simp] theorem State.modSession_out (e : Endpoint) (f : Session → Session) : (s.modSession e f).out = s.out := rfl
@[simp] theorem State.modSession_up (e : Endpoint) (f : Session → Session) : (s.modSession e f).up = s.up := rfl
@[simp] theorem State.modSession_now (e : Endpoint) (f : Session → Session) : (s.modSession e f).now = s.now := rfl
@[simp] theorem State.modSession_cfg (e : Endpoint) (f : Session → Session) : (s.modSession e f).cfg = s.cfg := rfl
@[simp] theorem State.modSession_ctr (e : Endpoint) (f : Session → Session) : (s.modSession e f).ctr = s.ctr := rfl
@[simp] theorem State.modSession_blob (e : Endpoint) (f : Session → Session) : (s.modSession e f).blob = s.blob := rfl
@[simp] theorem State.modSession_pg (e : Endpoint) (f : Session → Session) : (s.modSession e f).pg = s.pg := rfl
@[simp] theorem State.modSession_px (e : Endpoint) (f : Session → Session) : (s.modSession e f).px = s.px := rfl
@[simp] theorem State.modSession_tier (e : Endpoint) (f : Session → Session) : (s.modSession e f).tier = s.tier := rfl
@[simp] theorem State.modSession_media (e : Endpoint) (f : Session → Session) : (s.modSession e f).media = s.media := rfl
@[simp] theorem State.modSession_q (e : Endpoint) (f : Session → Session) : (s.modSession e f).q = s.q := rfl
@[simp] theorem State.modSession_mem (e : Endpoint) (f : Session → Session) : (s.modSession e f).mem = s.mem := rfl
@[simp] theorem State.modSession_tm (e : Endpoint) (f : Session → Session) : (s.modSession e f).tm = s.tm := rfl
@[simp] theorem State.modSession_part (e : Endpoint) (f : Session → Session) : (s.modSession e f).part = s.part := rfl
@[simp] theorem State.modSession_ev (e : Endpoint) (f : Session → Session) : (s.modSession e f).ev = s.ev := rfl
@[simp] theorem State.modSession_boot (e : Endpoint) (f : Session → Session) : (s.modSession e f).boot = s.boot := rfl
@[simp] theorem State.modSession_clk (e : Endpoint) (f : Session → Session) : (s.modSession e f).clk = s.clk := rfl
@[simp] theorem State.modSession_lk (e : Endpoint) (f : Session → Session) : (s.modSession e f).lk = s.lk := rfl
@[simp] theorem State.modSession_ix (e : Endpoint) (f : Session → Session) : (s.modSession e f).ix = s.ix := rfl
@[simp] theorem State.modSession_att (e : Endpoint) (f : Session → Session) : (s.modSession e f).att = s.att := rfl
@[simp] theorem State.modSession_pxb (e : Endpoint) (f : Session → Session) : (s.modSession e f).pxb = s.pxb := rfl
@[simp] theorem State.modSession_pwr (e : Endpoint) (f : Session → Session) : (s.modSession e f).pwr = s.pwr := rfl

/-! ### `dropSession` changes only `dict` -/

@[simp] theorem State.dropSession_pending (e : Endpoint) : (s.dropSession e).pending = s.pending := rfl
@[simp] theorem State.dropSession_free (e : Endpoint) : (s.dropSession e).free = s.free := rfl
@[simp] theorem State.dropSession_out (e : Endpoint) : (s.dropSession e).out = s.out := rfl
@[simp] theorem State.dropSession_up (e : Endpoint) : (s.dropSession e).up = s.up := rfl
@[simp] theorem State.dropSession_now (e : Endpoint) : (s.dropSession e).now = s.now := rfl
@[simp] theorem State.dropSession_cfg (e : Endpoint) : (s.dropSession e).cfg = s.cfg := rfl
@[simp] theorem State.dropSession_ctr (e : Endpoint) : (s.dropSession e).ctr = s.ctr := rfl
@[simp] theorem State.dropSession_blob (e : Endpoint) : (s.dropSession e).blob = s.blob := rfl
@[simp] theorem State.dropSession_pg (e : Endpoint) : (s.dropSession e).pg = s.pg := rfl
@[simp] theorem State.dropSession_px (e : Endpoint) : (s.dropSession e).px = s.px := rfl
@[simp] theorem State.dropSession_tier (e : Endpoint) : (s.dropSession e).tier = s.tier := rfl
@[simp] theorem State.dropSession_media (e : Endpoint) : (s.dropSession e).media = s.media := rfl
@[simp] theorem State.dropSession_q (e : Endpoint) : (s.dropSession e).q = s.q := rfl
@[simp] theorem State.dropSession_mem (e : Endpoint) : (s.dropSession e).mem = s.mem := rfl
@[simp] theorem State.dropSession_tm (e : Endpoint) : (s.dropSession e).tm = s.tm := rfl
@[simp] theorem State.dropSession_part (e : Endpoint) : (s.dropSession e).part = s.part := rfl
@[simp] theorem State.dropSession_ev (e : Endpoint) : (s.dropSession e).ev = s.ev := rfl
@[simp] theorem State.dropSession_boot (e : Endpoint) : (s.dropSession e).boot = s.boot := rfl
@[simp] theorem State.dropSession_clk (e : Endpoint) : (s.dropSession e).clk = s.clk := rfl
@[simp] theorem State.dropSession_lk (e : Endpoint) : (s.dropSession e).lk = s.lk := rfl
@[simp] theorem State.dropSession_ix (e : Endpoint) : (s.dropSession e).ix = s.ix := rfl
@[simp] theorem State.dropSession_att (e : Endpoint) : (s.dropSession e).att = s.att := rfl
@[simp] theorem State.dropSession_pxb (e : Endpoint) : (s.dropSession e).pxb = s.pxb := rfl
@[simp] theorem State.dropSession_pwr (e : Endpoint) : (s.dropSession e).pwr = s.pwr := rfl

/-! ### `windowWrite` changes only `mem` -/

@[simp] theorem State.windowWrite_pending (p a : Nat) (v : Bytes) : (s.windowWrite p a v).pending = s.pending := rfl
@[simp] theorem State.windowWrite_free (p a : Nat) (v : Bytes) : (s.windowWrite p a v).free = s.free := rfl
@[simp] theorem State.windowWrite_out (p a : Nat) (v : Bytes) : (s.windowWrite p a v).out = s.out := rfl
@[simp] theorem State.windowWrite_up (p a : Nat) (v : Bytes) : (s.windowWrite p a v).up = s.up := rfl
@[simp] theorem State.windowWrite_now (p a : Nat) (v : Bytes) : (s.windowWrite p a v).now = s.now := rfl
@[simp] theorem State.windowWrite_cfg (p a : Nat) (v : Bytes) : (s.windowWrite p a v).cfg = s.cfg := rfl
@[simp] theorem State.windowWrite_ctr (p a : Nat) (v : Bytes) : (s.windowWrite p a v).ctr = s.ctr := rfl
@[simp] theorem State.windowWrite_blob (p a : Nat) (v : Bytes) : (s.windowWrite p a v).blob = s.blob := rfl
@[simp] theorem State.windowWrite_pg (p a : Nat) (v : Bytes) : (s.windowWrite p a v).pg = s.pg := rfl
@[simp] theorem State.windowWrite_px (p a : Nat) (v : Bytes) : (s.windowWrite p a v).px = s.px := rfl
@[simp] theorem State.windowWrite_tier (p a : Nat) (v : Bytes) : (s.windowWrite p a v).tier = s.tier := rfl
@[simp] theorem State.windowWrite_media (p a : Nat) (v : Bytes) : (s.windowWrite p a v).media = s.media := rfl
@[simp] theorem State.windowWrite_q (p a : Nat) (v : Bytes) : (s.windowWrite p a v).q = s.q := rfl
@[simp] theorem State.windowWrite_tm (p a : Nat) (v : Bytes) : (s.windowWrite p a v).tm = s.tm := rfl
@[simp] theorem State.windowWrite_part (p a : Nat) (v : Bytes) : (s.windowWrite p a v).part = s.part := rfl
@[simp] theorem State.windowWrite_ev (p a : Nat) (v : Bytes) : (s.windowWrite p a v).ev = s.ev := rfl
@[simp] theorem State.windowWrite_dict (p a : Nat) (v : Bytes) : (s.windowWrite p a v).dict = s.dict := rfl
@[simp] theorem State.windowWrite_boot (p a : Nat) (v : Bytes) : (s.windowWrite p a v).boot = s.boot := rfl
@[simp] theorem State.windowWrite_clk (p a : Nat) (v : Bytes) : (s.windowWrite p a v).clk = s.clk := rfl
@[simp] theorem State.windowWrite_lk (p a : Nat) (v : Bytes) : (s.windowWrite p a v).lk = s.lk := rfl
@[simp] theorem State.windowWrite_ix (p a : Nat) (v : Bytes) : (s.windowWrite p a v).ix = s.ix := rfl
@[simp] theorem State.windowWrite_att (p a : Nat) (v : Bytes) : (s.windowWrite p a v).att = s.att := rfl
@[simp] theorem State.windowWrite_pxb (p a : Nat) (v : Bytes) : (s.windowWrite p a v).pxb = s.pxb := rfl
@[simp] theorem State.windowWrite_pwr (p a : Nat) (v : Bytes) : (s.windowWrite p a v).pwr = s.pwr := rfl

/-! ### `hostWrite` changes only `mem` -/

@[simp] theorem State.hostWrite_pending (k a : Nat) (v : Bytes) : (s.hostWrite k a v).pending = s.pending := by
  unfold State.hostWrite; split <;> rfl
@[simp] theorem State.hostWrite_free (k a : Nat) (v : Bytes) : (s.hostWrite k a v).free = s.free := by
  unfold State.hostWrite; split <;> rfl
@[simp] theorem State.hostWrite_out (k a : Nat) (v : Bytes) : (s.hostWrite k a v).out = s.out := by
  unfold State.hostWrite; split <;> rfl
@[simp] theorem State.hostWrite_up (k a : Nat) (v : Bytes) : (s.hostWrite k a v).up = s.up := by
  unfold State.hostWrite; split <;> rfl
@[simp] theorem State.hostWrite_now (k a : Nat) (v : Bytes) : (s.hostWrite k a v).now = s.now := by
  unfold State.hostWrite; split <;> rfl
@[simp] theorem State.hostWrite_cfg (k a : Nat) (v : Bytes) : (s.hostWrite k a v).cfg = s.cfg := by
  unfold State.hostWrite; split <;> rfl
@[simp] theorem State.hostWrite_ctr (k a : Nat) (v : Bytes) : (s.hostWrite k a v).ctr = s.ctr := by
  unfold State.hostWrite; split <;> rfl
@[simp] theorem State.hostWrite_blob (k a : Nat) (v : Bytes) : (s.hostWrite k a v).blob = s.blob := by
  unfold State.hostWrite; split <;> rfl
@[simp] theorem State.hostWrite_pg (k a : Nat) (v : Bytes) : (s.hostWrite k a v).pg = s.pg := by
  unfold State.hostWrite; split <;> rfl
@[simp] theorem State.hostWrite_px (k a : Nat) (v : Bytes) : (s.hostWrite k a v).px = s.px := by
  unfold State.hostWrite; split <;> rfl
@[simp] theorem State.hostWrite_tier (k a : Nat) (v : Bytes) : (s.hostWrite k a v).tier = s.tier := by
  unfold State.hostWrite; split <;> rfl
@[simp] theorem State.hostWrite_media (k a : Nat) (v : Bytes) : (s.hostWrite k a v).media = s.media := by
  unfold State.hostWrite; split <;> rfl
@[simp] theorem State.hostWrite_q (k a : Nat) (v : Bytes) : (s.hostWrite k a v).q = s.q := by
  unfold State.hostWrite; split <;> rfl
@[simp] theorem State.hostWrite_tm (k a : Nat) (v : Bytes) : (s.hostWrite k a v).tm = s.tm := by
  unfold State.hostWrite; split <;> rfl
@[simp] theorem State.hostWrite_part (k a : Nat) (v : Bytes) : (s.hostWrite k a v).part = s.part := by
  unfold State.hostWrite; split <;> rfl
@[simp] theorem State.hostWrite_ev (k a : Nat) (v : Bytes) : (s.hostWrite k a v).ev = s.ev := by
  unfold State.hostWrite; split <;> rfl
@[simp] theorem State.hostWrite_dict (k a : Nat) (v : Bytes) : (s.hostWrite k a v).dict = s.dict := by
  unfold State.hostWrite; split <;> rfl
@[simp] theorem State.hostWrite_boot (k a : Nat) (v : Bytes) : (s.hostWrite k a v).boot = s.boot := by
  unfold State.hostWrite; split <;> rfl
@[simp] theorem State.hostWrite_clk (k a : Nat) (v : Bytes) : (s.hostWrite k a v).clk = s.clk := by
  unfold State.hostWrite; split <;> rfl
@[simp] theorem State.hostWrite_lk (k a : Nat) (v : Bytes) : (s.hostWrite k a v).lk = s.lk := by
  unfold State.hostWrite; split <;> rfl
@[simp] theorem State.hostWrite_ix (k a : Nat) (v : Bytes) : (s.hostWrite k a v).ix = s.ix := by
  unfold State.hostWrite; split <;> rfl
@[simp] theorem State.hostWrite_att (k a : Nat) (v : Bytes) : (s.hostWrite k a v).att = s.att := by
  unfold State.hostWrite; split <;> rfl
@[simp] theorem State.hostWrite_pxb (k a : Nat) (v : Bytes) : (s.hostWrite k a v).pxb = s.pxb := by
  unfold State.hostWrite; split <;> rfl
@[simp] theorem State.hostWrite_pwr (k a : Nat) (v : Bytes) : (s.hostWrite k a v).pwr = s.pwr := by
  unfold State.hostWrite; split <;> rfl

/-! ### `setPx` changes only `pxb` -/

@[simp] theorem State.setPx_pending (k : Nat) (v : PxLink) : (s.setPx k v).pending = s.pending := by
  unfold State.setPx; split <;> rfl
@[simp] theorem State.setPx_free (k : Nat) (v : PxLink) : (s.setPx k v).free = s.free := by
  unfold State.setPx; split <;> rfl
@[simp] theorem State.setPx_out (k : Nat) (v : PxLink) : (s.setPx k v).out = s.out := by
  unfold State.setPx; split <;> rfl
@[simp] theorem State.setPx_up (k : Nat) (v : PxLink) : (s.setPx k v).up = s.up := by
  unfold State.setPx; split <;> rfl
@[simp] theorem State.setPx_now (k : Nat) (v : PxLink) : (s.setPx k v).now = s.now := by
  unfold State.setPx; split <;> rfl
@[simp] theorem State.setPx_cfg (k : Nat) (v : PxLink) : (s.setPx k v).cfg = s.cfg := by
  unfold State.setPx; split <;> rfl
@[simp] theorem State.setPx_ctr (k : Nat) (v : PxLink) : (s.setPx k v).ctr = s.ctr := by
  unfold State.setPx; split <;> rfl
@[simp] theorem State.setPx_blob (k : Nat) (v : PxLink) : (s.setPx k v).blob = s.blob := by
  unfold State.setPx; split <;> rfl
@[simp] theorem State.setPx_pg (k : Nat) (v : PxLink) : (s.setPx k v).pg = s.pg := by
  unfold State.setPx; split <;> rfl
@[simp] theorem State.setPx_px (k : Nat) (v : PxLink) : (s.setPx k v).px = s.px := by
  unfold State.setPx; split <;> rfl
@[simp] theorem State.setPx_tier (k : Nat) (v : PxLink) : (s.setPx k v).tier = s.tier := by
  unfold State.setPx; split <;> rfl
@[simp] theorem State.setPx_media (k : Nat) (v : PxLink) : (s.setPx k v).media = s.media := by
  unfold State.setPx; split <;> rfl
@[simp] theorem State.setPx_q (k : Nat) (v : PxLink) : (s.setPx k v).q = s.q := by
  unfold State.setPx; split <;> rfl
@[simp] theorem State.setPx_mem (k : Nat) (v : PxLink) : (s.setPx k v).mem = s.mem := by
  unfold State.setPx; split <;> rfl
@[simp] theorem State.setPx_tm (k : Nat) (v : PxLink) : (s.setPx k v).tm = s.tm := by
  unfold State.setPx; split <;> rfl
@[simp] theorem State.setPx_part (k : Nat) (v : PxLink) : (s.setPx k v).part = s.part := by
  unfold State.setPx; split <;> rfl
@[simp] theorem State.setPx_ev (k : Nat) (v : PxLink) : (s.setPx k v).ev = s.ev := by
  unfold State.setPx; split <;> rfl
@[simp] theorem State.setPx_dict (k : Nat) (v : PxLink) : (s.setPx k v).dict = s.dict := by
  unfold State.setPx; split <;> rfl
@[simp] theorem State.setPx_boot (k : Nat) (v : PxLink) : (s.setPx k v).boot = s.boot := by
  unfold State.setPx; split <;> rfl
@[simp] theorem State.setPx_clk (k : Nat) (v : PxLink) : (s.setPx k v).clk = s.clk := by
  unfold State.setPx; split <;> rfl
@[simp] theorem State.setPx_lk (k : Nat) (v : PxLink) : (s.setPx k v).lk = s.lk := by
  unfold State.setPx; split <;> rfl
@[simp] theorem State.setPx_ix (k : Nat) (v : PxLink) : (s.setPx k v).ix = s.ix := by
  unfold State.setPx; split <;> rfl
@[simp] theorem State.setPx_att (k : Nat) (v : PxLink) : (s.setPx k v).att = s.att := by
  unfold State.setPx; split <;> rfl
@[simp] theorem State.setPx_pwr (k : Nat) (v : PxLink) : (s.setPx k v).pwr = s.pwr := by
  unfold State.setPx; split <;> rfl

/-! ### What was stored is read back -/

@[simp] theorem State.queue_setQueue (n : Nat) (v : Queue) : (s.setQueue n v).queue n = v := by simp [State.queue, State.setQueue]
theorem State.queue_setQueue_ne {n m : Nat} (v : Queue) (h : m ≠ n) : (s.setQueue n v).queue m = s.queue m :=
  mget_mset_ne _ _ _ h
@[simp] theorem State.op_setOp (t : Nat) (o : Op) : (s.setOp t o).op? t = some o := by simp [State.op?, State.setOp]
theorem State.op_setOp_ne {t u : Nat} (o : Op) (h : u ≠ t) : (s.setOp t o).op? u = s.op? u := mget?_mset_ne _ _ h
@[simp] theorem State.op_setQueue (n t : Nat) (v : Queue) : (s.setQueue n v).op? t = s.op? t := rfl
@[simp] theorem State.queue_setOp (n t : Nat) (o : Op) : (s.setOp t o).queue n = s.queue n := rfl
@[simp] theorem State.link_setLink (n : Nat) (v : Link) : (s.setLink n v).link n = v := by simp [State.link, State.setLink]
theorem State.link_setLink_ne {n m : Nat} (v : Link) (h : m ≠ n) : (s.setLink n v).link m = s.link m := mget_mset_ne _ _ _ h
@[simp] theorem State.link_timeTo (n t : Nat) : (s.timeTo t).link n = s.link n := rfl
@[simp] theorem State.link_bump (n i j k : Nat) : (s.bump i j k).link n = s.link n := rfl
@[simp] theorem State.pxLink_timeTo (n t : Nat) : (s.timeTo t).pxLink n = s.pxLink n := rfl
@[simp] theorem State.seq_setSeq (n : Nat) (v : Seq) : (s.setSeq n v).seq? n = some v := by simp [State.seq?, State.setSeq]
@[simp] theorem State.frame_setFrame (n : Nat) (v : Frame) : (s.setFrame n v).frame? n = some v := by simp [State.frame?, State.setFrame]
@[simp] theorem State.die_setDie (n : Nat) (v : Die) : (s.setDie n v).die n = v := by simp [State.die, State.setDie]
@[simp] theorem State.plan_setPlan (p n : Nat) (v : Plan) : (s.setPlan p n v).plan p n = v := by simp [State.plan, State.setPlan]
@[simp] theorem State.partOf_setPart (p : Nat) (v : Part) : (s.setPart p v).partOf p = v := by simp [State.partOf, State.setPart]
theorem State.partOf_setPart_ne {p q : Nat} (v : Part) (h : q ≠ p) : (s.setPart p v).partOf q = s.partOf q := mget_mset_ne _ _ _ h
@[simp] theorem State.portOf_setPort (k : Nat) (v : Port) : (s.setPort k v).portOf k = v := by simp [State.portOf, State.setPort]
@[simp] theorem State.anArray_setArray (a : Nat) (v : AnArray) : (s.setArray a v).anArray a = v := by simp [State.anArray, State.setArray]
@[simp] theorem State.refSt_setRef (k : Nat) (v : RefSt) : (s.setRef k v).refSt k = v := by simp [State.refSt, State.setRef]
@[simp] theorem State.box_setBox (k : Nat) (v : Mailbox) : (s.setBox k v).box k = v := by simp [State.box, State.setBox]
@[simp] theorem State.window_windowWrite (p a : Nat) (v : Bytes) : (s.windowWrite p a v).window p = wrN (s.window p) a v := by
  simp [State.window, State.windowWrite]
theorem State.window_windowWrite_ne {p q : Nat} (a : Nat) (v : Bytes) (h : q ≠ p) : (s.windowWrite p a v).window q = s.window q :=
  mget_mset_ne _ _ _ h
@[simp] theorem State.hostWrite_windows (k a : Nat) (v : Bytes) : (s.hostWrite k a v).mem.windows = s.mem.windows := by
  unfold State.hostWrite; split <;> rfl
theorem State.host_hostWrite {k j : Nat} (a : Nat) (v : Bytes) (hk : k ≤ 1) (hj : j ≤ 1) :
    (s.hostWrite k a v).host j = if j = k then wrN (s.host k) a v else s.host j := by
  unfold State.hostWrite State.host
  obtain rfl | rfl : k = 0 ∨ k = 1 := by omega
  all_goals (obtain rfl | rfl : j = 0 ∨ j = 1 := by omega) <;> simp

end Sys2Proof.Machine
end

