-- ==== Sys2Proof/Laws/Frames.lean ====
section
/-! SUPPORT. What receiving a frame can do, and where it stops. -/

namespace Sys2Proof.Machine

/-- A link that is UP accepts every frame. -/
theorem accept_up (s : State) (n vl len : Nat) (h : (s.link n).st = .up) : s.accept n vl len = some (s.accepted n vl len) := by
  unfold State.accepted
  cases e : s.accept n vl len with
  | some t => rfl
  | none => unfold State.accept at e; rw [if_neg (by simp [h])] at e; cases e

/-- Counting on a link leaves every link as it was. -/
theorem link_linkCount (s : State) (n k c v : Nat) : (s.linkCount n c v).link k = s.link k :=
  congrArg (fun x : Links => mget x.links k {}) ((State.linkCount_keeps s n c v).of .lk (by decide))

/-- An ACK holds no frame back. -/
theorem held_sendAck (s : State) (n : Nat) : ((s.sendAck n).link n).held = (s.link n).held := by
  unfold State.sendAck; simp only [State.link_setLink]

/-- Accepting a frame keeps all but the links, the counters and what goes out. -/
theorem accepted_keeps (s : State) (n vl len : Nat) (h : (s.link n).st = .up) : Keeps [.out, .ctr, .lk] s (s.accepted n vl len) :=
  State.accept_keeps_eq (accept_up s n vl len h)

/-- Accepting a frame holds none back. -/
theorem accepted_held (s : State) (n vl len : Nat) (h : (s.link n).st = .up) :
    ((s.accepted n vl len).link n).held = (s.link n).held := by
  unfold State.accepted State.accept
  rw [if_neg (by simp [h])]
  dsimp only [Option.getD_some]
  split <;> split <;> simp only [held_sendAck, link_linkCount, State.link_setLink]

/-- Accepting a frame changes the links alone of all that belongs to them. -/
theorem accepted_lk (s : State) (n vl len : Nat) (h : (s.link n).st = .up) :
    (s.accepted n vl len).lk = { s.lk with links := (s.accepted n vl len).lk.links } := by
  unfold State.accepted State.accept
  rw [if_neg (by simp [h])]
  dsimp only [Option.getD_some]
  split <;> split <;> rfl

/-- Accepting a frame leaves the link's partner. -/
theorem accepted_partner (s : State) (n vl len : Nat) (h : (s.link n).st = .up) :
    ((s.accepted n vl len).link n).partner = (s.link n).partner := by
  have ack : ∀ s : State, ((s.sendAck n).link n).partner = (s.link n).partner := by
    intro s; unfold State.sendAck; simp only [State.link_setLink]
  unfold State.accepted State.accept
  rw [if_neg (by simp [h])]
  dsimp only [Option.getD_some]
  split <;> split <;> simp only [ack, link_linkCount, State.link_setLink]

/-- A frame that a link takes and that can be applied has its effect, and its credits return. -/
theorem receiveRes_takes (s : State) (n vl len : Nat) (i : Instr) (ap : State → Option Res) (h : s.takesFrame n vl len i) (t : State)
    (ha : ap (s.accepted n vl len) = some (.next t)) : s.receiveRes n vl len i ap = .next (t.givesBack n vl len) := by
  obtain ⟨h1, h2, h3, h4⟩ := h
  unfold State.receiveRes
  rw [if_neg (by simp [h1]), if_neg (by simp [h2, h3]), accept_up s n vl len h1]
  simp only [accepted_held s n vl len h1, h4, Bool.false_eq_true, if_false, ha]; rfl

/-- The same of the frame an instruction carries. -/
theorem frameIn_takes (s : State) (n : Nat) (i : Instr) (h : s.takesFrame n (heldFrame i).1 (heldFrame i).2.1 i) (t : State)
    (ha : (s.accepted n (heldFrame i).1 (heldFrame i).2.1).applyFrame i = some (.next t)) :
    s.frameIn n i = .next (t.givesBack n (heldFrame i).1 (heldFrame i).2.1) :=
  receiveRes_takes _ _ _ _ _ _ h t ha

/-- A frame that a link takes and that cannot be applied yet is held back. -/
theorem frameIn_holds (s : State) (n : Nat) (i : Instr) (h : s.takesFrame n (heldFrame i).1 (heldFrame i).2.1 i)
    (ha : (s.accepted n (heldFrame i).1 (heldFrame i).2.1).applyFrame i = none) :
    s.frameIn n i = .next (((s.accepted n (heldFrame i).1 (heldFrame i).2.1).hold n i).withhold i) := by
  obtain ⟨h1, h2, h3, h4⟩ := h
  unfold State.frameIn State.receiveRes
  rw [if_neg (by simp [h1]), if_neg (by simp [h2, h3]), accept_up s n _ _ h1]
  simp only [accepted_held s n _ _ h1, h4, Bool.false_eq_true, if_false, ha]

/-- A received frame whose application goes on goes on. -/
theorem receiveRes_next (s : State) (n vl len : Nat) (i : Instr) (ap : State → Option Res) (h : ∀ u r, ap u = some r → ∃ t, r = .next t) :
    ∃ t, s.receiveRes n vl len i ap = .next t := by
  unfold State.receiveRes
  split
  · exact ⟨_, rfl⟩
  · split
    · exact ⟨_, rfl⟩
    · split
      · exact ⟨_, rfl⟩
      · split
        · exact ⟨_, rfl⟩
        · split
          · exact ⟨_, rfl⟩
          · rename_i r hn he
            obtain ⟨t, rfl⟩ := h _ _ he
            exact absurd rfl (hn t)
          · exact ⟨_, rfl⟩

/-- No received frame is refused. -/
theorem receiveRes_not_refused (s : State) (n vl len : Nat) (i : Instr) (ap : State → Option Res) (h : ∀ u r, ap u = some r → ∀ x, r ≠ .refused x) (x : Refusal) :
    s.receiveRes n vl len i ap ≠ .refused x := by
  unfold State.receiveRes
  split
  · intro h; cases h
  · split
    · intro h; cases h
    · split
      · intro h; cases h
      · split
        · intro h; cases h
        · split
          · intro h; cases h
          · rename_i r hn he
            exact h _ _ he x
          · intro h; cases h

theorem onSubmit_next (u : State) (r : Req) (x : Res) (h : u.onSubmit r = some x) : ∃ t, x = .next t := by
  unfold State.onSubmit at h; dsimp only at h
  split at h
  · cases h; exact ⟨_, rfl⟩
  · split at h
    · cases h
    · cases h; exact ⟨_, rfl⟩

theorem onPull_next (u : State) (r : Req) (x : Res) (h : u.onPull r = some x) : ∃ t, x = .next t := by
  unfold State.onPull at h; dsimp only at h
  split at h
  · cases h
  · split at h
    · cases h; exact ⟨_, rfl⟩
    · cases h; exact ⟨_, rfl⟩

/-- A journal head either moves or is the host's violation. -/
theorem setCjHead_cases (s : State) (q i : Nat) : (∃ t, s.setCjHead q i = .next t) ∨ s.setCjHead q i = .fault .hostViolation := by
  unfold State.setCjHead; dsimp only; split
  · exact Or.inr rfl
  · exact Or.inl ⟨_, rfl⟩

theorem applyFrame_not_refused (u : State) (i : Instr) (r : Res) (h : u.applyFrame i = some r) (x : Refusal) : r ≠ .refused x := by
  unfold State.applyFrame at h
  split at h <;> first
    | (cases h; intro h; cases h; done)
    | (obtain ⟨t, rfl⟩ := onSubmit_next _ _ _ h; intro h; cases h; done)
    | (obtain ⟨t, rfl⟩ := onPull_next _ _ _ h; intro h; cases h; done)
    | (rename_i rq; cases h; unfold State.onCjHead; dsimp only; split
       · intro h; cases h
       · rcases setCjHead_cases u (64 * rq.part + rq.queue) rq.value with ⟨t, e⟩ | e <;> rw [e] <;> intro h <;> cases h)
    | (revert h; cases State.collFrame _ _ _ <;> intro h <;> cases h; intro h; cases h)

/-- Every frame but CJ_HEAD goes on. -/
theorem frameIn_next (s : State) (n : Nat) (i : Instr) (hi : ∀ r, i ≠ .cjHead r) : ∃ t, s.frameIn n i = .next t := by
  refine receiveRes_next _ _ _ _ _ _ ?_
  intro u r h
  unfold State.applyFrame at h
  split at h <;> first
    | (cases h; exact ⟨_, rfl⟩; done)
    | (exact onSubmit_next _ _ _ h; done)
    | (exact onPull_next _ _ _ h; done)
    | (exact absurd rfl (hi _); done)
    | (revert h; cases State.collFrame _ _ _ <;> intro h <;> cases h; exact ⟨_, rfl⟩)

theorem applyHeld_not_refused (n vl k : Nat) (x : Refusal) : ∀ s : State, s.applyHeld n vl k ≠ .refused x := by
  induction k with
  | zero => intro s h; cases h
  | succ k ih =>
    intro s
    unfold State.applyHeld
    split
    · intro h; cases h
    · split
      · intro h; cases h
      · exact ih _
      · rename_i r hn he; exact applyFrame_not_refused _ _ _ he x

theorem applyVls_not_refused (n : Nat) (vs : List Nat) (x : Refusal) : ∀ s : State, s.applyVls n vs ≠ .refused x := by
  induction vs with
  | nil => intro s h; cases h
  | cons v vs ih =>
    intro s
    unfold State.applyVls
    split
    · exact ih _
    · rename_i r hn; exact applyHeld_not_refused n v _ x s

end Sys2Proof.Machine
end

