-- ==== Sys2Proof/Laws/Records.lean ====
section
/-! SUPPORT. What the end of an operation leaves as it was: the OTT, the queues and memory (R272, R273). -/

namespace Sys2Proof.Machine

/-- Counting an end changes nothing an end looks at. -/
theorem countEnd_same (s : State) (c : Option Cmd) (b : Bool) (p st : Nat) : (s.countEnd c b p st).q = s.q ∧ (s.countEnd c b p st).part = s.part ∧ (s.countEnd c b p st).lk = s.lk
   ∧ (s.countEnd c b p st).mem = s.mem ∧ (s.countEnd c b p st).ev = s.ev ∧ (s.countEnd c b p st).clk = s.clk ∧ (s.countEnd c b p st).now = s.now := by
  have k := State.countEnd_keeps s c b p st
  exact ⟨k.of .q (by decide), k.of .part (by decide), k.of .lk (by decide), k.of .mem (by decide), k.of .ev (by decide), k.of .clk (by decide), k.of .now (by decide)⟩

/-- Releasing an entry of an ENABLED queue frees it and changes no queue. -/
theorem release_frees (s : State) (t : Nat) (o : Op) (h : s.op? t = some o) (hv : (s.queue o.queue).st = .enabled) :
    (s.release t).op? t = none ∧ ∀ q, (s.release t).queue q = s.queue q := by
  unfold State.release
  simp only [h]
  have h1 : (s.untag t).queue o.queue = s.queue o.queue := rfl
  rw [if_neg]
  · exact ⟨mget?_merase _ _, fun q => rfl⟩
  · rintro ⟨_, h2, _⟩
    have : (s.queue o.queue).st = .stopping := h2
    rw [hv] at this; cases this

/-- The OTT and the queues are the same. -/
def SameQueues (s t : State) : Prop := t.q.ott = s.q.ott ∧ t.q.queues = s.q.queues

theorem sameQueues_bump (s : State) (i j k : Nat) : SameQueues s (s.bump i j k) := ⟨rfl, rfl⟩

theorem sameQueues_msix (s : State) (k f v : Nat) : SameQueues s (s.msix k f v) := by
  unfold State.msix; dsimp only; split
  · exact ⟨rfl, rfl⟩
  · split
    · split <;> exact ⟨rfl, rfl⟩
    · split <;> exact ⟨rfl, rfl⟩

theorem SameQueues.trans {a b c : State} (h : SameQueues a b) (g : SameQueues b c) : SameQueues a c := ⟨g.1.trans h.1, g.2.trans h.2⟩

theorem sameQueues_partVec (s : State) (p v : Nat) : SameQueues s (s.partVec p v) := by
  have one : ∀ (s : State) k, SameQueues s (if s.hasVf k p then s.msix k (p + 1) v else s) := by
    intro s k; split
    · exact sameQueues_msix _ _ _ _
    · exact ⟨rfl, rfl⟩
  unfold State.partVec; split
  · exact ⟨rfl, rfl⟩
  · exact (one s 0).trans (one _ 1)

theorem sameQueues_pfVec (s : State) (v : Nat) : SameQueues s (s.pfVec v) := (sameQueues_msix ..).trans (sameQueues_msix ..)

theorem sameQueues_logEvent (s : State) (k sv c : Nat) (a : EvArg) : SameQueues s (s.logEvent k sv c a) := by
  have := (State.logEvent_keeps s k sv c a).of .q (by decide)
  exact ⟨congrArg Queues.ott this, congrArg Queues.queues this⟩

theorem sameQueues_event (s : State) (k : Nat) (a : EvArg) : SameQueues s (s.event k a) := by
  unfold State.event State.eventAs
  dsimp only
  split
  · split
    · exact sameQueues_logEvent ..
    · exact (sameQueues_logEvent ..).trans (sameQueues_partVec ..)
  · exact (sameQueues_logEvent ..).trans (sameQueues_pfVec ..)

theorem sameQueues_completeSnaps (s : State) : SameQueues s s.completeSnaps := by
  unfold State.completeSnaps
  dsimp only
  generalize hl : List.filter _ s.ev.snaps = l
  clear hl
  suffices h : ∀ (l : List Snap) (u : State), SameQueues s u → SameQueues s (l.foldl (fun s n => s.event 0x0004 { params := [n.id] }) u) from h l _ ⟨rfl, rfl⟩
  intro l
  induction l with
  | nil => intro u h; exact h
  | cons a l ih => intro u h; exact ih _ (h.trans (sameQueues_event ..))

theorem length_leBytes (n v : Nat) : (leBytes n v).length = n := by
  induction n generalizing v with
  | zero => rfl
  | succ n ih => simp [leBytes, ih]

theorem length_recordBytes (t : Nat) (o : Op) (p : Bool) : (recordBytes t o p).length = 32 := by
  simp [recordBytes, length_leBytes]

/-- The OTT is the same, and so is all of queue `q` but what its vector counts. -/
def SameRing (q : Nat) (s t : State) : Prop :=
  (∀ n, t.op? n = s.op? n) ∧ (t.queue q).cjTail = (s.queue q).cjTail ∧ (t.queue q).phase = (s.queue q).phase ∧
    (t.queue q).st = (s.queue q).st ∧ (t.queue q).cjHead = (s.queue q).cjHead ∧ (t.queue q).sqHead = (s.queue q).sqHead

theorem SameRing.trans {q : Nat} {a b c : State} (h : SameRing q a b) (g : SameRing q b c) : SameRing q a c :=
  ⟨fun n => (g.1 n).trans (h.1 n), g.2.1.trans h.2.1, g.2.2.1.trans h.2.2.1, g.2.2.2.1.trans h.2.2.2.1,
    g.2.2.2.2.1.trans h.2.2.2.2.1, g.2.2.2.2.2.trans h.2.2.2.2.2⟩

theorem SameQueues.ring {s t : State} (h : SameQueues s t) (q : Nat) : SameRing q s t := by
  have e : t.queue q = s.queue q := by unfold State.queue; rw [h.2]
  exact ⟨fun n => congrArg (mget? · n) h.1, by rw [e], by rw [e], by rw [e], by rw [e], by rw [e]⟩

/-- A queue's vector leaves its ring as it was. -/
theorem queueMsg_ring (s : State) (q : Nat) : SameRing q s (s.queueMsg q) := by
  have h : SameRing q s (s.setQueue q { s.queue q with unsig := 0, unsigAt := none, urgent := false }) := by
    refine ⟨fun _ => rfl, ?_, ?_, ?_, ?_, ?_⟩ <;> rw [State.queue_setQueue]
  unfold State.queueMsg; dsimp only; split
  · exact h
  · exact h.trans ((sameQueues_msix ..).ring q)

theorem queueVec_ring (s : State) (q : Nat) (n : Bool) : SameRing q s (s.queueVec q n) := by
  unfold State.queueVec State.queueEval; dsimp only; split
  · exact ⟨fun _ => rfl, rfl, rfl, rfl, rfl, rfl⟩
  · refine SameRing.trans (b := s.setQueue q { s.queue q with unsig := (s.queue q).unsig + 1, unsigAt := some ((s.queue q).unsigAt.getD s.up), urgent := (s.queue q).urgent || n }) ?_ ?_
    · refine ⟨fun _ => rfl, ?_, ?_, ?_, ?_, ?_⟩ <;> rw [State.queue_setQueue]
    · split
      · exact queueMsg_ring ..
      · exact ⟨fun _ => rfl, rfl, rfl, rfl, rfl, rfl⟩

end Sys2Proof.Machine
end

