-- ==== Sys2Proof/Laws/Requests.lean ====
section
/-! SUPPORT. What a dictionary request does once it is heard and served (R394-R398). -/

namespace Sys2Proof.Machine

/-- A request that is heard does what it asks and gives its credits back. -/
theorem zdpIn_hears (s u : State) (z : Zdp) (i : Instr) (ask : State → State) (h : s.hears z i u) :
    s.zdpIn z i ask = (ask u).heard z i := by
  obtain ⟨h1, h0, h2⟩ := h
  unfold State.zdpIn; rw [if_neg (by rintro (a | ⟨a, b⟩); exact absurd a (by simp [h1]); rw [h0 a] at b; cases b)]
  unfold State.heard
  cases he : z.ep with
  | mgmt n =>
    rw [he] at h2; simp only at h2
    obtain ⟨a, rfl⟩ := h2
    simp only [State.receive]
    rw [receiveRes_takes s n 7 _ i (fun s => some (.next (ask s))) a _ rfl]
  | can n => rw [he] at h2; simp only at h2 ⊢; rw [h2]
  | pf n => rw [he] at h2; simp only at h2 ⊢; rw [h2]
  | vf n m => rw [he] at h2; simp only at h2 ⊢; rw [h2]

/-- A request nobody hears changes nothing. -/
theorem zdpIn_silent (s : State) (z : Zdp) (i : Instr) (ask : State → State) (h : s.answers z.ep = false) :
    s.zdpIn z i ask = s := by unfold State.zdpIn; rw [if_pos (by simp [h])]

/-- A served request is what its service answers. -/
theorem request_serves (u w : State) (z : Zdp) (x : Session) (svc ix sub : Nat) (body) (h : u.serves z x w) :
    u.request z svc ix sub body = (body x w).send z svc ix sub := by
  obtain ⟨h1, h0, h2, h3, h4, h5, h6⟩ := h
  unfold State.request State.gate
  rw [if_neg (by simp [h1])]
  cases hs : u.session? z.ep with
  | none => rw [hs] at h3; exact absurd h3 (by simp)
  | some y =>
    simp only
    rw [if_neg (by simp [h0])]
    have e1 : (u.modSession z.ep fun x => { x with lastAt := u.up }) = w := h4.symm
    rw [e1]
    have hb : w.boot.ready = true := by rw [h4]; exact h2
    rw [if_neg (by simp [hb]), h5]; simp only [h6]

/-- A write that passes applies its value and is answered. -/
theorem zWrite_ok (u w t : State) (z : Zdp) (x : Session) (ix sub : Nat) (v o r) (h : u.serves z x w) (m : w.mayWrite x ix sub r)
    (ht : w.writeValue ix sub r v o = .ok t) : u.zWrite z ix sub v o = (t.trigger ix sub).answer z 0x11 ix sub := by
  unfold State.zWrite; rw [request_serves u w z x _ _ _ _ h]
  obtain ⟨m1, m2, m3, m4⟩ := m
  simp only [State.writeReq, m1]
  rw [if_neg (by rintro (a|a); exact m2 a; omega), if_neg (by simp [m4])]
  unfold State.applyWrite; rw [ht]; rfl

/-- A write whose value is refused is answered with the abort code. -/
theorem zWrite_err (u w : State) (z : Zdp) (x : Session) (ix sub : Nat) (v o r c) (h : u.serves z x w) (m : w.mayWrite x ix sub r)
    (hc : c ≠ 0) (ht : w.writeValue ix sub r v o = .error c) : u.zWrite z ix sub v o = w.abort z.ep 0x11 z.tag ix sub c := by
  unfold State.zWrite; rw [request_serves u w z x _ _ _ _ h]
  obtain ⟨m1, m2, m3, m4⟩ := m
  simp only [State.writeReq, m1]
  rw [if_neg (by rintro (a|a); exact m2 a; omega), if_neg (by simp [m4])]
  unfold State.applyWrite; rw [ht]; unfold Ans.send refuse; simp only; rw [if_pos hc]

/-- The same for a whole segmented write. -/
theorem zWhole_ok (u w t : State) (z : Zdp) (x : Session) (ix sub : Nat) (v r) (h : u.serves z x w) (m : w.mayWriteWhole x ix sub v.length r)
    (ht : w.writeValue ix sub r v (.hard false) = .ok t) : u.zWhole z ix sub v = (t.trigger ix sub).answer z 0x23 ix sub := by
  unfold State.zWhole; rw [request_serves u w z x _ _ _ _ h]
  obtain ⟨m1, m2, m3⟩ := m
  simp only [State.writeWhole, m1]
  rw [if_neg (by simp [m2]), if_neg (by simp [m3])]
  unfold State.applyWrite; rw [ht]; rfl

theorem zWhole_err (u w : State) (z : Zdp) (x : Session) (ix sub : Nat) (v r c) (h : u.serves z x w) (m : w.mayWriteWhole x ix sub v.length r)
    (hc : c ≠ 0) (ht : w.writeValue ix sub r v (.hard false) = .error c) : u.zWhole z ix sub v = w.abort z.ep 0x23 z.tag ix sub c := by
  unfold State.zWhole; rw [request_serves u w z x _ _ _ _ h]
  obtain ⟨m1, m2, m3⟩ := m
  simp only [State.writeWhole, m1]
  rw [if_neg (by simp [m2]), if_neg (by simp [m3])]
  unfold State.applyWrite; rw [ht]; unfold Ans.send refuse; simp only; rw [if_pos hc]

end Sys2Proof.Machine
end

