-- ==== Sys2Proof/Laws/Sequences.lean ====
section
/-! SUPPORT. Which SEQ an open or fork is assigned (R302). -/

namespace Sys2Proof.Machine

/-- A search that finds no free SEQ has met none. -/
theorem findSeq_none (w : State) (n : Nat) : ∀ h, w.findSeq h n = none → ∀ i, i < n → mhas w.pg.seqs ((h + i) % 2 ^ 24) = true ∨ w.seqNamed ((h + i) % 2 ^ 24) = true := by
  induction n with
  | zero => intro h _ i hi; omega
  | succ n ih =>
    intro h hn i hi
    simp only [State.findSeq] at hn
    split at hn
    · rename_i hc
      cases i with
      | zero => simpa using hc
      | succ i =>
        have := ih (h + 1) hn i (by omega)
        rwa [show h + (i + 1) = h + 1 + i by omega]
    · cases hn

/-- A search that finds a SEQ finds a free one. -/
theorem findSeq_some (w : State) (n : Nat) : ∀ h x, w.findSeq h n = some x → x < 2 ^ 24 ∧ mhas w.pg.seqs x = false ∧ w.seqNamed x = false := by
  induction n with
  | zero => intro h x e; cases e
  | succ n ih =>
    intro h x e
    simp only [State.findSeq] at e
    split at e
    · exact ih _ _ e
    · rename_i hc; cases e
      simp at hc
      exact ⟨Nat.mod_lt _ (by decide), by simpa using hc.1, by simpa using hc.2⟩

/-- The SEQ assigned is free. -/
theorem freeSeq_free (w : State) (n : Nat) (x : State) (h : w.freeSeq = some (n, x)) : w.seq? n = none ∧ n < 2 ^ 24 := by
  unfold State.freeSeq at h
  simp only [State.takeFree] at h
  generalize hf : State.findSeq _ _ _ = r at h
  cases r with
  | none => cases h
  | some y =>
    simp only [Option.map_some, Option.some.injEq, Prod.mk.injEq] at h
    obtain ⟨rfl, _⟩ := h
    have := findSeq_some _ _ _ _ hf
    refine ⟨?_, this.1⟩
    have h2 : mhas w.pg.seqs y = false := this.2.1
    simpa [mhas, State.seq?] using h2

/-- None is assigned exactly when none is free. -/
theorem freeSeq_none_iff (w : State) : (∀ n : Nat, n < 2 ^ 24 → (w.seq? n).isSome = true ∨ w.seqNamed n = true) ↔ w.freeSeq = none := by
  constructor
  · intro h
    cases hf : w.freeSeq with
    | none => rfl
    | some y =>
      obtain ⟨n, x⟩ := y
      have a := freeSeq_free w n x hf
      unfold State.freeSeq at hf
      simp only [State.takeFree] at hf
      generalize hg : State.findSeq _ _ _ = r at hf
      cases r with
      | none => cases hf
      | some y =>
        simp only [Option.map_some, Option.some.injEq, Prod.mk.injEq] at hf
        obtain ⟨rfl, _⟩ := hf
        have b := findSeq_some _ _ _ _ hg
        rcases h y b.1 with h | h
        · rw [a.1] at h; cases h
        · have : w.seqNamed y = false := b.2.2
          rw [this] at h; cases h
  · intro h n hn
    unfold State.freeSeq at h
    simp only [State.takeFree] at h
    generalize hg : State.findSeq _ _ _ = r at h
    cases r with
    | some y => cases h
    | none =>
      generalize Config.seqHint w.free = k at hg
      have := findSeq_none _ _ _ hg ((n + 2 ^ 24 - k % 2 ^ 24) % 2 ^ 24) (Nat.mod_lt _ (by decide))
      rw [show (k + (n + 2 ^ 24 - k % 2 ^ 24) % 2 ^ 24) % 2 ^ 24 = n by omega] at this
      exact this

end Sys2Proof.Machine
end

