-- ==== Sys2Proof/WellFormed.lean ====
section
/-! DEFINITION. Well-formed commands: every operand within the width or range that the spec gives it. A command outside is no command
the block can be sent; `exec` answers for it all the same. -/

namespace Sys2Proof

/-! ### Ranges -/

/-- An OTT tag: 131,072 entries (R276). -/
def tagOk (t : Nat) : Bool := t < 131072
/-- A queue number Q = 64·p + q (R259). -/
def queueOk (q : Nat) : Bool := q < 4096
/-- A partition (R354). -/
def partOk (p : Nat) : Bool := p < 64
/-- A PCIe port (R355). -/
def portOk (k : Nat) : Bool := k < 2
/-- A function of a PCIe port: 0 the PF, v a virtual function (R355). -/
def fnOk (f : Nat) : Bool := f ≤ 64
/-- A vector of a function: 64 queues and the vectors of R280. -/
def vecOk (v : Nat) : Bool := v < 128
/-- A Kwaxel link (R492). -/
def linkOk (n : Nat) : Bool := n < 128
/-- A virtual lane or service class (R498, R318). -/
def vlOk (v : Nat) : Bool := v < 8
/-- A die (R154). -/
def dieOk (d : Nat) : Bool := d < 1024
/-- A frame identifier (Table 2.1). -/
def fidOk (f : Nat) : Bool := 1 ≤ f && f ≤ 0xFFFFFFFE
/-- A layer (Table 2.6). -/
def layerOk (l : Nat) : Bool := l < 256
/-- A sequence handle (Table 2.2). -/
def seqOk (n : Nat) : Bool := n < 16777216
/-- An analog array: 32 in each of 112 pith fields (R203). -/
def arrayOk (a : Nat) : Bool := a < 3584
/-- A plan slot (R136). -/
def planOk (n : Nat) : Bool := n < 8
/-- A position of a plan (Table 16.10). -/
def posOk (i : Nat) : Bool := i < 65536
/-- A port of the traffic manager and its direction (Table 10.1). -/
def tmPortOk (x dir : Nat) : Bool := x < 178 && (dir == 0 || (dir == 1 && x ≥ 176))
/-- A subscriber: a partition, or 64 the module (R319). -/
def subOk (s : Nat) : Bool := s ≤ 64
/-- A slot index of a queue's ring. -/
def idxOk (i : Nat) : Bool := i < 65536
/-- A payload of a frame (Table 16.16). -/
def payloadOk (b : Bytes) : Bool := b.length ≤ 8192
/-- A link of the UL1-PX block (R541). -/
def blockOk (k : Nat) : Bool := k < 2
/-- A lender slot or a LEASE_ID (Table 16.16). -/
def slotOk (k : Nat) : Bool := k < 16
/-- Eight credit limits of 16 bits (Table 16.4). -/
def limitsOk (l : List Nat) : Bool := l.length == 8 && l.all (· < 65536)
/-- A frame sequence number (R503). -/
def fseqOk (f : Nat) : Bool := f < 16777216
/-- A REFCLK input (R459). -/
def refOk (k : Nat) : Bool := k < 4
/-- A bit set of the NOR devices or start controllers (R446). -/
def pairOk (n : Nat) : Bool := n < 4

/-- One end of a link. -/
def endOk : LinkEnd → Bool
  | .module n => linkOk n
  | .block k => blockOk k

/-- An endpoint of Table 12.3. -/
def epOk : Endpoint → Bool
  | .can n => n < 128
  | .pf k => portOk k
  | .vf k p => portOk k && partOk p
  | .mgmt n => linkOk n

/-- A ZDP sender: its endpoint and an 8-bit TAG. -/
def zdpOk (z : Zdp) : Bool := epOk z.ep && z.tag < 256

/-- An object: index and subindex (R381). -/
def objOk (ix sub : Nat) : Bool := ix < 65536 && sub < 256

/-- The fields of a REQ (Table 16.8). -/
def reqOk (r : Req) : Bool :=
  linkOk r.link && vlOk r.vl && r.colour < 3 && partOk r.part && r.queue < 64 && r.select < 256 && r.rtag < 65536 &&
    r.value < 65536 && r.first < 4294967296 && r.count < 4294967296 && r.addr < 281474976710656 && payloadOk r.payload

/-- A PCIe error names a queue or an operation. -/
def errOk : PcieErr → Bool
  | .ringFetch q => queueOk q
  | .operand t => tagOk t
  | .journal q => queueOk q

/-! ### Commands -/

/-- A well-formed command. -/
def Instr.wf (i : Instr) : Bool :=
  match i with
  | .copy t => tagOk t
  | .sliceWrite t => tagOk t
  | .sliceRead t => tagOk t
  | .stage t => tagOk t
  | .seqOpen t => tagOk t
  | .seqFork t => tagOk t
  | .seqTruncate t => tagOk t
  | .seqDiscard t => tagOk t
  | .chainSearchProbe t => tagOk t
  | .chainSearchAttach t => tagOk t
  | .maskedSearch t => tagOk t
  | .purgePrivate t => tagOk t
  | .inspectSeq t => tagOk t
  | .inspectFrame t => tagOk t
  | .pipInspect t => tagOk t
  | .indexQuery t => tagOk t
  | .attendForward t => tagOk t
  | .attendBackward t => tagOk t
  | .saveDiscard t => tagOk t
  | .saveExpiry p id => partOk p && id < 4096
  | .gather t => tagOk t
  | .reduce t => tagOk t
  | .collect t => tagOk t
  | .collectTimeout t => tagOk t
  | .nop t => tagOk t
  | .list q => queueOk q
  | .sqTailDoorbell k f q i => portOk k && fnOk f && q < 64 && idxOk i
  | .cjHeadDoorbell k f q i => portOk k && fnOk f && q < 64 && idxOk i
  | .queueEnable q => queueOk q
  | .queueDisable q => queueOk q
  | .queueFlush q => queueOk q
  | .queueRegisterWrite q _ _ => queueOk q
  | .journalFullRecordWrite q => queueOk q
  | .moderationTimeTrigger q => queueOk q
  | .msixUnmask k f v => portOk k && fnOk f && vecOk v
  | .pcieErrorResponse e => errOk e
  | .ottHwmRead z p => zdpOk z && partOk p
  | .ottReserveWrite z p _ => zdpOk z && partOk p
  | .ottCapWrite z p _ => zdpOk z && partOk p
  | .camPlace f => fidOk f
  | .mapCacheWaitResume t => tagOk t
  | .suspendHoldoffExpiry d => dieOk d
  | .pageReadDone d _ => dieOk d
  | .punnetProgramDone d _ => dieOk d
  | .superblockEraseDone d _ => dieOk d
  | .retentionRefresh d sb _ => dieOk d && sb < 3641
  | .mediaSync z => zdpOk z
  | .shutdownPrepare z => zdpOk z
  | .freeCommitStep2 f l => fidOk f && l.all layerOk
  | .writebackDelayExpiry f l => fidOk f && layerOk l
  | .writebackComplete f l => fidOk f && layerOk l
  | .allocWaitResume t => tagOk t
  | .allocWaitTimeout t => tagOk t
  | .deferredRelease q b => seqOk q && b < 65536
  | .frameRecountDone f => fidOk f
  | .camScrub b rows => b < 896 && rows.all (· < 16384)
  | .camBankRefill b => b < 896
  | .domainPurge z _ => zdpOk z
  | .shareDomainWrite z d sub _ => zdpOk z && d < 256 && sub < 256
  | .profileBindingWrite z p k _ => zdpOk z && partOk p && k < 8
  | .upprojWrite z n _ => zdpOk z && n < 32
  | .projWrite z n _ => zdpOk z && n < 32
  | .indexGeometryWrite z n sub _ => zdpOk z && n < 32 && (sub == 1 || sub == 2)
  | .planWrite z p n _ => zdpOk z && partOk p && planOk n
  | .markStepBegin n p k => linkOk n && partOk p && planOk k
  | .markStart n p k i => linkOk n && partOk p && planOk k && posOk i
  | .pushBegin p n => partOk p && planOk n
  | .pushComplete p n => partOk p && planOk n
  | .pipComputeDone q _ _ _ => seqOk q
  | .pipProgramBatchDone a _ => arrayOk a
  | .arrayCalibration a => arrayOk a
  | .arrayReprogramStart a => arrayOk a
  | .arrayReprogramDone a => arrayOk a
  | .pipRefresh a _ => arrayOk a
  | .portServeUnit x d => tmPortOk x d
  | .waitingUnitEnqueue x d sub c => tmPortOk x d && subOk sub && vlOk c
  | .leafStatsRead z p c x => zdpOk z && subOk p && vlOk c && x < 178
  | .leafCfgWrite z p c x _ => zdpOk z && subOk p && vlOk c && x < 178
  | .nodeCfgWrite z c x _ => zdpOk z && vlOk c && x < 178
  | .meterCfgWrite z p c _ => zdpOk z && partOk p && vlOk c
  | .derateWrite z k _ => zdpOk z && k < 4
  | .histReset z => zdpOk z
  | .faultFence k _ _ _ touched _ => 1 ≤ k && k ≤ 15 && touched.all tagOk
  | .snapshotRequest z _ => zdpOk z
  | .jobResume z p _ => zdpOk z && partOk p
  | .partitionReset z p _ => zdpOk z && partOk p
  | .functionLevelReset k f => portOk k && fnOk f
  | .partitionDisable z p _ => zdpOk z && partOk p
  | .resetGraceExpiry q n => if q then queueOk n else partOk n
  | .portReset k c => portOk k && c < 5
  | .protectionWrite z p sub _ => zdpOk z && partOk p && sub < 256
  | .protectionBatch z _ => zdpOk z
  | .frameQuotaWrite z p _ => zdpOk z && partOk p
  | .zdpOpen z r p => zdpOk z && r < 256 && p < 256
  | .zdpClose z => zdpOk z
  | .describe z ix sub => zdpOk z && objOk ix sub
  | .read z ix sub => zdpOk z && objOk ix sub
  | .write z ix sub v => zdpOk z && objOk ix sub && payloadOk v
  | .segReadInit z ix sub => zdpOk z && objOk ix sub
  | .segWriteInit z ix sub n => zdpOk z && objOk ix sub && n < 4294967296
  | .segData z ix sub o _ => zdpOk z && objOk ix sub && o < 4294967296
  | .segEnd z ix sub c => zdpOk z && objOk ix sub && c < 4294967296
  | .segAbort z ix sub => zdpOk z && objOk ix sub
  | .watch z ix sub => zdpOk z && objOk ix sub
  | .unwatch z ix sub => zdpOk z && objOk ix sub
  | .notify e ix sub => epOk e && objOk ix sub
  | .notifyAck k f => portOk k && fnOk f
  | .segmentTimeout e => epOk e
  | .sessionIdle n => n < 128
  | .kxlOwnerLinksWrite z sub _ => zdpOk z && sub < 256
  | .powerOnReset w n c => w < 262144 && pairOk n && pairOk c
  | .norRetry n c => pairOk n && pairOk c
  | .restart z _ => zdpOk z
  | .startFailClear z _ => zdpOk z
  | .firmwareUpdate z _ => zdpOk z
  | .firmwareActivate z _ => zdpOk z
  | .defectAdd z _ => zdpOk z
  | .factoryToken z _ => zdpOk z
  | .forensicRead z _ _ => zdpOk z
  | .refEdgesPresent k => refOk k
  | .refQualifyTimer k => refOk k
  | .refLoss k => refOk k
  | .refAbsentTimer k => refOk k
  | .refSelect z _ => zdpOk z
  | .timeSet z _ => zdpOk z
  | .submit r => reqOk r
  | .tail r => reqOk r
  | .cjHead r => reqOk r
  | .pull r => reqOk r
  | .windowWrite r => reqOk r
  | .windowRead r => reqOk r
  | .leaseRead r => reqOk r
  | .reqHeldApply n => linkOk n
  | .dataResponse n v rt st _ _ d => linkOk n && vlOk v && rt < 65536 && st < 256 && payloadOk d
  | .leaseWrite n v l _ d => linkOk n && vlOk v && l < 256 && payloadOk d
  | .sinkFrameReject n v _ d => linkOk n && vlOk v && payloadOk d
  | .credit e l => endOk e && limitsOk l
  | .creditPeriod e => endOk e
  | .ack e f => endOk e && fseqOk f
  | .ackDelayExpiry e => endOk e
  | .nak e f => endOk e && fseqOk f
  | .frameDiscarded e c => endOk e && c < 4
  | .replayTimeout e => endOk e
  | .collFrame n v _ m k _ p _ _ _ d => linkOk n && vlOk v && m < 16 && k < 3 && partOk p && payloadOk d
  | .collSetsWrite z _ => zdpOk z
  | .offer n _ => linkOk n
  | .request n _ => linkOk n
  | .grant n id _ _ _ => linkOk n && id < 256
  | .deny n id => linkOk n && id < 256
  | .renew n id => linkOk n && id < 256
  | .revoke n id _ => linkOk n && id < 256
  | .released n id => linkOk n && id < 256
  | .leaseRenewTimer k => slotOk k
  | .leaseTermEnd k => slotOk k
  | .leaseNoticeEnd _ k => slotOk k
  | .lendEnable z _ => zdpOk z
  | .lendBytes z _ => zdpOk z
  | .borrowBytes z _ => zdpOk z
  | .linkEnable z n _ => zdpOk z && linkOk n
  | .equalisationDone e l => endOk e && l.all (· < 4)
  | .trainingBlock e r ls rates _ lim => endOk e && r < 4 && ls < 16 && rates < 4 && limitsOk lim
  | .trainingAttemptTimeout e => endOk e
  | .retrainInterval e => endOk e
  | .lossOfLock e => endOk e
  | .pxRequest k n _ r => k < 16 && n < 16384 && reqOk r && blockOk r.link
  | .pxMarker k e p n i => blockOk k && e < 4 && partOk p && planOk n && posOk i
  | .pxFrameAccept k t v h d => blockOk k && t < 16 && vlOk v && h.length == 24 && payloadOk d
  | .pxLinkEnable k v => blockOk k && v < 4294967296
  | .pxLinkDisable k v => blockOk k && v < 4294967296
  | .pxIrqClear v => v < 4294967296
  | .pxRegisterWrite o v => o < 4096 && v < 4294967296
  | .pxLinkDown k r => blockOk k && 1 ≤ r && r ≤ 6
  | .perstRelease k => portOk k
  | .sensorSample rs => rs.all fun x => 1 ≤ x.code && x.code ≤ 10
  | .protocolFrame e => endOk e
  | .pcieRenegotiation k l g => portOk k && l ≤ 16 && g ≤ 64
  | .operandWindowAccess k f o _ _ => portOk k && fnOk f && o < 4294967296
  | .equaliseTimeout e => endOk e
  | .descriptorFetch => true
  | .ottStallResume => true
  | .attendDispatch => true
  | .punnetFlushTimer _ => true
  | .rootCheckpoint => true
  | .ageTick => true
  | .referenceRecount => true
  | .queueSample => true
  | .canFrameIgnored => true
  | .canBusOff _ => true
  | .startPhaseComplete _ _ _ => true
  | .startPhaseBudgetExpiry => true
  | .startFailRestart => true
  | .startSettle => true
  | .bistCoreTest _ _ _ _ => true
  | .meshPullInDone => true
  | .holdover24h => true
  | .positionsDecoupled _ => true
  | .clockFault => true
  | .lendOfferPeriod => true
  | .pxReset _ => true
  | .pxDeliveryBeat => true
  | .powerFail _ => true
  | .powerReturn => true
  | .porstAssert => true
  | .inputFallsBelow40V => true
  | .tapController _ => true

end Sys2Proof
end

