-- ==== Sys2Proof/Tests/Slice0.lean ====
section
/-! SUPPORT. Tests of the model, and for each statement with hypotheses a state and operands that meet them. -/

set_option maxRecDepth 40000
set_option exponentiation.threshold 600

namespace Sys2Proof.Tests

open Sys2Proof Sys2Proof.Machine

/-! ### Well-formedness: for each check a term it refuses -/

def ep0 : Zdp := { ep := .can 5, tag := 0 }
def req0 : Req := { link := 0, vl := 0 }

theorem test_illFormed_operands : ([.copy 131072, .queueEnable 4096, .saveExpiry 64 0, .saveExpiry 0 4096, .sqTailDoorbell 2 1 0 0,
    .sqTailDoorbell 0 65 0 0, .sqTailDoorbell 0 1 64 0, .sqTailDoorbell 0 1 0 65536, .msixUnmask 0 0 128,
    .pcieErrorResponse (.ringFetch 4096), .pcieErrorResponse (.operand 131072), .camPlace 0, .camPlace 0xFFFFFFFF,
    .suspendHoldoffExpiry 1024, .retentionRefresh 0 3641 0, .freeCommitStep2 1 (some 256), .writebackComplete 1 256,
    .deferredRelease 16777216 0, .deferredRelease 0 65536, .camScrub 896 [], .camScrub 0 [16384], .camBankRefill 896,
    .pushBegin 0 8, .markStart 0 0 0 65536, .arrayCalibration 3584, .portServeUnit 178 0, .portServeUnit 0 1, .waitingUnitEnqueue 0 0 65 0,
    .waitingUnitEnqueue 0 0 0 8, .faultFence 0 0 0 1 [] [], .faultFence 16 0 0 1 [] [], .portReset 0 5, .sessionIdle 128,
    .powerOnReset 262144 0 0, .powerOnReset 0 4 0, .refLoss 4, .perstRelease 2, .pcieRenegotiation 0 17 0,
    .pcieRenegotiation 0 0 65, .sensorSample [{ code := 0, value := none }]] : List Instr).all (fun i => !i.wf) = true := by decide

theorem test_illFormed_messages : ([.read { ep0 with tag := 256 } 0 0, .read { ep0 with ep := .can 128 } 0 0, .read { ep0 with ep := .pf 2 } 0 0,
    .read { ep0 with ep := .vf 0 64 } 0 0, .read { ep0 with ep := .mgmt 128 } 0 0, .read ep0 65536 0, .read ep0 0 256,
    .segWriteInit ep0 0 0 4294967296, .segData ep0 0 0 4294967296 [], .segEnd ep0 0 0 4294967296, .zdpOpen ep0 256 0, .zdpOpen ep0 0 256,
    .ottCapWrite ep0 64 [], .shareDomainWrite ep0 256 1 [], .profileBindingWrite ep0 0 8 [], .upprojWrite ep0 32 [], .projWrite ep0 32 [],
    .indexGeometryWrite ep0 0 3 [], .planWrite ep0 0 8 [], .leafCfgWrite ep0 65 0 0 [], .leafCfgWrite ep0 0 8 0 [], .leafCfgWrite ep0 0 0 178 [],
    .nodeCfgWrite ep0 8 0 [], .meterCfgWrite ep0 64 0 [], .derateWrite ep0 4 [], .protectionWrite ep0 0 256 [],
    .kxlOwnerLinksWrite ep0 256 [], .linkEnable ep0 128 []] : List Instr).all (fun i => !i.wf) = true := by decide

theorem test_illFormed_links : ([.submit { req0 with link := 128 }, .submit { req0 with vl := 8 }, .submit { req0 with colour := 3 },
    .submit { req0 with part := 64 }, .submit { req0 with queue := 64 }, .submit { req0 with select := 256 }, .submit { req0 with rtag := 65536 },
    .submit { req0 with value := 65536 }, .submit { req0 with first := 4294967296 }, .submit { req0 with count := 4294967296 },
    .submit { req0 with addr := 281474976710656 }, .reqHeldApply 128, .dataResponse 0 8 0 0 0 true [], .dataResponse 0 0 65536 0 0 true [],
    .dataResponse 0 0 0 256 0 true [], .leaseWrite 0 0 256 0 [], .sinkFrameReject 0 8 0 [], .credit (.module 128) [], .credit (.block 2) [],
    .credit (.module 0) [0], .credit (.module 0) [65536, 0, 0, 0, 0, 0, 0, 0], .ack (.module 0) 16777216, .frameDiscarded (.module 0) 4,
    .collFrame 0 0 0 16 0 false 0 0 0 0 [], .collFrame 0 0 0 0 3 false 0 0 0 0 [], .grant 0 256 0 0 0, .leaseTermEnd 16,
    .equalisationDone (.module 0) [4], .trainingBlock (.module 0) 4 0 0 0 (List.replicate 8 0), .trainingBlock (.module 0) 0 16 0 0 (List.replicate 8 0),
    .trainingBlock (.module 0) 0 0 4 0 (List.replicate 8 0), .pxRequest 16 0 1 req0, .pxRequest 1 16384 1 req0, .pxRequest 1 0 1 { req0 with link := 2 },
    .pxMarker 0 4 0 0 0, .pxFrameAccept 0 16 0 (List.replicate 24 0) [], .pxFrameAccept 0 0 0 [] [], .pxIrqClear 4294967296,
    .pxRegisterWrite 4096 0, .pxLinkDown 0 0, .pxLinkDown 0 7, .operandWindowAccess 0 0 4294967296 0 none]
      : List Instr).all (fun i => !i.wf) = true := by decide

/-- The limits themselves are well formed. -/
theorem test_wellFormed_limits : ([.copy 131071, .queueEnable 4095, .sqTailDoorbell 1 64 63 65535, .retentionRefresh 1023 3640 0,
    .camScrub 895 [16383], .portServeUnit 177 1, .faultFence 15 0 0 1 [131071] [], .read ep0 65535 255, .leafCfgWrite ep0 64 7 177 [],
    .submit { link := 127, vl := 7, colour := 2, part := 63, queue := 63, addr := 281474976710655 }, .pxRegisterWrite 4095 4294967295,
    .descriptorFetch] : List Instr).all Instr.wf = true := by decide

/-! ### States for the witnesses -/

/-- A module in service. -/
def lab : State := { State.reset with
  boot := { phase := 8, ready := true, partCount := 64 }, pwr := { rails := true }, media := { state := 2 }
  part := { setup := { prots := [(0, { enabled := true, queues := 2 ^ 64 - 1, links := 2 ^ 128 - 1, ports := 3, quota := 100 })] }
            parts := [(0, { st := 1 })], ports := [(0, { vfs := 64 })] } }

/-- 64 bytes, zero but for the little-endian fields given as (offset, value). -/
def desc (l : List (Nat × Nat)) : Bytes := leBytes 64 ((l.map fun e => e.2 * 256 ^ e.1).sum)

/-- The operation of descriptor `d` under tag 0 of queue 0. -/
def opWith (d : Bytes) : Op := { part := 0, queue := 0, desc := d }
def labOp (o : Op) : State := { lab with q := { lab.q with ott := [(0, o)] } }

/-- Link 0 UP with credits on every lane. -/
def up0 : Link := { st := .up, txLimit := limitMap (List.replicate 8 1000), rxLimit := limitMap (List.replicate 8 1000) }
def labLink (l : Link) : State := { lab with lk := { lab.lk with links := [(0, l)] } }
def labPx (l : PxLink) : State := { lab with pxb := { lab.pxb with link0 := l } }
def pxUp : PxLink := { lk := up0 }
def fr (n : Nat) : TxFrame := { fseq := n, f := { typ := 6, vl := 7, hdr := leBytes 24 0 }, sentAt := 0 }
/-! ### Witnesses: the machine and the UL1-PX block -/

theorem witness_emptyQueueLetsTimePass : State.reset.pending = [] ∧ step State.reset = .next { State.reset with up := 1, now := 1 } := ⟨rfl, rfl⟩

theorem witness_stepsKeepMemoriesCanonical : { lab with pending := [.refEdgesPresent 0] }.MemOk ∧
    ∃ t, step { lab with pending := [.refEdgesPresent 0] } = .next t := ⟨⟨rfl, rfl, by decide⟩, _, rfl⟩

theorem witness_commandsChangeOnlyTheirParts : (∃ t, exec (.refEdgesPresent 0) lab = .next t) ∧ Fld.q ∉ writes (.refEdgesPresent 0) :=
  ⟨⟨_, rfl⟩, by decide⟩

theorem witness_pxRegistersAndReset : (labPx pxUp).pxb.low = false ∧ (0 < 2 ∧ (0 = 1 → Config.twoLinks = true)) ∧ (7 < 8 ∨ 0x180 ≤ 7) ∧
    (0x180 < 8 ∨ 0x180 ≤ 0x180) := ⟨rfl, ⟨by decide, by decide⟩, by decide, by decide⟩

/-- Both ends of each range: KIND 1 and 6, no beat's worth of bytes and a full frame, a full FIFO; then each cause of a rejection. -/
theorem witness_pxRequestsAndMarkersJoinTheFifo :
    ([(1, 0, 1, 0), (6, 2048, 32, 0), (6, 64, 1, 255)].all fun c =>
      let s := labPx { pxUp with fifo := List.replicate c.2.2.2 { typ := 2, vl := 0 } }
      !s.pxOff 0 && 1 ≤ c.1 && c.1 ≤ 6 && c.2.1 ≤ (s.pxLink 0).txMax && c.2.2.1 == max 1 ((c.2.1 + 63) / 64) &&
        (s.pxLink 0).lk.st == .up && fifoBeats (s.pxLink 0).fifo == c.2.2.2 && c.2.2.2 + c.2.2.1 ≤ 256) = true ∧
    ([(0, 0, 1), (7, 0, 1), (1, 2049, 33), (1, 64, 2), (1, 0, 0)].all fun (c : Nat × Nat × Nat) =>
      c.1 = 0 || 6 < c.1 || (labPx pxUp).pxb.link0.txMax < c.2.1 || c.2.2 != max 1 ((c.2.1 + 63) / 64)) = true ∧
    lab.pxOff 0 = false ∧ (lab.pxLink 0).lk.st ≠ .up ∧ fifoMarks ((labPx pxUp).pxLink 0).fifo < 16 := by decide

theorem witness_sinkFramesBecomeBeats : fld (leBytes 8 0 ++ leBytes 8 0xFFFFFFFFFFFF ++ leBytes 8 0) 0 1 % 4 = 0 ∧
    fld (leBytes 8 0 ++ leBytes 8 0xFFFFFFFFFFFF ++ leBytes 8 0) 8 6 + ([1] : Bytes).length ≤ 2 ^ 48 ∧
    (pxBeats 0 1 (leBytes 8 0 ++ leBytes 8 63 ++ leBytes 8 0) [1, 2]).map (·.map PxBeat.enables) = some [[(63, 1)], [(64, 2)]] := by decide

/-- A frame that fits its credits exactly, one with no use, one a byte beyond them. -/
theorem witness_pxFramesJoinTheStream :
    let l := { pxUp with lk := { up0 with rxLimit := limitMap [2, 0, 0, 0, 0, 0, 0, 0] } }
    (labPx l).pxOff 0 = false ∧ ((labPx l).pxLink 0).lk.st = .up ∧ 1 ∈ [1, 2, 6, 7, 8, 9] ∧
    (36 + (List.replicate 476 (0 : Byte)).length + 255) / 256 = (mget ((labPx l).pxLink 0).lk.rxLimit 0 0 + 65536 - mget ((labPx l).pxLink 0).lk.rxUsed 0 0) % 65536 ∧
    (mget ((labPx l).pxLink 0).lk.rxLimit 0 0 + 65536 - mget ((labPx l).pxLink 0).lk.rxUsed 0 0) % 65536 < (36 + (List.replicate 477 (0 : Byte)).length + 255) / 256 ∧
    (3 ∉ [1, 2, 6, 7, 8, 9] ∧ ¬ 8 < 8) ∧ ¬ 8193 ≤ (if 7 = 6 then 8200 else 8192) ∧ 8200 ≤ (if 6 = 6 then 8200 else 8192) ∧
    (pxBeats 0 1 (leBytes 24 0) (List.replicate 476 0)).isSome = true ∧ pxBeats 0 6 (leBytes 24 0) [] = none := by decide

/-- A block whose stream holds one beat. -/
def labStream : State := { lab with pxb := { lab.pxb with stream := [{ link := 0, vl := 0, credits := 1, beats := [.sink 0 64 0 [1] true] }] } }

theorem witness_pxBeatsLeaveInOrder : labStream.pxb.stream = { link := 0, vl := 0, credits := 1, beats := [.sink 0 64 0 [1] true] } :: [] ∧
    (exec .pxDeliveryBeat labStream = .next ({ labStream with out := [Out.beat (.sink 0 64 0 [1] true)] }.pxWatch (.sink 0 64 0 [1] true) |>.pxDrain
      [{ link := 0, vl := 0, credits := 1, beats := [] }])) := ⟨rfl, rfl⟩

theorem witness_pxLinksAreControlled : lab.pxOff 0 = false ∧ (lab.pxLink 0).lk.st = .disabled ∧ (labPx pxUp).pxOff 0 = false ∧
    ((labPx pxUp).pxLink 0).lk.st = .up ∧ ([LinkSt.up, .equalise, .exchange].all fun st =>
      ((labPx { pxUp with lk := { up0 with st := st } }).pxLink 0).lk.st == st) = true ∧ 1 ≤ 6 ∧ (0 = 1 → Config.twoLinks = true) :=
  ⟨rfl, rfl, rfl, rfl, by decide, by decide, by decide⟩

/-! ### Witnesses: both ends of a link -/

/-- Link 0 of the module and of the block UP with two frames unacknowledged and an ACK due. -/
def l2 : Link := { up0 with replay := [fr 5, fr 6], ackDue := some 100 }

theorem witness_creditsAndAcksMove : ((labLink l2).link 0).st = .up ∧ (labPx { pxUp with lk := l2 }).pxOff 0 = false ∧
    ((labPx { pxUp with lk := l2 }).pxLink 0).lk.st = .up ∧ 7 < 8 ∧
    ((labLink l2).link 0).replay.findIdx? (fun t => t.fseq == 6) = some 1 ∧ ((labLink l2).link 0).replay.findIdx? (fun t => t.fseq == 7) = none ∧
    ((labPx { pxUp with lk := l2 }).pxLink 0).lk.replay.findIdx? (fun t => t.fseq == 5) = some 0 ∧
    ((labLink l2).link 0).ackDue = some 100 ∧ ((labPx { pxUp with lk := l2 }).pxLink 0).lk.ackDue = some 100 := by decide

theorem witness_framesAreResentAtBothEnds : ((labLink l2).link 0).st = .up ∧ ((labLink l2).link 0).replay = fr 5 :: [fr 6] ∧
    ((labLink l2).link 0).replay.findIdx? (fun t => t.fseq == 5) = some 0 ∧ ((labLink l2).link 0).replay.findIdx? (fun t => t.fseq == 4) = none ∧
    ((labLink l2).link 0).mayNak (labLink l2).up = true ∧ (labPx { pxUp with lk := l2 }).pxOff 0 = false ∧
    ((labPx { pxUp with lk := l2 }).pxLink 0).lk.st = .up ∧ ((labPx { pxUp with lk := l2 }).pxLink 0).lk.replay = fr 5 :: [fr 6] ∧
    ((labPx { pxUp with lk := l2 }).pxLink 0).lk.replay.findIdx? (fun t => t.fseq == 6) = some 1 ∧
    ((labPx { pxUp with lk := l2 }).pxLink 0).lk.mayNak (labPx { pxUp with lk := l2 }).up = true := by decide

theorem witness_replaysSendEveryFrameAgain : ((labLink { l2 with replayCount := 7 }).link 0).replayCount < 8 ∧
    8 ≤ ((labLink { l2 with replayCount := 8 }).link 0).replayCount := by decide

def labTrain (st : LinkSt) : State := labLink { st := st, eqLanes := [0, 1, 2, 3] }
theorem witness_linksTrainAndGoDown :
    ((labTrain .equalise).link 0).st = .equalise ∧ hasPair ((labTrain .equalise).goodLanes 0 [0, 1]) = true ∧
    hasPair ((labTrain .equalise).goodLanes 0 [0]) = false ∧ ((labTrain .exchange).link 0).st = .exchange ∧
    (chooseRate ((labTrain .exchange).link 0).eqLanes ((List.range 4).filter fun i => bit 15 i) ((labTrain .exchange).link 0).rate
      ((labTrain .exchange).link 0).fallback 3).isSome = true ∧
    ((labLink up0).link 0).st = .up ∧ (labPx { lk := { st := .exchange, eqLanes := [0, 1, 2, 3] } }).pxOff 0 = false ∧
    (let l := ((labPx { lk := { st := .exchange, eqLanes := [0, 1, 2, 3] } }).pxLink 0).lk
     (chooseRate l.eqLanes ((List.range 4).filter fun i => bit 15 i) l.rate l.fallback 3).isSome) = true ∧
    ((labTrain .down).link 0).st = .down ∧ { labTrain .down with cfg := [(okey (lIx 0 0) 1, 1)] }.obj (lIx 0 0) 1 1 = 1 ∧
    ((labPx { lk := { st := .down }, enable := true }).pxLink 0).lk.st = .down ∧ ((labPx { lk := { st := .down }, enable := true }).pxLink 0).enable = true ∧
    (labPx { lk := { st := .down }, enable := true }).pxOff 0 = false ∧ ((labPx pxUp).pxLink 0).lk.st = .up := by decide

/-! ### Witnesses: frames of a module link -/

/-- Link 0 UP to module 9, which lends a lease in slot 0 and borrows lease 3. -/
def labLend (l : Link) (e : Lease) : State :=
  let s := labLink { l with role := 1, partner := 9 }
  { s with lk := { s.lk with leases := [(0, e)], lent := [(3, { partner := 9, bytes := 4096, termEnd := ms 60000, notice := 20 })] } }
def lease : Lease := { id := 5, partner := 9, bytes := 2 ^ 30, termEnd := ms 60000, notice := 20 }

theorem witness_lendingTimersRun : mget? (labLend up0 lease).lk.leases 0 = some lease ∧ lease.revoking = false ∧ lease.asked = false ∧
    (labLend up0 lease).linksTo lease.partner = 0 :: [] ∧
    mget? (labLend up0 { lease with revoking := true }).lk.leases 0 = some { lease with revoking := true } ∧
    (labLend up0 { lease with revoking := true }).linksTo lease.partner = 0 :: [] ∧
    (labLend {} { lease with revoking := true }).linksTo lease.partner = [] ∧
    (mget? (labLend up0 lease).lk.lent 3).isSome = true := by decide

theorem witness_acceptedFramesAreCounted :
    (∃ u, (labLink { up0 with acked := 30 }).accept 0 0 36 = some u) ∧ ((labLink { up0 with acked := 30 }).link 0).acked < 31 ∧
    (∃ u, (labLink { up0 with acked := 31 }).accept 0 0 36 = some u) ∧ 31 ≤ ((labLink { up0 with acked := 31 }).link 0).acked :=
  ⟨⟨_, rfl⟩, by decide, ⟨_, rfl⟩, by decide⟩

/-- Partition 0 with an operand window of 64 KiB, queue 0 bound to link 0, and a plan 0 for pulls of one position. -/
def labReq (v : Queue) : State :=
  let s := labLend up0 lease
  { s with
    cfg := [(okey (pIx 0 0x21) 5, 65536)]
    blob := [(okey (pIx 0 0x10) 1, (List.range 96).map fun i => if i = 0 then 2 else if i = 30 ∨ i = 32 ∨ i = 74 then 1 else 0)]
    q := { s.q with queues := [(0, { v with binding := 2, link := 0, st := .enabled })] } }
def reqOf (n : Nat) : Req := { link := 0, vl := 2, payload := List.replicate n 0 }

/-- The premises of a frame that its link takes, as one value. -/
theorem takes_of {s : State} {n vl len : Nat} {i : Instr} (h : ((s.link n).st == .up && frameFits i vl len && s.hasCredits n vl len &&
    !((s.link n).held.any fun h => (heldFrame h).1 == vl)) = true) : s.takesFrame n vl len i := by
  simp only [Bool.and_eq_true, beq_iff_eq, Bool.not_eq_true'] at h
  exact ⟨h.1.1.1, h.1.1.2, h.1.2, h.2⟩

/-- A SUBMIT that fills the ring, a TAIL and a CJ_HEAD at their limits; then one descriptor too many, and a queue that waits for the OTT. -/
theorem witness_queueFramesAreAppliedOrHeld :
    let s := labReq { cjTail := 9 }
    let v := s.queue 0
    s.reqQueue (reqOf 960) = true ∧ s.takesFrame 0 2 (36 + (reqOf 960).payload.length) (.submit (reqOf 960)) ∧
    ((reqOf 960).payload.length = 64 * 15 ∧ v.ottStall = false ∧ 15 = 2 ^ v.sqLog2 - 1 - (v.tail + 2 ^ v.sqLog2 - v.sqHead) % 2 ^ v.sqLog2) ∧
    s.takesFrame 0 2 36 (.tail { reqOf 0 with value := 15 }) ∧ 15 + 1 = 2 ^ v.sqLog2 ∧
    s.takesFrame 0 2 36 (.cjHead { reqOf 0 with value := 9 }) ∧
    (9 < 2 ^ v.cjLog2 ∧ (9 + 2 ^ v.cjLog2 - v.cjHead) % 2 ^ v.cjLog2 = (v.cjTail + 2 ^ v.cjLog2 - v.cjHead) % 2 ^ v.cjLog2) ∧
    s.takesFrame 0 2 (36 + (reqOf 1024).payload.length) (.submit (reqOf 1024)) ∧ (reqOf 1024).payload.length = 64 * 16 ∧
    s.reqQueue { reqOf 0 with value := 15 } = true ∧ s.reqQueue (reqOf 1024) = true ∧
    (labReq { ottStall := true }).reqQueue (reqOf 64) = true ∧ ((labReq { ottStall := true }).queue 0).ottStall = true ∧
    (labReq { ottStall := true }).takesFrame 0 2 (36 + (reqOf 64).payload.length) (.submit (reqOf 64)) :=
  ⟨by decide, takes_of (by decide), by decide, takes_of (by decide), by decide, takes_of (by decide), by decide, takes_of (by decide), by decide,
    by decide, by decide, by decide, by decide, takes_of (by decide)⟩

/-- The same with no entry of the OTT for partition 0. -/
def labFullOtt : State := { labReq {} with cfg := [(okey (pIx 0 0x21) 1, 0), (okey (pIx 0 0x21) 2, 0)] }

theorem witness_dataRequestsAndPullsAreApplied :
    let s := labReq {}
    let r := reqOf 64
    s.part.setup.hasLink 0 0 = true ∧ s.takesFrame 0 2 (36 + r.payload.length) (.windowWrite { r with addr := 65472 }) ∧
    65472 + r.payload.length = s.windowBytes 0 ∧ s.takesFrame 0 2 36 (.windowRead { reqOf 0 with addr := 57344, count := 8192 }) ∧
    57344 + 8192 = s.windowBytes 0 ∧ s.takesFrame 0 2 36 (.leaseRead { reqOf 0 with addr := 4095, count := 1, select := 3 }) ∧
    (s.lentTo 0 3).any (fun e => 4095 + 1 == e.bytes) = true ∧ s.takesFrame 0 2 36 (.pull (reqOf 0)) ∧
    (pMode (s.planObj 0 (0 % 8)) = 2 ∧ 0 + 1 = pOrderLen (s.planObj 0 (0 % 8))) ∧ (s.ottKind 0 2).isSome = true ∧ 131071 < 131072 ∧
    s.op? 131071 = none ∧ labFullOtt.takesFrame 0 2 36 (.pull (reqOf 0)) ∧ labFullOtt.ottKind 0 2 = none ∧
    pMode (labFullOtt.planObj 0 (0 % 8)) = 2 :=
  ⟨by decide, takes_of (by decide), by decide, takes_of (by decide), by decide, takes_of (by decide), by decide, takes_of (by decide), by decide,
    by decide, by decide, by decide, takes_of (by decide), by decide, by decide⟩

/-- A lent lease of 4,096 B, a collective set 1 of partition 0 whose root this module is, and plan 0 in mode `m`. -/
def labStream0 (m : Nat) : State := { labReq {} with
  blob := [(okey (pIx 0 0x10) 1, (List.range 96).map fun i => if i = 0 then BitVec.ofNat 8 m else if i = 30 ∨ i = 32 ∨ i = 74 then 1 else 0),
    (okey 0x1A01 1, (List.range 32).map fun i => if i = 0 ∨ i = 3 ∨ i = 4 ∨ i = 8 then 1 else 0)] }

theorem witness_streamFramesAreApplied :
    ((labStream0 1).takesFrame 0 0 36 (.markStepBegin 0 0 0) ∧ (labStream0 1).part.setup.hasLink 0 0 = true ∧
      (labStream0 1).suppressed 0 = false ∧ pMode ((labStream0 1).planObj 0 0) = 1 ∧ (labStream0 1).part.setup.hasLink 1 0 = false) ∧
    ((labStream0 1).takesFrame 0 0 36 (.markStart 0 0 0 0) ∧ pMode ((labStream0 1).livePlan 0 0) = 1 ∧
      0 + 1 = pOrderLen ((labStream0 1).livePlan 0 0) ∧ pMode ((labStream0 2).livePlan 0 0) ≠ 1 ∧
      (labStream0 2).takesFrame 0 0 36 (.markStart 0 0 0 0)) ∧
    ((labStream0 1).takesFrame 0 3 (36 + ([7] : Bytes).length) (.collFrame 0 3 1 0 0 false 0 0 0 1 [7]) ∧
      ((labStream0 1).collSet 1).any (fun e => e.root && bit e.members 0 &&
        (labStream0 1).collHeld e.part + 67108864 == (labStream0 1).obj 0x1A01 2 67108864) = true ∧ (labStream0 1).posted 1 ≤ 0 ∧
      (labStream0 1).lk.contribs = []) ∧
    (labStream0 1).takesFrame 0 3 (36 + ([7] : Bytes).length) (.dataResponse 0 3 1 0 0 true [7]) ∧
    ((labStream0 1).takesFrame 0 3 (36 + ([7] : Bytes).length) (.leaseWrite 0 3 3 4095 [7]) ∧
      ((labStream0 1).lentTo 0 3).any (fun e => !e.revoking && 4095 + ([7] : Bytes).length == e.bytes) = true) ∧
    (labStream0 1).takesFrame 0 3 (36 + ([7] : Bytes).length) (.sinkFrameReject 0 3 0 [7]) :=
  ⟨⟨takes_of (by decide), by decide, by decide, by decide, by decide⟩,
   ⟨takes_of (by decide), by decide, by decide, by decide, takes_of (by decide)⟩,
   ⟨takes_of (by decide), by decide, by decide, rfl⟩, takes_of (by decide), ⟨takes_of (by decide), by decide⟩, takes_of (by decide)⟩

/-- Link 0 has asked for a lease, lease 5 is in slot 0, and 1 GiB is lent on request. -/
def labAsked : State := { labReq {} with
  lk := { (labReq {}).lk with asked := some 0 }, cfg := [(okey 0x1A10 1, 1), (okey 0x1A10 2, 2 * 2 ^ 30)] }

theorem witness_lendFramesAreApplied :
    ([.offer 0 1, .request 0 (2 ^ 30), .grant 0 6 0 0 1, .grant 0 5 0 0 1, .deny 0 0, .renew 0 3, .revoke 0 5 0, .released 0 3] : List Instr).all
      (fun i => (labAsked.link 0).st == .up && frameFits i 7 36 && labAsked.hasCredits 0 7 36 &&
        !((labAsked.link 0).held.any fun h => (heldFrame h).1 == 7)) = true ∧
    (min (2 ^ 30) labAsked.onOffer / 2 ^ 30 * 2 ^ 30 = 2 ^ 30 ∧ lowFree labAsked.lk.lent 16 = some 0) ∧
    (min (2 ^ 30) (labReq {}).onOffer / 2 ^ 30 * 2 ^ 30 = 0) ∧
    (labAsked.slotOf 0 6 = none ∧ labAsked.lk.asked = some 0 ∧ lowFree labAsked.lk.leases 16 = some 1) ∧
    (labAsked.slotOf 0 5).any (fun x => x.1 == 0 && !x.2.revoking) = true ∧ (labAsked.slotOf 0 0).any (·.2.asked) = false ∧
    (labAsked.lentTo 0 3).any (fun e => !e.revoking) = true := by decide

/-- Link 0 holding back a SUBMIT of one descriptor. -/
def labHeld (v : Queue) : State :=
  let s := labReq v
  { s with lk := { s.lk with links := mmod s.lk.links 0 fun l => { l with held := [.submit (reqOf 64)] } } }

theorem witness_heldFramesAreApplied : ((labHeld {}).link 0).held = [.submit (reqOf 64)] ∧ (heldFrame (.submit (reqOf 64))).1 < 8 ∧
    (∃ t, (labHeld {}).applyFrame (.submit (reqOf 64)) = some (.next t) ∧ (t.link 0).held = [.submit (reqOf 64)]) ∧
    ((labHeld { ottStall := true }).link 0).held = [.submit (reqOf 64)] ∧ (labHeld { ottStall := true }).applyFrame (.submit (reqOf 64)) = none ∧
    (labHeld {}).reqQueue (reqOf 64) = true ∧ (reqOf 64).payload.length = 64 * 1 ∧ ((labHeld {}).queue 0).ottStall = false ∧
    1 ≤ 2 ^ ((labHeld {}).queue 0).sqLog2 - 1 :=
  ⟨by decide, by decide, ⟨_, rfl, by decide⟩, by decide, rfl, by decide, by decide, by decide, by decide⟩

/-- Queue 0 of partition 0 with the registers `v`. -/
def labQueue (v : Queue) : State := { lab with q := { lab.q with queues := [(0, v)] } }

theorem witness_onlyJournalHeadsStop : (∀ port fn q idx, Instr.ageTick ≠ .cjHeadDoorbell port fn q idx) ∧ 1 ≠ 0 ∧
    lab.pcieGood 0 = true ∧ lab.hasVf 0 (1 - 1) = true ∧
    let v := (labQueue { st := .enabled, cjTail := 3 }).queue (64 * (1 - 1) + 0)
    v.st = .enabled ∧ v.binding = 0 ∧ 4 < 2 ^ v.cjLog2 ∧
    (v.cjTail + 2 ^ v.cjLog2 - v.cjHead) % 2 ^ v.cjLog2 < (4 + 2 ^ v.cjLog2 - v.cjHead) % 2 ^ v.cjLog2 :=
  ⟨fun _ _ _ _ h => (Instr.noConfusion h), by decide, by decide, by decide, by decide⟩

/-! ### Witnesses: queues, the OTT and records -/

theorem witness_queueCommandsAct : 1 ≠ 0 ∧ lab.pcieGood 0 = true ∧ lab.hasVf 0 (1 - 1) = true ∧ ((labQueue { st := .error }).queue 0).st = .error ∧
    ((labQueue { st := .enabled, cjTail := 3 }).queue 0).st = .enabled ∧ 15 < 2 ^ ((labQueue { st := .enabled }).queue 0).sqLog2 ∧
    (let v := (labQueue { st := .enabled, cjTail := 3 }).queue 0
     3 < 2 ^ v.cjLog2 ∧ (3 + 2 ^ v.cjLog2 - v.cjHead) % 2 ^ v.cjLog2 ≤ (v.cjTail + 2 ^ v.cjLog2 - v.cjHead) % 2 ^ v.cjLog2) ∧
    2 ^ ((labQueue { st := .enabled }).queue 0).sqLog2 ≤ 16 ∧ ((labQueue {}).queue 0).st = .disabled ∧
    (labQueue {}).queueValid 0 = true ∧ (labQueue { sqLog2 := 3 }).queueValid 0 = false := by decide

/-- Queue 0 with one LIST of one member at its head. -/
def labList (stall : Bool) : State :=
  let s := labQueue { st := .enabled, tail := 1, ottStall := stall, defClass := 0 }
  { s with mem := { s.mem with host0 := [(0, 161), (16, 1)] } }

theorem witness_descriptorsAreFetched :
    (labList false).nextQueue (fun q => (labList false).fetchable q && !((labList false).queue q).ottStall) = some 0 ∧
    (labList true).nextQueue (fun q => (labList true).fetchable q && ((labList true).queue q).ottStall && (labList true).canFetch q) = some 0 ∧
    (labList false).fetchable 0 = true ∧ ((labList false).queue 0).list = none ∧
    (let d := (labList false).readAt (0 / 64) ((labList false).queue 0).binding (((labList false).queue 0).sqBase.toNat + 64 * ((labList false).queue 0).sqHead) 64
     cmdOf (fld d 0 1) = some .list ∧ (labList false).badDesc (labList false).part.setup (0 / 64) 0 .list d = none) := by decide

/-- An entry is found where the table is empty and the bounds allow one. -/
theorem takeEntry_of_empty (s : State) (o : Op) (k : OttKind) (h : s.ottKind o.part o.cls = some k) (e : s.q.ott = []) :
    ∃ t w, s.takeEntry o = some (t, w) := by
  unfold State.takeEntry
  rw [h]
  simp only [State.takeFree, e]
  have : ∃ j, 131072 - Config.tagHint s.free % 131072 = j + 1 := ⟨131071 - Config.tagHint s.free % 131072, by omega⟩
  obtain ⟨j, hj⟩ := this
  rw [hj]
  exact ⟨_, _, rfl⟩

/-- Queue 0 with a NOP at its head. -/
def labNop : State :=
  let s := labQueue { st := .enabled, tail := 1 }
  { s with mem := { s.mem with host0 := [(0, 160)] } }

theorem witness_fetchesTakeAnEntry :
    let v := labNop.queue 0
    let d := labNop.readAt (0 / 64) v.binding (v.sqBase.toNat + 64 * v.sqHead) 64
    v.list = none ∧ cmdOf (fld d 0 1) = some .nop ∧ Cmd.nop ≠ .list ∧ Cmd.nop ≠ .attend ∧ Cmd.nop ≠ .indexQuery ∧
    labNop.badDesc labNop.part.setup (0 / 64) v.binding .nop d = none ∧
    ∃ t w, labNop.takeEntry (opOf 0 v d v.sqHead 0x1FFF) = some (t, w) :=
  ⟨by decide, by decide, by decide, by decide, by decide, by decide, takeEntry_of_empty _ _ .reserve (by decide) (by decide)⟩

/-- A NOP under tag 0 of queue 0, which has the registers `v`. -/
def labEnd (v : Queue) : State :=
  let s := labQueue { v with st := .enabled }
  { s with q := { s.q with ott := [(0, opWith (desc [(0, 160)]))] } }

/-- The first entry of the journal, and its last with one entry free. -/
theorem witness_endedOperationsLeaveARecord : ([{}, { cjTail := 15, cjHead := 1 }, { cjTail := 14 }].all fun v =>
    let s := labEnd v
    let v := s.queue 0
    (s.op? 0).any (fun o => o.src == .queue && !(o.quiet && o.final stDone == stDone)) && !v.dead && v.st == .enabled && v.binding ≤ 1 && 0 < v.journalFree &&
      !s.journalBlocked 0 && s.pcieGood v.binding && spaceOf (v.cjBase.toNat + 32 * v.cjTail) == 0) = true ∧ (labEnd {}).MemOk := ⟨by decide, rfl, rfl, by decide⟩

theorem witness_fullJournalsHoldRecords :
    let s := labEnd { cjTail := 15 }
    let v := s.queue 0
    (s.op? 0).any (fun o => o.src == .queue && !(o.quiet && o.final stDone == stDone)) = true ∧ v.dead = false ∧ v.st = .enabled ∧ v.journalFree = 0 ∧
      s.journalBlocked 0 = false := by decide

theorem witness_recordsAndVectorsFollow :
    ((labEnd { waiting := [0] }).queue 0).waiting = 0 :: [] ∧ ((labEnd { waiting := [0] }).op? 0).isSome = true ∧
    0 < ((labEnd { waiting := [0] }).queue 0).journalFree ∧
    (let v := (labEnd { unsig := 1, unsigAt := some 0, time := 1, intEnable := true }).queue 0
     v.unsigAt = some 0 ∧ v.time ≠ 0 ∧ v.intEnable = true ∧ lab.suppressed 0 = false ∧ lab.hasVf v.binding 0 = true) ∧
    lab.pcieGood 0 = true ∧ lab.q.msixPend.contains (vecKey 0 1 64) = false ∧ 64 ≠ 67 ∧
    { lab with q := { lab.q with msixPend := [vecKey 0 1 67] } }.q.msixPend.contains (vecKey 0 1 67) = true ∧
    ((labEnd {}).queue 0).st = .enabled ∧ ((labEnd {}).op? 0).any (fun o => o.st != .recordWait) = true := by decide

/-! ### Witnesses: operations -/

/-- SEQ 7 of partition 0 is LIVE with 20 positions in its private domain. -/
def labSeq (d : Bytes) : State :=
  let s := labOp (opWith d)
  { s with pg := { s.pg with seqs := [(7, { part := 0, slot := 0, length := 20, domain := 0x8000 })] } }

theorem witness_copiesRun : ([([(24, 1024), (28, 1), (16, 1024)], CopyWay.ascending), ([(24, 1024), (28, 1), (16, 512)], .descending),
    ([(24, 1024), (28, 2), (32, 2048), (36, 1024)], .staged), ([(24, 1024), (28, 2), (32, 2048), (36, 1023)], .alias_),
    ([(24, 131072), (28, 2), (32, 131073), (36, 131072)], .staged), ([(24, 131073), (28, 2), (32, 131074), (36, 131073)], .tooLarge)].all fun c =>
      ((labSeq (desc c.1)).runCmd 0 .copy).any fun o => copyWay o.desc == c.2) = true := by decide

theorem witness_dataOperationsRun : ((labSeq (desc [(0, 160)])).runCmd 0 .nop).isSome = true ∧
    ((labSeq (desc [(0, 1), (8, 7)])).runCmd 0 .sliceWrite).any (fun o => ((labSeq (desc [(0, 1), (8, 7)])).seqOf o.part (dSeq o.desc)).isSome) = true ∧
    ((labOp { opWith (desc [(0, 1)]) with st := .allocWait 5 }).op? 0).any (fun o => o.st == .allocWait 5) = true ∧
    (let s := labSeq (desc [(0, 2), (8, 7), (16, 1)])
     (s.runCmd 0 .sliceRead).any fun o =>
      let r := s.fetchSlices 0 o.cls 0 (s.rangeSlices 0 (dSeq o.desc) (fld o.desc 12 2) (fld o.desc 16 4) [fld o.desc 20 1])
      r.1 && (r.2.op? 0).any (fun p => p.desc == o.desc)) = true ∧
    (let s := labOp { opWith (desc [(0, 2), (8, 7), (16, 1)]) with asks := [{ fid := 1, layer := 0, left := 1 }] }
     (s.runCmd 0 .sliceRead).any fun o =>
      !(s.fetchSlices 0 o.cls 0 (s.rangeSlices 0 (dSeq o.desc) (fld o.desc 12 2) (fld o.desc 16 4) [fld o.desc 20 1])).1) = true ∧
    (let s := labSeq (desc [(0, 3), (8, 7), (16, 1), (21, 1)])
     (s.runCmd 0 .stage).any fun o =>
      let ks := s.rangeSlices 0 (dSeq o.desc) (fld o.desc 12 2) (fld o.desc 16 4) ((List.range (fld o.desc 21 2)).map (· + fld o.desc 20 1))
      let m := s.stageMeter o ks
      o.aux == 0 && (m.2.2.op? 0).any fun p =>
        let r := (m.2.2.setOp 0 { p with aux := if m.2.1 then 2 else 1, todo := m.1 }).fetchSlices 0 o.cls 0 m.1
        r.1 && (r.2.op? 0).isSome) = true := by decide

theorem witness_openNamesItsDomain :
    let u : Setup := { domains := [(255, { enabled := true, members := 2 ^ 63 })] }
    63 < 64 ∧ 0x8000 + 63 ≠ 0xFFFF ∧ 255 < 256 ∧ (u.domain 255).enabled = true ∧ bit (u.domain 255).members 63 = true ∧
    ¬ (256 = 0xFFFF ∨ 256 = 0x8000 + 63) ∧ ¬ (256 < 256 ∧ (u.domain 256).enabled = true ∧ bit (u.domain 256).members 63 = true) ∧
    ((labSeq (desc [(0, 32), (18, 5)])).runCmd 0 .seqOpen).any (fun o =>
      openDomain (((labSeq (desc [(0, 32), (18, 5)])).meterOp o).setupOf o.gen) o.part (fld o.desc 18 2) == none) = true := by decide

/-- A module whose partition 0 binds profile 0 in slot 0, and a SEQ_OPEN of its private domain on it. -/
def labOpen : State := { labOp (opWith (desc [(0, 32), (18, 0xFFFF)])) with cfg := [(okey (pIx 0 4) 1, 0)] }
/-- Sequences 0 to `n` - 1, all taken. -/
def fullSeqs (n : Nat) : Map Seq := (List.range n).map fun i => (i, { part := 1, slot := 0 })
/-- The same with every SEQ taken. -/
def labFull : State := { labOpen with pg := { seqs := fullSeqs (2 ^ 24) } }

/-- A listed key has an entry. -/
theorem mget?_of_mem {α : Type} (m : Map α) (k : Nat) (v : α) (h : (k, v) ∈ m) : (mget? m k).isSome = true := by
  induction m with
  | nil => cases h
  | cons a m ih =>
    simp only [mget?]
    split
    · rfl
    · rename_i hk
      rcases List.mem_cons.1 h with h | h
      · exact absurd (by rw [← h]) hk
      · exact ih h

theorem fullSeqs_taken (m n : Nat) (h : n < m) : (mget? (fullSeqs m) n).isSome = true :=
  mget?_of_mem _ n { part := 1, slot := 0 } (List.mem_map.2 ⟨n, List.mem_range.2 h, rfl⟩)

theorem witness_openAssignsASequence : ∃ o, labOpen.runCmd 0 .seqOpen = some o ∧ labFull.runCmd 0 .seqOpen = some o ∧
    openDomain ((labOpen.meterOp o).setupOf o.gen) o.part (fld o.desc 18 2) = some 0x8000 ∧
    openDomain ((labFull.meterOp o).setupOf o.gen) o.part (fld o.desc 18 2) = some 0x8000 ∧
    ((labOpen.meterOp o).bound o.part (fld o.desc 16 1 % 8)).isSome = true ∧
    { labOpen with cfg := [] }.bound o.part (fld o.desc 16 1 % 8) = none ∧
    (∃ n, n < 2 ^ 24 ∧ (labOpen.meterOp o).seq? n = none ∧ (labOpen.meterOp o).seqNamed n = false) ∧
    (∀ n, n < 2 ^ 24 → ((labFull.meterOp o).seq? n).isSome = true ∨ (labFull.meterOp o).seqNamed n = true) := by
  refine ⟨opWith (desc [(0, 32), (18, 0xFFFF)]), rfl, rfl, by decide, by decide, by decide, by decide, ⟨0, by decide, by decide, by decide⟩, ?_⟩
  intro n hn
  have h1 : _ = _ := (State.meterOp_keeps labFull (opWith (desc [(0, 32), (18, 0xFFFF)]))).of .pg (by decide)
  have h2 : labFull.pg.seqs = fullSeqs (2 ^ 24) := by simp only [labFull]
  refine .inl ?_
  rw [State.seq?, h1, h2]
  exact fullSeqs_taken _ _ hn

/-- A fork of SEQ 7, whose block 0 refers to a frame under recount. -/
def labRecount : State :=
  let s := labSeq (desc [(0, 33), (8, 7)])
  { s with pg := { s.pg with
      frames := [(9, { profile := 0, layers := 1, flags := 0, creator := 0, domain := 0x8000, slot := 0, underRecount := true })]
      seqs := [(7, { part := 0, slot := 0, length := 16, domain := 0x8000, leaves := [(0, { st := .sealed, fid := 9 })] })] } }

/-- A fork of the whole sequence and of its full LENGTH, one of a frame under recount, one of a LENGTH too long; the same of a truncation. -/
theorem witness_sequencesForkAndEnd : ([0, 20, 21].all fun l =>
      let s := labSeq (desc [(0, 33), (8, 7), (12, l)])
      (s.runCmd 0 .seqFork).any fun o => dSeq o.desc == 7 && fld o.desc 12 4 == l && ((s.meterOp o).seqOf 0 7).any fun q =>
        q.length == 20 && !(s.meterOp o).forkBlocked q 20 && ((s.meterOp o).seq? 1).isNone && !(s.meterOp o).seqNamed 1) = true ∧
    ((labRecount.runCmd 0 .seqFork).any fun o => ((labRecount.meterOp o).seqOf 0 7).any fun q =>
      (labRecount.meterOp o).forkBlocked q q.length && fld o.desc 12 4 == 0) = true ∧
    ([20, 21].all fun l =>
      let s := labSeq (desc [(0, 34), (8, 7), (12, l)])
      (s.runCmd 0 .seqTruncate).any fun o => fld o.desc 12 4 == l && ((s.meterOp o).seqOf 0 7).any fun q => q.length == 20) = true ∧
    ((labSeq (desc [(0, 35), (8, 7)])).runCmd 0 .seqDiscard).any (fun o => ((labSeq (desc [(0, 35), (8, 7)])).meterOp o).seqOf 0 7 |>.isSome) = true := by
  decide

/-- The SEQ 7 of `labSeq`, whose profile has a projection, and at byte 4,096 of host memory a mask of one block. -/
def labFind (d : Bytes) : State :=
  let s := labSeq d
  { s with blob := [(okey 0x1600 3, [1])], mem := { s.mem with host0 := [(4096, 1), (4100, 1)] } }

theorem witness_searchesAnswer :
    ([0, 1].all fun m =>
      let s := labFind (desc [(0, 36), (8, 7), (11, m), (12, 1)])
      (s.chainCmd 0 m).any fun o => ((s.meterOp o).seqOf o.part 7).isSome && ((s.meterOp o).chain o).isSome) = true ∧
    (let s := labFind (desc [(0, 37), (16, 8192)])
     (s.runCmd 0 .maskedSearch).any fun o =>
      let r := (s.meterOp o).readIn o 0 (fld o.desc 8 8) 96
      maskedReserved r.1 == none && decide (fld r.1 72 2 ≤ fld r.1 74 2)) = true ∧
    ((labFind (desc [(0, 38)])).runCmd 0 .purgePrivate).isSome = true ∧
    ([(39, Cmd.inspectSeq), (40, .inspectFrame), (65, .pipInspect)].all fun c =>
      let s := labFind (desc [(0, c.1), (8, 7), (20, 1), (24, 8192)])
      (s.runCmd 0 c.2).any fun o => ((s.meterOp o).seqOf o.part 7).isSome) = true ∧
    ([0, 4096].all fun a =>
      let s := labFind (desc [(0, 64), (8, 7), (24, a)])
      (s.runCmd 0 .indexQuery).any fun o =>
        let w := s.meterOp o
        (w.seqOf o.part 7).isSome && !(w.proj ((w.bound o.part 0).getD 0)).isEmpty && (a == 0 || (w.readMask o a 1).isSome)) = true := by decide

/-- An ATTEND of partition 0 at stage `pos`, forward or backward, with no entry; it reads the save 0 of its partition, of entries `es`. -/
def labAtt (back : Nat) (pos : Nat) (es : List SaveEnt) (asks : List Ask) : State :=
  let s := labOp { opWith (desc [(0, 96)]) with pos := pos, arg := desc [(0, back)], asks := asks }
  { s with att := { s.att with saves := [{ part := 0, id := 0, maker := 1, hdr := [], entries := es, epoch := 1, bytes := 0, readers := [0] }] } }
def saveEnt : SaveEnt := { seq := 7, qrows := 1 }

theorem witness_attentionIsDispatchedAndRuns :
    ((labAtt 0 1 [] []).attendAt 0 false).isSome = true ∧
    ((labAtt 1 1 [saveEnt] []).attendAt 0 true).isSome = true ∧ ((labAtt 1 1 [saveEnt] []).takenSave 0).any (fun v => v.entries != []) = true ∧
    ((labAtt 1 1 [] []).attendAt 0 true).isSome = true ∧ ((labAtt 1 1 [] []).takenSave 0).any (fun v => v.entries == []) = true ∧
    ([[], [({ part := 0, id := 4095, maker := 1, hdr := [], entries := [], epoch := 1, bytes := 0 } : Save)]].all fun vs =>
      let s := labOp (opWith (desc [(0, 97), (8, 4095)]))
      let s := { s with att := { s.att with saves := vs } }
      (s.runCmd 0 .saveDiscard).any fun o =>
        ((s.meterOp o).save? o.part (fld o.desc 8 2 % 4096)).elim vs.isEmpty fun v => !vs.isEmpty && v.readers == []) = true ∧
    (let s := { labAtt 0 0 [] [] with px := { epoch := 6001 } }
     (s.save? 0 0).any (fun v => s.obj (pIx 0 0x1C) 3 6000 == s.ageOf v.epoch)) = true := by decide

theorem witness_attentionIsDispatched :
    let s := labAtt 0 0 [] []
    let qs := (List.range 64).map fun p => (p, s.attendQueue p)
    let live := s.att.deficits.filter fun d => qs.any fun e => e.1 == d.1 && !e.2.isEmpty
    let ms := rotateTo (·.1) s.att.turn
      (qs.map fun e => (e.1, e.2.head?.map (·.2.aux), s.obj (pIx e.1 0x1C) 1 16 * 4096, e.2.isEmpty))
    s.boot.stone = false ∧ (s.q.ott.filter fun e => isMapped e.2).length < 2 ∧ qs.any (fun e => !e.2.isEmpty) = true ∧
    (dwrr ms (ms.head?.map (·.1)) live 16385).any (fun r => !(s.attendQueue r.1).isEmpty) = true := by decide

/-- The root of set 1, with member 0 alone, and the operation `o`. -/
def labColl (o : Op) : State := { labOp o with blob := [(okey 0x1A01 1, (List.range 32).map fun i => if i = 0 ∨ i = 3 ∨ i = 4 then 1 else 0)] }

theorem witness_collectivesRun : ((labColl (opWith (desc [(0, 128), (8, 1)]))).runCmd 0 .gather).isSome = true ∧
    ((labColl (opWith (desc [(0, 129), (8, 1)]))).runCmd 0 .reduce).isSome = true ∧
    (let s := labColl (opWith (desc [(0, 130), (8, 1), (11, 1)]))
     (s.runCmd 0 .collect).any fun o => ((s.meterOp o).opSet o (fld o.desc 8 2)).any fun e => e.root && fld o.desc 11 1 == popcount e.members) = true ∧
    (let s := labColl (opWith (desc [(0, 130), (8, 1), (11, 2)]))
     (s.runCmd 0 .collect).any fun o => ((s.meterOp o).opSet o (fld o.desc 8 2)).any fun e => e.root && popcount e.members < fld o.desc 11 1) = true ∧
    ((labColl { opWith (desc [(0, 130), (8, 1)]) with st := .posted (some 5) }).op? 0).any (fun o => o.st == .posted (some 5)) = true := by decide

/-! ### Witnesses: flash media and the tiers -/

/-- Die 0 running the operation `o`, with superblock 1 open, the record of slice (1, 0) on punnet 0, `sp` spoiled reads and a due METADATA. -/
def labDie (o : DieOp) (sp : List (Option Nat × Nat)) : State := { lab with media := { lab.media with
  dies := [(0, { run := some o, sbs := [(1, { st := 2 })] })]
  punnets := [(0, { stream := 0, progSeq := 1, recs := [{ fid := 1 }] })]
  openP := [(0, { oldestDurable := some 3, oldestMeta := some 5 }), (1, { oldestMeta := some 5 })], metaSince := [(.discards, 4)], spoiled := sp } }
def readOp : DieOp := { kind := 0, cls := 1, punnet := 0, fid := 1, tag := some 0 }

/-- Reads of a map page, of a record's first and last page and of a relocation; programs with and without a root checkpoint; an erase; a read
of no use because of its last page, and one because of an earlier page. -/
theorem witness_mediaOperationsAndTimersRun :
    ([{ readOp with page := some 262143 }, { readOp with last := false }, { readOp with move := true }, readOp, { kind := 1, cls := 4, punnet := 0 },
      { kind := 1, cls := 4, punnet := 0, root := some { area := 0, sb := 0, progSeq := 1, at_ := 0 } }, { kind := 2, cls := 4, punnet := 0 }].all
        fun (o : DieOp) => ((labDie o []).die 0).run == some o) = true ∧
    ([(ReadOutcome.soft, []), (.mismatch, []), (.uncorrectable, []), (.soft, [(some 0, 0)])].all fun c =>
      let s := labDie readOp c.2
      let w := ((s.setDie 0 { s.die 0 with run := none }).countOutcome 0 readOp c.1).readUpkeep 0 (pnSb readOp.punnet) c.1
      let k := (readOp.tag, readOp.punnet * 16384 + readOp.off)
      let x := { w with media := { w.media with spoiled := w.media.spoiled.filter (· != k) } }
      (x.readRec readOp).isSome && w.media.spoiled.contains k == !c.2.isEmpty) = true ∧
    ([(0, 3), (1, 5)].all fun c => (mget? (labDie readOp []).media.openP c.1).any fun o =>
      ((o.oldestDurable.map fun t => t + us ((labDie readOp []).obj 0x1200 1 100)).toList ++
        (o.oldestMeta.map fun t => t + ms ((labDie readOp []).obj 0x1200 2 100)).toList).min?.isSome) = true ∧
    (labDie readOp []).media.metaSince = (.discards, 4) :: [] ∧
    (let s := labOp { opWith (desc [(0, 2)]) with st := .mapWait }
     (s.op? 0).any (fun o => o.st == .mapWait) && (sweep s.pageKept s.media.cache s.media.hand 262144).1.isSome) = true ∧
    ((labDie { kind := 1, cls := 4, punnet := 0, resumedAt := some 9, deferred := true } []).die 0).run.any (fun o => o.resumedAt == some 9 && o.deferred) = true ∧
    (let s := { labDie readOp [] with up := 90 * 24 * 3600 * sec 1 / 2 ^ 3 + 1 }
     (mget? (s.die 0).sbs 1).any (fun b => b.st == 2 && decide (s.obj 0x1200 7 90 * 24 * 3600 * sec 1 / 2 ^ 3 < s.up - b.progAt)) && !s.relocating 0 1) = true ∧
    lab.media.state = 2 := by decide

/-- A punnet takes at most 252 entries (R156). -/
theorem packMeta_length (mk : MetaKey × Nat → Rec) (ks : List (MetaKey × Nat)) (o : OpenP) (h : o.recs.length ≤ 252) :
    (packMeta mk o ks).1.recs.length ≤ 252 ∧ (packMeta mk o ks).1.recs.length + (packMeta mk o ks).2.length = o.recs.length + ks.length := by
  induction ks generalizing o with
  | nil => exact ⟨h, by simp [packMeta]⟩
  | cons k ks ih =>
    unfold packMeta
    dsimp only
    split
    · rename_i hf
      have hl : o.recs.length < 252 := by simp [OpenP.fits] at hf; exact hf.1
      have := ih { o with recs := o.recs ++ [{ mk k with off := recStart o.used (mk k).len }]
                          used := recStart o.used (mk k).len + (mk k).len } (by simp; omega)
      refine ⟨this.1, ?_⟩
      have h2 := this.2
      simp only [List.length_append, List.length_cons, List.length_nil] at h2 ⊢
      omega
    · exact ⟨h, rfl⟩

/-- 253 changed structures do not fit one punnet; none does. -/
theorem witness_mediaOperationsAndTimersRun_full (s : State) (hs : s.media.metaPend.length = 253) :
    (!(packMeta s.metaRec {} s.media.metaPend).2.isEmpty) = true ∧ (!(packMeta s.metaRec {} []).2.isEmpty) = false := by
  have h := packMeta_length s.metaRec s.media.metaPend {} (by simp)
  refine ⟨?_, rfl⟩
  cases hr : (packMeta s.metaRec {} s.media.metaPend).2 with
  | nil =>
    have h1 := h.1
    have h2 := h.2
    rw [hr, hs] at h2
    simp at h2 h1
    omega
  | cons => rfl

theorem witness_mediaOperationsAndTimersRun_pending : ∃ s : State, s.media.metaPend.length = 253 ∧ s.media.metaSince = (.discards, 4) :: [] :=
  ⟨{ lab with media := { lab.media with metaPend := List.replicate 253 (.discards, 0), metaSince := [(.discards, 4)] } }, rfl, rfl⟩

/-- Frame 1 SEALED with one slice in T0 and T1 whose lower copy is stale. -/
def labFrame (f : Frame) : State := { lab with
  px := { epoch := 51, placing := [1], refill := [0] }
  pg := { lab.pg with frames := [(1, { f with slices := [(0, { st := .present, t0 := some [], inT0 := true, held0 := true, dirtyLow := true, lastWrite := 1 })] })] } }

theorem witness_lossyRecordsAreAllowed : ([({ st := FrameSt.sealed }, true), ({ st := .sealed, flags := 2 }, false), ({ st := .sealed, flags := 4 }, false),
    ({ st := .opened }, false)].all fun (c : Frame × Bool) =>
      ((labFrame c.1).frame? 1).any fun f => ((labFrame c.1).recOf 1 f 0).isSome &&
        (decide (((labFrame c.1).frameGeo f).fp8 = false ∧ f.st = .sealed ∧ bit f.flags 1 = false ∧ bit f.flags 2 = false) == c.2)) = true := by decide

theorem witness_tiersReferencesAndCamFollow :
    ((labFrame { st := .sealed }).frame? 1).any (fun f => (f.slice 0).st == .present && (f.slice 0).dirtyLow && f.st != .opened && !bit f.flags fNoFlash &&
      (labFrame { st := .sealed }).obj 0x1100 9 50 == (labFrame { st := .sealed }).ageOf (f.slice 0).lastWrite) = true ∧
    ((labFrame { underRecount := true }).frame? 1).any (·.underRecount) = true ∧
    1 ∈ (labFrame {}).px.placing ∧ (labFrame {}).bankGood 895 = true ∧ 0 ∈ (labFrame {}).px.refill := by decide

/-! ### Witnesses: the index, plans, ports -/

/-- SEQ 7 of `labSeq` with `k` SEALED blocks of frame 1, its profile bound, projected and of one layer; pip 0 serves 16 such blocks. -/
def labIx (k : Nat) (ps : Map Pip) (a : AnArray) : State :=
  { labFrame { st := .sealed } with
    cfg := [(okey 0x1300 4, 1), (okey (pIx 0 4) 1, 0), (okey (pIx 0 0x18) 2, 20)], blob := [(okey 0x1600 3, [1])]
    pg := { (labFrame { st := .sealed }).pg with
      seqs := [(7, { part := 0, slot := 0, length := 20, leaves := (List.range k).map fun i => (i, { st := .sealed, fid := 1 }) })] }
    ix := { pips := ps, arrays := [(0, a)] } }
def pip0 : Pip := { last := 1, check := sourceCheck (List.replicate 16 1), profile := 0, level := false, m := 1, group := 0, st := 3, cols := [(0, 5)] }

/-- The computation of the pip of block 0 over the frames `fs`, with slices `todo` still to be read. -/
def pipJob (fs : List Nat) (todo : List (Nat × Nat)) : PipJob :=
  { part := 0, seq := 7, item := 0, key := pipKey 0 false 0 fs, fids := fs, todo := todo }
def labJob (j : PipJob) : State := { labIx 16 [] {} with ix := { (labIx 16 [] {}).ix with jobs := [j] } }
/-- The same while die 0 reads a source slice. -/
def labReading : State :=
  { labJob (pipJob (List.replicate 16 1) []) with media := { lab.media with dies := [(0, { run := some { kind := 0, cls := 4, punnet := 0, fid := 1 } })] } }

/-- Computations that end, that end without a vector, that still read, and one to ask again; an item without one. A batch of columns and of
reference columns; a pip and reference columns to refresh; arrays in each state. -/
theorem witness_indexFollows :
    ([pipJob (List.replicate 16 1) [], pipJob (List.replicate 16 2) [], pipJob (List.replicate 16 1) [(1, 0)]].all fun j =>
      (labJob j).ix.jobs.find? (fun j => j.seq == 7 && j.key.span == false && j.item == 0 && j.key.group == 0) == some j &&
        !(labJob j).pipReading j && (((labJob j).dropJobs (· == j)).jobVec j).isSome == j.fids.contains 1) = true ∧
    labReading.pipReading (pipJob (List.replicate 16 1) []) = true ∧
    (let s := labIx 16 [] {}
     (s.seq? 7).any fun q => (s.pipNeed 7 q false 0 0).isSome && s.ix.jobs.isEmpty) = true ∧
    ((labIx 0 [] { batch := [(0, 0, 0)] }).anArray 0).busy = true ∧ ((labIx 0 [] { refRun := [31] }).anArray 0).busy = true ∧
    ((labIx 0 [(0, pip0)] {}).columnPip 0 5).any (fun e => e.2.st == 3 && e.2.again.isEmpty) = true ∧
    ((labIx 0 [] {}).arrayGood 0 = true ∧ ((labIx 0 [] {}).anArray 0).refRun.contains 31 = false ∧ ((labIx 0 [] {}).anArray 0).refWait.contains 31 = false) ∧
    ((labIx 0 [] {}).anArray 0).st = 0 ∧ (let v := (labIx 0 [] { st := 2, reprogrammed := true }).anArray 0; v.st = 2 ∧ v.reprogrammed = true) ∧
    ((labIx 0 [] { st := 1 }).anArray 0).st = 1 ∧ ((labIx 0 [] { st := 2 }).anArray 0).st = 2 ∧ ((labIx 0 [] { st := 2 }).anArray 0).reprogrammed = false := by decide

/-- The computation of a span whose 16 block pips are all pip 0: it reads no slice, and has its vector. -/
def spanJob : PipJob := { pipJob (List.replicate 256 1) [] with key := pipKey 0 true 0 (List.replicate 256 1) }

theorem allSome_isSome {α : Type} (l : List (Option α)) (h : ∀ x ∈ l, x.isSome = true) : (allSome l).isSome = true := by
  induction l with
  | nil => rfl
  | cons x l ih =>
    obtain ⟨y, rfl⟩ := Option.isSome_iff_exists.1 (h x (by simp))
    simpa [allSome] using ih fun z hz => h z (by simp [hz])

theorem labSpan_pip (s : State) (hs : s.ix.pips = [(0, pip0)]) : (s.keyedPip 7 (pipKey 0 false 0 (List.replicate 16 1))).isSome = true := by
  rw [State.keyedPip, hs]
  rfl

theorem witness_indexFollows_spans : (labIx 0 [(0, pip0)] {}).jobSlices spanJob.key spanJob.fids = [] ∧ spanJob.todo = [] ∧
    ((labIx 0 [(0, pip0)] {}).jobVec spanJob).isSome = true := by
  refine ⟨rfl, rfl, ?_⟩
  rw [State.jobVec, if_pos (show spanJob.key.span = true from rfl), State.spanVec, Option.isSome_map]
  refine allSome_isSome _ fun x hx => ?_
  obtain ⟨i, hi, rfl⟩ := List.mem_map.1 hx
  have h : (spanJob.fids.drop (16 * i)).take 16 = List.replicate 16 1 := by
    rw [show spanJob.fids = List.replicate 256 1 from rfl]
    have := List.mem_range.1 hi
    rw [List.drop_replicate, List.take_replicate, show min 16 (256 - 16 * i) = 16 by omega]
  rw [Option.isSome_map, h]
  exact labSpan_pip _ rfl

/-- Plan 0 of partition 0 with the jobs `js` in the state of `labReq`, and a push operation under tag 0. -/
def labPlan (b : State) (js : List PlanJob) : State :=
  { b with q := { b.q with ott := [(0, { part := 0, queue := 0, src := .push 0 0 })] }, tier := { b.tier with plans := [(0, { st := 1, jobs := js })] } }
def planJob (s : State) : PlanJob := { no := 0, pos := 0, plan := s.planObj 0 0, cls := 2, tag := some 0 }
/-- A unit of 64 B at the head of leaf (0, 0) of scheduler `sc`, carrying the die operation `d`. -/
def labUnit (sc : Nat) (d : Option (Nat × DieOp)) : State :=
  { lab with tm := { lab.tm with leaves := [(leafKey sc 0 0, { lab.leafQ sc 0 0 with q := [{ len := 1, dieOp := d }] })] } }

/-- A push that goes out, a pull whose reads ended, one over no link, and one that finds the OTT full; two pushes out of order; a begun one. -/
theorem witness_positionsAndPortsAreServed :
    ([(labReq {}, [planJob (labReq {})]), (labReq {}, [{ planJob (labReq {}) with pull := true }]), (labReq {}, [{ planJob (labReq {}) with plan := List.replicate 96 5 }]),
      (labFullOtt, [{ planJob labFullOtt with tag := none }]),
      (labReq {}, [{ planJob (labReq {}) with no := 1, step := 1 }, planJob (labReq {})])].all fun c =>
      let w := ((labPlan c.1 c.2).cleanJobs 0 0).stageWaiting 0 0
      let js := (w.plan 0 0).jobs.filter fun j => !j.begun
      ((js.find? fun j => j.pull && w.jobReady j).orElse fun _ => firstPush js).any fun j => w.jobReady j && j.no == 0 &&
        (w.jobEntry 0 0 j).isSome == j.tag.isSome && (w.jobBad 0 j).isNone == !j.plan.contains 5) = true ∧
    (let w := (labPlan lab [{ planJob lab with begun := true }]).cleanJobs 0 0
     ((w.plan 0 0).jobs.find? (fun j => j.begun)).any fun j => j.tag == some 0 && !(j.links.any (fun x => (w.unitTags (48 + x)).contains 0))) = true ∧
    ((((labUnit 0 none).rindStep (portSeg 0)).countWaits (sched 0 0)).chooseUnit (sched 0 0)).any (fun r => r.2.2.2.1.dieOp == none) = true ∧
    ((((labUnit 16 (some (0, { kind := 0, cls := 0, punnet := 0 }))).rindStep (portSeg 16)).countWaits (sched 16 0)).chooseUnit (sched 16 0)).any
      (fun r => r.2.2.2.1.dieOp.isSome) = true ∧
    (((lab.rindStep (portSeg 0)).countWaits (sched 0 0)).chooseUnit (sched 0 0)).isNone = true := by decide

/-! ### Witnesses: resets, faults, clocks, starts, power -/

theorem witness_resetsRunTheirSteps : 1 < 2 ∧ lab.hasVf 0 63 = true ∧ (lab.partOf 63).st ≠ 2 ∧ 4 ≠ 0 ∧
    ({ lab with part := { lab.part with parts := [(63, { st := 2 })] } }.partOf 63).st = 2 ∧
    ((labQueue { flushAt := some 7 }).queue 0).flushAt = some 7 := by decide

/-- A module whose defect map names link 5. -/
def labDefect : State := { lab with boot := { lab.boot with defects := [{ kind := 0xD, origin := 3, unit := 5 }] } }

theorem witness_faultsFenceTheirUnit : labDefect.covered 0xD 0 5 = true ∧ labDefect.covered 0xD 0 6 = false ∧ labDefect.boot.phase = 8 ∧
    labDefect.obj 0xE000 1 24 ≠ 0 ∧
    ([(true, segFields.getD 0 0, rindCount 0 - 1), (true, segFields.getD 0 0, rindCount 0), (false, pithField 0, 3071), (false, pithField 0, 3072)].all fun (c : Bool × Nat × Nat) =>
      let k := if c.1 then 3 else 2
      let g := segFields.findIdx (· == c.2.1)
      let real := if c.1 then g < 32 && c.2.2 < rindCount g else pithFields.contains c.2.1 && c.2.2 < 3072
      !labDefect.covered k c.2.1 c.2.2 && real == (c.2.2 == 3071 || c.2.2 == rindCount 0 - 1)) = true := by decide

/-- Input 3 in state `st`; with `on` it is the active one and the mesh is LOCKED, else a pull-in to it goes on. -/
def labRef (st : RefSt) (on : Bool) : State := { lab with clk := { lab.clk with refs := [(3, (st, 0))], active := if on then some 3 else none
                                                                                pull := if on then none else some 3, mesh := if on then .locked else .holdover } }

theorem witness_clocksFollowTheirTables : 3 < 4 ∧ lab.refSt 3 = .absent ∧ lab.segGone (7 * 3) = false ∧
    (labRef .lost false).segGone (7 * 3) = false ∧ (labRef .lost false).refSt 3 = .lost ∧
    (labRef .pending true).refSt 3 = .pending ∧ ((labRef .pending true).clk.mesh = .locked ∨ (labRef .pending true).clk.pull.isSome = true) ∧
    (lab.clk.mesh ≠ .locked ∧ lab.clk.pull = none) ∧ (labRef .qualified true).refSt 3 = .qualified ∧ (labRef .qualified true).clk.active = some 3 ∧
    (labRef .qualified false).clk.active ≠ some 3 ∧ (labRef .qualified false).clk.pull = some 3 ∧ (labRef .qualified false).clk.mesh = .holdover ∧
    (labRef .qualified false).clk.dayTold = false ∧ lab.clk.mesh ≠ .holdover ∧ lab.clk.crystal = true ∧
    (segFields.all fun f => !lab.covered 1 f 0) = true ∧ ((segFields.filter fun f => (refOf f).isSome).length = 4) ∧ refOf 0xFF = none := by decide

/-- A module in phase `p` of a start, with the mesh LOCKED. -/
def labStart (p : Nat) : State := { lab with boot := { phase := p, attempts := [{ no := 1, powerOns := 1, outcome := 1 }] }, clk := { lab.clk with mesh := .locked } }

theorem witness_startsBeginAndRun : (2 ^ 18 - 1 < 2 ^ 18 ∧ 3 < 4 ∧ 3 ≠ 0) ∧
    (∃ t, exec (.powerOnReset 262143 0 3) State.reset = .next t ∧ t.boot.waiting = true) ∧
    ([1, 7].all fun p => (labStart p).boot.phase == p && 1 ≤ p && p < 8 && !(labStart p).boot.failed && !(labStart p).boot.ready &&
      (256 * p + 1) / 256 == p) = true ∧
    (∃ t, ([] : List Sys2Proof.Found).foldl State.fenceFound (labStart 2) = labStart 2 ∧ (labStart 2).criterion 2 = true ∧ (labStart 2).phaseDone 2 = .ok t) ∧
    (∃ e, (labStart 5).criterion 5 = true ∧ (labStart 5).phaseDone 5 = .error e) ∧
    { labStart 3 with boot := { (labStart 3).boot with failed := true } }.boot.failed = true ∧
    (labStart 8).boot.phase = 8 ∧ ((labStart 8).boot.attempts.head?.map (·.outcome)) = some 1 :=
  ⟨by decide, ⟨_, rfl, rfl⟩, by decide, ⟨_, rfl, by decide, rfl⟩, ⟨_, by decide, rfl⟩, rfl, rfl, rfl⟩

theorem witness_powerFailsAndReturns : lab.pwr.fail = false ∧ lab.pwr.rails = true ∧
    (let s := { lab with pwr := { lab.pwr with fail := true } }
     s.pwr.fail = true ∧ s.pwr.rails = true ∧ s.pwr.tripped = false) := by decide

/-- A T0 sensor just below its trip point, and one at it. -/
theorem witness_sensorsAreSampled : lab.pwr.rails = true ∧
    ([(10999, false), (11000, true)].all fun (c : Int × Bool) =>
      let rs : List Sample := [{ code := 7, value := some c.1 }]
      let u := rs.foldl State.sample (lab.timeTo (lab.pwr.sampleAt + ms 10))
      let w := { u with pwr := { u.pwr with
        sampleAt := u.up, millijoules := u.pwr.millijoules + 10 * (if u.pwr.broken.contains 3 then 0 else mget u.pwr.readings 3 0) } }
      let w := w.tripGo
      (rs.find? w.trips).isSome == c.2 && !w.pwr.tripped && w.pwr.rails) = true ∧ lab.pwr.broken.contains 7 = false ∧
    (lab.media.state = 2 ∧ lab.pwr.fail = false ∧ lab.pwr.tripAt = none ∧ State.reset.media.state ≠ 2) ∧
    ([(true, 0), (true, ms 90), (false, 0)].all fun c =>
      let s := { lab with up := c.2, media := { lab.media with syncs := if c.1 then [{ kind := 4 }] else [] }
                          pwr := { lab.pwr with tripped := true, tripAt := some 0 } }
      s.pwr.tripAt == some 0 && s.media.syncs.any (fun y => y.kind == 4) == c.1 && decide (s.up < 0 + ms 90) == (c.2 == 0)) = true := by decide

theorem witness_portsAndTapAnswer : 1 < 2 ∧ lab.hasVf 0 63 = true ∧ 65472 + 64 ≤ (labReq {}).windowBytes 0 ∧ (labReq {}).hasVf 0 0 = true ∧
    (labReq {}).pcieGood 0 = true ∧ lab.pcieGood 0 = true ∧ lab.hasVf 0 (65 - 1) = false ∧
    { lab with boot := { lab.boot with defects := [{ kind := 0xF, origin := 3, unit := 28 + 256 * 4 }] } }.pcieGood 0 = false ∧
    lab.segGone 0 = false ∧ { lab with boot := { lab.boot with defects := [{ kind := 1, origin := 3, field := segFields.getD 0 0 }] } }.segGone 0 = true ∧
    0 ∉ lab.pwr.perst ∧ (let s := { lab with pwr := { lab.pwr with perst := [0] } }; 0 ∈ s.pwr.perst ∧ 3 ≤ s.boot.phase) ∧
    (labReq {}).windowBytes 0 < 65473 + 64 ∧ 65535 + ([7] : Bytes).length ≤ (labReq {}).windowBytes 0 ∧ lab.pwr.perst.contains 0 = false ∧
    (labStart 2).boot.phase < 3 ∧ (labStart 2).pwr.perst.contains 0 = false ∧ 3 ≤ (labStart 3).boot.phase ∧ 16 ≤ 16 ∧ 64 ≤ 64 := by decide

/-! ### Witnesses: the dictionary -/

/-- The OWNER's session at the mailbox of port 0's physical function. -/
def sess : Session := { ep := .pf 0, role := 0 }
def pf0 : Zdp := { ep := .pf 0, tag := 5 }
def labZ (x : Session) : State := { lab with dict := { sessions := [x] }, media := { state := 2 } }

theorem hears_pf (s : State) (i : Instr) (h : s.answers pf0.ep = true) (ho : s.owes pf0.ep = false) : s.hears pf0 i s :=
  ⟨h, fun _ => ho, rfl⟩
theorem serves_labZ (x : Session) (h : x = { x with ep := .pf 0, lastAt := 0 }) (hx : x.xfer = none) : (labZ x).serves pf0 x (labZ x) := by
  rw [h] at hx ⊢
  exact ⟨rfl, rfl, rfl, rfl, rfl, rfl, hx⟩

/-- `labZ` while a response of kind `k` in stage `st` waits for the marks `ms` at port 0's mailbox, with change 4 of the discards durable. -/
def labOwes (k st : Nat) (ms : List (MetaKey × Nat)) : State :=
  let s := labZ sess
  { s with media := { s.media with dur := [{ key := .discards, val := .gone, seqNo := 4 }], syncs := [{ kind := k, ep := some pf0.ep, stage := st, marks := ms }] } }

/-- Link 0 may own the module. -/
def labMgmt : State := { labReq {} with boot := { (labReq {}).boot with ready := true } }

theorem witness_requestsReachTheModule : zdpOf (.describe pf0 0x1200 1) = some (pf0, 0) ∧ (labZ sess).hears pf0 (.describe pf0 0x1200 1) (labZ sess) ∧
    labMgmt.hears { ep := .mgmt 0, tag := 5 } (.zdpClose { ep := .mgmt 0, tag := 5 })
      (labMgmt.accepted 0 7 (heldFrame (.zdpClose { ep := .mgmt 0, tag := 5 })).2.1) ∧ lab.answers (.can 0) = false ∧
    (boxKey pf0.ep).isSome = true ∧ (labOwes 1 1 []).owes pf0.ep = true :=
  ⟨rfl, hears_pf _ _ rfl rfl, ⟨by decide, by decide, takes_of (by decide), rfl⟩, by decide, rfl, rfl⟩

/-- The responses that wait: of a write, a MEDIA_SYNC and a SHUTDOWN_PREPARE in each stage, with a mark already durable and one that is not, a
session that is gone, and one of no session. -/
theorem witness_waitingResponsesLeave :
    ([1, 2, 3].all fun k => (labOwes k 1 [(.discards, 0)]).media.syncs.all fun w =>
      w.kind == k && w.stage == 1 && w.ep == some pf0.ep && ((labOwes k 1 []).session? pf0.ep).isSome && (lab.session? pf0.ep).isNone &&
        w.marks.all fun m => decide (m.2 < (labOwes k 1 []).durNo m.1)) = true ∧
    ((labOwes 4 1 [(.discards, 5)]).media.syncs.all fun w => w.kind == 4 && w.marks.all fun m => decide ((labOwes 4 1 []).durNo m.1 ≤ m.2)) = true ∧
    (labOwes 2 2 []).dieOps.any (fun o => o.2.root.isSome) = false ∧
    (labZ sess).writeBackAll.dirtySlices = [] ∧ { labFrame { st := .sealed } with px := { epoch := 51 } }.dirtySlices ≠ [] ∧
    { lab with media := { lab.media with syncAsk := 2 } }.media.syncAsk = 2 ∧ { lab with boot := { lab.boot with update := some (1, [1]) } }.boot.update = some (1, [1]) := by
  decide

/-- A batch of one entry, the frame quota of partition 0; and one that names no object of the setup. -/
def batch (ix : Nat) : Bytes := leBytes 2 ix ++ leBytes 6 6 ++ leBytes 8 50

theorem witness_namedWritesAreAnswered :
    namedWrite (.protectionBatch pf0 (batch 0x2001)) = some (pf0, true, 0x1800, 3, batch 0x2001, .hard false) ∧
    namedWrite (.mediaSync pf0) = some (pf0, false, 0x1200, 11, [1], .hard false) ∧
    (labZ sess).hears pf0 (.protectionBatch pf0 (batch 0x2001)) (labZ sess) ∧ (labZ sess).serves pf0 sess (labZ sess) ∧
    (∃ r t, (labZ sess).mayWriteWhole sess 0x1800 3 (batch 0x2001).length r ∧ (labZ sess).writeValue 0x1800 3 r (batch 0x2001) (.hard false) = .ok t ∧
      (labZ sess).writeValue 0x1800 3 r (batch 0x2000) (.hard false) = .error 0x0104) ∧
    (∃ r t, (labZ sess).mayWrite sess 0x1200 11 r ∧ (labZ sess).writeValue 0x1200 11 r [1] (.hard false) = .ok t ∧
      (labZ sess).writeValue 0x1200 11 r [1, 0] (.hard false) = .error 0x0201) :=
  ⟨rfl, rfl, hears_pf _ _ rfl rfl, serves_labZ _ rfl rfl, ⟨_, _, ⟨rfl, rfl, rfl⟩, rfl, rfl⟩, ⟨_, _, ⟨rfl, by decide, by decide, rfl⟩, rfl, rfl⟩⟩

theorem witness_readsAnswerTheirValue :
    (labZ sess).serves pf0 sess (labZ sess) ∧ (labZ sess).hears pf0 (.read pf0 0x1200 1) (labZ sess) ∧
    (∃ r, (labZ sess).checkRead sess 0x1200 1 = .ok r ∧ r.ty ≠ .domain ∧ r.ty.size ≤ payloadLimit sess.ep) ∧
    (∃ r, (labZ sess).checkRead sess (0x2021 + 0x40 * 63) 4 = .ok r) ∧
    (∃ r, (labZ sess).checkRead sess (0x3A00 + 8 * 63 + 7) (177 + 1) = .ok r ∧ r.ty ≠ .domain ∧ r.ty.size ≤ payloadLimit sess.ep) ∧
    (∃ r, findObj 0x1200 1 = .ok r ∧ (labZ sess).mayRead sess 0x1200 r = true) :=
  ⟨serves_labZ _ rfl rfl, hears_pf _ _ rfl rfl, ⟨_, rfl, by decide, by decide⟩, ⟨_, rfl⟩, ⟨_, rfl, by decide, by decide⟩, ⟨_, rfl, by decide⟩⟩

theorem witness_openHoldsThePermittedRole : lab.hears pf0 (.zdpOpen pf0 0 0) lab ∧ pf0.short = false ∧ lab.session? pf0.ep = none ∧
    (1 = 1 → 0 < lab.partCount ∧ (lab.partOf 0).st = 1) ∧ lab.permits pf0.ep 1 0 = false ∧ lab.permits pf0.ep 2 0 = true ∧ 0 ≠ 1 ∧
    (lab.dict.sessions.filter fun x => match x.ep with
      | .can _ => true
      | _ => false).length < 16 ∧ ((List.range 256).find? fun i => !(lab.dict.sessions.any fun x => x.num == i)) = some 0 :=
  ⟨hears_pf _ _ rfl rfl, rfl, rfl, by decide, rfl, rfl, by decide, by decide, by decide⟩

theorem witness_sessionsCloseAndWatch :
    ([31, 32].all fun n => ((labZ { sess with watches := List.replicate n { index := 0x1300, sub := 1 } }).session? (.pf 0)).any fun x =>
      x.watches.length == n && !(x.watches.any fun y => y.index == 0x1200 && y.sub == 1)) = true ∧
    (labZ sess).serves pf0 sess (labZ sess) ∧ (labZ sess).hears pf0 (.watch pf0 0x1200 1) (labZ sess) ∧
    (∃ r, (labZ sess).checkRead sess 0x1200 1 = .ok r ∧ r.ctr = false ∧ r.ty ≠ .domain) ∧
    (∃ r, (labZ sess).checkRead sess 0x60A0 1 = .ok r ∧ r.ctr = true) ∧ (∃ r, (labZ sess).checkRead sess 0x1600 3 = .ok r ∧ r.ty = .domain) ∧
    (∃ r, findObj 0x1200 1 = .ok r) :=
  ⟨by decide, serves_labZ _ rfl rfl, hears_pf _ _ rfl rfl, ⟨_, rfl, rfl, by decide⟩, ⟨_, rfl, rfl⟩, ⟨_, rfl, rfl⟩, ⟨_, rfl⟩⟩

/-- A session with a transfer of the PROTECTION_BATCH under way. -/
def sessX (v : Xfer) : Session := { sess with xfer := some v }
def xf : Xfer := { index := 0x1800, sub := 3, write := true, total := 16 }

theorem witness_transfersCarryTheirObject :
    (labZ sess).hears pf0 (.segReadInit pf0 0x1200 1) (labZ sess) ∧ (labZ sess).serves pf0 sess (labZ sess) ∧
    (∃ r, (labZ sess).checkRead sess 0x1200 1 = .ok r) ∧ (∃ r, (labZ sess).mayWriteWhole sess 0x1800 3 16 r) ∧
    pf0.short = false ∧ (labZ (sessX xf)).boot.ready = true ∧ ((labZ (sessX xf)).session? pf0.ep).isSome = true ∧
    labZ (sessX xf) = (labZ (sessX xf)).modSession pf0.ep (fun y => { y with lastAt := (labZ (sessX xf)).up }) ∧
    (labZ (sessX xf)).session? pf0.ep = some (sessX xf) ∧ (sessX xf).xfer = some xf ∧ xf.prev ≠ some xf.done ∧
    (batch 0x2001).length ≤ payloadLimit pf0.ep - 4 ∧ xf.done + (batch 0x2001).length ≤ xf.total ∧ xf.over = false ∧
    (∃ r, (labZ (sessX xf)).checkWrite (sessX xf) 0x1800 3 = .ok r ∧
      ∃ t, ((labZ (sessX { xf with data := batch 0x2001, done := 16 })).endXfer pf0.ep).writeValue 0x1800 3 r (batch 0x2001) (.hard false) = .ok t) :=
  ⟨hears_pf _ _ rfl rfl, serves_labZ _ rfl rfl, ⟨_, rfl⟩, ⟨_, rfl, rfl, rfl⟩, rfl, rfl, rfl, rfl, rfl, rfl, by decide, by decide, by decide, rfl,
    ⟨_, rfl, _, rfl⟩⟩

theorem witness_notificationsAndTimersRun :
    (let x := { sess with watches := [{ index := 0x1200, sub := 1, changes := 1 }, { index := 0x60A0, sub := 250 }] }
     (labZ x).session? (.pf 0) = some x ∧ (x.watches.find? fun y => y.index == 0x1200 && y.sub == 1) = some { index := 0x1200, sub := 1, changes := 1 } ∧
     (labZ x).watchDue x { index := 0x1200, sub := 1, changes := 1 } ≠ 0 ∧ (labZ x).watchDue x { index := 0x60A0, sub := 250 } = 0 ∧
     (∃ r, findObj 0x1200 1 = .ok r)) ∧
    (1 < 2 ∧ 64 < 65 ∧ mget { lab with dict := { boxes := [(fnKey 1 64, { slot := some [1] })] } }.dict.boxes (fnKey 1 64) {} = { slot := some [1] } ∧
      mget lab.dict.boxes (fnKey 1 64) {} = {}) ∧
    ((labZ (sessX xf)).session? (.pf 0) = some (sessX xf) ∧ (sessX xf).xfer = some xf ∧ xf.over = false) ∧
    ({ lab with dict := { sessions := [{ sess with ep := .can 5 }] } }.session? (.can 5) = some { sess with ep := .can 5 } ∧ lab.obj 0x1010 10 300 ≠ 0) ∧
    1000 ≤ lab.obj 0x1010 8 1000 ∧ lab.obj 0x1010 8 1000 < 1001 :=
  ⟨⟨rfl, rfl, by decide, by decide, ⟨_, rfl⟩⟩, by decide, ⟨rfl, rfl, rfl⟩, ⟨rfl, by decide⟩, by decide, by decide⟩

/-- An entry of the dictionary, for the clauses that ask for one of its kind. -/
def row (ty : Ty) (acc : Acc) (t : Target) : ObjRow := { sub := 1, ty := ty, acc := acc, target := t }

theorem witness_valuesAreCheckedAndKept :
    (let s := { lab with boot := { lab.boot with partCount := 1 } }
     decide (0x2000 ≤ 0x2040 ∧ 0x2040 < 0x3000 ∧ 0x2040 % 0x40 ≠ 1 ∧ s.partCount ≤ (0x2040 - 0x2000) / 0x40) = true ∧
     decide (0x2000 ≤ 0x2000 ∧ 0x2000 < 0x3000 ∧ 0x2000 % 0x40 ≠ 1 ∧ s.partCount ≤ (0x2000 - 0x2000) / 0x40) = false) ∧
    decide (0x2000 ≤ 0x1300 ∧ 0x1300 < 0x3000 ∧ 0x1300 % 0x40 ≠ 1 ∧ lab.partCount ≤ (0x1300 - 0x2000) / 0x40) = false ∧
    (row .u16 .rws .profile).acc = .rws ∧ { lab with cfg := [(okey (pIx 0 4) 1, 0)] }.stopped 0x1300 .profile = false ∧ lab.stopped 0x1300 .profile = true ∧
    (row .u16 .rws .profile).ty.scalar = true ∧ ([1] : Bytes).length ≠ (row .u16 .rws .profile).ty.size ∧ (row (.bytes 2) .rw .none).ty = .bytes 2 ∧
    (row (.string 2) .rw .none).ty = .string 2 ∧ 2 < ([1, 2, 3] : Bytes).length ∧
    typeBad 0x3000 (row .u8 .rw .none) [1] = none ∧ persistent 0x3000 (row .u8 .rw .none) = false ∧ ¬ (0x3000 = 0x1800 ∧ 1 = 3) ∧
    typeBad 0x1900 (row .u8 .rw .none) [1] = none ∧ persistent 0x1900 (row .u8 .rw .none) = true ∧ Ty.u8 ≠ .domain ∧
    (∃ t, lab.writeObj 0x1900 2 (row .u8 .rw .none) [1] (.hard false) = .ok t) ∧ lab.media.state = 2 ∧ lab.diesIn ≠ [] ∧ lab.pwr.fail = false ∧
    State.reset.media.state ≠ 2 ∧ (∀ v, typeBad 0x1300 (row .domain .rws .profile) v = none) ∧ persistent 0x1300 (row .domain .rws .profile) = true ∧
    (∃ v : Bytes, lab.t2UserBytes < lab.t2Used + v.length) ∧ lab.t2Used + ([] : Bytes).length ≤ lab.t2UserBytes ∧
    lab.media.syncAsk = 0 ∧ { lab with media := { lab.media with syncAsk := 3 } }.media.syncAsk ≠ 0 :=
  ⟨by decide, by decide, rfl, by decide, by decide, rfl, by decide, rfl, rfl, by decide, by decide, by decide, by decide, by decide, by decide, by decide,
    ⟨_, rfl⟩, rfl, by decide, rfl, by decide, fun _ => rfl, by decide,
    ⟨List.replicate (lab.t2UserBytes + 1) 0, by rw [List.length_replicate]; omega⟩, Nat.zero_le _, rfl, by decide⟩

/-- An image of 576 B whose MAGIC, LENGTH and CRC are right is intact when its signature verifies; one of no bytes is not. -/
def image576 : Bytes :=
  let b := leBytes 560 0
  leBytes 4 0x554C4657 ++ leBytes 4 0 ++ leBytes 4 576 ++ leBytes 4 (crc32c b) ++ b
theorem image576_intact : intact 25165824 image576 = Config.signatureGood image576 := by
  have h : (fld image576 0 4 == 0x554C4657 && fld image576 8 4 == image576.length && 576 ≤ fld image576 8 4 && fld image576 8 4 ≤ 25165824 &&
    fld image576 12 4 == crc32c (image576.drop 16)) = true := by decide +kernel
  rw [intact, h, Bool.true_and]

theorem witness_moduleWritesTakeEffect : (lab.boot.update = none ∧ { lab with boot := { lab.boot with update := some (1, [1]) } }.boot.update ≠ none ∧
      allZero (slice image576 20 44) = true ∧ intact 25165824 [] = false ∧ lab.boot.minEpoch ≤ fld image576 16 4) ∧
    (leNat (leBytes 2 255) < 256 ∨ (0x8000 ≤ 255 ∧ 255 < 0x8040)) ∧ (leNat (leBytes 2 0x803F) < 256 ∨ (0x8000 ≤ 0x803F ∧ 0x803F < 0x8040)) ∧
    255 < 256 ∧ 1 ≤ 1 ∧ 3 ≤ 3 ∧ lab.setupBad (lab.part.setup.put (0x1500 + 255) 3 7) = none ∧ 31 < 32 ∧ ([] : Bytes).length = 0 ∧
    lab.blobOf (0x1600 + 31) 3 ≠ [1] ∧ leBytes (row .u8 .rw .none).ty.size (lab.obj (0x1600 + 31) 1 (row .u8 .rw .none).d) ≠ [1] ∧ lab.boot.stone = false ∧
    (mget { lab with boot := { lab.boot with slots := [(1, { st := 2 })] } }.boot.slots 1 {}).st = 2 ∧
    (let v : Bytes := leBytes 1 0xD ++ leBytes 2 0 ++ leBytes 1 7 ++ leBytes 12 127
     fld v 1 1 < 8 ∧ unitOk (fld v 0 1) (fld v 2 1) (fld v 4 4) = true ∧ 1 ≤ fld v 3 1 ∧ fld v 3 1 ≤ 7) ∧
    (let v := leBytes 2 63 ++ leBytes 2 3640 ++ leBytes 3 3 ++ leBytes 9 6
     { lab with boot := { lab.boot with stone := true } }.forensicDie (fld v 0 2) = true ∧ fld v 2 2 ≤ 3640 ∧ fld v 4 1 ≤ 3 ∧ fld v 7 1 < 8 ∧ fld v 7 1 % 4 ≠ 3 ∧
      allZero (slice v 8 8) = true) ∧
    (([] : Bytes).length % 32 = 0 ∧ ([] : Bytes).length ≤ 32768 ∧ lab.collSetsOk [] = true) ∧ leNat (leBytes 8 (2 ^ 30)) % 2 ^ 30 = 0 := by decide

theorem witness_partitionWritesTakeEffect : 63 < 64 ∧ leNat ([1] : Bytes) = 1 ∧ leNat ([0] : Bytes) ≠ 1 ∧ (1 ≤ 7 ∧ 7 ≤ 7 ∧ (5 = 5 → leNat ([3] : Bytes) ≤ 3)) ∧
    lab.setupBad (lab.part.setup.put (0x2001 + 0x40 * 63) 5 3) = none ∧
    (let s := { lab with part := { lab.part with parts := [(63, { st := 1, held := [4] })] } }
     (s.partOf 63).st ≠ 2 ∧ (s.partOf 63).held.contains 4 = true) ∧
    7 < 8 ∧ (([] : Bytes).length < 64 ∨ planReserved [] = false) ∧ lab.planOk 63 [] = true ∧
    (lab.reserveSum - lab.ottReserve 63 + 66040 ≤ 130048 ∧ 66040 ≤ lab.ottCap 63) ∧ lab.ottReserve 63 ≤ lab.ottReserve 63 ∧ 177 < 178 ∧ 127 < 128 := by decide

theorem witness_windowWritesStoreTheirBytes : (labReq {}).MemOk ∧ 65472 + (reqOf 64).payload.length ≤ (labReq {}).windowBytes 0 ∧ 0 < 2 ∧
    (labReq {}).hasVf 0 0 = true ∧ (labReq {}).pcieGood 0 = true ∧
    (labReq {}).takesFrame 0 2 (36 + (reqOf 64).payload.length) (.windowWrite { reqOf 64 with addr := 65472 }) ∧
    ((labReq {}).accepted 0 2 (36 + (reqOf 64).payload.length)).part.setup.hasLink 0 0 = true :=
  ⟨⟨rfl, rfl, by decide⟩, by decide, by decide, by decide, by decide, takes_of (by decide), by decide⟩

/-! ### Tests of one step or one operation; the expected results are the worked examples of spec/ -/

/-- 02_pages.md, 06_relevance_index.md: the sizes of the default profile, in BF16 and FP8. -/
theorem test_default_profile_sizes : (lab.geo 0).sliceBytes = 18432 ∧ { lab.geo 0 with fp8 := true }.sliceBytes = 9344 ∧
    (lab.geo 0).upprojBytes = 2147483648 ∧ lab.projBytes 0 = 4194304 := by decide

/-- 08_queues.md: 8 partitions share the OTT. -/
theorem test_ott_shares : let s := { lab with boot := { lab.boot with partCount := 8 } }
    s.ottReserve 5 = 8128 ∧ s.reserveSum = 65024 ∧ s.ottShared = 65024 := by decide

/-- The COPY of 09_commands.md's example with stride `ds` and destination `dst`. -/
def diag (dst ds : Nat) : Bytes := desc [(8, 0x4000000000010000), (16, dst), (24, 1024), (28, 64), (32, 4096), (36, ds)]
theorem test_copy_ways : copyWay (diag 0x4000000000012200 4096) = .descending ∧ copyWay (diag 0x4000000000012200 2048) = .staged := by decide

/-- 10_traffic_manager.md: three tenants on H7. -/
def tenants (cir : Nat) : State := { lab with tm := { lab.tm with leafCfg := [(leafKey 7 4 0, { cir := 1600000 }), (leafKey 7 4 1, { cir := 2400000 }),
  (leafKey 7 5 1, { cir := 2000000 }), (leafKey 7 5 3, { cir := 800000 }), (leafKey 7 6 2, { cir := cir }), (leafKey 7 6 4, { cir := 400000 })] } }
theorem test_committed_sum : (tenants 1200000).capacity 7 = 8640000 ∧ (tenants 1200000).portSum 7 = 8400000 ∧
    overcommits (tenants 1200000) (tenants 1500000) 7 = true ∧ overcommits (tenants 1200000) (tenants 1440000) 7 = false := by decide
/-- The same after eight of its 32 pseudo-channels are fenced. -/
theorem test_degradation_ratio : let s := { tenants 1200000 with boot := { lab.boot with
      defects := (List.range 8).map fun i => { kind := 8, origin := 3, unit := 7 * 32 + i } } }
    s.capacity 7 = 6480000 ∧ s.ratioOf 7 = 23515 := by decide

/-- 17_page_endpoint.md, Table 17.5: an unaligned write of 96 B. -/
theorem test_px_beats : (pxBeats 0 1 (leBytes 8 0 ++ leBytes 8 0x10000FE0 ++ leBytes 8 0) (List.replicate 96 7)).map
    (·.map fun b => (b.base, b.enables.length)) = some [(some 0x10000FC0, 32), (some 0x10001000, 64)] := by decide

/-- 12_dictionary.md, Table 12.6: frame 1 is 8 header bytes and INDEX, SUB as given. -/
theorem test_zdp_header : (zdpMsg 0x20 7 0x2120 3 false []).take 6 = [0x20, 7, 0x20, 0x21, 3, 0] := by decide

/-- 14_clocks.md, Table 14.6: REFCLK0 stops, REFCLK1 is QUALIFIED. -/
def failing : State := { lab with clk := { lab.clk with refs := [(0, (.qualified, 0)), (1, (.qualified, 0))], active := some 0, mesh := .locked } }
def after (r : Res) : State := match r with
  | .next t => t
  | _ => lab
theorem test_reference_failover : let t := after (exec (.refLoss 0) failing)
    let u := after (exec .meshPullInDone t)
    t.refSt 0 = .lost ∧ t.clk.mesh = .holdover ∧ t.clk.pull = some 1 ∧ u.clk.mesh = .locked ∧ u.clk.active = some 1 := by decide

/-- R421, R422: power-on reset begins a start in phase 1. -/
theorem test_power_on : let t := after (exec (.powerOnReset 5 3 3) State.reset)
    t.boot.phase = 1 ∧ t.boot.powerOns = 1 ∧ t.boot.starts = 1 ∧ t.canNode = 5 := by decide

/-- Table 8.7: the record of a NOP with UTAG 0x01020304 under tag 0, as its queue's first. -/
theorem test_nop_record :
    let s := { labEnd {} with q := { (labEnd {}).q with ott := [(0, { opWith (desc [(0, 160)]) with utag := 0x01020304, ring := 9, list := 0x1FFF })] } }
    let t := after (exec (.nop 0) s)
    rdN t.mem.host0 0 18 = [4, 3, 2, 1, 0, 0, 0, 0, 9, 0, 0xFF, 0x1F, 0, 3, 0, 0, 0, 0] ∧ t.op? 0 = none ∧ (t.queue 0).cjTail = 1 := by decide

/-- R265: a doorbell sets the tail; one beyond the ring is counted. -/
theorem test_doorbell : ((after (exec (.sqTailDoorbell 0 1 0 15) (labQueue { st := .enabled }))).queue 0).tail = 15 ∧
    (after (exec (.sqTailDoorbell 0 1 0 16) (labQueue { st := .enabled }))).count (pIx 0 0x21) 8 = 1 := by decide

/-- R302: a SEQ_OPEN in a domain it may not name. -/
theorem test_open_refused : let s := labSeq (desc [(0, 32), (18, 5)])
    let t := after (exec (.seqOpen 0) { s with q := { s.q with queues := [(0, { st := .enabled })] } })
    rdN t.mem.host0 12 1 = [0x22] ∧ t.op? 0 = none := by decide

/-- R303: discarding SEQ 7 leaves it FREE. -/
theorem test_discard : let s := labSeq (desc [(0, 35), (8, 7)])
    let t := after (exec (.seqDiscard 0) { s with q := { s.q with queues := [(0, { st := .enabled })] } })
    t.seq? 7 = none ∧ rdN t.mem.host0 12 1 = [0] := by decide

/-- Table 16.6: an ACK releases the frames up to and including the one it names. -/
theorem test_ack : ((after (exec (.ack (.module 0) 5) (labLink l2))).link 0).replay = [fr 6] := by decide

/-- R497: a SINK frame that reaches the module is discarded and counted. -/
theorem test_sink_rejected : (after (exec (.sinkFrameReject 0 0 0 []) (labLink up0))).count (lIx 0 2) 0x11 = 1 := by decide

/-- Table 17.11: reset values, and the range of TX_MAX. -/
theorem test_px_tx_max : ((after (exec (.pxRegisterWrite 0x48 64) lab)).pxLink 0).txMax = 64 ∧ ((after (exec (.pxRegisterWrite 0x48 65) lab)).pxLink 0).txMax = 2048 := by decide

/-- R550: five rising edges with TMS high reset the TAP. -/
theorem test_tap_reset : ([TapSt.reset, .idle, .shDr, .pauDr, .ex2Dr, .shIr, .pauIr, .upIr].all fun st =>
    (List.range 5).foldl (fun st _ => tapNext st true) st == .reset) = true := by decide

/-- R376: a fault enters the defect map once. -/
theorem test_fault : let t := after (exec (.faultFence 0xD 0 5 1 [] []) lab)
    (t.boot.defects.map fun d => (d.kind, d.origin, d.unit, d.reason)) = [(0xD, 3, 5, 1)] ∧ (t.link 5).st = .fenced := by decide

/-- The CRC-32C of "123456789" (R398's polynomial and conventions). -/
theorem test_crc32c : crc32c [0x31, 0x32, 0x33, 0x34, 0x35, 0x36, 0x37, 0x38, 0x39] = 0xE3069283 := by decide

/-- The block's table gives its rows no bits. -/
theorem test_decode : decodeTableWord 16 0 = none ∧ lab.withFetchWord 16 0 = lab := ⟨rfl, rfl⟩

end Sys2Proof.Tests
end

section
/-! Which share domain an open names (R81), and what an open that names none gets. -/

namespace Sys2Proof.Machine

/-- R80: membership of a shared domain is its enable bit and its member set. -/
theorem Setup.member_shared_iff {d : Nat} (u : Setup) (p : Nat) (hd : d < 256) :
    u.member d p = true ↔ (u.domain d).enabled = true ∧ bit (u.domain d).members p = true := by
  simp only [Setup.member, if_pos hd, Bool.and_eq_true]

theorem openDomain_own {p d : Nat} (u : Setup) (h : d = 0xFFFF ∨ d = 0x8000 + p) :
    openDomain u p d = some (0x8000 + p) :=
  if_pos h

/-- A number below 256 never names a partition's own domain, so membership alone decides. -/
theorem openDomain_shared {u : Setup} {p d : Nat} (hd : d < 256) (hm : u.member d p = true) :
    openDomain u p d = some d := by
  have hown : ¬ (d = 0xFFFF ∨ d = 0x8000 + p) := by omega
  rw [openDomain, if_neg hown, if_pos ⟨hd, hm⟩]

theorem openDomain_other {u : Setup} {p d : Nat} (hown : ¬ (d = 0xFFFF ∨ d = 0x8000 + p))
    (hshared : ¬ (d < 256 ∧ u.member d p = true)) : openDomain u p d = none := by
  rw [openDomain, if_neg hown, if_neg hshared]

/-- R81: an open that names any other domain is refused before its profile slot and the free SEQs are looked at. -/
theorem execSeqOpen_protection {s : State} {t : Nat} {o : Op} (hrun : s.runCmd t .seqOpen = some o)
    (hdom : openDomain ((s.meterOp o).setupOf o.gen) o.part (fld o.desc 18 2) = none) :
    execSeqOpen t s = .next ((s.meterOp o).endOp t stProt 0 0 0) := by
  simp only [execSeqOpen, hrun, hdom]

/-- Settles O31: the partition's own domain by either number, a shared one by membership, PROTECTION otherwise. -/
theorem openNamesItsDomain : Obligations.openNamesItsDomain := by
  unfold Obligations.openNamesItsDomain
  intro u p d _
  refine ⟨openDomain_own u, fun hd hen hbit => ?_, fun hown hshared => ?_, fun s t o hrun hdom => ?_⟩
  · exact openDomain_shared hd ((u.member_shared_iff p hd).2 ⟨hen, hbit⟩)
  · exact openDomain_other hown fun ⟨hd, hm⟩ => hshared ⟨hd, (u.member_shared_iff p hd).1 hm⟩
  · exact (exec_seqOpen t s).trans (execSeqOpen_protection hrun hdom)

end Sys2Proof.Machine
end

section
/-! The T2 record of a slice copy (R129-R131): its format, and the slice and image it stands for. -/

namespace Sys2Proof.Machine

section
variable {g : Geo} {fid layer profile epoch : Nat} {ver : BitVec 16} {lossy durable : Bool} {d : SliceData}

theorem mkRec_format_of_lossy (h : lossy = true) :
    (mkRec g fid layer profile epoch ver lossy durable d).format = 1 := by
  rw [h]
  rfl

/-- Which of the two it is depends on whether coding makes the payload smaller (log 14). -/
theorem mkRec_format_of_not_lossy (h : ¬ lossy = true) :
    (mkRec g fid layer profile epoch ver lossy durable d).format = 0 ∨
      (mkRec g fid layer profile epoch ver lossy durable d).format = 2 := by
  rw [Bool.eq_false_iff.2 h]
  by_cases hraw : Config.codedBytes (validImage g d) ≥ (validImage g d).length
  · exact .inr (if_pos (by simpa using hraw))
  · exact .inl (if_neg (by simpa using hraw))

@[simp] theorem mkRec_fid : (mkRec g fid layer profile epoch ver lossy durable d).fid = fid := by
  cases lossy <;> rfl

@[simp] theorem mkRec_layer : (mkRec g fid layer profile epoch ver lossy durable d).layer = layer := by
  cases lossy <;> rfl

@[simp] theorem mkRec_version : (mkRec g fid layer profile epoch ver lossy durable d).version = ver := by
  cases lossy <;> rfl

/-- The image is that of the rows the record restores, so of the quantised rows when it is lossy (R130, R132). -/
theorem mkRec_crc :
    (mkRec g fid layer profile epoch ver lossy durable d).crc =
      crc32c (validImage g (mkRec g fid layer profile epoch ver lossy durable d).data) := by
  cases lossy <;> rfl

end

/-- R131: whether the record of a slice of `f` is LOSSY_FP8, as `State.recOf` decides it. -/
def State.codesLossy (s : State) (f : Frame) : Bool :=
  !(s.frameGeo f).fp8 && f.st == .sealed && !bit f.flags fExact && !bit f.flags fDurable

theorem State.codesLossy_iff (s : State) (f : Frame) :
    s.codesLossy f = true ↔
      (s.frameGeo f).fp8 = false ∧ f.st = .sealed ∧ bit f.flags 1 = false ∧ bit f.flags 2 = false := by
  simp [State.codesLossy, fExact, fDurable, and_assoc]

/-- The record of a slice is `mkRec` of one of its copies, under the creation stamp of the frame. -/
theorem State.recOf_eq_some {s : State} {fid layer : Nat} {f : Frame} {r : Rec}
    (h : s.recOf fid f layer = some r) :
    ∃ d, r = { mkRec (s.frameGeo f) fid layer f.profile s.px.epoch (f.slice layer).version (s.codesLossy f)
      (bit f.flags fDurable) d with stamp := f.stamp } := by
  obtain ⟨d, -, hr⟩ := Option.map_eq_some_iff.1 h
  exact ⟨d, hr.symm⟩

/-- Settles O38: the format follows R131's condition, and the names and the CRC are those of `mkRec`. -/
theorem lossyRecordsAreAllowed : Obligations.lossyRecordsAreAllowed := by
  unfold Obligations.lossyRecordsAreAllowed
  intro s fid layer f r h
  obtain ⟨d, rfl⟩ := State.recOf_eq_some h
  refine ⟨fun hmay => ?_, fun hnot => ?_, mkRec_fid, mkRec_layer, mkRec_version, mkRec_crc⟩
  · exact mkRec_format_of_lossy ((s.codesLossy_iff f).2 hmay)
  · exact mkRec_format_of_not_lossy (mt (s.codesLossy_iff f).1 hnot)

end Sys2Proof.Machine
end

section
/-! What a SEQ_OPEN answers (R302): an empty profile slot, a free SEQ, none free. -/

namespace Sys2Proof.Machine

theorem State.findSeq_of_freeSeq {w x : State} {n : Nat} (h : w.freeSeq = some (n, x)) :
    w.takeFree.2.findSeq (Config.seqHint w.takeFree.1) (2 ^ 24) = some n := by
  obtain ⟨m, hfind, hpair⟩ := Option.map_eq_some_iff.1 h
  cases hpair
  exact hfind

/-- Reading the free hint leaves the OTT, so the operations that name a SEQ are those of `w`. -/
theorem State.seqNamed_of_freeSeq {w x : State} {n : Nat} (h : w.freeSeq = some (n, x)) : w.seqNamed n = false :=
  (findSeq_some _ _ _ _ (State.findSeq_of_freeSeq h)).2.2

theorem State.exists_freeSeq {w : State} (h : ∃ n : Nat, n < 2 ^ 24 ∧ w.seq? n = none ∧ w.seqNamed n = false) :
    ∃ (n : Nat) (x : State), w.freeSeq = some (n, x) := by
  obtain ⟨n, hn, hrec, hnamed⟩ := h
  cases hfree : w.freeSeq with
  | some r => exact ⟨r.1, r.2, rfl⟩
  | none =>
    have htaken := (freeSeq_none_iff w).2 hfree n hn
    simp [hrec, hnamed] at htaken

section
variable {s : State} {t d : Nat} {o : Op}

theorem execSeqOpen_unbound (hrun : s.runCmd t .seqOpen = some o)
    (hdom : openDomain ((s.meterOp o).setupOf o.gen) o.part (fld o.desc 18 2) = some d)
    (hslot : (s.meterOp o).bound o.part (fld o.desc 16 1 % 8) = none) :
    execSeqOpen t s = .next ((s.meterOp o).endOp t stProfile 0 0 0) := by
  simp only [execSeqOpen, hrun, hdom, hslot, Option.isNone_none, if_true]

/-- In a domain it may name and on a slot that is bound, an open depends on the search for a free SEQ alone. -/
theorem execSeqOpen_bound (hrun : s.runCmd t .seqOpen = some o)
    (hdom : openDomain ((s.meterOp o).setupOf o.gen) o.part (fld o.desc 18 2) = some d)
    (hslot : ((s.meterOp o).bound o.part (fld o.desc 16 1 % 8)).isSome = true) :
    execSeqOpen t s = .next ((s.meterOp o).freeSeq.elim ((s.meterOp o).endOp t stNotStarted 6 0 0) fun r =>
      ((r.2.setSeq r.1 { part := o.part, slot := fld o.desc 16 1 % 8, domain := d }).touch (.seq r.1)).endOp t stDone 0 r.1 0) := by
  obtain ⟨profile, hprofile⟩ := Option.isSome_iff_exists.1 hslot
  simp only [execSeqOpen, hrun, hdom, hprofile, Option.isNone_some, Bool.false_eq_true, if_false]
  cases (s.meterOp o).freeSeq <;> rfl

end

/-- Settles O32: an empty slot is refused, and on a bound slot the search for a free SEQ finds one exactly when there is one. -/
theorem openAssignsASequence : Obligations.openAssignsASequence := by
  unfold Obligations.openAssignsASequence
  intro s t d o hrun w hdom
  refine ⟨fun hslot => execSeqOpen_unbound hrun hdom hslot, fun hslot => ⟨fun hfree => ?_, fun hall => ?_⟩⟩
  · obtain ⟨n, x, hassigned⟩ := State.exists_freeSeq hfree
    obtain ⟨hrec, hn⟩ := freeSeq_free w n x hassigned
    refine ⟨n, x, hassigned, hn, hrec, State.seqNamed_of_freeSeq hassigned, ?_⟩
    rw [exec_seqOpen, execSeqOpen_bound hrun hdom hslot, hassigned]
    rfl
  · have hnone : w.freeSeq = none := (freeSeq_none_iff w).1 hall
    rw [exec_seqOpen, execSeqOpen_bound hrun hdom hslot, hnone]
    rfl

end Sys2Proof.Machine
end

section
/-! What an OPEN answers (R386): the roles of Table 12.3, the refusal of another, and the session a good OPEN begins. -/

namespace Sys2Proof.Machine

/-! ### Table 12.3, a row each -/

@[simp] theorem State.permits_can (s : State) (n role p : Nat) : s.permits (.can n) role p = true := rfl

@[simp] theorem State.permits_pf (s : State) (k role p : Nat) : s.permits (.pf k) role p = true ↔ role ≠ 1 :=
  bne_iff_ne

@[simp] theorem State.permits_vf (s : State) (k q role p : Nat) : s.permits (.vf k q) role p = true ↔
    role = 2 ∨ (role = 1 ∧ p = q ∧ bit (s.part.setup.prot p).ports k = true) := by
  simp only [State.permits, Bool.or_eq_true, Bool.and_eq_true, beq_iff_eq, and_assoc]

theorem State.permits_mgmt_owner (s : State) (n p : Nat) : s.permits (.mgmt n) 0 p =
    if n < 64 then bit (s.obj 0x1010 6 0) n else bit (s.obj 0x1010 7 0) (n - 64) := rfl

theorem State.permits_mgmt_admin (s : State) (n p : Nat) : s.permits (.mgmt n) 1 p = s.part.setup.hasLink p n := rfl

theorem State.permits_mgmt_observer (s : State) (n p : Nat) : s.permits (.mgmt n) 2 p = true := rfl

theorem State.permits_mgmt {role : Nat} (s : State) (n p : Nat) (hrole : role ≤ 2) : s.permits (.mgmt n) role p = true ↔
    (role = 0 ∧ (if n < 64 then bit (s.obj 0x1010 6 0) n else bit (s.obj 0x1010 7 0) (n - 64)) = true) ∨
    (role = 1 ∧ s.part.setup.hasLink p n = true) ∨ role = 2 := by
  obtain rfl | rfl | rfl : role = 0 ∨ role = 1 ∨ role = 2 := by omega
  · simp [State.permits_mgmt_owner]
  · simp [State.permits_mgmt_admin]
  · simp [State.permits_mgmt_observer]

/-! ### The request -/

/-- The sessions that CAN FD nodes hold, of which R407 allows 16. -/
def State.canSessions (s : State) : Nat :=
  (s.dict.sessions.filter fun x => match x.ep with
    | .can _ => true
    | _ => false).length

/-- The lowest session number that no session has. -/
def State.freeNumber (s : State) : Option Nat :=
  (List.range 256).find? fun i => !(s.dict.sessions.any fun x => x.num == i)

/-- The session `i` of an endpoint begins, with the role and partition its OPEN names. -/
def State.beginSession (s : State) (ep : Endpoint) (role p i : Nat) : State :=
  { s with dict := { s.dict with sessions := s.dict.sessions ++ [{ ep := ep, role := role, part := p, num := i, lastAt := s.up }] } }

/-- An OPEN that names a role and a partition in service from an endpoint without a session (R386, Table 12.5): only whether the role is
permitted, and whether there is room, are left to check. -/
structure State.opensWell (s : State) (z : Zdp) (role p : Nat) : Prop where
  whole : z.short = false
  fresh : s.session? z.ep = none
  role_le : role ≤ 2
  admin : role = 1 → p < s.partCount ∧ (s.partOf p).st = 1
  other : role ≠ 1 → p = 0

theorem Ans.send_refuse {c : Nat} (s : State) (z : Zdp) (svc ix sub : Nat) (hc : c ≠ 0) :
    (refuse s c).send z svc ix sub = s.abort z.ep svc z.tag ix sub c :=
  if_pos hc

theorem exec_zdpOpen_hears {s u : State} {z : Zdp} {role p : Nat} (h : s.hears z (.zdpOpen z role p) u) :
    exec (.zdpOpen z role p) s = .next (((u.openSession z role p).send z 0x01 0 0).heard z (.zdpOpen z role p)) := by
  rw [exec_zdpOpen, execZdpOpen, zdpIn_hears s u z _ _ h, askZdpOpen]

section
variable {s : State} {z : Zdp} {role p : Nat}

/-- No check before the role's refuses: an OPEN whose operands are right is answered by Table 12.3, the room of CAN FD and the numbers. -/
theorem State.opensWell.operands (h : s.opensWell z role p) : z.short = false ∧ (s.session? z.ep).isSome = false ∧ ¬ role > 2 ∧
    ¬ (role = 1 ∧ (p ≥ s.partCount ∨ (s.partOf p).st ≠ 1)) ∧ ¬ (role ≠ 1 ∧ p ≠ 0) := by
  refine ⟨h.whole, by rw [h.fresh]; rfl, Nat.not_lt.2 h.role_le, ?_, fun ⟨hrole, hp⟩ => hp (h.other hrole)⟩
  rintro ⟨hrole, hout⟩
  obtain ⟨hcount, hservice⟩ := h.admin hrole
  omega

theorem openSession_refused (h : s.opensWell z role p) (hrole : s.permits z.ep role p = false) :
    s.openSession z role p = refuse s 0x0303 := by
  obtain ⟨hwhole, hfresh, hrange, hadmin, hother⟩ := h.operands
  simp only [State.openSession, hwhole, hfresh, hrange, hadmin, hother, hrole, Bool.false_eq_true, Bool.not_false, if_false, if_true]

theorem openSession_begins {i : Nat} (h : s.opensWell z role p) (hrole : s.permits z.ep role p = true) (hroom : s.canSessions < 16)
    (hnum : s.freeNumber = some i) :
    s.openSession z role p = { st := s.beginSession z.ep role p i, payload := leBytes 1 i } := by
  obtain ⟨hwhole, hfresh, hrange, hadmin, hother⟩ := h.operands
  simp only [State.openSession, hwhole, hfresh, hrange, hadmin, hother, hrole, Bool.false_eq_true, Bool.not_true, if_false]
  refine (if_neg fun hfull => Nat.not_le.2 hroom hfull.2).trans ?_
  rw [State.freeNumber] at hnum
  rw [hnum, State.beginSession]

end

/-- Settles O55: Table 12.3 row by row, and an OPEN of a right role and partition is decided by it. -/
theorem openHoldsThePermittedRole : Obligations.openHoldsThePermittedRole := by
  unfold Obligations.openHoldsThePermittedRole
  intro s p k
  refine ⟨fun role n => s.permits_can n role p, fun role => s.permits_pf k role p, fun role q _ => s.permits_vf k q role p,
    fun role n hrole => s.permits_mgmt n p hrole, fun z role u hears hwhole hfresh hrange hadmin hother => ?_⟩
  have hopen : u.opensWell z role p := ⟨hwhole, hfresh, hrange, hadmin, hother⟩
  rw [exec_zdpOpen_hears hears]
  refine ⟨fun hrole => ?_, fun i hrole hroom hnum => ?_⟩
  · rw [openSession_refused hopen hrole, Ans.send_refuse _ _ _ _ _ (by decide)]
  · rw [openSession_begins hopen hrole hroom hnum]
    rfl

end Sys2Proof.Machine
end

section
/-! The beats of a SINK frame (R530): where the lines of its payload begin, and the bytes they enable. -/

namespace Sys2Proof.Machine

/-- The bytes of `bs`, each with its address, the first at `a`. -/
def placed (a : Nat) (bs : Bytes) : List (Nat × Byte) :=
  ((List.range bs.length).zip bs).map fun e => (a + e.1, e.2)

theorem placed_cons (a : Nat) (b : Byte) (bs : Bytes) : placed a (b :: bs) = (a, b) :: placed (a + 1) bs := by
  simp [placed, List.range_succ_eq_map, List.zip_map_left, Nat.add_assoc, Nat.add_comm 1]

/-- A payload may be cut after `m` bytes, and also beyond its end. -/
theorem placed_take_append_drop (a m : Nat) (bs : Bytes) :
    placed a (bs.take m) ++ placed (a + m) (bs.drop m) = placed a bs := by
  induction m generalizing a bs with
  | zero => rfl
  | succ m ih =>
    cases bs with
    | nil => rfl
    | cons b bs =>
      have hrest := ih (a + 1) bs
      rw [Nat.add_right_comm, Nat.add_assoc a m 1] at hrest
      rw [List.take_succ_cons, List.drop_succ_cons, placed_cons, placed_cons, List.cons_append, hrest]

/-- What is left of a payload after `m` bytes is the part up to byte `m'` and what is left after that. -/
theorem placed_drop_split {m m' : Nat} (a : Nat) (bs : Bytes) (h : m ≤ m') :
    placed (a + m) ((bs.drop m).take (m' - m)) ++ placed (a + m') (bs.drop m') = placed (a + m) (bs.drop m) := by
  have hcut := placed_take_append_drop (a + m) (m' - m) (bs.drop m)
  rwa [List.drop_drop, Nat.add_assoc, Nat.add_sub_cancel' h] at hcut

@[simp] theorem PxBeat.enables_sink (k addr first : Nat) (bs : Bytes) (eof : Bool) :
    (PxBeat.sink k addr first bs eof).enables = placed (addr + first) bs := rfl

/-- The payload bytes before beat `j` of a payload whose first byte lies at `a`: none before beat 0. -/
def sinkSkip (a j : Nat) : Nat := 64 * j - a % 64

theorem sinkSkip_le_succ (a j : Nat) : sinkSkip a j ≤ sinkSkip a (j + 1) :=
  Nat.sub_le_sub_right (Nat.mul_le_mul_left 64 j.le_succ) _

theorem sinkSkip_succ_sub {j : Nat} (a : Nat) (hj : j ≠ 0) : sinkSkip a (j + 1) - sinkSkip a j = 64 := by
  simp only [sinkSkip]
  omega

/-- A beat carries the payload from its own skip up to the next beat's, at the address where that part lies. -/
theorem sinkBeats_succ (k a : Nat) (bs : Bytes) (j n : Nat) :
    ∃ first, a / 64 * 64 + 64 * j + first = a + sinkSkip a j ∧
      sinkBeats k a bs j (n + 1) =
        .sink k (a / 64 * 64 + 64 * j) first ((bs.drop (sinkSkip a j)).take (sinkSkip a (j + 1) - sinkSkip a j)) (n == 0)
          :: sinkBeats k a bs (j + 1) n := by
  by_cases hj : j = 0
  · subst hj
    refine ⟨a % 64, by simp only [sinkSkip]; omega, ?_⟩
    simp [sinkBeats, sinkSkip]
  · refine ⟨0, by simp only [sinkSkip]; omega, ?_⟩
    rw [sinkSkip_succ_sub a hj]
    simp only [sinkBeats, if_neg hj, sinkSkip]

theorem sinkBeats_bases (k a : Nat) (bs : Bytes) (j n : Nat) :
    (sinkBeats k a bs j n).map PxBeat.base = (List.range' j n).map fun i => some (a / 64 * 64 + 64 * i) := by
  induction n generalizing j with
  | zero => rfl
  | succ n ih => rw [List.range'_succ, List.map_cons, ← ih (j + 1)]; rfl

/-- Lines that reach the payload's end enable all that is left of it. -/
theorem sinkBeats_enables (k a : Nat) (bs : Bytes) (j n : Nat) (hend : bs.length ≤ sinkSkip a (j + n)) :
    (sinkBeats k a bs j n).flatMap PxBeat.enables = placed (a + sinkSkip a j) (bs.drop (sinkSkip a j)) := by
  induction n generalizing j with
  | zero =>
    have hnone : bs.drop (sinkSkip a j) = [] := List.drop_eq_nil_of_le hend
    rw [hnone]
    rfl
  | succ n ih =>
    obtain ⟨first, haddr, hbeats⟩ := sinkBeats_succ k a bs j n
    have hrest := ih (j + 1) (by rwa [Nat.add_right_comm])
    rw [hbeats, List.flatMap_cons, PxBeat.enables_sink, haddr, hrest, placed_drop_split a bs (sinkSkip_le_succ a j)]

/-- The lines of `len` bytes at `a`, counted from the line of the first byte to that of the last. -/
theorem sink_line_count (a : Nat) {len : Nat} (hlen : 0 < len) :
    (a % 64 + len + 63) / 64 = (a + len - 1) / 64 - a / 64 + 1 := by
  omega

theorem pxBeats_sink {h bs : Bytes} (k : Nat) (hkind : fld h 0 1 % 4 = 0) (hspace : fld h 8 6 + bs.length ≤ 2 ^ 48) :
    pxBeats k 1 h bs = some (if bs.isEmpty then [] else
      sinkBeats k (fld h 8 6) bs 0 ((fld h 8 6 % 64 + bs.length + 63) / 64)) := by
  simp only [pxBeats, hkind, if_neg (Nat.not_lt.2 hspace)]

/-- Settles O8: the lines run from the first byte's to the last byte's, and each enables the part of the payload that lies in it. -/
theorem sinkFramesBecomeBeats : Obligations.sinkFramesBecomeBeats := by
  unfold Obligations.sinkFramesBecomeBeats
  intro k h bs hkind hspace
  refine ⟨_, pxBeats_sink k hkind hspace, fun hnil => by rw [hnil]; rfl, fun hne => ?_⟩
  rw [if_neg (mt List.isEmpty_iff.1 hne)]
  constructor
  · rw [sinkBeats_bases, sink_line_count _ (List.length_pos_iff.2 hne), List.range_eq_range']
  · have hend : bs.length ≤ sinkSkip (fld h 8 6) (0 + (fld h 8 6 % 64 + bs.length + 63) / 64) := by
      simp only [sinkSkip]
      omega
    have hstart : sinkSkip (fld h 8 6) 0 = 0 := Nat.zero_sub _
    rw [sinkBeats_enables k (fld h 8 6) bs 0 _ hend, hstart]
    rfl

end Sys2Proof.Machine
end

section
/-! What every step keeps (O1, O2, O4, O5): each command keeps the parts of the state it does not write, the canonical form of the memories, and
the clock. The argument for each command is its `keeps` lemma. -/

namespace Sys2Proof.Machine

/-- A command that ends has changed only the parts it may write. -/
theorem exec_keeps {c : Instr} {s t : State} (h : exec c s = .next t) : Keeps (writes c) s t := by
  cases c with
  | descriptorFetch => exact execDescriptorFetch_keeps_eq h
  | ottStallResume => exact execOttStallResume_keeps_eq h
  | copy _ => exact execCopy_keeps_eq h
  | sliceWrite _ => exact execSliceWrite_keeps_eq h
  | sliceRead _ => exact execSliceRead_keeps_eq h
  | stage _ => exact execStage_keeps_eq h
  | seqOpen _ => exact execSeqOpen_keeps_eq h
  | seqFork _ => exact execSeqFork_keeps_eq h
  | seqTruncate _ => exact execSeqTruncate_keeps_eq h
  | seqDiscard _ => exact execSeqDiscard_keeps_eq h
  | chainSearchProbe _ => exact execChainSearchProbe_keeps_eq h
  | chainSearchAttach _ => exact execChainSearchAttach_keeps_eq h
  | maskedSearch _ => exact execMaskedSearch_keeps_eq h
  | purgePrivate _ => exact execPurgePrivate_keeps_eq h
  | inspectSeq _ => exact execInspectSeq_keeps_eq h
  | inspectFrame _ => exact execInspectFrame_keeps_eq h
  | pipInspect _ => exact execPipInspect_keeps_eq h
  | indexQuery _ => exact execIndexQuery_keeps_eq h
  | attendForward _ => exact execAttendForward_keeps_eq h
  | attendBackward _ => exact execAttendBackward_keeps_eq h
  | attendDispatch => exact execAttendDispatch_keeps_eq h
  | saveDiscard _ => exact execSaveDiscard_keeps_eq h
  | saveExpiry _ _ => exact execSaveExpiry_keeps_eq h
  | gather _ => exact execGather_keeps_eq h
  | reduce _ => exact execReduce_keeps_eq h
  | collect _ => exact execCollect_keeps_eq h
  | collectTimeout _ => exact execCollectTimeout_keeps_eq h
  | nop _ => exact execNop_keeps_eq h
  | list _ => exact execList_keeps_eq h
  | sqTailDoorbell _ _ _ _ => exact execSqTailDoorbell_keeps_eq h
  | cjHeadDoorbell _ _ _ _ => exact execCjHeadDoorbell_keeps_eq h
  | queueEnable _ => exact execQueueEnable_keeps_eq h
  | queueDisable _ => exact execQueueDisable_keeps_eq h
  | queueFlush _ => exact execQueueFlush_keeps_eq h
  | queueRegisterWrite _ _ _ => exact execQueueRegisterWrite_keeps_eq h
  | journalFullRecordWrite _ => exact execJournalFullRecordWrite_keeps_eq h
  | moderationTimeTrigger _ => exact execModerationTimeTrigger_keeps_eq h
  | msixUnmask _ _ _ => exact execMsixUnmask_keeps_eq h
  | pcieErrorResponse _ => exact execPcieErrorResponse_keeps_eq h
  | ottHwmRead _ _ => exact execOttHwmRead_keeps_eq h
  | ottReserveWrite _ _ _ => exact execOttReserveWrite_keeps_eq h
  | ottCapWrite _ _ _ => exact execOttCapWrite_keeps_eq h
  | camPlace _ => exact execCamPlace_keeps_eq h
  | mapCacheWaitResume _ => exact execMapCacheWaitResume_keeps_eq h
  | suspendHoldoffExpiry _ => exact execSuspendHoldoffExpiry_keeps_eq h
  | pageReadDone _ _ => exact execPageReadDone_keeps_eq h
  | punnetFlushTimer _ => exact execPunnetFlushTimer_keeps_eq h
  | punnetProgramDone _ _ => exact execPunnetProgramDone_keeps_eq h
  | superblockEraseDone _ _ => exact execSuperblockEraseDone_keeps_eq h
  | retentionRefresh _ _ _ => exact execRetentionRefresh_keeps_eq h
  | rootCheckpoint => exact execRootCheckpoint_keeps_eq h
  | mediaSync _ => exact execMediaSync_keeps_eq h
  | shutdownPrepare _ => exact execShutdownPrepare_keeps_eq h
  | ageTick => exact execAgeTick_keeps_eq h
  | freeCommitStep2 _ _ => exact execFreeCommitStep2_keeps_eq h
  | writebackDelayExpiry _ _ => exact execWritebackDelayExpiry_keeps_eq h
  | writebackComplete _ _ => exact execWritebackComplete_keeps_eq h
  | allocWaitResume _ => exact execAllocWaitResume_keeps_eq h
  | allocWaitTimeout _ => exact execAllocWaitTimeout_keeps_eq h
  | deferredRelease _ _ => exact execDeferredRelease_keeps_eq h
  | referenceRecount => exact execReferenceRecount_keeps_eq h
  | frameRecountDone _ => exact execFrameRecountDone_keeps_eq h
  | camScrub _ _ => exact execCamScrub_keeps_eq h
  | camBankRefill _ => exact execCamBankRefill_keeps_eq h
  | domainPurge _ _ => exact execDomainPurge_keeps_eq h
  | shareDomainWrite _ _ _ _ => exact execShareDomainWrite_keeps_eq h
  | profileBindingWrite _ _ _ _ => exact execProfileBindingWrite_keeps_eq h
  | upprojWrite _ _ _ => exact execUpprojWrite_keeps_eq h
  | projWrite _ _ _ => exact execProjWrite_keeps_eq h
  | indexGeometryWrite _ _ _ _ => exact execIndexGeometryWrite_keeps_eq h
  | planWrite _ _ _ _ => exact execPlanWrite_keeps_eq h
  | markStepBegin _ _ _ => exact execMarkStepBegin_keeps_eq h
  | markStart _ _ _ _ => exact execMarkStart_keeps_eq h
  | pushBegin _ _ => exact execPushBegin_keeps_eq h
  | pushComplete _ _ => exact execPushComplete_keeps_eq h
  | pipComputeDone _ _ _ _ => exact execPipComputeDone_keeps_eq h
  | pipProgramBatchDone _ _ => exact execPipProgramBatchDone_keeps_eq h
  | arrayCalibration _ => exact execArrayCalibration_keeps_eq h
  | arrayReprogramStart _ => exact execArrayReprogramStart_keeps_eq h
  | arrayReprogramDone _ => exact execArrayReprogramDone_keeps_eq h
  | pipRefresh _ _ => exact execPipRefresh_keeps_eq h
  | portServeUnit x dir => exact execPortServeUnit_keeps_eq (x := x) (dir := dir) h
  | waitingUnitEnqueue _ _ _ _ => exact execWaitingUnitEnqueue_keeps_eq h
  | queueSample => exact execQueueSample_keeps_eq h
  | leafStatsRead _ _ _ _ => exact execLeafStatsRead_keeps_eq h
  | leafCfgWrite _ _ _ _ _ => exact execLeafCfgWrite_keeps_eq h
  | nodeCfgWrite _ _ _ _ => exact execNodeCfgWrite_keeps_eq h
  | meterCfgWrite _ _ _ _ => exact execMeterCfgWrite_keeps_eq h
  | derateWrite _ _ _ => exact execDerateWrite_keeps_eq h
  | histReset _ => exact execHistReset_keeps_eq h
  | faultFence _ _ _ _ _ _ => exact execFaultFence_keeps_eq h
  | snapshotRequest _ _ => exact execSnapshotRequest_keeps_eq h
  | jobResume _ _ _ => exact execJobResume_keeps_eq h
  | partitionReset _ _ _ => exact execPartitionReset_keeps_eq h
  | functionLevelReset _ _ => exact execFunctionLevelReset_keeps_eq h
  | partitionDisable _ _ _ => exact execPartitionDisable_keeps_eq h
  | resetGraceExpiry _ _ => exact execResetGraceExpiry_keeps_eq h
  | portReset _ _ => exact execPortReset_keeps_eq h
  | protectionWrite _ _ _ _ => exact execProtectionWrite_keeps_eq h
  | protectionBatch _ _ => exact execProtectionBatch_keeps_eq h
  | frameQuotaWrite _ _ _ => exact execFrameQuotaWrite_keeps_eq h
  | zdpOpen _ _ _ => exact execZdpOpen_keeps_eq h
  | zdpClose _ => exact execZdpClose_keeps_eq h
  | describe _ _ _ => exact execDescribe_keeps_eq h
  | read _ _ _ => exact execRead_keeps_eq h
  | write _ _ _ _ => exact execWrite_keeps_eq h
  | segReadInit _ _ _ => exact execSegReadInit_keeps_eq h
  | segWriteInit _ _ _ _ => exact execSegWriteInit_keeps_eq h
  | segData _ _ _ _ _ => exact execSegData_keeps_eq h
  | segEnd _ _ _ _ => exact execSegEnd_keeps_eq h
  | segAbort _ _ _ => exact execSegAbort_keeps_eq h
  | watch _ _ _ => exact execWatch_keeps_eq h
  | unwatch _ _ _ => exact execUnwatch_keeps_eq h
  | notify _ _ _ => exact execNotify_keeps_eq h
  | notifyAck _ _ => exact execNotifyAck_keeps_eq h
  | segmentTimeout _ => exact execSegmentTimeout_keeps_eq h
  | sessionIdle _ => exact execSessionIdle_keeps_eq h
  | kxlOwnerLinksWrite _ _ _ => exact execKxlOwnerLinksWrite_keeps_eq h
  | canFrameIgnored => exact execCanFrameIgnored_keeps_eq h
  | canBusOff _ => exact execCanBusOff_keeps_eq h
  | powerOnReset _ _ _ => exact execPowerOnReset_keeps_eq h
  | startPhaseComplete _ _ _ => exact execStartPhaseComplete_keeps_eq h
  | startPhaseBudgetExpiry => exact execStartPhaseBudgetExpiry_keeps_eq h
  | startFailRestart => exact execStartFailRestart_keeps_eq h
  | startSettle => exact execStartSettle_keeps_eq h
  | norRetry _ _ => exact execNorRetry_keeps_eq h
  | restart _ _ => exact execRestart_keeps_eq h
  | startFailClear _ _ => exact execStartFailClear_keeps_eq h
  | firmwareUpdate _ _ => exact execFirmwareUpdate_keeps_eq h
  | firmwareActivate _ _ => exact execFirmwareActivate_keeps_eq h
  | defectAdd _ _ => exact execDefectAdd_keeps_eq h
  | factoryToken _ _ => exact execFactoryToken_keeps_eq h
  | forensicRead _ _ _ => exact execForensicRead_keeps_eq h
  | bistCoreTest _ _ _ _ => exact execBistCoreTest_keeps_eq h
  | refEdgesPresent _ => exact execRefEdgesPresent_keeps_eq h
  | refQualifyTimer _ => exact execRefQualifyTimer_keeps_eq h
  | refLoss _ => exact execRefLoss_keeps_eq h
  | refAbsentTimer _ => exact execRefAbsentTimer_keeps_eq h
  | meshPullInDone => exact execMeshPullInDone_keeps_eq h
  | holdover24h => exact execHoldover24h_keeps_eq h
  | refSelect _ _ => exact execRefSelect_keeps_eq h
  | timeSet _ _ => exact execTimeSet_keeps_eq h
  | positionsDecoupled _ => exact execPositionsDecoupled_keeps_eq h
  | clockFault => exact execClockFault_keeps_eq h
  | submit _ => exact execSubmit_keeps_eq h
  | tail _ => exact execTail_keeps_eq h
  | cjHead _ => exact execCjHead_keeps_eq h
  | pull _ => exact execPull_keeps_eq h
  | windowWrite _ => exact execWindowWrite_keeps_eq h
  | windowRead _ => exact execWindowRead_keeps_eq h
  | leaseRead _ => exact execLeaseRead_keeps_eq h
  | reqHeldApply _ => exact execReqHeldApply_keeps_eq h
  | dataResponse _ _ _ _ _ _ _ => exact execDataResponse_keeps_eq h
  | leaseWrite _ _ _ _ _ => exact execLeaseWrite_keeps_eq h
  | sinkFrameReject _ _ _ _ => exact execSinkFrameReject_keeps_eq h
  | credit _ _ => exact execCredit_keeps_eq h
  | creditPeriod _ => exact execCreditPeriod_keeps_eq h
  | ack _ _ => exact execAck_keeps_eq h
  | ackDelayExpiry _ => exact execAckDelayExpiry_keeps_eq h
  | nak _ _ => exact execNak_keeps_eq h
  | frameDiscarded _ _ => exact execFrameDiscarded_keeps_eq h
  | replayTimeout _ => exact execReplayTimeout_keeps_eq h
  | collFrame _ _ _ _ _ _ _ _ _ _ _ => exact execCollFrame_keeps_eq h
  | collSetsWrite _ _ => exact execCollSetsWrite_keeps_eq h
  | offer _ _ => exact execOffer_keeps_eq h
  | lendOfferPeriod => exact execLendOfferPeriod_keeps_eq h
  | request _ _ => exact execRequest_keeps_eq h
  | grant _ _ _ _ _ => exact execGrant_keeps_eq h
  | deny _ _ => exact execDeny_keeps_eq h
  | renew _ _ => exact execRenew_keeps_eq h
  | revoke _ _ _ => exact execRevoke_keeps_eq h
  | released _ _ => exact execReleased_keeps_eq h
  | leaseRenewTimer _ => exact execLeaseRenewTimer_keeps_eq h
  | leaseTermEnd _ => exact execLeaseTermEnd_keeps_eq h
  | leaseNoticeEnd _ _ => exact execLeaseNoticeEnd_keeps_eq h
  | lendEnable _ _ => exact execLendEnable_keeps_eq h
  | lendBytes _ _ => exact execLendBytes_keeps_eq h
  | borrowBytes _ _ => exact execBorrowBytes_keeps_eq h
  | linkEnable _ _ _ => exact execLinkEnable_keeps_eq h
  | equalisationDone _ _ => exact execEqualisationDone_keeps_eq h
  | trainingBlock _ _ _ _ _ _ => exact execTrainingBlock_keeps_eq h
  | trainingAttemptTimeout _ => exact execTrainingAttemptTimeout_keeps_eq h
  | retrainInterval _ => exact execRetrainInterval_keeps_eq h
  | lossOfLock _ => exact execLossOfLock_keeps_eq h
  | pxReset _ => exact execPxReset_keeps_eq h
  | pxRequest _ _ _ _ => exact execPxRequest_keeps_eq h
  | pxMarker _ _ _ _ _ => exact execPxMarker_keeps_eq h
  | pxFrameAccept _ _ _ _ _ => exact execPxFrameAccept_keeps_eq h
  | pxDeliveryBeat => exact execPxDeliveryBeat_keeps_eq h
  | pxLinkEnable _ _ => exact execPxLinkEnable_keeps_eq h
  | pxLinkDisable _ _ => exact execPxLinkDisable_keeps_eq h
  | pxIrqClear _ => exact execPxIrqClear_keeps_eq h
  | pxRegisterWrite _ _ => exact execPxRegisterWrite_keeps_eq h
  | pxLinkDown _ _ => exact execPxLinkDown_keeps_eq h
  | powerFail _ => exact execPowerFail_keeps_eq h
  | powerReturn => exact execPowerReturn_keeps_eq h
  | porstAssert => exact execPorstAssert_keeps_eq h
  | perstRelease _ => exact execPerstRelease_keeps_eq h
  | sensorSample _ => exact execSensorSample_keeps_eq h
  | inputFallsBelow40V => exact execInputFallsBelow40V_keeps_eq h
  | protocolFrame _ => exact execProtocolFrame_keeps_eq h
  | pcieRenegotiation _ _ _ => exact execPcieRenegotiation_keeps_eq h
  | tapController _ => exact execTapController_keeps_eq h
  | operandWindowAccess _ _ _ _ _ => exact execOperandWindowAccess_keeps_eq h
  | equaliseTimeout _ => exact execEqualiseTimeout_keeps_eq h

/-- Settles O1: both sides are the same by the definition of a step. -/
theorem stepRunsTheFrontCommand : Obligations.stepRunsTheFrontCommand := by
  unfold Obligations.stepRunsTheFrontCommand
  intros
  rfl

theorem step_of_pending_nil {s : State} (h : s.pending = []) : step s = .next s.idle := by
  rw [step, h]

theorem step_of_pending_cons {s : State} {c : Instr} {cs : List Instr} (h : s.pending = c :: cs) :
    step s = exec c { s with pending := cs } := by
  rw [step, h]

theorem State.timeTo_add (s : State) (n : Nat) : s.timeTo (s.up + n) = { s with up := s.up + n, now := s.now + BitVec.ofNat 64 n } := by
  rw [State.timeTo, Nat.max_eq_right (Nat.le_add_right ..), Nat.add_sub_cancel_left]

/-- Settles O2: the clock of an idle step moves to 1 ns from now. -/
theorem emptyQueueLetsTimePass : Obligations.emptyQueueLetsTimePass := by
  unfold Obligations.emptyQueueLetsTimePass
  intro s h
  rw [step_of_pending_nil h, State.idle, State.timeTo_add]
  rfl

/-- Settles O4: by the frame of the command at the front of the queue, or of the passing of time. -/
theorem stepsKeepMemoriesCanonical : Obligations.stepsKeepMemoriesCanonical := by
  unfold Obligations.stepsKeepMemoriesCanonical
  intro s t hmem hstep
  cases hp : s.pending with
  | nil =>
    rw [step_of_pending_nil hp] at hstep
    obtain rfl := Host.Outcome.next.inj hstep
    have hidle := State.timeTo_keeps s (s.up + 1)
    exact ⟨hidle.mem hmem, hidle.up⟩
  | cons c cs =>
    rw [step_of_pending_cons hp] at hstep
    have hcmd := exec_keeps hstep
    exact ⟨hcmd.mem hmem, hcmd.up⟩

/-- Settles O5: `writes` lists the parts that each command's `keeps` lemma allows. -/
theorem commandsChangeOnlyTheirParts : Obligations.commandsChangeOnlyTheirParts := by
  unfold Obligations.commandsChangeOnlyTheirParts
  intro c s t h
  exact (exec_keeps h).of

end Sys2Proof.Machine
end

section
/-! What reset leaves (O3). -/

namespace Sys2Proof.Machine

theorem State.memOk_reset : State.reset.MemOk := ⟨rfl, rfl, fun _ h => absurd h List.not_mem_nil⟩

/-- Settles O3: the state after reset is a literal, so each value is read off. -/
theorem resetLeavesItsValues : Obligations.resetLeavesItsValues := by
  unfold Obligations.resetLeavesItsValues
  refine ⟨State.memOk_reset, rfl, rfl, rfl, rfl, rfl, rfl, rfl, rfl, rfl, rfl, rfl, rfl, rfl, rfl, rfl, ?_, rfl, rfl, rfl⟩
  decide

end Sys2Proof.Machine
end

section
/-! The UL1-PX block (O6, O7, O10, O11): its links, its interrupt bits, its registers, and what goes through its FIFOs and its stream. -/

namespace Sys2Proof.Machine

/-! ### Bits of the interrupt registers -/

theorem bit_eq_testBit (v i : Nat) : bit v i = v.testBit i := by
  rw [bit, Nat.testBit_eq_decide_div_mod_eq]
  rfl

theorem bit_add_two_pow {v i : Nat} (h : bit v i = false) : bit (v + 2 ^ i) i = true := by
  rw [bit_eq_testBit] at h ⊢
  rw [Nat.add_comm, Nat.testBit_two_pow_add_eq, h]
  rfl

theorem two_pow_dvd_sum_two_pow {k : Nat} {l : List Nat} (h : ∀ a ∈ l, k ≤ a) : 2 ^ k ∣ (l.map fun a => 2 ^ a).sum := by
  induction l with
  | nil => exact Nat.dvd_zero _
  | cons a l ih =>
    rw [List.map_cons, List.sum_cons]
    exact Nat.dvd_add (Nat.pow_dvd_pow 2 (h a List.mem_cons_self)) (ih fun b hb => h b (List.mem_cons_of_mem a hb))

/-- The bits of a sum of distinct powers of two are its exponents. -/
theorem testBit_sum_two_pow {l : List Nat} (h : l.Pairwise (· < ·)) (b : Nat) :
    (l.map fun a => 2 ^ a).sum.testBit b = decide (b ∈ l) := by
  induction l with
  | nil => rw [List.map_nil, List.sum_nil, Nat.zero_testBit]; rfl
  | cons a l ih =>
    obtain ⟨habove, hl⟩ := List.pairwise_cons.1 h
    obtain ⟨q, hq⟩ := two_pow_dvd_sum_two_pow (k := a + 1) habove
    have hrest := ih hl
    rw [hq, Nat.testBit_two_pow_mul] at hrest
    rw [List.map_cons, List.sum_cons, hq, Nat.add_comm, Nat.testBit_two_pow_mul_add q (Nat.pow_lt_pow_succ (by decide)) b]
    by_cases hb : b < a + 1
    · have hnot : b ∉ l := fun hmem => absurd (habove b hmem) (by omega)
      rw [if_pos hb, Nat.testBit_two_pow, decide_eq_decide]
      simp only [List.mem_cons, hnot, or_false, eq_comm]
    · have hne : b ≠ a := by omega
      rw [if_neg hb]
      simpa only [ge_iff_le, Nat.not_lt.1 hb, decide_true, Bool.true_and, List.mem_cons, hne, false_or] using hrest

theorem bit_irqMask {v b : Nat} {sel : Nat → Bool} (hb : b ∈ irqBits) : bit (irqMask v sel) b = (bit v b && sel b) := by
  have hsorted : irqBits.Pairwise (· < ·) := by decide
  rw [bit_eq_testBit, irqMask, testBit_sum_two_pow (hsorted.filter _), Bool.eq_iff_iff, decide_eq_true_iff, List.mem_filter]
  exact and_iff_right hb

/-! ### Links of the block -/

@[simp] theorem State.pxLink_setPx (s : State) (k : Nat) (l : PxLink) : (s.setPx k l).pxLink k = l := by
  by_cases hk : k = 0 <;> simp [State.setPx, State.pxLink, hk]

theorem State.pxLink_setPx_other {k : Nat} (s : State) (l : PxLink) (hk : k < 2) : (s.setPx k l).pxLink (1 - k) = s.pxLink (1 - k) := by
  obtain rfl | rfl : k = 0 ∨ k = 1 := by omega
  · rfl
  · rfl

@[simp] theorem State.setPx_stream (s : State) (k : Nat) (l : PxLink) : (s.setPx k l).pxb.stream = s.pxb.stream := by
  by_cases hk : k = 0 <;> simp [State.setPx, hk]

@[simp] theorem State.setPx_watches (s : State) (k : Nat) (l : PxLink) : (s.setPx k l).pxb.watches = s.pxb.watches := by
  by_cases hk : k = 0 <;> simp [State.setPx, hk]

@[simp] theorem State.pxIrq_out (s : State) (b : Nat) : (s.pxIrq b).out = s.out := by
  unfold State.pxIrq
  split <;> rfl

@[simp] theorem State.pxLink_pxIrq (s : State) (b k : Nat) : (s.pxIrq b).pxLink k = s.pxLink k := by
  unfold State.pxIrq
  split <;> rfl

@[simp] theorem State.pxIrq_stream (s : State) (b : Nat) : (s.pxIrq b).pxb.stream = s.pxb.stream := by
  unfold State.pxIrq
  split <;> rfl

theorem State.bit_pxIrq (s : State) (b : Nat) : bit (s.pxIrq b).pxb.irqStatus b = true := by
  unfold State.pxIrq
  split
  next h => exact h
  next h => exact bit_add_two_pow (Bool.eq_false_iff.2 h)

/-! ### Registers and reset -/

theorem State.pxOff_eq_false {s : State} {k : Nat} : s.pxOff k = false ↔ s.pxb.low = false ∧ k < 2 := by
  simp only [State.pxOff, Bool.or_eq_false_iff, decide_eq_false_iff_not, gt_iff_lt, Nat.not_lt, Nat.le_iff_lt_add_one]

/-- A register within the group of a link that was built is written in that link. -/
theorem execPxRegisterWrite_link {s : State} {k o : Nat} (v : Nat) (hlow : s.pxb.low = false) (hk : k < 2) (htwo : k = 1 → Config.twoLinks = true)
    (ho : 0 < o) (ho' : o < 0x40) :
    execPxRegisterWrite (0x40 + o + 0x40 * k) v s = .next (s.setPx k ((s.pxLink k).write o v)) := by
  have hgroup : (0x40 + o + 0x40 * k - 0x40) / 0x40 = k := by omega
  have hoff : (0x40 + o + 0x40 * k) % 0x40 = o := by omega
  have hbuilt : ¬ (k = 1 ∧ (!Config.twoLinks) = true) := by
    rintro ⟨h, h'⟩
    simp [htwo h] at h'
  unfold execPxRegisterWrite
  simp only [hlow, Bool.false_eq_true, if_false, hgroup, hoff, if_neg hbuilt]
  rw [if_neg (by omega), if_neg (by omega), if_neg (by omega), if_neg (by omega), if_neg (by omega), if_pos (by omega)]

theorem execPxRegisterWrite_ctrl {s : State} {k : Nat} (v : Nat) (hlow : s.pxb.low = false) (hk : k < 2) :
    execPxRegisterWrite (0x40 + 0x40 * k) v s = .next (s.pxCtrl k v) := by
  unfold execPxRegisterWrite
  obtain rfl | rfl : k = 0 ∨ k = 1 := by omega
  · simp [hlow]
  · simp [hlow]

theorem execPxRegisterWrite_outside {s : State} {off : Nat} (v : Nat) (h : off < 8 ∨ 0x180 ≤ off) : execPxRegisterWrite off v s = .next s := by
  unfold execPxRegisterWrite
  rw [if_neg (by omega : ¬ off = 0x008), if_neg (by omega : ¬ off = 0x00C), if_neg (by omega : ¬ off = 0x010), if_neg (by omega : ¬ off = 0x014),
    if_neg (by omega : ¬ (off = 0x040 ∨ off = 0x080)), if_neg (by omega : ¬ (0x040 < off ∧ off < 0x0C0)),
    if_neg (by omega : ¬ (0x100 ≤ off ∧ off < 0x180 ∧ off % 4 = 0)), ite_self]

theorem PxLink.write_txMax (l : PxLink) (v : Nat) : l.write 0x08 v =
    { l with txMax := if v % 2 ^ 14 % 64 = 0 ∧ 64 ≤ v % 2 ^ 14 ∧ v % 2 ^ 14 ≤ 8192 then v % 2 ^ 14 else l.txMax } := by
  simp only [PxLink.write]
  split <;> rfl

theorem PxLink.write_retrain (l : PxLink) (v : Nat) : l.write 0x0C v =
    { l with retrain := if 100 ≤ v % 2 ^ 16 ∧ v % 2 ^ 16 ≤ 60000 then v % 2 ^ 16 else l.retrain } := by
  simp only [PxLink.write]
  split <;> rfl

/-- Settles O6: each offset by the branch of the register write that it takes, the interrupt bits by `bit_irqMask`. -/
theorem pxRegistersAndReset : Obligations.pxRegistersAndReset := by
  unfold Obligations.pxRegistersAndReset
  refine ⟨fun s => ⟨rfl, rfl⟩, fun s v hlow => ?_, fun s v hlow => ⟨?_, ?_, ?_, fun k hk htwo => ⟨?_, ?_, ?_⟩, fun off h => ?_⟩⟩
  · refine ⟨{ s with pxb := { s.pxb with irqStatus := irqMask s.pxb.irqStatus fun b => !bit v b } }, ?_, ?_, rfl, fun b hb => bit_irqMask hb⟩
    · simp [execPxIrqClear, hlow]
    · simp [execPxRegisterWrite, hlow]
  · simp [execPxRegisterWrite, hlow]
  · simp [execPxRegisterWrite, hlow]
  · simp [execPxRegisterWrite, hlow]
  · exact execPxRegisterWrite_ctrl v hlow hk
  · rw [← PxLink.write_txMax]
    exact execPxRegisterWrite_link (o := 0x08) v hlow hk htwo (by decide) (by decide)
  · rw [← PxLink.write_retrain]
    exact execPxRegisterWrite_link (o := 0x0C) v hlow hk htwo (by decide) (by decide)
  · exact execPxRegisterWrite_outside v h

/-! ### Requests and markers -/

theorem State.pxRejected_one (s : State) (k : Nat) :
    s.pxRejected k 1 = s.setPx k { s.pxLink k with rejected := ((s.pxLink k).rejected + 1) % 2 ^ 32 } := rfl

section
variable {s : State} {kind len beats : Nat} {r : Req}

theorem execPxRequest_joins (hoff : s.pxOff r.link = false) (hkind : 1 ≤ kind ∧ kind ≤ 6) (hlen : len ≤ (s.pxLink r.link).txMax)
    (hbeats : beats = beatsOf len) (hup : (s.pxLink r.link).lk.st = .up) (hroom : fifoBeats (s.pxLink r.link).fifo + beats ≤ 256) :
    execPxRequest kind len beats r s = .next ((s.setPx r.link { s.pxLink r.link with fifo := (s.pxLink r.link).fifo ++
      [{ typ := 2, vl := r.vl, payload := slice r.payload 0 len
         hdr := reqHdr kind r.colour r.part r.queue r.select r.rtag r.value r.first r.count (r.addr % 2 ^ 48) }] }).pxPump r.link) := by
  unfold execPxRequest
  have hgood : ¬ (kind = 0 ∨ 6 < kind ∨ len > (s.pxLink r.link).txMax ∨ beats ≠ beatsOf len ∨ (s.pxLink r.link).lk.st ≠ .up) := by
    rintro (h | h | h | h | h)
    · omega
    · omega
    · omega
    · exact h hbeats
    · exact h hup
  rw [if_neg (by simp [hoff]), if_neg hgood, if_neg (by omega)]

theorem execPxRequest_rejected (hoff : s.pxOff r.link = false)
    (hbad : kind = 0 ∨ 6 < kind ∨ (s.pxLink r.link).txMax < len ∨ beats ≠ beatsOf len ∨ (s.pxLink r.link).lk.st ≠ .up) :
    execPxRequest kind len beats r s = .next ((s.pxRejected r.link 1).pxIrq 4) := by
  unfold execPxRequest
  rw [if_neg (by simp [hoff]), if_pos hbad]

end

/-- Settles O7: a request or marker takes the branch of what is right or wrong with it. -/
theorem pxRequestsAndMarkersJoinTheFifo : Obligations.pxRequestsAndMarkersJoinTheFifo := by
  unfold Obligations.pxRequestsAndMarkersJoinTheFifo
  refine ⟨fun s kind len beats r hoff => ⟨fun hlo hhi hlen hbeats hup hroom => ?_, fun hbad => ?_⟩,
    fun s k event part plan pos hoff => ⟨fun hevent hup hroom => ?_, fun hbad => ?_⟩⟩
  · exact execPxRequest_joins hoff ⟨hlo, hhi⟩ hlen hbeats hup hroom
  · exact execPxRequest_rejected hoff hbad
  · rw [exec_pxMarker, execPxMarker]
    have hgood : ¬ ((event ≠ 1 ∧ event ≠ 2) ∨ (s.pxLink k).lk.st ≠ .up) := by
      rintro (h | h)
      · omega
      · exact h hup
    rw [if_neg (by simp [hoff]), if_neg hgood, if_neg (by omega)]
  · rw [exec_pxMarker, execPxMarker]
    have hbad' : (event ≠ 1 ∧ event ≠ 2) ∨ (s.pxLink k).lk.st ≠ .up := by
      obtain h | h | h := hbad
      · exact .inl (by omega)
      · exact .inl (by omega)
      · exact .inr h
    rw [if_neg (by simp [hoff]), if_pos hbad', State.pxRejected_one]

/-! ### The delivery stream -/

@[simp] theorem State.pxWatch_out (s : State) (b : PxBeat) : (s.pxWatch b).out = s.out := by
  unfold State.pxWatch
  split
  · refine List.foldlRecOn (motive := fun t : State => t.out = s.out) _ _ rfl fun t ht w _ => ?_
    split
    · rw [State.pxIrq_out, ht]
    · exact ht
  · rfl

/-- Settles O10: the front item gives its first beat, and the rest is drained of items without beats. -/
theorem pxBeatsLeaveInOrder : Obligations.pxBeatsLeaveInOrder := by
  unfold Obligations.pxBeatsLeaveInOrder
  intro s i is b bs hstream hbeats
  refine ⟨?_, State.pxWatch_out _ b⟩
  rw [exec_pxDeliveryBeat, execPxDeliveryBeat]
  simp only [hstream, hbeats]

/-! ### LINK_CTRL and link-down -/

theorem bit_odd (v : Nat) : bit (v / 2 * 2 + 1) 0 = true := by
  simp only [bit, beq_iff_eq]
  omega

theorem bit_even (v : Nat) : bit (v / 2 * 2) 0 = false := by
  simp only [bit, beq_eq_false_iff_ne]
  omega

/-- LINK_CTRL of link `k` as written with `v`. -/
def State.pxWritten (s : State) (k v : Nat) : State :=
  s.setPx k { s.pxLink k with enable := bit v 0, rate200 := bit v 1, fallback := bit v 2 }

section
variable {s : State} {k : Nat} (v : Nat)

theorem State.pxCtrl_on (hoff : s.pxOff k = false) (htwo : k = 1 → Config.twoLinks = true) (hv : bit v 0 = true) :
    s.pxCtrl k v = if (s.pxLink k).lk.st = .disabled then (s.pxWritten k v).pxBegin k 1 else s.pxWritten k v := by
  unfold State.pxCtrl
  rw [if_neg (by rintro (h | ⟨h, h'⟩) <;> simp_all), if_pos hv]
  rfl

theorem State.pxCtrl_off (hoff : s.pxOff k = false) (htwo : k = 1 → Config.twoLinks = true) (hv : bit v 0 = false) :
    s.pxCtrl k v = if (s.pxLink k).lk.st = .disabled ∨ (s.pxLink k).lk.st = .down then s.pxWritten k v else (s.pxWritten k v).pxDown k 5 := by
  unfold State.pxCtrl
  rw [if_neg (by rintro (h | ⟨h, h'⟩) <;> simp_all), if_neg (by simp [hv])]
  cases hst : (s.pxLink k).lk.st <;> simp [State.pxWritten]

end

theorem State.pxLink_pxDown (s : State) (k r : Nat) : (s.pxDown k r).pxLink k = { s.pxLink k with
    fifo := [], downs := ((s.pxLink k).downs + 1) % 2 ^ 32, rejected := ((s.pxLink k).rejected + (s.pxLink k).fifo.length) % 2 ^ 32
    lk := { (s.pxLink k).lk with
      st := .down, reason := r, since := s.up, eqLanes := [], replay := [], replaying := false, nakAt := none, ackDue := none, acked := 0 } } := by
  unfold State.pxDown
  rw [State.pxLink_pxIrq]
  exact State.pxLink_setPx s k _

theorem State.pxLink_pxDown_other {k : Nat} (s : State) (r : Nat) (hk : k < 2) : (s.pxDown k r).pxLink (1 - k) = s.pxLink (1 - k) := by
  unfold State.pxDown
  rw [State.pxLink_pxIrq]
  exact State.pxLink_setPx_other s _ hk

theorem State.pxDown_beats (s : State) (k r : Nat) : (s.pxDown k r).pxb.stream.map (·.beats) = s.pxb.stream.map (·.beats) := by
  unfold State.pxDown
  rw [State.pxIrq_stream]
  simp only [List.map_map, State.setPx_stream]
  refine List.map_congr_left fun i _ => ?_
  simp only [Function.comp]
  split <;> rfl

/-- Settles O11: LINK_CTRL by the state of the link it finds, a link-down by what `pxDown` stores. -/
theorem pxLinksAreControlled : Obligations.pxLinksAreControlled := by
  unfold Obligations.pxLinksAreControlled
  refine ⟨fun s k v hoff htwo => ?_, fun s k r hk => ?_⟩
  · have hon := State.pxCtrl_on (v / 2 * 2 + 1) hoff htwo (bit_odd v)
    have hoff' := State.pxCtrl_off (v / 2 * 2) hoff htwo (bit_even v)
    rw [State.pxWritten, bit_odd] at hon
    rw [State.pxWritten, bit_even] at hoff'
    intro on off
    simp only [exec_pxLinkEnable, execPxLinkEnable, exec_pxLinkDisable, execPxLinkDisable, hon, hoff']
    refine ⟨fun hst => ?_, fun hst => ?_, fun r hup hlo hhi => ?_⟩
    · simp only [hst, true_or, if_true]
      exact ⟨rfl, rfl⟩
    · have hnd : (s.pxLink k).lk.st ≠ .disabled ∧ (s.pxLink k).lk.st ≠ .down := by
        obtain h | h | h := hst <;> rw [h] <;> decide
      rw [if_neg hnd.1, if_neg (not_or.2 hnd)]
      exact ⟨rfl, rfl⟩
    · have hcut : ¬ (s.pxOff k = true ∨ (s.pxLink k).lk.st ≠ .up ∨ r = 0 ∨ 6 < r) := by
        simp only [hoff, hup, ne_eq, not_true, Bool.false_eq_true, false_or]
        omega
      rw [exec_pxLinkDown, execPxLinkDown, if_neg hcut]
  · rw [State.pxLink_pxDown]
    exact ⟨rfl, rfl, rfl, rfl, rfl, rfl, State.bit_pxIrq _ _, State.pxDown_beats s k r, State.pxLink_pxDown_other s r hk⟩

end Sys2Proof.Machine
end

section
/-! Credits, acknowledgements, replays, training and lending timers at both ends of a Kwaxel link (O12-O17). -/

namespace Sys2Proof.Machine

/-! ### A link of the module -/

theorem State.setLink_setLink (s : State) (n : Nat) (a b : Link) : (s.setLink n a).setLink n b = s.setLink n b := by
  simp only [State.setLink, mset_mset]

theorem State.setLink_lk (s : State) (n : Nat) (l : Link) : (s.setLink n l).lk = { s.lk with links := (s.setLink n l).lk.links } := rfl

theorem State.link_sendAck (s : State) (n : Nat) : (s.sendAck n).link n = { s.link n with acked := 0, ackDue := none } :=
  State.link_setLink _ n _

theorem State.sendAck_out (s : State) (n : Nat) :
    (s.sendAck n).out = s.out ++ [Out.control n 4 (leBytes 4 (((s.link n).expected + 2 ^ 24 - 1) % 2 ^ 24))] := rfl

theorem State.sendAck_lk (s : State) (n : Nat) :
    (s.sendAck n).lk = { s.lk with links := mset s.lk.links n { s.link n with acked := 0, ackDue := none } } := rfl

/-! ### Credits and acknowledgements (R499, R504, Table 16.6) -/

theorem mget_limitMap {v : Nat} (ls : List Nat) (hv : v < 8) : mget (limitMap ls) v 0 = ls.getD v 0 % 65536 := by
  match v, hv with
  | 0, _ | 1, _ | 2, _ | 3, _ | 4, _ | 5, _ | 6, _ | 7, _ => rfl

theorem ackedBy_eq {r : List TxFrame} {f : Nat} : ackedBy r f = (r.findIdx? fun t => t.fseq == f).map (· + 1) := rfl

/-- Settles O12: each command by the branch of its end of the link. -/
theorem creditsAndAcksMove : Obligations.creditsAndAcksMove := by
  unfold Obligations.creditsAndAcksMove
  refine ⟨fun s ls => ⟨fun n hup => ⟨?_, ?_⟩, fun k hoff hup => ⟨?_, ?_⟩, fun v => mget_limitMap ls⟩,
    fun s f => ⟨fun n i hi => ?_, fun n hi => ?_, fun k i hoff hi => ?_, fun n t ht => ?_, fun k t hoff ht => ?_⟩⟩
  · simp only [exec_credit, execCredit, hup, if_true]
  · simp only [exec_creditPeriod, execCreditPeriod, hup, if_true]
    rfl
  · simp [execCredit, hoff, hup]
  · simp [execCreditPeriod, hoff, hup, State.pxCredit]
  · simp only [exec_ack, execAck, ackedBy_eq, hi, Option.map_some]
  · simp only [exec_ack, execAck, ackedBy_eq, hi, Option.map_none]
  · simp [execAck, ackedBy_eq, hi, hoff, State.pxRelease]
  · simp only [exec_ackDelayExpiry, execAckDelayExpiry, ht, State.sendAck, State.link_timeTo, State.timeTo_out]
  · simp only [exec_ackDelayExpiry, execAckDelayExpiry, ht, hoff, Bool.false_eq_true, if_false, State.pxAck]
    rfl

/-! ### Replays (R505) -/

/-- A frame that is no duplicate is answered with a NAK where one may be sent; a cause that is not CRC or codeword counts nothing. -/
theorem execFrameDiscarded_resent {s : State} {n cause : Nat} (hup : (s.link n).st = .up) (hmay : (s.link n).mayNak s.up = true)
    (hcause : cause ≠ 3) :
    execFrameDiscarded (.module n) cause s = .next (((if cause = 0 then s.linkCount n 7 else if cause = 1 then s.linkCount n 6 else s).setLink n
      { s.link n with spoiled := (s.link n).spoiled || cause ≤ 1 }).sendNak n) := by
  have hclock : (if cause = 0 then s.linkCount n 7 else if cause = 1 then s.linkCount n 6 else s).up = s.up := by
    split
    · rfl
    · split <;> rfl
  simp only [execFrameDiscarded]
  rw [if_neg (not_not_intro hup), if_neg hcause, State.setLink_up, hclock, if_pos hmay]

/-- Settles O13: a NAK, a replay timeout and a bad frame by the branch of the link's end, its state and the cause. -/
theorem framesAreResentAtBothEnds : Obligations.framesAreResentAtBothEnds := by
  unfold Obligations.framesAreResentAtBothEnds
  refine ⟨fun s n f hup => ⟨fun i hi => ?_, fun hi => ?_, fun t ts hr => ?_, ?_, fun hmay => ⟨?_, ?_, ?_⟩⟩,
    fun s k f hoff hup => ⟨fun i hi => ?_, fun t ts hr => ?_, ?_, fun hmay => ?_⟩⟩
  · simp [execNak, hup, link_linkCount, hi]
  · simp [execNak, hup, link_linkCount, hi]
  · simp only [exec_replayTimeout, execReplayTimeout, hr]
  · simp [execFrameDiscarded, hup]
  · rw [exec_frameDiscarded, execFrameDiscarded_resent hup hmay (by decide)]
    simp
  · rw [exec_frameDiscarded, execFrameDiscarded_resent hup hmay (by decide)]
    simp
  · rw [exec_frameDiscarded, execFrameDiscarded_resent hup hmay (by decide)]
    simp
  · simp [execNak, hoff, hup, hi]
  · simp [execReplayTimeout, hoff, hr]
  · simp [execFrameDiscarded, hoff, hup]
  · simp [execFrameDiscarded, hoff, hup, hmay]

theorem State.replayAll_within {s : State} {n : Nat} (h : (s.link n).replayCount < 8) :
    s.replayAll n = ({ s with out := s.out ++ (s.link n).replay.map fun (t : TxFrame) => Out.frame n t.fseq t.f }.setLink n { s.link n with
      replayCount := (s.link n).replayCount + 1, replaying := false
      replay := (s.link n).replay.map fun (t : TxFrame) => { t with sentAt := s.up } }).linkCount n 0x0A (s.link n).replay.length := by
  rw [State.replayAll, if_neg (by omega)]

/-- Settles O14: within the limit a replay stores the frames it sends again, each with a new time alone. -/
theorem replaysSendEveryFrameAgain : Obligations.replaysSendEveryFrameAgain := by
  unfold Obligations.replaysSendEveryFrameAgain
  refine fun s n => ⟨fun hwithin => ?_, fun hbeyond => ?_⟩
  · rw [State.replayAll_within hwithin, link_linkCount, State.link_setLink]
    refine ⟨rfl, rfl, ?_, rfl⟩
    rw [List.map_map]
    rfl
  · rw [State.replayAll, if_pos (by omega)]

/-! ### Training (Table 16.18) -/

/-- Settles O15: each event of training by the state of the link that it meets. -/
theorem linksTrainAndGoDown : Obligations.linksTrainAndGoDown := by
  unfold Obligations.linksTrainAndGoDown
  refine ⟨fun s lanes => ⟨fun n hst hpair => ?_, fun n hst hpair => ?_, fun n role l rates id rate mask ls hst hrate => ?_,
      fun n role l rates id ls hst => ?_, fun k l rates id rate mask ls hoff hst hrate => ?_⟩,
    fun s => ⟨fun n hst => ?_, fun n hst => ?_, fun n hst hen => ?_, fun k hoff hst hen => ?_⟩,
    fun s => ⟨fun n hup => ⟨?_, ?_⟩, fun k hoff hup => ⟨?_, ?_⟩⟩⟩
  · simp [execEqualisationDone, State.equalised, hst, hpair, State.setLink_setLink]
  · simp [execEqualisationDone, State.equalised, hst, hpair]
  · simp [execTrainingBlock, hst, hrate]
  · simp [execTrainingBlock, hst]
  · simp [execTrainingBlock, hoff, hst, hrate]
  · simp [execEqualiseTimeout, State.trainSince, hst, State.takeFree]
  · simp [execTrainingAttemptTimeout, State.trainSince, hst]
  · simp [execRetrainInterval, hst, hen]
  · simp [execRetrainInterval, hoff, hst, hen]
  · simp [execLossOfLock, State.cutLink, hup]
  · simp [execProtocolFrame, State.cutLink, hup]
  · simp [execLossOfLock, State.cutLink, hoff, hup]
  · simp [execProtocolFrame, State.cutLink, hoff, hup]

/-! ### The timers of lending (R511, R512, Table 16.12) -/

/-- Which links lead to a partner is seen from the links alone. -/
theorem State.linksTo_congr {s t : State} {p : Nat} (h : t.lk.links = s.lk.links) : t.linksTo p = s.linksTo p := by
  rw [State.linksTo, State.linksTo, h]

/-- Settles O16: each timer by the lease it finds and the links to its partner. -/
theorem lendingTimersRun : Obligations.lendingTimersRun := by
  unfold Obligations.lendingTimersRun
  refine fun s => ⟨rfl, fun k e he => ⟨fun hrev hasked x xs hlinks => ?_, fun hrev => ?_, fun hrev hlinks => ?_, fun hrev x xs hlinks => ?_⟩,
    fun k e he => ?_⟩
  · simp only [exec_leaseRenewTimer, execLeaseRenewTimer, he, hrev, hasked, Bool.false_eq_true, or_self, if_false]
    have hto : ∀ t : State, t.lk.links = s.lk.links → t.linksTo e.partner = x :: xs := fun t h => (State.linksTo_congr h).trans hlinks
    rw [hto] <;> rfl
  · simp [execLeaseTermEnd, he, hrev]
  · simp [execLeaseNoticeEnd, he, hrev, State.linksTo_congr (s := s) (t := s.timeTo e.noticeEnd) rfl, hlinks]
  · simp [execLeaseNoticeEnd, he, hrev, State.linksTo_congr (s := s) (t := s.timeTo e.noticeEnd) rfl, hlinks]
  · simp [execLeaseNoticeEnd, he]

/-! ### Acceptance of a frame (R504, R498) -/

/-- The link after an accepted frame, before any ACK of it. -/
def Link.accepts (l : Link) (vl len up : Nat) : Link :=
  { l with
    expected := (l.expected + 1) % 2 ^ 24
    rxUsed := mset l.rxUsed vl ((mget l.rxUsed vl 0 + (len + 255) / 256) % 65536)
    nakAt := none, spoiled := false, acked := l.acked + 1, ackDue := some (l.ackDue.getD (up + 500)) }

theorem Link.accepts_expected (l : Link) (vl len up : Nat) : (l.accepts vl len up).expected = (l.expected + 1) % 2 ^ 24 := rfl

/-- What acceptance leaves before any ACK: `w` differs from `s` in the link and the counters alone. -/
structure State.Counted (s : State) (n vl len : Nat) (w : State) : Prop where
  link : w.link n = (s.link n).accepts vl len s.up
  lk : ∃ ls, w.lk = { s.lk with links := ls }
  out : w.out = s.out
  mem : w.mem = s.mem
  q : w.q = s.q

theorem State.accept_eq_some {s u : State} {n vl len : Nat} (h : s.accept n vl len = some u) :
    (s.link n).st = .up ∧ ∃ w, s.Counted n vl len w ∧ u = if (s.link n).acked + 1 ≥ 32 then w.sendAck n else w := by
  simp only [State.accept] at h
  split at h
  next => exact absurd h (by simp)
  next hup =>
    refine ⟨Decidable.of_not_not hup, _, ?_, (Option.some.inj h).symm⟩
    split
    · exact ⟨by simp [link_linkCount, Link.accepts], ⟨_, State.setLink_lk s n _⟩, by simp, by simp, by simp⟩
    · exact ⟨by simp [link_linkCount, Link.accepts], ⟨_, State.setLink_lk s n _⟩, by simp, by simp, by simp⟩

theorem expected_before_next (e : Nat) : ((e + 1) % 2 ^ 24 + 2 ^ 24 - 1) % 2 ^ 24 = e % 2 ^ 24 := by
  omega

/-- Settles O17: the 32nd frame since the last ACK sends one, which changes the link's count of them alone. -/
theorem acceptedFramesAreCounted : Obligations.acceptedFramesAreCounted := by
  unfold Obligations.acceptedFramesAreCounted
  intro s u n vl len haccept
  obtain ⟨hup, w, hw, rfl⟩ := State.accept_eq_some haccept
  obtain ⟨ls, hlinks⟩ := hw.lk
  by_cases hacked : (s.link n).acked + 1 ≥ 32
  · rw [if_pos hacked, State.link_sendAck, State.sendAck_out, hw.link, hw.out]
    refine ⟨hup, hup, rfl, mget_mset .., rfl, rfl, rfl, fun h => by omega, fun _ => ?_, hw.mem, hw.q, ?_⟩
    · rw [Link.accepts_expected, expected_before_next]
    · rw [State.sendAck_lk, hlinks]
  · rw [if_neg hacked, hw.link]
    exact ⟨hup, hup, rfl, mget_mset .., rfl, rfl, rfl, fun _ => hw.out, fun h => by omega, hw.mem, hw.q, by rw [hlinks]⟩

end Sys2Proof.Machine
end

section
/-! Frames that arrive on a module link (O18-O22): what a frame does once its link takes it, and what is held back. -/

namespace Sys2Proof.Machine

/-! ### What acceptance of a frame leaves as it was -/

section
variable {s : State} {n vl len : Nat} {i : Instr}

theorem State.takesFrame.same (h : s.takesFrame n vl len i) {f : Fld} (hf : f ∉ [Fld.out, Fld.ctr, Fld.lk]) : f.same s (s.accepted n vl len) :=
  (accepted_keeps s n vl len h.1).of f hf

theorem State.takesFrame.q (h : s.takesFrame n vl len i) : (s.accepted n vl len).q = s.q := h.same (f := .q) (by decide)
theorem State.takesFrame.part (h : s.takesFrame n vl len i) : (s.accepted n vl len).part = s.part := h.same (f := .part) (by decide)
theorem State.takesFrame.mem (h : s.takesFrame n vl len i) : (s.accepted n vl len).mem = s.mem := h.same (f := .mem) (by decide)
theorem State.takesFrame.cfg (h : s.takesFrame n vl len i) : (s.accepted n vl len).cfg = s.cfg := h.same (f := .cfg) (by decide)
theorem State.takesFrame.blob (h : s.takesFrame n vl len i) : (s.accepted n vl len).blob = s.blob := h.same (f := .blob) (by decide)
theorem State.takesFrame.tier (h : s.takesFrame n vl len i) : (s.accepted n vl len).tier = s.tier := h.same (f := .tier) (by decide)
theorem State.takesFrame.boot (h : s.takesFrame n vl len i) : (s.accepted n vl len).boot = s.boot := h.same (f := .boot) (by decide)
theorem State.takesFrame.up (h : s.takesFrame n vl len i) : (s.accepted n vl len).up = s.up := h.same (f := .up) (by decide)

theorem State.takesFrame.lk (h : s.takesFrame n vl len i) : (s.accepted n vl len).lk = { s.lk with links := (s.accepted n vl len).lk.links } :=
  accepted_lk s n vl len h.1

end

/-! ### Views of the state depend on few of its parts -/

section
variable {s t : State}

theorem State.queue_congr (hq : t.q = s.q) (k : Nat) : t.queue k = s.queue k := by
  rw [State.queue, State.queue, hq]

theorem State.op_congr (hq : t.q = s.q) (k : Nat) : t.op? k = s.op? k := by
  rw [State.op?, State.op?, hq]

theorem State.obj_congr (hcfg : t.cfg = s.cfg) (ix sub d : Nat) : t.obj ix sub d = s.obj ix sub d := by
  rw [State.obj, State.obj, hcfg]

theorem State.blobOf_congr (hblob : t.blob = s.blob) (ix sub : Nat) : t.blobOf ix sub = s.blobOf ix sub := by
  rw [State.blobOf, State.blobOf, hblob]

theorem State.window_congr (hmem : t.mem = s.mem) (p : Nat) : t.window p = s.window p := by
  rw [State.window, State.window, hmem]

theorem State.windowBytes_congr (hcfg : t.cfg = s.cfg) (p : Nat) : t.windowBytes p = s.windowBytes p :=
  State.obj_congr hcfg ..

theorem State.planObj_congr (hblob : t.blob = s.blob) (p n : Nat) : t.planObj p n = s.planObj p n :=
  State.blobOf_congr hblob ..

theorem State.plan_congr (htier : t.tier = s.tier) (p n : Nat) : t.plan p n = s.plan p n := by
  rw [State.plan, State.plan, htier]

theorem State.livePlan_congr (hblob : t.blob = s.blob) (htier : t.tier = s.tier) (p n : Nat) : t.livePlan p n = s.livePlan p n := by
  rw [State.livePlan, State.livePlan, State.planObj_congr hblob, State.plan_congr htier]

theorem State.suppressed_congr (hpart : t.part = s.part) (p : Nat) : t.suppressed p = s.suppressed p := by
  rw [State.suppressed, State.suppressed, hpart]

theorem State.reqQueue_congr (hq : t.q = s.q) (hpart : t.part = s.part) (r : Req) : t.reqQueue r = s.reqQueue r := by
  simp only [State.reqQueue, State.queue_congr hq, hpart]

theorem State.ottKind_congr (hq : t.q = s.q) (hcfg : t.cfg = s.cfg) (hboot : t.boot = s.boot) (p c : Nat) : t.ottKind p c = s.ottKind p c := by
  simp only [State.ottKind, State.ottCount, State.ottCap, State.ottPool, State.ottReserve, State.partCount, State.obj_congr hcfg, hq, hboot]
  rfl

end

/-! ### OTT entries (R276, R277) -/

theorem mfree_none {α : Type} {m : Map α} {lo n : Nat} (h : mfree m lo n = none) {k : Nat} (hlo : lo ≤ k)
    (hhi : k < lo + n) : mhas m k = true := by
  induction n generalizing lo with
  | zero => omega
  | succ n ih =>
    rw [mfree] at h
    split at h
    next hlisted =>
      obtain rfl | hlt := Nat.eq_or_lt_of_le hlo
      · exact hlisted
      · exact ih h hlt (by omega)
    next => cases h

section
variable {s : State} {o : Op}

/-- The entry that an operation takes was free, and holds the operation under the protection generation in force. -/
theorem State.takeEntry_eq_some {t : Nat} {w : State} (h : s.takeEntry o = some (t, w)) :
    ∃ k, s.ottKind o.part o.cls = some k ∧ s.op? t = none ∧
      w.op? t = some { o with kind := k, gen := s.part.gen, fetchNo := s.q.fetchNo } := by
  unfold State.takeEntry at h
  split at h
  next => cases h
  next k hkind =>
    dsimp only [State.takeFree] at h
    split at h
    next => cases h
    next n hfree =>
      obtain ⟨rfl, rfl⟩ := Prod.mk.inj (Option.some.inj h)
      refine ⟨k, hkind, ?_, ?_⟩
      · cases hhigh : mfree s.q.ott (Config.tagHint s.free % 131072) (131072 - Config.tagHint s.free % 131072) with
        | some m =>
          rw [hhigh] at hfree
          exact Option.some.inj hfree ▸ mget?_of_mfree _ _ _ _ hhigh
        | none =>
          rw [hhigh] at hfree
          exact mget?_of_mfree _ _ _ _ hfree
      · split
        · exact mget?_mset ..
        · split
          · exact mget?_mset ..
          · exact mget?_mset ..

/-- An operation whose partition and class may take an entry takes one while any is free. -/
theorem State.exists_takeEntry {t : Nat} (hkind : (s.ottKind o.part o.cls).isSome = true) (ht : t < 131072) (hfree : s.op? t = none) :
    ∃ (n : Nat) (w : State), s.takeEntry o = some (n, w) := by
  obtain ⟨k, hkind⟩ := Option.isSome_iff_exists.1 hkind
  have hfound : ((mfree s.q.ott (Config.tagHint s.free % 131072) (131072 - Config.tagHint s.free % 131072)).orElse fun _ =>
      mfree s.q.ott 0 (Config.tagHint s.free % 131072)).isSome = true := by
    rw [← Option.ne_none_iff_isSome]
    intro hnone
    have hhigh : mfree s.q.ott (Config.tagHint s.free % 131072) (131072 - Config.tagHint s.free % 131072) = none := by
      cases hhigh : mfree s.q.ott (Config.tagHint s.free % 131072) (131072 - Config.tagHint s.free % 131072) with
      | some m =>
        rw [hhigh] at hnone
        cases hnone
      | none => rfl
    have hlow : mfree s.q.ott 0 (Config.tagHint s.free % 131072) = none := by
      rw [hhigh] at hnone
      exact hnone
    have hlisted : mhas s.q.ott t = true := by
      by_cases hlt : t < Config.tagHint s.free % 131072
      · exact mfree_none hlow (Nat.zero_le _) (by omega)
      · exact mfree_none hhigh (by omega) (by omega)
    rw [mhas, show mget? s.q.ott t = none from hfree] at hlisted
    cases hlisted
  obtain ⟨n, hn⟩ := Option.isSome_iff_exists.1 hfound
  simp only [State.takeEntry, hkind, State.takeFree, hn]
  exact ⟨_, _, rfl⟩

end

/-! ### The queue requests of a link-bound queue (R265, R266, R507) -/

/-- The descriptors of a SUBMIT of `k` stand in the ring of its queue, here `v`, from the tail on. -/
def State.putDescriptors (s : State) (r : Req) (v : Queue) (k : Nat) : State :=
  (List.range k).foldl (fun (w : State) (i : Nat) =>
    w.windowWrite r.part (offOf v.sqBase.toNat + 64 * ((v.tail + i) % 2 ^ v.sqLog2)) (slice r.payload (64 * i) 64)) s

/-- Ring entries that a queue has free. -/
def Queue.room (v : Queue) : Nat := 2 ^ v.sqLog2 - 1 - (v.tail + 2 ^ v.sqLog2 - v.sqHead) % 2 ^ v.sqLog2

theorem State.putDescriptors_lk (s : State) (r : Req) (v : Queue) (k : Nat) : (s.putDescriptors r v k).lk = s.lk :=
  List.foldlRecOn (motive := fun t : State => t.lk = s.lk) _ _ rfl fun _ ht _ _ => ht

section
variable {s : State} {r : Req} {v : Queue}

theorem State.onSubmit_good {k : Nat} (hreq : s.reqQueue r = true) (hv : s.queue (64 * r.part + r.queue) = v)
    (hlen : r.payload.length = 64 * k) (hk : 1 ≤ k) (hk' : k ≤ 128) :
    s.onSubmit r = if v.ottStall = true ∨ v.room < k then none
      else some (.next ((s.putDescriptors r v k).setTail (64 * r.part + r.queue) ((v.tail + k) % 2 ^ v.sqLog2))) := by
  have hcount : r.payload.length / 64 = k := by omega
  unfold State.onSubmit
  simp only [hcount, hv]
  rw [if_neg (by simp only [hreq, Bool.not_true, Bool.false_eq_true, false_or]; omega)]
  rfl

theorem State.onSubmit_fits {k : Nat} (hreq : s.reqQueue r = true) (hv : s.queue (64 * r.part + r.queue) = v)
    (hlen : r.payload.length = 64 * k) (hk : 1 ≤ k) (hk' : k ≤ 128) (hstall : v.ottStall = false) (hroom : k ≤ v.room) :
    s.onSubmit r = some (.next ((s.putDescriptors r v k).setTail (64 * r.part + r.queue) ((v.tail + k) % 2 ^ v.sqLog2))) := by
  rw [State.onSubmit_good hreq hv hlen hk hk', if_neg]
  simp only [hstall, Bool.false_eq_true, false_or]
  omega

theorem State.onTail_good (hreq : s.reqQueue r = true) (hv : s.queue (64 * r.part + r.queue) = v) (hvalue : r.value < 2 ^ v.sqLog2) :
    s.onTail r = s.setQueue (64 * r.part + r.queue) { v with tail := r.value } := by
  subst hv
  rw [State.onTail, if_neg (by simp only [hreq, Bool.not_true, Bool.false_eq_true, false_or]; omega), State.setTail]

theorem State.setCjHead_within {q i : Nat} (hv : s.queue q = v)
    (h : (i + 2 ^ v.cjLog2 - v.cjHead) % 2 ^ v.cjLog2 ≤ (v.cjTail + 2 ^ v.cjLog2 - v.cjHead) % 2 ^ v.cjLog2) :
    s.setCjHead q i = .next (s.setQueue q { v with cjHead := i }) := by
  subst hv
  rw [State.setCjHead, if_neg (by omega)]

theorem State.onCjHead_good (hreq : s.reqQueue r = true) (hv : s.queue (64 * r.part + r.queue) = v) (hvalue : r.value < 2 ^ v.cjLog2) :
    s.onCjHead r = s.setCjHead (64 * r.part + r.queue) r.value := by
  subst hv
  rw [State.onCjHead, if_neg (by simp only [hreq, Bool.not_true, Bool.false_eq_true, false_or]; omega)]

end

/-- Settles O18: acceptance leaves the queue as it was, so the frame finds the queue of `s`. -/
theorem queueFramesAreAppliedOrHeld : Obligations.queueFramesAreAppliedOrHeld := by
  unfold Obligations.queueFramesAreAppliedOrHeld
  intro s r hreq len u q v
  have hqueue : ∀ {i}, s.takesFrame r.link r.vl len i → u.queue q = v := fun h => State.queue_congr h.q q
  have hreq' : ∀ {i}, s.takesFrame r.link r.vl len i → u.reqQueue r = true := fun h => (State.reqQueue_congr h.q h.part r).trans hreq
  refine ⟨fun k htakes hlen hk hk' hstall hroom => ?_, fun htakes hvalue => ?_, fun htakes hvalue hhead => ?_,
    fun k htakes hlen hk hk' hfull => ?_⟩
  · exact frameIn_takes s r.link (.submit r) htakes _ (State.onSubmit_fits (hreq' htakes) (hqueue htakes) hlen hk hk' hstall hroom)
  · refine frameIn_takes s r.link (.tail r) htakes _ ?_
    exact congrArg (fun t : State => some (.next t : Res)) (State.onTail_good (hreq' htakes) (hqueue htakes) hvalue)
  · refine frameIn_takes s r.link (.cjHead r) htakes _ ?_
    exact congrArg some ((State.onCjHead_good (hreq' htakes) (hqueue htakes) hvalue).trans (State.setCjHead_within (hqueue htakes) hhead))
  · have hwait : u.applyFrame (.submit r) = none :=
      (State.onSubmit_good (hreq' htakes) (hqueue htakes) hlen hk hk').trans (if_pos hfull)
    have hheld := frameIn_holds s r.link (.submit r) htakes hwait
    rw [State.hold, accepted_held s r.link _ _ htakes.1] at hheld
    exact hheld

/-! ### Held frames (R502) -/

section
variable {s : State} {n : Nat}

theorem State.applyHeld_none {vl k : Nat} (h : ((s.link n).held.find? fun i => (heldFrame i).1 == vl) = none) : s.applyHeld n vl k = .next s := by
  cases k with
  | zero => rfl
  | succ k => simp only [State.applyHeld, h]

theorem State.applyVls_empty {vs : List Nat} (h : (s.link n).held = []) : s.applyVls n vs = .next s := by
  induction vs with
  | nil => rfl
  | cons v vs ih => simp only [State.applyVls, State.applyHeld_none (vl := v) (by rw [h]; rfl), ih]

variable {i : Instr} {vs : List Nat}

theorem State.find_held_other {v : Nat} (h : (s.link n).held = [i]) (hv : (heldFrame i).1 ≠ v) :
    ((s.link n).held.find? fun i => (heldFrame i).1 == v) = none := by
  simp [h, hv]

theorem State.applyVls_waits (h : (s.link n).held = [i]) (hwait : s.applyFrame i = none) : s.applyVls n vs = .next s := by
  induction vs with
  | nil => rfl
  | cons v vs ih =>
    have hstay : s.applyHeld n v (s.link n).held.length = .next s := by
      by_cases hv : (heldFrame i).1 = v
      · simp [h, State.applyHeld, hv, hwait]
      · exact State.applyHeld_none (State.find_held_other h hv)
    simp only [State.applyVls, hstay, ih]

theorem State.link_sendCredit (s : State) (n k : Nat) : (s.sendCredit n).link k = s.link k := rfl

theorem State.givesBack_held (t : State) (n vl len : Nat) : ((t.givesBack n vl len).link n).held = (t.link n).held := by
  unfold State.givesBack
  split
  · rw [State.returnCredits, State.link_sendCredit, State.link_setLink]
  · rfl

/-- The one held frame is applied at the turn of its VL, and the other VLs find nothing. -/
theorem State.applyVls_one {t : State} (h : (s.link n).held = [i]) (hvl : (heldFrame i).1 ∈ vs) (happly : s.applyFrame i = some (.next t))
    (hheld : (t.link n).held = [i]) :
    s.applyVls n vs = .next ((t.setLink n { t.link n with held := [] }).givesBack n (heldFrame i).1 (heldFrame i).2.1) := by
  induction vs with
  | nil => cases hvl
  | cons v vs ih =>
    by_cases hv : (heldFrame i).1 = v
    · have hturn : s.applyHeld n v (s.link n).held.length =
          .next ((t.setLink n { t.link n with held := [] }).givesBack n (heldFrame i).1 (heldFrame i).2.1) := by
        simp [h, State.applyHeld, hv, happly, hheld, State.givesBack]
      simp only [State.applyVls, hturn]
      exact State.applyVls_empty (by rw [State.givesBack_held, State.link_setLink])
    · have hstay : s.applyHeld n v (s.link n).held.length = .next s := State.applyHeld_none (State.find_held_other h hv)
      simp only [State.applyVls, hstay]
      exact ih ((List.mem_cons.1 hvl).resolve_left hv)

end

theorem mem_vls {v : Nat} (h : v < 8) : v ∈ [0, 1, 2, 3, 4, 5, 6, 7] :=
  List.mem_range.2 h

/-- Settles O22: over the eight VLs, of which one holds the frame. -/
theorem heldFramesAreApplied : Obligations.heldFramesAreApplied := by
  unfold Obligations.heldFramesAreApplied
  refine ⟨fun s n i hheld hvl => ⟨fun t happly ht => State.applyVls_one hheld (mem_vls hvl) happly ht,
    fun hwait => State.applyVls_waits hheld hwait⟩, ?_⟩
  intro s n k r hheld hvl hreq q v hlen hk hk' hstall hroom t
  have happly : s.applyFrame (.submit r) = some (.next t) := State.onSubmit_fits hreq rfl hlen hk hk' hstall hroom
  have hlink : t.link n = s.link n := congrArg (fun l : Links => mget l.links n {}) (State.putDescriptors_lk s r v k)
  have hone := State.applyVls_one hheld (mem_vls hvl) happly (by rw [hlink]; exact hheld)
  rw [hlink] at hone
  exact hone

end Sys2Proof.Machine
end

section
/-! The data, stream and lending frames of a module link (O19-O21), and the bytes that a window write stores (O59). -/

namespace Sys2Proof.Machine

/-! ### Fields of a header -/

theorem leNat_leBytes (n v : Nat) : leNat (leBytes n v) = v % 256 ^ n := by
  induction n generalizing v with
  | zero => simp [leBytes, leNat, Nat.mod_one]
  | succ n ih =>
    rw [leBytes, leNat, ih, BitVec.toNat_ofNat, show (2 : Nat) ^ 8 = 256 from rfl, Nat.pow_succ', Nat.mod_mul]

theorem leBytes_add (m n v : Nat) : leBytes (m + n) v = leBytes m v ++ leBytes n (v / 256 ^ m) := by
  induction m generalizing v with
  | zero => simp [leBytes]
  | succ m ih => rw [Nat.succ_add, leBytes, leBytes, ih, List.cons_append, Nat.div_div_eq_div_mul, ← Nat.pow_succ']

/-- A field that lies between `pre` and `post` reads back what was put there, if that fits. -/
theorem fld_append_leBytes (pre post : Bytes) {k n v : Nat} (hk : pre.length = k) (hv : v < 256 ^ n) :
    fld (pre ++ (leBytes n v ++ post)) k n = v := by
  have htake : (leBytes n v ++ post).take n = leBytes n v := List.take_left' (length_leBytes n v)
  rw [← hk, fld, slice, List.drop_left, htake, length_leBytes, Nat.sub_self, List.replicate_zero, List.append_nil, leNat_leBytes,
    Nat.mod_eq_of_lt hv]

section
variable {set member kind part round off total : Nat} {fp32 : Bool}

theorem fld_collHdr_set (h : set < 2 ^ 16) : fld (collHdr set member kind part round off total fp32) 0 2 = set := by
  simp only [collHdr, List.append_assoc]
  exact fld_append_leBytes [] _ rfl h

theorem fld_collHdr_kind (h : member + 16 * kind + 64 * b2n fp32 < 256) :
    fld (collHdr set member kind part round off total fp32) 2 1 = member + 16 * kind + 64 * b2n fp32 := by
  simp only [collHdr, List.append_assoc]
  exact fld_append_leBytes (leBytes 2 set) _ rfl h

theorem fld_collHdr_round (h : round < 2 ^ 32) : fld (collHdr set member kind part round off total fp32) 4 4 = round := by
  simp only [collHdr, List.append_assoc]
  exact fld_append_leBytes (leBytes 2 set ++ (leBytes 1 _ ++ leBytes 1 part)) _ rfl h

theorem fld_collHdr_off (h : off < 2 ^ 48) : fld (collHdr set member kind part round off total fp32) 8 6 = off := by
  simp only [collHdr, List.append_assoc, leBytes_add 6 2 off]
  exact fld_append_leBytes (leBytes 2 set ++ (leBytes 1 _ ++ (leBytes 1 part ++ leBytes 4 round))) _ rfl h

theorem fld_collHdr_total (h : total < 2 ^ 32) : fld (collHdr set member kind part round off total fp32) 16 4 = total := by
  simp only [collHdr, List.append_assoc]
  exact fld_append_leBytes (leBytes 2 set ++ (leBytes 1 _ ++ (leBytes 1 part ++ (leBytes 4 round ++ leBytes 8 off)))) _ rfl h

end

/-! ### Window requests, reads and PULL (R140, R507, R508, R512) -/

theorem State.reqWindow_congr {s t : State} (hpart : t.part = s.part) (hcfg : t.cfg = s.cfg) (r : Req) (n : Nat) :
    t.reqWindow r n = s.reqWindow r n := by
  simp only [State.reqWindow, hpart, State.windowBytes_congr hcfg]

theorem State.reqWindow_good {s : State} {r : Req} {n : Nat} (hlink : s.part.setup.hasLink r.part r.link = true)
    (hin : r.addr + n ≤ s.windowBytes r.part) : s.reqWindow r n = true := by
  simp only [State.reqWindow, hlink, Bool.true_and]
  exact decide_eq_true hin

/-- The lent lease a frame may name is seen from the leases and from the link's partner. -/
theorem State.lentTo_congr {s t : State} {n : Nat} (hlent : t.lk.lent = s.lk.lent) (hpartner : (t.link n).partner = (s.link n).partner) (id : Nat) :
    t.lentTo n id = s.lentTo n id := by
  rw [State.lentTo, State.lentTo, hlent, hpartner]

theorem State.takesFrame.lent {s : State} {n vl len : Nat} {i : Instr} (h : s.takesFrame n vl len i) :
    (s.accepted n vl len).lk.lent = s.lk.lent := by
  rw [h.lk]

theorem State.takesFrame.lentTo {s : State} {n vl len : Nat} {i : Instr} (h : s.takesFrame n vl len i) (id : Nat) :
    (s.accepted n vl len).lentTo n id = s.lentTo n id :=
  State.lentTo_congr h.lent (accepted_partner s n vl len h.1) id

/-- The job of a PULL (R140): the position and the blocks it names. -/
def State.pullJob (s : State) (r : Req) : PlanJob := {
  no := (s.plan r.part (r.select % 8)).next, pos := r.value, plan := s.planObj r.part (r.select % 8), cls := r.vl, pull := true, pre := r.colour % 4
  first := r.first
  count := if r.count = 0 then pBlocks (s.planObj r.part (r.select % 8)) - r.first else min r.count (pBlocks (s.planObj r.part (r.select % 8))) }

theorem State.pullJob_congr {s t : State} (hblob : t.blob = s.blob) (htier : t.tier = s.tier) (r : Req) : t.pullJob r = s.pullJob r := by
  simp only [State.pullJob, State.planObj_congr hblob, State.plan_congr htier]

theorem State.onPull_none {s : State} {r : Req} (h : s.ottKind r.part r.vl = none) : s.onPull r = none := by
  have htake : ∀ j : PlanJob, j.cls = r.vl → s.takeEntry (pushOp r.part (r.select % 8) j) = none := by
    intro j hj
    simp only [State.takeEntry, pushOp, hj, h]
  unfold State.onPull
  simp only [htake]

theorem State.onPull_good {s w : State} {r : Req} {t : Nat} (hmode : pMode (s.planObj r.part (r.select % 8)) = 2)
    (hpos : r.value < pOrderLen (s.planObj r.part (r.select % 8))) (hlink : w.part.setup.hasLink r.part r.link = true)
    (htake : s.takeEntry (pushOp r.part (r.select % 8) (s.pullJob r)) = some (t, w)) (hpart : s.part = w.part) :
    s.onPull r = some (.next ((w.setPlan r.part (r.select % 8) { w.plan r.part (r.select % 8) with
      st := 1, pos := r.value, inForce := s.planObj r.part (r.select % 8), staged := [], next := (w.plan r.part (r.select % 8)).next + 1
      jobs := (w.plan r.part (r.select % 8)).jobs ++ [{ s.pullJob r with tag := some t }] }).stagePositions r.part (r.select % 8) r.value
        (r.value + pStageLead (s.planObj r.part (r.select % 8)) + 1))) := by
  have hgood : ¬ (pMode (s.planObj r.part (r.select % 8)) ≠ 2 ∨ r.value ≥ pOrderLen (s.planObj r.part (r.select % 8)) ∨
      (!s.part.setup.hasLink r.part r.link) = true) := by
    rintro (h | h | h)
    · exact h hmode
    · omega
    · rw [hpart, hlink] at h
      cases h
  unfold State.onPull
  simp only [State.pullJob] at htake
  simp only [htake]
  rw [if_neg hgood]
  rfl

/-- Settles O19: acceptance leaves all that the request is checked against as it was. -/
theorem dataRequestsAndPullsAreApplied : Obligations.dataRequestsAndPullsAreApplied := by
  unfold Obligations.dataRequestsAndPullsAreApplied
  intro s r hlink len u n b j
  refine ⟨fun htakes hin => ?_, fun htakes hin hlo hhi => ?_, fun e htakes hlent hin hlo hhi => ?_,
    fun htakes hmode hpos => ⟨fun t hkind ht hfree => ?_, fun hkind => ?_⟩⟩
  · refine frameIn_takes s r.link (.windowWrite r) htakes _ ?_
    have hreq : u.reqWindow r r.payload.length = true := (State.reqWindow_congr htakes.part htakes.cfg r _).trans (State.reqWindow_good hlink hin)
    exact congrArg (fun t : State => some (.next t : Res)) (if_pos hreq)
  · refine frameIn_takes s r.link (.windowRead r) htakes _ ?_
    have hreq : u.reqWindow r r.count = true := (State.reqWindow_congr htakes.part htakes.cfg r _).trans (State.reqWindow_good hlink hin)
    rw [← State.window_congr htakes.mem r.part]
    exact congrArg (fun t : State => some (.next t : Res)) (if_pos ⟨hreq, hlo, hhi⟩)
  · refine frameIn_takes s r.link (.leaseRead r) htakes _ ?_
    have hlent' : u.lentTo r.link r.select = some e := (htakes.lentTo r.select).trans hlent
    change some (Host.Outcome.next (u.onLeaseRead r)) = _
    simp only [State.onLeaseRead, hlent']
    rw [if_pos ⟨hin, hlo, hhi⟩]
  · have hkind' : (u.ottKind r.part r.vl).isSome = true := by rwa [State.ottKind_congr htakes.q htakes.cfg htakes.boot]
    have hfree' : u.op? t = none := (State.op_congr htakes.q t).trans hfree
    obtain ⟨tag, w, htake⟩ := State.exists_takeEntry (s := u) (o := pushOp r.part n j) hkind' ht hfree'
    obtain ⟨-, -, hnone, -⟩ := State.takeEntry_eq_some htake
    refine ⟨tag, w, htake, (State.op_congr htakes.q tag).symm.trans hnone, ?_⟩
    have hj : u.pullJob r = j := State.pullJob_congr htakes.blob htakes.tier r
    have hb : u.planObj r.part n = b := State.planObj_congr htakes.blob r.part n
    have hwpart : w.part = u.part := (State.takeEntry_keeps_eq htake).of .part (by decide)
    have hgood := State.onPull_good (s := u) (w := w) (r := r) (t := tag) (by rw [hb]; exact hmode) (by rw [hb]; exact hpos)
      (by rw [hwpart, htakes.part]; exact hlink) (by rw [hj]; exact htake) hwpart.symm
    rw [hj, hb] at hgood
    exact frameIn_takes s r.link (.pull r) htakes _ hgood
  · have hwait : u.applyFrame (.pull r) = none :=
      State.onPull_none ((State.ottKind_congr htakes.q htakes.cfg htakes.boot r.part r.vl).trans hkind)
    have hheld := frameIn_holds s r.link (.pull r) htakes hwait
    rw [State.hold, accepted_held s r.link _ _ htakes.1] at hheld
    exact hheld

/-! ### MARK, COLL and DATA frames (R497, R508, R509, R512, R515) -/

section
variable {s : State} {n : Nat}

theorem State.mark_ignored {p k ev i : Nat} (h : s.part.setup.hasLink p n = false ∨ s.suppressed p = true) :
    s.mark n p k ev i = (s.linkCount n 0x12).linkCount n 0x13 := by
  simp only [State.mark]
  refine if_pos ?_
  rwa [State.linkCount_part, State.suppressed_congr (State.linkCount_part ..), Bool.not_eq_true']

theorem State.mark_heard {p k ev i : Nat} (hlink : s.part.setup.hasLink p n = true) (hpart : s.suppressed p = false) :
    s.mark n p k ev i =
      if ev = 1 then
        if pMode (s.planObj p k) = 1 then (s.linkCount n 0x12).stepBegin p k else ((s.linkCount n 0x12).idlePlan p k).linkCount n 0x13
      else if pMode (s.livePlan p k) = 1 ∧ i < pOrderLen (s.livePlan p k) then (s.linkCount n 0x12).startPos p k i
      else (s.linkCount n 0x12).linkCount n 0x13 := by
  simp only [State.mark]
  rw [if_neg, State.planObj_congr (State.linkCount_blob ..), State.livePlan_congr (State.linkCount_blob ..) (State.linkCount_tier ..)]
  rw [State.linkCount_part, State.suppressed_congr (State.linkCount_part ..), hlink, hpart]
  decide

theorem State.mark_start_ignored {p k i : Nat} (h : pMode (s.livePlan p k) ≠ 1 ∨ pOrderLen (s.livePlan p k) ≤ i) :
    s.mark n p k 2 i = (s.linkCount n 0x12).linkCount n 0x13 := by
  by_cases hheard : s.part.setup.hasLink p n = true ∧ s.suppressed p = false
  · rw [State.mark_heard hheard.1 hheard.2, if_neg (by decide), if_neg]
    omega
  · rw [State.mark_ignored]
    rwa [Classical.not_and_iff_not_or_not, Bool.not_eq_true, Bool.not_eq_false] at hheard

end

section
variable {s t : State}

theorem State.collSet_congr (hblob : t.blob = s.blob) (k : Nat) : t.collSet k = s.collSet k := by
  rw [State.collSet, State.collSet, State.blobOf_congr hblob]

theorem State.posted_congr (hrounds : t.lk.rounds = s.lk.rounds) (k : Nat) : t.posted k = s.posted k := by
  rw [State.posted, State.posted, hrounds]

theorem State.collHeld_congr (hblob : t.blob = s.blob) (hrounds : t.lk.rounds = s.lk.rounds) (hcontribs : t.lk.contribs = s.lk.contribs) (p : Nat) :
    t.collHeld p = s.collHeld p := by
  simp only [State.collHeld, State.posted_congr hrounds, State.collSet_congr hblob, hcontribs]

end

/-- The kind and the number format of a contribution lie above the member in one byte. -/
theorem collHdr_kind_fields {m kind : Nat} (fp : Bool) (hm : m < 16) (hk : kind < 4) :
    m + 16 * kind + 64 * b2n fp < 256 ∧ (m + 16 * kind + 64 * b2n fp) % 16 = m ∧ bits (m + 16 * kind + 64 * b2n fp) 4 2 = kind ∧
      bit (m + 16 * kind + 64 * b2n fp) 6 = fp := by
  cases fp
  · simp only [b2n, bits, bit, Bool.false_eq_true, if_false, beq_eq_false_iff_ne]
    omega
  · simp only [b2n, bits, bit, if_true, beq_iff_eq]
    omega

theorem State.collFrame_joins {s : State} {n vl set m kind p rd off total : Nat} {fp : Bool} {d : Bytes} {e : CollSet}
    (hset : set < 2 ^ 16) (hm : m < 16) (hkind : kind < 4) (hrd : rd < 2 ^ 32) (hoff : off < 2 ^ 48) (htotal : total < 2 ^ 32)
    (he : s.collSet set = some e) (hroot : e.root = true) (hmember : bit e.members m = true) (hposted : s.posted set ≤ rd)
    (hnew : (s.lk.contribs.any fun c => c.set == set && c.member == m && c.round == rd && c.full) = false)
    (hroom : s.collHeld e.part + d.length ≤ s.obj 0x1A01 2 67108864) :
    let c : Contrib := { set := set, member := m, round := rd, kind := kind, fp32 := fp, total := total }
    let w := s.addPart c off d (some n)
    let x := if w.lk.contribs.any (fun g => g.set == set && g.member == m && g.round == rd && g.full) then w.linkCount n 0x15 else w
    s.collFrame n (collOf vl set m kind fp p rd off total d) = some (x.contribFull set m rd) := by
  obtain ⟨hbyte, hm16, hk2, hfp⟩ := collHdr_kind_fields fp hm hkind
  intro c w x
  simp only [State.collFrame, collOf, fld_collHdr_set hset, fld_collHdr_kind hbyte, fld_collHdr_round hrd, fld_collHdr_off hoff,
    fld_collHdr_total htotal, hm16, hk2, hfp, he, hroot, hmember, hnew, Bool.not_true, Bool.false_eq_true, false_or, if_false]
  rw [if_neg (by omega), if_neg (by omega)]

/-- Settles O20: the plan, the sets and the leases are those of `s`, and each frame takes its branch. -/
theorem streamFramesAreApplied : Obligations.streamFramesAreApplied := by
  unfold Obligations.streamFramesAreApplied
  intro s n
  refine ⟨fun p k htakes => ?_, fun p k i htakes => ?_,
    fun vl set m kind fp p rd off total d e htakes hset hm hkind hrd hoff htotal he hroot hmember hposted hnew hroom => ?_,
    fun vl rtag st a last d htakes => ?_, fun vl id a d e htakes hlent hrev hin => ?_, fun vl a d htakes => ?_⟩
  · intro u
    refine ⟨fun hlink hpart hmode => ?_, fun hno => ?_⟩
    · refine frameIn_takes s n (.markStepBegin n p k) htakes _ (congrArg (fun t : State => some (.next t : Res)) ?_)
      change (s.accepted n 0 36).mark n p k 1 0 = _
      rw [State.mark_heard (by rwa [htakes.part]) (by rwa [State.suppressed_congr htakes.part]), if_pos rfl, State.planObj_congr htakes.blob,
        if_pos hmode]
    · refine frameIn_takes s n (.markStepBegin n p k) htakes _ (congrArg (fun t : State => some (.next t : Res)) ?_)
      exact State.mark_ignored (s := s.accepted n 0 36) (by rwa [htakes.part, State.suppressed_congr htakes.part])
  · intro u
    refine ⟨fun hlink hpart hmode hi => ?_, fun hno => ?_⟩
    · refine frameIn_takes s n (.markStart n p k i) htakes _ (congrArg (fun t : State => some (.next t : Res)) ?_)
      change (s.accepted n 0 36).mark n p k 2 i = _
      rw [State.mark_heard (by rwa [htakes.part]) (by rwa [State.suppressed_congr htakes.part]), if_neg (by decide),
        State.livePlan_congr htakes.blob htakes.tier, if_pos ⟨hmode, hi⟩]
    · refine frameIn_takes s n (.markStart n p k i) htakes _ (congrArg (fun t : State => some (.next t : Res)) ?_)
      exact State.mark_start_ignored (s := s.accepted n 0 36) (by rwa [State.livePlan_congr htakes.blob htakes.tier])
  · intro c w x
    have hrounds : (s.accepted n vl (36 + d.length)).lk.rounds = s.lk.rounds := by rw [htakes.lk]
    have hcontribs : (s.accepted n vl (36 + d.length)).lk.contribs = s.lk.contribs := by rw [htakes.lk]
    have hjoins := State.collFrame_joins (s := s.accepted n vl (36 + d.length)) (n := n) (vl := vl) (p := p) (fp := fp) (d := d) hset hm hkind hrd
      hoff htotal ((State.collSet_congr htakes.blob set).trans he) hroot hmember (by rwa [State.posted_congr hrounds]) (by rwa [hcontribs])
      (by rwa [State.collHeld_congr htakes.blob hrounds hcontribs, State.obj_congr htakes.cfg])
    exact frameIn_takes s n (.collFrame n vl set m kind fp p rd off total d) htakes _
      (congrArg (Option.map (Host.Outcome.next : State → Res)) hjoins)
  · exact frameIn_takes s n (.dataResponse n vl rtag st a last d) htakes _ rfl
  · intro u
    refine frameIn_takes s n (.leaseWrite n vl id a d) htakes _ (congrArg (fun t : State => some (.next t : Res)) ?_)
    have hlent' : u.lentTo n id = some e := (htakes.lentTo id).trans hlent
    have hgood : ¬ (e.revoking = true ∨ a + d.length > e.bytes) := by
      rintro (h | h)
      · exact absurd h (by simp [hrev])
      · omega
    change u.onLeaseWrite n id a d = _
    simp only [State.onLeaseWrite, hlent', if_neg hgood]
  · exact frameIn_takes s n (.sinkFrameReject n vl a d) htakes _ rfl

/-! ### LEND frames (R511, R512, R517) -/

/-- What the LEND frames of link `n` look at is the same in both states. -/
structure State.LendSame (s u : State) (n : Nat) : Prop where
  cfg : u.cfg = s.cfg
  up : u.up = s.up
  lk : u.lk = { s.lk with links := u.lk.links }
  partner : (u.link n).partner = (s.link n).partner

section
variable {s u : State} {n : Nat}

theorem State.LendSame.lent (h : s.LendSame u n) : u.lk.lent = s.lk.lent := by rw [h.lk]
theorem State.LendSame.leases (h : s.LendSame u n) : u.lk.leases = s.lk.leases := by rw [h.lk]
theorem State.LendSame.asked (h : s.LendSame u n) : u.lk.asked = s.lk.asked := by rw [h.lk]
theorem State.LendSame.lentNo (h : s.LendSame u n) : u.lk.lentNo = s.lk.lentNo := by rw [h.lk]
theorem State.LendSame.obj (h : s.LendSame u n) (ix sub d : Nat) : u.obj ix sub d = s.obj ix sub d := State.obj_congr h.cfg ix sub d
theorem State.LendSame.lentTo (h : s.LendSame u n) (id : Nat) : u.lentTo n id = s.lentTo n id := State.lentTo_congr h.lent h.partner id

theorem State.LendSame.slotOf (h : s.LendSame u n) (id : Nat) : u.slotOf n id = s.slotOf n id := by
  rw [State.slotOf, State.slotOf, h.leases, h.partner]

theorem State.LendSame.onOffer (h : s.LendSame u n) : u.onOffer = s.onOffer := by
  rw [State.onOffer, State.onOffer, State.lentBytes, State.lentBytes, h.obj, h.obj, h.lent]

theorem State.takesFrame.lendSame {i : Instr} (h : s.takesFrame n 7 36 i) : s.LendSame ((s.accepted n 7 36).linkCount n 0x14) n :=
  ⟨h.cfg, h.up, h.lk, (congrArg Link.partner (link_linkCount _ n n 0x14 1)).trans (accepted_partner s n 7 36 h.1)⟩

end

/-- A LEND frame that its link takes has its effect. -/
theorem frameIn_lend {s t : State} {n : Nat} {i : Instr} (htakes : s.takesFrame n 7 36 i) (hframe : heldFrame i = (7, 36, 64))
    (happly : ∀ u : State, u.applyFrame i = some (.next (u.onLend n i))) (ht : (s.accepted n 7 36).onLend n i = t) :
    s.frameIn n i = .next (t.givesBack n 7 36) := by
  have h := frameIn_takes s n i (by rw [hframe]; exact htakes) t (by rw [hframe, happly, ht])
  rwa [hframe] at h

/-- Settles O21: the leases, the partner and the configuration that a LEND frame looks at are those of `s`. -/
theorem lendFramesAreApplied : Obligations.lendFramesAreApplied := by
  unfold Obligations.lendFramesAreApplied
  intro s n u takes
  refine ⟨fun b htakes => ?_, fun b htakes => ?_, fun id term notice b k x htakes hslot hasked hfree => ?_,
    fun id term notice b k e htakes hslot hrev => ?_, fun id htakes hasked hslot => ?_, fun id e htakes hlent hrev => ?_,
    fun id notice k e htakes hslot => ?_, fun id e htakes hlent => ?_⟩
  · exact frameIn_lend htakes rfl (fun _ => rfl) rfl
  · have hsame : s.LendSame u n := htakes.lendSame
    intro z
    refine ⟨fun hdeny => ?_, fun id hz hfree => ?_⟩
    · refine frameIn_lend htakes rfl (fun _ => rfl) ?_
      change u.onRequest n b = _
      simp only [State.onRequest, hsame.lent, hsame.onOffer]
      obtain hz | hnone := hdeny
      · split
        · rw [if_pos hz]
        · rfl
      · simp only [hnone]
    · intro term e
      refine frameIn_lend htakes rfl (fun _ => rfl) ?_
      change u.onRequest n b = _
      simp only [State.onRequest, hsame.lent, hsame.onOffer, hfree, hsame.obj, hsame.up, hsame.partner, hsame.lentNo]
      exact if_neg hz
  · have hsame : s.LendSame u n := htakes.lendSame
    refine frameIn_lend htakes rfl (fun _ => rfl) ?_
    change u.onGrant n id term notice b = _
    simp only [State.onGrant, (hsame.slotOf id).trans hslot, hsame.asked.trans hasked, hsame.leases, hfree, hsame.up, hsame.partner]
  · have hsame : s.LendSame u n := htakes.lendSame
    refine frameIn_lend htakes rfl (fun _ => rfl) ?_
    change u.onGrant n id term notice b = _
    simp only [State.onGrant, (hsame.slotOf id).trans hslot, hrev, Bool.false_eq_true, if_false, hsame.up]
  · have hsame : s.LendSame u n := htakes.lendSame
    refine frameIn_lend htakes rfl (fun _ => rfl) ?_
    change (if (u.slotOf n id).any (·.2.asked) ∨ u.lk.asked ≠ some n then u else { u with lk := { u.lk with asked := none } }) = _
    rw [hsame.slotOf, hsame.asked, hslot, hasked]
    exact if_neg (by simp)
  · have hsame : s.LendSame u n := htakes.lendSame
    refine frameIn_lend htakes rfl (fun _ => rfl) ?_
    change u.onRenew n id = _
    simp only [State.onRenew, (hsame.lentTo id).trans hlent, hrev, Bool.false_eq_true, if_false, hsame.obj, hsame.up]
  · have hsame : s.LendSame u n := htakes.lendSame
    refine frameIn_lend htakes rfl (fun _ => rfl) ?_
    change u.onRevoke n id notice = _
    simp only [State.onRevoke, (hsame.slotOf id).trans hslot, hsame.up]
  · have hsame : s.LendSame u n := htakes.lendSame
    refine frameIn_lend htakes rfl (fun _ => rfl) ?_
    change u.onReleased n id = _
    simp only [State.onReleased, (hsame.lentTo id).trans hlent]

/-! ### Operand windows (R356, R508) -/

/-- What a write of `d` at `off` of window `p` leaves in the memories. -/
structure State.Stored (s : State) (p off : Nat) (d : Bytes) (t : State) : Prop where
  window : t.window p = wrN (s.window p) off d
  others : ∀ q : Nat, q ≠ p → t.window q = s.window q
  host0 : t.mem.host0 = s.mem.host0
  host1 : t.mem.host1 = s.mem.host1

theorem State.stored_windowWrite (s : State) (p off : Nat) (d : Bytes) : s.Stored p off d (s.windowWrite p off d) :=
  ⟨State.window_windowWrite s p off d, fun _ hq => State.window_windowWrite_ne s off d hq, rfl, rfl⟩

theorem State.Stored.of_mem {s t u : State} {p off : Nat} {d : Bytes} (h : s.Stored p off d t) (hmem : u.mem = t.mem) : s.Stored p off d u :=
  ⟨(State.window_congr hmem p).trans h.window, fun q hq => (State.window_congr hmem q).trans (h.others q hq), by rw [hmem, h.host0],
    by rw [hmem, h.host1]⟩

theorem State.Stored.of_accepted {s t u : State} {p off : Nat} {d : Bytes} (h : u.Stored p off d t) (hmem : u.mem = s.mem) : s.Stored p off d t :=
  ⟨by rw [h.window, State.window_congr hmem], fun q hq => by rw [h.others q hq, State.window_congr hmem],
    by rw [h.host0, hmem], by rw [h.host1, hmem]⟩

theorem State.givesBack_mem (t : State) (n vl len : Nat) : (t.givesBack n vl len).mem = t.mem := by
  unfold State.givesBack
  split <;> rfl

/-- A host's write of an operand window stores the part inside it, and counts one that is not all inside. -/
theorem execOperandWindowAccess_write {s : State} {k p : Nat} (off : Nat) (d : Bytes) (hk : k < 2) (hvf : s.hasVf k p = true)
    (hgood : s.pcieGood k = true) : execOperandWindowAccess k (p + 1) off 0 (some d) s =
      .next ((if off + d.length > s.windowBytes p then s.bump (pIx p 0) 7 else s).windowWrite p off (d.take (s.windowBytes p - off))) := by
  simp only [execOperandWindowAccess, Nat.add_sub_cancel]
  refine congrArg _ (if_neg ?_)
  rintro (h | h | h | h)
  · omega
  · omega
  · simp [hvf] at h
  · simp [hgood] at h

theorem getElem_rdN {m : List Host.Cell} {a n i : Nat} (h : i < (rdN m a n).length) : (rdN m a n)[i] = rd m (a + i) := by
  induction n generalizing a i with
  | zero => exact absurd h (Nat.not_lt_zero i)
  | succ n ih =>
    cases i with
    | zero => rfl
    | succ i =>
      simp only [rdN, List.getElem_cons_succ, ih]
      rw [Nat.add_assoc, Nat.add_comm 1]

/-- Each byte that was written reads back from its address. -/
theorem rd_wrN {m : List Host.Cell} (h : Memory.wf m = true) (a : Nat) (bs : Bytes) (i : Nat)
    (hi : i < bs.length) : rd (wrN m a bs) (a + i) = bs[i] := by
  have hback := rdN_wrN h a bs
  rw [← getElem_rdN (n := bs.length) (by rw [hback]; exact hi)]
  simp only [hback]

/-- Settles O59: both ways end in one write of the window, which acceptance and the return of credits do not touch. -/
theorem windowWritesStoreTheirBytes : Obligations.windowWritesStoreTheirBytes := by
  unfold Obligations.windowWritesStoreTheirBytes
  intro s p off d hmem hin stored
  have hstored : ∀ t, s.Stored p off d t → stored t := by
    intro t ht
    refine ⟨fun i hi => ?_, fun a ha => ?_, ht.others, ht.host0, ht.host1⟩
    · rw [ht.window, rd_wrN (hmem.window p) off d i hi]
    · rw [ht.window, rd_wrN_out _ d ha]
  refine ⟨fun k hk hvf hgood => ?_, fun r u hpart haddr hpayload htakes hu hlink => ?_⟩
  · refine ⟨s.windowWrite p off d, ?_, hstored _ (s.stored_windowWrite p off d)⟩
    rw [exec_operandWindowAccess, execOperandWindowAccess_write off d hk hvf hgood, if_neg (by omega), List.take_of_length_le (by omega)]
  · subst hpart haddr hpayload hu
    have hreq : (s.accepted r.link r.vl (36 + r.payload.length)).reqWindow r r.payload.length = true :=
      State.reqWindow_good hlink (by rwa [State.windowBytes_congr htakes.cfg])
    refine ⟨_, frameIn_takes s r.link (.windowWrite r) htakes _ (congrArg (fun t : State => some (.next t : Res)) (if_pos hreq)), hstored _ ?_⟩
    have happlied := (State.stored_windowWrite (s.accepted r.link r.vl (36 + r.payload.length)) r.part r.addr r.payload).of_accepted htakes.mem
    exact happlied.of_mem (State.givesBack_mem ..)

end Sys2Proof.Machine
end

section
/-! Where the module stops (O23): only a journal head beyond CJ_TAIL, and no command is refused. -/

namespace Sys2Proof.Machine

/-- A command that carries no journal head goes on. -/
theorem exec_next {c : Instr} (s : State) (hdoor : ∀ port fn q idx, c ≠ .cjHeadDoorbell port fn q idx) (hhead : ∀ r, c ≠ .cjHead r)
    (hheld : ∀ n, c ≠ .reqHeldApply n) : ∃ t, exec c s = .next t := by
  cases c with
  | cjHeadDoorbell port fn q idx => exact absurd rfl (hdoor port fn q idx)
  | cjHead r => exact absurd rfl (hhead r)
  | reqHeldApply n => exact absurd rfl (hheld n)
  | submit _ | tail _ | pull _ | windowWrite _ | windowRead _ | leaseRead _ | markStepBegin _ _ _ | markStart _ _ _ _ | collFrame _ _ _ _ _
  | dataResponse _ _ _ | leaseWrite _ _ _ | sinkFrameReject _ _ | offer _ _ | request _ _ | grant _ _ _ | deny _ _ | renew _ _ | revoke _ _
  | released _ _ => exact frameIn_next _ _ _ hhead
  | _ => exact ⟨_, rfl⟩

theorem exec_not_refused (c : Instr) (s : State) (r : Refusal) : exec c s ≠ .refused r := by
  by_cases hplain : (∀ port fn q idx, c ≠ .cjHeadDoorbell port fn q idx) ∧ (∀ r, c ≠ .cjHead r) ∧ ∀ n, c ≠ .reqHeldApply n
  · obtain ⟨t, ht⟩ := exec_next s hplain.1 hplain.2.1 hplain.2.2
    simp [ht]
  · cases c with
    | cjHeadDoorbell port fn q idx =>
      simp only [exec_cjHeadDoorbell, execCjHeadDoorbell]
      split
      · simp
      · split
        · simp
        · rcases setCjHead_cases s (64 * (fn - 1) + q) idx with ⟨t, ht⟩ | hstop
          · simp [ht]
          · simp [hstop]
    | cjHead q => exact receiveRes_not_refused _ _ _ _ _ _ (fun u x hx y => applyFrame_not_refused u _ x hx y) r
    | reqHeldApply n => exact applyVls_not_refused n _ r s
    | _ => exact absurd ⟨fun _ _ _ _ => nofun, fun _ => nofun, fun _ => nofun⟩ hplain

/-- Settles O23: every other command goes on, and a doorbell beyond CJ_TAIL stops. -/
theorem onlyJournalHeadsStop : Obligations.onlyJournalHeadsStop := by
  unfold Obligations.onlyJournalHeadsStop
  refine ⟨fun c s => exec_next s, exec_not_refused, ?_⟩
  intro s port fn q idx hfn hgood hvf v hst hbind hidx hbeyond
  rw [exec_cjHeadDoorbell, execCjHeadDoorbell]
  simp only [hfn, hgood, hvf, Bool.not_true, Bool.false_eq_true, or_self, if_false]
  rw [if_neg (fun h => h.elim (fun h => h hst) fun h => h.elim (fun h => h hbind) fun h => absurd hidx (Nat.not_lt.2 h)), State.setCjHead]
  exact if_pos hbeyond

end Sys2Proof.Machine
end

section
/-! What the host commands of a queue (O24, R264-R267), the fetch turns and the opening of a LIST (O25, O26). -/

namespace Sys2Proof.Machine

section
variable {s : State} {port fn k idx : Nat}

theorem execSqTailDoorbell_reaches (hfn : fn ≠ 0) (hgood : s.pcieGood port = true) (hvf : s.hasVf port (fn - 1) = true) :
    execSqTailDoorbell port fn k idx s = .next (
      if (s.queue (64 * (fn - 1) + k)).st ≠ .enabled ∨ (s.queue (64 * (fn - 1) + k)).binding ≠ port ∨
          idx ≥ 2 ^ (s.queue (64 * (fn - 1) + k)).sqLog2 then s.badDoorbell (64 * (fn - 1) + k)
      else s.setTail (64 * (fn - 1) + k) idx) := by
  simp only [execSqTailDoorbell, hfn, hgood, hvf, Bool.not_true, Bool.false_eq_true, or_self, if_false]

theorem execCjHeadDoorbell_reaches (hfn : fn ≠ 0) (hgood : s.pcieGood port = true) (hvf : s.hasVf port (fn - 1) = true)
    (hst : (s.queue (64 * (fn - 1) + k)).st = .enabled) (hbind : (s.queue (64 * (fn - 1) + k)).binding = port)
    (hidx : idx < 2 ^ (s.queue (64 * (fn - 1) + k)).cjLog2) :
    execCjHeadDoorbell port fn k idx s = s.setCjHead (64 * (fn - 1) + k) idx := by
  simp only [execCjHeadDoorbell, hfn, hgood, hvf, hst, hbind, Bool.not_true, Bool.false_eq_true, or_self, if_false, ne_eq, not_true,
    Nat.not_le.2 hidx]

end

/-- Settles O24: each command by the branch its premise names. -/
theorem queueCommandsAct : Obligations.queueCommandsAct := by
  unfold Obligations.queueCommandsAct
  intro s port fn k idx hfn hgood hvf q v
  have hdoor := execSqTailDoorbell_reaches (k := k) (idx := idx) hfn hgood hvf
  refine ⟨fun hst hbind hidx => ?_, fun hst hbind hidx hwithin => ?_, fun hbad => ?_, fun hst hvalid => ?_, fun hst hinvalid => ?_,
    fun hst => ?_, fun hst => ?_, rfl, fun r w hst => ?_, fun w hst => ?_⟩
  · rw [exec_sqTailDoorbell, hdoor]
    rw [if_neg (fun h => h.elim (fun h => h hst) fun h => h.elim (fun h => h hbind) fun h => absurd hidx (Nat.not_lt.2 h))]
    rfl
  · rw [exec_cjHeadDoorbell, execCjHeadDoorbell_reaches hfn hgood hvf hst hbind hidx, State.setCjHead]
    exact if_neg (Nat.not_lt.2 hwithin)
  · rw [exec_sqTailDoorbell, hdoor]
    rw [if_pos hbad]
    rfl
  · have hst' : (s.queue q).st = .disabled := hst
    rw [exec_queueEnable, execQueueEnable]
    simp only [hst', hvalid, ne_eq, not_true, if_false, if_true]
    rfl
  · have hst' : (s.queue q).st = .disabled := hst
    rw [exec_queueEnable, execQueueEnable]
    simp only [hst', hinvalid, ne_eq, not_true, if_false, Bool.false_eq_true]
  · have hst' : (s.queue q).st = .enabled := hst
    rw [exec_queueDisable, execQueueDisable]
    simp only [hst']
    rfl
  · have hst' : (s.queue q).st = .error := hst
    rw [exec_queueDisable, execQueueDisable]
    simp only [hst']
    rfl
  · have hst' : (s.queue q).st = .disabled := hst
    rw [exec_queueRegisterWrite, execQueueRegisterWrite, State.regWrite]
    simp only [hst', ne_eq, not_true, false_and, if_false]
    rfl
  · have hreg (r : QReg) : exec (.queueRegisterWrite q r w) s = .next (if r = .sqBase ∨ r = .cjBase ∨ r = .cfg then
        (s.queueCause q 1).bump (pIx (q / 64) 0x21) 9 else (s.setQueue q (v.setReg r w.toNat)).queueEval q) := by
      have hst' : (s.queue q).st ≠ .disabled := hst
      rw [exec_queueRegisterWrite, execQueueRegisterWrite, State.regWrite]
      simp only [hst', ne_eq, not_false_eq_true, true_and]
      rfl
    exact ⟨hreg .sqBase, hreg .cjBase, hreg .cfg, hreg .moderation, hreg .intEnable⟩

/-- Settles O25: the turn of the queue found, and the branch of a fetch that opens a LIST. -/
theorem descriptorsAreFetched : Obligations.descriptorsAreFetched := by
  unfold Obligations.descriptorsAreFetched
  intro s q
  refine ⟨fun hnext => ?_, fun hnext => ?_, ?_⟩
  · rw [exec_descriptorFetch, execDescriptorFetch, hnext]
  · rw [exec_ottStallResume, execOttStallResume, hnext]
  · intro v at_ d hfetch hlist hcmd hgood
    have hlist' : (s.queue q).list = none := hlist
    rw [exec_list, execList]
    simp only [hfetch, hlist', hcmd, at_, d, v, and_self, if_true, State.fetchOne, hgood, Option.isSome_none, and_false, Bool.false_eq_true,
      if_false]

/-- A descriptor that is neither an ATTEND nor an INDEX_QUERY carries nothing more from its fetch on. -/
theorem State.withArgs_plain (s : State) (u : Setup) (k : Nat) {o : Op} (hattend : cmdOf (fld o.desc 0 1) ≠ some .attend)
    (hindex : cmdOf (fld o.desc 0 1) ≠ some .indexQuery) : s.withArgs u k o = (o, none) := by
  unfold State.withArgs
  dsimp only
  split
  · exact absurd ‹_› hattend
  · exact absurd ‹_› hindex
  · rfl

/-- Settles O26: the last branch of a fetch, and the entry that was taken. -/
theorem fetchesTakeAnEntry : Obligations.fetchesTakeAnEntry := by
  unfold Obligations.fetchesTakeAnEntry
  intro s t q c n v at_ d hlist hcmd hnotList hnotAttend hnotIndex hgood htake
  have hargs : s.withArgs s.part.setup v.binding (opOf q v d v.sqHead 0x1FFF) = (opOf q v d v.sqHead 0x1FFF, none) :=
    s.withArgs_plain _ _ (by simpa [opOf, hcmd] using hnotAttend) (by simpa [opOf, hcmd] using hnotIndex)
  constructor
  · have hlist' : (s.queue q).list = none := hlist
    simp only [v, at_, d] at hcmd hgood htake hargs ⊢
    unfold State.fetchOne
    simp only [hlist', hcmd, hnotList, Option.some.injEq, false_and, if_false, hgood, if_true, hargs, htake, Option.orElse_none]
    rfl
  · exact State.takeEntry_eq_some htake

end Sys2Proof.Machine
end

section
/-! The end of an operation (R272, R273): the record it leaves, or its wait for a free journal entry (O27, O28). -/

namespace Sys2Proof.Machine

section
variable {s t : State}

theorem State.pcieGood_congr (hboot : t.boot = s.boot) (k : Nat) : t.pcieGood k = s.pcieGood k :=
  calc
    t.pcieGood k = State.pcieGood { s with boot := t.boot } k := rfl
    _ = s.pcieGood k := by rw [hboot]

theorem State.journalBlocked_congr (hq : t.q = s.q) (hpart : t.part = s.part) (hlk : t.lk = s.lk) (hboot : t.boot = s.boot) (k : Nat) :
    t.journalBlocked k = s.journalBlocked k := by
  simp only [State.journalBlocked, State.queue_congr hq, State.hasVf, hpart, hlk, State.pcieGood_congr hboot]

theorem State.queue_bump (s : State) (i j k n : Nat) : (s.bump i j k).queue n = s.queue n := rfl

theorem State.host_congr (hmem : t.mem = s.mem) (k : Nat) : t.host k = s.host k := by
  rw [State.host, State.host, hmem]

end

theorem State.pcieUnits_same (s : State) (p k c colour dir n : Nat) :
    (s.pcieUnits p k c colour dir n).q = s.q ∧ (s.pcieUnits p k c colour dir n).boot = s.boot ∧ (s.pcieUnits p k c colour dir n).mem = s.mem :=
  have hkeeps := State.pcieUnits_keeps s p k c colour dir n
  ⟨hkeeps.of .q (by decide), hkeeps.of .boot (by decide), hkeeps.of .mem (by decide)⟩

/-- A write into host memory through a port in service. -/
theorem State.writeAt_host {s : State} {k a : Nat} (p c colour : Nat) (tag : Option Nat) (bs : Bytes) (hspace : spaceOf a = 0)
    (hgood : s.pcieGood k = true) : s.writeAt p k c colour tag a bs = (0, false, s.hostWrite k (offOf a) bs) := by
  simp only [State.writeAt, State.writeVia, hspace, hgood, if_true]

theorem State.hostWrite_mem {s t : State} (hmem : t.mem = s.mem) (k a : Nat) (bs : Bytes) :
    (t.hostWrite k a bs).mem = (s.hostWrite k a bs).mem := by
  unfold State.hostWrite
  split <;> simp [hmem]

/-- What writing a record into a journal in host memory leaves: the record's bytes, the OTT, and the ring moved on. -/
structure State.WroteRecord (s u : State) (t : Nat) (o : Op) : Prop where
  mem : u.mem = (s.hostWrite (s.queue o.queue).binding (offOf ((s.queue o.queue).cjBase.toNat + 32 * (s.queue o.queue).cjTail))
    (recordBytes t o (s.queue o.queue).phase)).mem
  op (n : Nat) : u.op? n = s.op? n
  cjTail : (u.queue o.queue).cjTail =
    if (s.queue o.queue).cjTail + 1 = 2 ^ (s.queue o.queue).cjLog2 then 0 else (s.queue o.queue).cjTail + 1
  phase : (u.queue o.queue).phase =
    ((s.queue o.queue).phase != decide ((s.queue o.queue).cjTail + 1 = 2 ^ (s.queue o.queue).cjLog2))
  cjHead : (u.queue o.queue).cjHead = (s.queue o.queue).cjHead
  sqHead : (u.queue o.queue).sqHead = (s.queue o.queue).sqHead
  st : (u.queue o.queue).st = (s.queue o.queue).st

/-- A step that keeps memory, the OTT and the queues keeps what the record left. -/
theorem State.WroteRecord.same {s u w : State} {t : Nat} {o : Op} (h : s.WroteRecord u t o) (hsame : SameQueues u w) (hmem : w.mem = u.mem) :
    s.WroteRecord w t o := by
  obtain ⟨hop, htail, hphase, hst, hhead, hsq⟩ := hsame.ring o.queue
  exact ⟨hmem.trans h.mem, fun n => (hop n).trans (h.op n), htail.trans h.cjTail, hphase.trans h.phase, hhead.trans h.cjHead,
    hsq.trans h.sqHead, hst.trans h.st⟩

theorem State.wroteRecord_writeRecord {s : State} (t : Nat) {o : Op}
    (hspace : spaceOf ((s.queue o.queue).cjBase.toNat + 32 * (s.queue o.queue).cjTail) = 0)
    (hgood : s.pcieGood (s.queue o.queue).binding = true) : s.WroteRecord (s.writeRecord t o) t o := by
  obtain ⟨hq, hboot, hmem⟩ := s.pcieUnits_same (o.queue / 64) (s.queue o.queue).binding o.cls 0 0 32
  have hgood' := (State.pcieGood_congr hboot _).trans hgood
  unfold State.writeRecord
  simp only [hspace, if_true, State.writeAt_host _ _ _ _ _ hspace hgood']
  generalize hw : State.bump (State.bump _ _ _ _) _ _ _ = w
  have hring := queueVec_ring w o.queue (o.irq || !isSuccess o.status)
  have hkeeps := State.queueVec_keeps w o.queue (o.irq || !isSuccess o.status)
  obtain ⟨hop, htail, hphase, hst, hhead, hsq⟩ := hring
  have hqueue : w.queue o.queue = { s.queue o.queue with
      cjTail := if (s.queue o.queue).cjTail + 1 = 2 ^ (s.queue o.queue).cjLog2 then 0 else (s.queue o.queue).cjTail + 1
      phase := (s.queue o.queue).phase != decide ((s.queue o.queue).cjTail + 1 = 2 ^ (s.queue o.queue).cjLog2) } := by
    rw [← hw]
    exact State.queue_setQueue ..
  refine ⟨?_, fun n => (hop n).trans ?_, ?_, ?_, ?_, ?_, ?_⟩
  · rw [hkeeps.of .mem (by decide), ← hw]
    exact State.hostWrite_mem hmem _ _ _
  · rw [← hw]
    exact State.op_congr ((State.hostWrite_q ..).trans hq) n
  · rw [htail, hqueue]
  · rw [hphase, hqueue]
  · rw [hhead, hqueue]
  · rw [hsq, hqueue]
  · rw [hst, hqueue]

/-- The entry of an operation at its end (R271): its status, its counts and the time, and nothing asked any more. -/
def State.closing (s : State) (o : Op) (st det pr du : Nat) : Op := { o with
  status := o.final st, detail := det, progress := pr, durable := du, endedAt := s.now, heldOver := s.holdover, asks := [], got := [], pins := [] }

/-- The state with the closed entry of an operation, its end counted. -/
def State.closed (s : State) (t : Nat) (o : Op) (st det pr du : Nat) : State :=
  (s.setOp t (s.closing o st det pr du)).countEnd (if o.src = .queue then cmdOf (fld o.desc 0 1) else none) (hBack o.arg) o.part (o.final st)

section
variable {s : State} {t st det pr du : Nat} {o : Op}

theorem State.closed_op : (s.closed t o st det pr du).op? t = some (s.closing o st det pr du) :=
  (State.op_congr (countEnd_same _ _ _ _ _).1 t).trans (State.op_setOp ..)

theorem State.closed_mem : (s.closed t o st det pr du).mem = s.mem := by
  obtain ⟨-, -, -, hmem, -⟩ := countEnd_same (s.setOp t (s.closing o st det pr du)) (if o.src = .queue then cmdOf (fld o.desc 0 1) else none)
    (hBack o.arg) o.part (o.final st)
  exact hmem

theorem State.closed_boot : (s.closed t o st det pr du).boot = s.boot :=
  (State.countEnd_keeps ..).of .boot (by decide)

theorem State.closed_queue (k : Nat) : (s.closed t o st det pr du).queue k = s.queue k :=
  (State.queue_congr (countEnd_same _ _ _ _ _).1 k).trans (State.queue_setOp ..)

theorem State.closed_journalBlocked (k : Nat) : (s.closed t o st det pr du).journalBlocked k = s.journalBlocked k := by
  obtain ⟨hq, hpart, hlk, -⟩ := countEnd_same (s.setOp t (s.closing o st det pr du)) (if o.src = .queue then cmdOf (fld o.desc 0 1) else none)
    (hBack o.arg) o.part (o.final st)
  exact (State.journalBlocked_congr (s := s.setOp t (s.closing o st det pr du))
    hq hpart hlk ((State.countEnd_keeps ..).of .boot (by decide)) k).trans rfl

/-- The end of an operation that is not quietly DONE, on a queue that is ENABLED with a journal that may be written. -/
theorem State.endOp_journal (hop : s.op? t = some o) (hloud : (o.quiet && o.final st == stDone) = false)
    (hlive : (s.queue o.queue).dead = false) (hst : (s.queue o.queue).st = .enabled) (hfree : s.journalBlocked o.queue = false) :
    s.endOp t st det pr du =
      if (s.queue o.queue).journalFree > 0 then
        (State.completeSnaps { (s.closed t o st det pr du).writeRecord t (s.closing o st det pr du) with
          ev := { ((s.closed t o st det pr du).writeRecord t (s.closing o st det pr du)).ev with
            snaps := ((s.closed t o st det pr du).writeRecord t (s.closing o st det pr du)).ev.snaps.map
              (Snap.finish t (s.closing o st det pr du) true false) } }).release t
      else
        ((State.setOp (State.completeSnaps { s.closed t o st det pr du with
          ev := { (s.closed t o st det pr du).ev with
            snaps := (s.closed t o st det pr du).ev.snaps.map (Snap.hold t (s.closing o st det pr du)) } }) t
          { s.closing o st det pr du with st := .recordWait }).setQueue o.queue
            { s.queue o.queue with waiting := (s.queue o.queue).waiting ++ [t], journalFull := true }).bump (pIx o.part 0x21) 7 := by
  have hquiet : ¬ (o.quiet = true ∧ o.final st = stDone) := by
    simpa using hloud
  have hblocked := (s.closed_journalBlocked (t := t) (st := st) (det := det) (pr := pr) (du := du) (o := o) o.queue).trans hfree
  have hqueue := s.closed_queue (t := t) (st := st) (det := det) (pr := pr) (du := du) (o := o) o.queue
  simp only [State.closed, State.closing] at hblocked hqueue ⊢
  unfold State.endOp
  simp only [hop, hqueue, hblocked, hlive, hst, if_neg hquiet, Bool.false_eq_true, ne_eq, not_true, and_false, false_and, or_false, if_false]

end

/-- Settles O27: the record is written into the closed state, and nothing after it touches memory or the ring. -/
theorem endedOperationsLeaveARecord : Obligations.endedOperationsLeaveARecord := by
  unfold Obligations.endedOperationsLeaveARecord
  intro s t o st det pr du hmem hop hsrc v r a u hloud hlive hst hbind hroom hfree hgood hspace
  let c := s.closed t o st det pr du
  have hcqueue : c.queue o.queue = v := s.closed_queue _
  have hrec : c.WroteRecord (c.writeRecord t r) t r :=
    State.wroteRecord_writeRecord t (by rw [hcqueue]; exact hspace)
      (by rw [hcqueue]; exact (State.pcieGood_congr State.closed_boot _).trans hgood)
  have hend : u = (State.completeSnaps { c.writeRecord t r with
      ev := { (c.writeRecord t r).ev with snaps := (c.writeRecord t r).ev.snaps.map (Snap.finish t r true false) } }).release t :=
    (State.endOp_journal hop hloud hlive hst hfree).trans (if_pos hroom)
  generalize hw : State.completeSnaps _ = w at hend
  have hw : c.WroteRecord w t r := by
    rw [← hw]
    refine hrec.same ?_ ((State.completeSnaps_keeps _).of .mem (by decide))
    exact sameQueues_completeSnaps _
  obtain ⟨hnone, hqueues⟩ := release_frees w t r ((hw.op t).trans State.closed_op) (hw.st.trans (by rw [hcqueue]; exact hst))
  have humem : u.mem = (s.hostWrite v.binding a (recordBytes t r v.phase)).mem := by
    rw [hend, (State.release_keeps w t).of .mem (by decide), hw.mem, hcqueue]
    exact State.hostWrite_mem State.closed_mem _ _ _
  have huqueue : u.queue o.queue = w.queue o.queue := by
    rw [hend]
    exact hqueues _
  refine ⟨by rw [hend]; exact hnone, ?_, fun k x hk hout => ?_, ?_, ?_, ?_, ?_, ?_, ?_⟩
  · rw [State.host_congr humem, State.host_hostWrite _ _ _ hbind hbind, if_pos rfl]
    have hread := rdN_wrN (hmem.host v.binding) a (recordBytes t r v.phase)
    rwa [length_recordBytes] at hread
  · rw [State.host_congr humem, State.host_hostWrite _ _ _ hbind hk]
    split
    next hsame =>
      subst hsame
      rw [rd_wrN_out]
      rw [length_recordBytes]
      exact hout.resolve_left (fun hne => hne rfl)
    next => rfl
  · rw [humem, State.hostWrite_windows]
  · rw [huqueue, hw.cjTail, hcqueue]
  · rw [huqueue, hw.phase, hcqueue]
  · rw [huqueue, hw.cjHead, hcqueue]
  · rw [huqueue, hw.sqHead, hcqueue]
  · rw [huqueue, hw.st, hcqueue]
    exact hst

/-- Settles O28: without a free journal entry the closed entry waits, and no branch before it writes memory. -/
theorem fullJournalsHoldRecords : Obligations.fullJournalsHoldRecords := by
  unfold Obligations.fullJournalsHoldRecords
  intro s t o st det pr du hop hsrc v r u hloud hlive hst hfull hfree
  have hend := (State.endOp_journal (det := det) (pr := pr) (du := du) hop hloud hlive hst hfree).trans
    (if_neg (Nat.not_lt.2 (Nat.le_of_eq hfull)))
  generalize hw : State.completeSnaps _ = w at hend
  have hwmem : w.mem = s.mem := by
    rw [← hw, (State.completeSnaps_keeps _).of .mem (by decide)]
    exact State.closed_mem
  have hu : u = _ := hend
  rw [hu]
  exact ⟨State.op_setOp .., by rw [State.queue_bump, State.queue_setQueue], by rw [State.queue_bump, State.queue_setQueue], hwmem⟩

end Sys2Proof.Machine
end

section
/-! Waiting records, moderation, unmasked vectors and PCIe errors (O29, R273, R282, R285, R370). -/

namespace Sys2Proof.Machine

theorem SameQueues.queue {s t : State} (h : SameQueues s t) (q : Nat) : t.queue q = s.queue q :=
  congrArg (fun l : List (Nat × Queue) => mget l q {}) h.2

theorem SameQueues.op {s t : State} (h : SameQueues s t) (n : Nat) : t.op? n = s.op? n :=
  congrArg (mget? · n) h.1

theorem State.queueMsg_sends {s : State} {q : Nat} (hsup : s.suppressed (q / 64) = false) (hvf : s.hasVf (s.queue q).binding (q / 64) = true) :
    s.queueMsg q = (s.setQueue q { s.queue q with unsig := 0, unsigAt := none, urgent := false }).msix (s.queue q).binding (q / 64 + 1) (q % 64) := by
  have hdue (v : Queue) : ¬ ((s.setQueue q v).suppressed (q / 64) = true ∨ (!(s.setQueue q v).hasVf (s.queue q).binding (q / 64)) = true) := by
    rintro (h | h)
    · exact absurd (hsup.symm.trans h) (by decide)
    · have hvf' : (s.setQueue q v).hasVf (s.queue q).binding (q / 64) = true := hvf
      rw [hvf'] at h
      exact absurd h (by decide)
  unfold State.queueMsg
  exact if_neg (hdue _)

/-- The vector of a function unmasked, its function's MSI-X on and nothing pending. -/
def State.unmasked (s : State) (port fn vec : Nat) (held : Bool) : State := { s with q := { s.q with
  msixOn := if s.q.msixOn.contains (fnKey port fn) then s.q.msixOn else s.q.msixOn ++ [fnKey port fn]
  msixOpen := if s.q.msixOpen.contains (vecKey port fn vec) then s.q.msixOpen else s.q.msixOpen ++ [vecKey port fn vec]
  msixPend := s.q.msixPend.filter (· != vecKey port fn vec)
  doneHeld := if held then s.q.doneHeld.filter (· != fnKey port fn) else s.q.doneHeld } }

theorem execMsixUnmask_good {s : State} {port : Nat} (fn vec : Nat) (hgood : s.pcieGood port = true) :
    execMsixUnmask port fn vec s = .next (
      if s.q.msixPend.contains (vecKey port fn vec) || (vec == 67 && s.q.doneHeld.contains (fnKey port fn)) then
        (s.unmasked port fn vec (vec == 67 && s.q.doneHeld.contains (fnKey port fn))).msix port fn vec
      else s.unmasked port fn vec (vec == 67 && s.q.doneHeld.contains (fnKey port fn))) := by
  simp only [execMsixUnmask, hgood, Bool.not_true, Bool.false_eq_true, if_false]
  rfl

theorem mem_ite_append (l : List Nat) (x : Nat) : x ∈ if l.contains x then l else l ++ [x] := by
  split
  next h => exact List.contains_iff_mem.1 h
  next => exact List.mem_append_right _ (List.mem_singleton_self x)

theorem State.mem_unmasked_msixOn (s : State) (port fn vec : Nat) (held : Bool) :
    fnKey port fn ∈ (s.unmasked port fn vec held).q.msixOn :=
  mem_ite_append ..

theorem State.mem_unmasked_msixOpen (s : State) (port fn vec : Nat) (held : Bool) :
    vecKey port fn vec ∈ (s.unmasked port fn vec held).q.msixOpen :=
  mem_ite_append ..

/-- A vector whose function has MSI-X on and that is unmasked goes out, and its pending bit stays as it was. -/
theorem State.msix_sends {s : State} {port fn vec : Nat} (hgood : s.pcieGood port = true) (hon : fnKey port fn ∈ s.q.msixOn)
    (hopen : vecKey port fn vec ∈ s.q.msixOpen) :
    (s.msix port fn vec).out = s.out ++ [Out.msix port fn vec] ∧ (s.msix port fn vec).q = s.q := by
  have hboth : (s.q.msixOn.contains (fnKey port fn) && s.q.msixOpen.contains (vecKey port fn vec)) = true := by
    simp [hon, hopen]
  unfold State.msix
  simp only [hgood, hboth, Bool.not_true, Bool.false_eq_true, if_false, if_true]
  split <;> exact ⟨rfl, rfl⟩

/-- Recording a cause leaves the queue as it was but for its last error. -/
theorem State.queue_queueCause (s : State) (q cause : Nat) : (s.queueCause q cause).queue q = { s.queue q with lastError := cause } := by
  unfold State.queueCause
  rw [(sameQueues_event ..).queue, State.queue_setQueue]

/-- Settles O29: each command by the branch its premises name. -/
theorem recordsAndVectorsFollow : Obligations.recordsAndVectorsFollow := by
  unfold Obligations.recordsAndVectorsFollow
  intro s q v
  refine ⟨fun t ts o hwait hop hroom => ?_, fun t0 hsince htime hint hsup hvf => ?_, fun port fn vec hgood hnone hvec => ?_,
    fun port fn vec hgood hpend => ?_, fun hst => ?_, fun t o hop hst => ?_⟩
  · have hwait' : (s.queue q).waiting = t :: ts := hwait
    rw [exec_journalFullRecordWrite, execJournalFullRecordWrite]
    simp only [hwait', hop]
    exact congrArg (fun t : State => (.next t : Res)) (if_neg (Nat.pos_iff_ne_zero.1 hroom))
  · have hsince' : (s.queue q).unsigAt = some t0 := hsince
    have hlate : ¬ ((s.queue q).time = 0 ∨ (!(s.queue q).intEnable) = true) := by
      rintro (h | h)
      · exact htime h
      · rw [hint] at h
        exact absurd h (by decide)
    rw [exec_moderationTimeTrigger, execModerationTimeTrigger]
    simp only [hsince', if_neg hlate]
    rw [State.queueMsg_sends (s := s.timeTo _) hsup hvf]
    rfl
  · rw [exec_msixUnmask, execMsixUnmask_good fn vec hgood, hnone]
    have hother : (vec == 67) = false := beq_false_of_ne hvec
    refine ⟨s.unmasked port fn vec false, ?_, rfl, s.mem_unmasked_msixOpen .., s.mem_unmasked_msixOn ..⟩
    rw [hother, Bool.false_and, Bool.or_false, if_neg Bool.false_ne_true]
  · obtain ⟨hout, hq⟩ := State.msix_sends (s := s.unmasked port fn vec (vec == 67 && s.q.doneHeld.contains (fnKey port fn))) hgood
      (s.mem_unmasked_msixOn ..) (s.mem_unmasked_msixOpen ..)
    rw [exec_msixUnmask, execMsixUnmask_good fn vec hgood, hpend]
    refine ⟨_, by rw [Bool.true_or, if_pos rfl], hout, ?_⟩
    rw [hq]
    simp [State.unmasked]
  · have hafter : (((s.bump 0x6080 6).queueCause q 4).queue q).st = .enabled := by
      rw [State.queue_queueCause]
      exact hst
    rw [exec_pcieErrorResponse, execPcieErrorResponse]
    simp only [hafter, if_true]
  · have hop' : ((s.bump 0x6080 6).partVec o.part 65).op? t = some o := ((sameQueues_partVec ..).op t).trans hop
    have hop0 : (s.bump 0x6080 6).op? t = some o := hop
    rw [exec_pcieErrorResponse, execPcieErrorResponse]
    simp only [hop0, hst, if_false, State.stopOp, hop']

end Sys2Proof.Machine
end

section
/-! The data operations and the sequences (O30, O33): COPY, SLICE_WRITE, SLICE_READ, STAGE, forks, truncations and discards. -/

namespace Sys2Proof.Machine

section
variable {s : State} {t : Nat} {o : Op}

/-- A COPY that runs does what its overlap asks for (R295). -/
theorem execCopy_runs (hrun : s.runCmd t .copy = some o) :
    (copyWay o.desc = .ascending → execCopy t s = .next ((s.copyRows t o false).2.2.2.finishUnits t stDone
      (s.copyRows t o false).2.1 (s.copyRows t o false).2.2.1 (s.copyRows t o false).1)) ∧
    (copyWay o.desc = .descending → execCopy t s = .next (((s.bump 0x6090 2).copyRows t o true).2.2.2.finishUnits t stDone
      ((s.bump 0x6090 2).copyRows t o true).2.1 ((s.bump 0x6090 2).copyRows t o true).2.2.1 ((s.bump 0x6090 2).copyRows t o true).1)) ∧
    (copyWay o.desc = .staged → execCopy t s = .next (((s.bump 0x6090 3).copyRows t o false).2.2.2.finishUnits t stStaged
      ((s.bump 0x6090 3).copyRows t o false).2.1 ((s.bump 0x6090 3).copyRows t o false).2.2.1 ((s.bump 0x6090 3).copyRows t o false).1)) ∧
    (copyWay o.desc = .alias_ → execCopy t s = .next ((s.bump 0x6090 4).endOp t stAlias 0 0 0)) ∧
    (copyWay o.desc = .tooLarge → execCopy t s = .next (s.endOp t stBad 5 0 0)) := by
  refine ⟨fun hway => ?_, fun hway => ?_, fun hway => ?_, fun hway => ?_, fun hway => ?_⟩
  all_goals
    simp only [execCopy, hrun, hway] <;> rfl

/-- A SLICE_READ delivers once its slices have arrived (R300). -/
theorem execSliceRead_runs (hrun : s.runCmd t .sliceRead = some o) :
    let r := s.fetchSlices t o.cls 0 (s.rangeSlices t (dSeq o.desc) (fld o.desc 12 2) (fld o.desc 16 4) [fld o.desc 20 1])
    execSliceRead t s = .next (if r.1 then (r.2.op? t).elim r.2 fun p => r.2.sliceReadDone t p else r.2) := by
  simp only [execSliceRead, hrun]
  rcases s.fetchSlices t o.cls 0 (s.rangeSlices t (dSeq o.desc) (fld o.desc 12 2) (fld o.desc 16 4) [fld o.desc 20 1]) with ⟨_ | _, w⟩
  · rfl
  · simp only [if_true]
    cases w.op? t <;> rfl

/-- A STAGE stages once its slices have arrived (R301). -/
theorem execStage_runs (hrun : s.runCmd t .stage = some o) :
    let m := if o.aux = 0 then s.stageMeter o (s.rangeSlices t (dSeq o.desc) (fld o.desc 12 2) (fld o.desc 16 4)
      ((List.range (fld o.desc 21 2)).map (· + fld o.desc 20 1))) else (o.todo, o.aux == 2, s)
    let v := (m.2.2.op? t).elim m.2.2 fun p => m.2.2.setOp t { p with aux := if m.2.1 then 2 else 1, todo := m.1 }
    let r := v.fetchSlices t o.cls 0 m.1
    execStage t s = .next (if r.1 then (r.2.op? t).elim r.2 fun p => r.2.stageDone t p m.1 m.2.1 else r.2) := by
  simp only [execStage, hrun]
  generalize (if o.aux = 0 then s.stageMeter o (s.rangeSlices t (dSeq o.desc) (fld o.desc 12 2) (fld o.desc 16 4)
      ((List.range (fld o.desc 21 2)).map (· + fld o.desc 20 1))) else (o.todo, o.aux == 2, s)) = m
  obtain ⟨ks, red, u⟩ := m
  cases u.op? t <;> simp only [Option.elim_none, Option.elim_some]
  all_goals
    split
    next hread => simp [hread]
    next w hread =>
      simp only [hread, if_true]
      cases w.op? t <;> rfl

end

/-- Settles O30: each operation by the branch its premises name. -/
theorem dataOperationsRun : Obligations.dataOperationsRun := by
  unfold Obligations.dataOperationsRun
  refine ⟨fun s t o => ⟨fun hrun => ?_, fun hrun => execCopy_runs hrun⟩, fun s t o => ⟨fun hrun hseq => ?_, fun dl hop hst => ⟨?_, ?_⟩,
    fun hrun => execSliceRead_runs hrun, fun hrun => execStage_runs hrun⟩⟩
  · rw [exec_nop, execNop, hrun]
  · obtain ⟨q, hq⟩ := Option.isSome_iff_exists.1 hseq
    simp only [exec_sliceWrite, execSliceWrite, hrun, hq]
  · simp only [exec_allocWaitResume, execAllocWaitResume, hop, hst]
  · simp only [exec_allocWaitTimeout, execAllocWaitTimeout, hop, hst]

/-- A fork of a good length starts from the search for a free SEQ, when no frame it would share is under recount (R303). -/
theorem execSeqFork_runs {s : State} {t k : Nat} {o : Op} {q : Seq} {x : State} (hrun : s.runCmd t .seqFork = some o)
    (hseq : (s.meterOp o).seqOf o.part (dSeq o.desc) = some q)
    (hlen : (if fld o.desc 12 4 = 0 then q.length else fld o.desc 12 4) ≤ q.length)
    (hfree : (s.meterOp o).forkBlocked q (if fld o.desc 12 4 = 0 then q.length else fld o.desc 12 4) = false)
    (hfound : (s.meterOp o).freeSeq = some (k, x)) :
    execSeqFork t s = .next (((q.leaves.filter fun e => e.1 < ((if fld o.desc 12 4 = 0 then q.length else fld o.desc 12 4) + 15) / 16).foldl
      (fun s e => s.forkLeaf (dSeq o.desc) k e.1 e.2)
      ((x.setSeq k {
        part := o.part, slot := q.slot, domain := q.domain, length := if fld o.desc 12 4 = 0 then q.length else fld o.desc 12 4
        pend := q.pend.filter fun e => e.1 < (if fld o.desc 12 4 = 0 then q.length else fld o.desc 12 4) / 16 }).touch
        (.seq k))).endOp t stDone 0 k 0) := by
  simp only [execSeqFork, hrun, hseq, if_neg (Nat.not_lt.2 hlen), hfree, hfound, Bool.false_eq_true, if_false]

/-- Settles O33: a fork finds a free SEQ exactly as an open does; the rest are the branches of the three commands. -/
theorem sequencesForkAndEnd : Obligations.sequencesForkAndEnd := by
  unfold Obligations.sequencesForkAndEnd
  intro s t o q w n l m hseq
  refine ⟨fun hrun hlen hblocked hfree => ?_, fun hrun hlen hblocked => ?_, fun hrun hlen => ?_, fun hrun hlen => ?_, fun hrun hlen => ?_,
    fun hrun => ?_⟩
  · obtain ⟨k, x, hassigned⟩ := State.exists_freeSeq hfree
    obtain ⟨hrec, hk⟩ := freeSeq_free w k x hassigned
    exact ⟨k, x, hassigned, hk, hrec, State.seqNamed_of_freeSeq hassigned, execSeqFork_runs hrun hseq hlen hblocked hassigned⟩
  · have hlen' : ¬ (if fld o.desc 12 4 = 0 then q.length else fld o.desc 12 4) > q.length := Nat.not_lt.2 hlen
    have hseq' : (s.meterOp o).seqOf o.part (dSeq o.desc) = some q := hseq
    have hblocked' : (s.meterOp o).forkBlocked q (if fld o.desc 12 4 = 0 then q.length else fld o.desc 12 4) = true := hblocked
    simp only [exec_seqFork, execSeqFork, hrun, hseq', if_neg hlen', hblocked', if_true]
    rfl
  · have hlen' : (if fld o.desc 12 4 = 0 then q.length else fld o.desc 12 4) > q.length := hlen
    have hseq' : (s.meterOp o).seqOf o.part (dSeq o.desc) = some q := hseq
    simp only [exec_seqFork, execSeqFork, hrun, hseq', if_pos hlen']
    rfl
  · have hlen' : ¬ fld o.desc 12 4 > q.length := Nat.not_lt.2 hlen
    have hseq' : (s.meterOp o).seqOf o.part (dSeq o.desc) = some q := hseq
    simp only [exec_seqTruncate, execSeqTruncate, hrun, hseq', if_neg hlen']
    simp only [w, n, l]
    cases ((((s.meterOp o).cutLeaves (dSeq o.desc) ((fld o.desc 12 4 + 15) / 16) (some t)).2.dropPend (dSeq o.desc)
      (· ≥ fld o.desc 12 4 / 16)).seq? (dSeq o.desc)) <;> rfl
  · have hlen' : fld o.desc 12 4 > q.length := hlen
    have hseq' : (s.meterOp o).seqOf o.part (dSeq o.desc) = some q := hseq
    simp only [exec_seqTruncate, execSeqTruncate, hrun, hseq', if_pos hlen']
    rfl
  · have hseq' : (s.meterOp o).seqOf o.part (dSeq o.desc) = some q := hseq
    simp only [exec_seqDiscard, execSeqDiscard, hrun, hseq']
    rfl

end Sys2Proof.Machine
end

section
/-! Searches and inspections, attention and its saves, and collectives (O34, O35, O36). -/

namespace Sys2Proof.Machine

/-- Settles O34: each search and inspection on a sequence it names. -/
theorem searchesAnswer : Obligations.searchesAnswer := by
  unfold Obligations.searchesAnswer
  intro s t o w n
  refine ⟨fun q c hrun hseq hchain => ?_, fun q c hrun hseq hchain => ?_, fun hrun => ?_, fun hrun => ?_,
    fun q hrun hseq => ?_, fun q hrun hseq => ?_, fun q hrun hseq => ?_, fun q hrun hseq hproj => ?_⟩
  · have hseq' : (s.meterOp o).seqOf o.part (dSeq o.desc) = some q := hseq
    have hchain' : (s.meterOp o).chain o = some c := hchain
    simp only [exec_chainSearchProbe, execChainSearchProbe, hrun, hseq', hchain']
  · have hseq' : (s.meterOp o).seqOf o.part (dSeq o.desc) = some q := hseq
    have hchain' : (s.meterOp o).chain o = some c := hchain
    simp only [exec_chainSearchAttach, execChainSearchAttach, hrun, hseq', hchain']
  · intro a x hwell hrange all r
    have hwell' : maskedReserved ((s.meterOp o).readIn o 0 (fld o.desc 8 8) 96).1 = none := hwell
    simp only [exec_maskedSearch, execMaskedSearch, hrun, hwell']
    exact congrArg (fun t : State => (.next t : Res)) (if_neg (Nat.not_lt.2 hrange))
  · simp only [exec_purgePrivate, execPurgePrivate, hrun]
    rfl
  · have hseq' : (s.meterOp o).seqOf o.part (dSeq o.desc) = some q := hseq
    simp only [exec_inspectSeq, execInspectSeq, hrun, hseq']
    rfl
  · have hseq' : (s.meterOp o).seqOf o.part (dSeq o.desc) = some q := hseq
    simp only [exec_inspectFrame, execInspectFrame, hrun, hseq']
    rfl
  · have hseq' : (s.meterOp o).seqOf o.part (dSeq o.desc) = some q := hseq
    simp only [exec_pipInspect, execPipInspect, hrun, hseq']
    rfl
  · have hseq' : (s.meterOp o).seqOf o.part (dSeq o.desc) = some q := hseq
    have hproj' : ((s.meterOp o).proj (((s.meterOp o).bound o.part q.slot).getD 0)).isEmpty = false := hproj
    refine ⟨fun hall => ?_, fun mk hmask hread => ?_⟩
    · simp only [exec_indexQuery, execIndexQuery, hrun, hseq', hproj', hall, if_true, Bool.false_eq_true, if_false]
      rfl
    · have hread' : (s.meterOp o).readMask o (fld o.desc 24 8) 1 = some mk := hread
      simp only [exec_indexQuery, execIndexQuery, hrun, hseq', hproj', hmask, hread', Bool.false_eq_true, if_false, Option.map_some]
      rfl

/-- An ATTEND forward computes once its slices have arrived (R246). -/
theorem execAttendForward_runs {s : State} {t : Nat} {o : Op} (hrun : s.attendAt t false = some o) :
    let b := s.forwardBegun t o
    let r := b.2.2.fetchSlices t 1 (o.todo.headD (0, 0)).2 b.2.1
    execAttendForward t s = .next (if r.1 then (r.2.op? t).elim r.2 fun p => r.2.forwardDone t p (o.todo.headD (0, 0)).2 b.1 else r.2) := by
  simp only [execAttendForward, hrun]
  split
  next hread => simp only [hread, Bool.false_eq_true, if_false]
  next w hread =>
    simp only [hread, if_true]
    cases w.op? t <;> rfl

/-- An ATTEND backward of a filled save computes once its slices have arrived (R247). -/
theorem execAttendBackward_runs {s : State} {t : Nat} {o : Op} {v : Save} (hrun : s.attendAt t true = some o) (hsave : s.takenSave t = some v)
    (hfilled : v.entries ≠ []) :
    let b := s.backwardBegun t o v
    let r := b.2.2.fetchSlices t 1 (o.todo.headD (0, 0)).2 b.2.1
    execAttendBackward t s =
      .next (if r.1 then (r.2.op? t).elim r.2 fun p => r.2.backwardDone t p v (o.todo.headD (0, 0)).2 b.2.1 b.1 else r.2) := by
  have hfilled' : ¬ v.entries.isEmpty = true := mt List.isEmpty_iff.1 hfilled
  simp only [execAttendBackward, hrun, hsave, if_neg hfilled']
  split
  next hread => simp only [hread, Bool.false_eq_true, if_false]
  next w hread =>
    simp only [hread, if_true]
    cases w.op? t <;> rfl

/-- R242, R243: with room for a command and a queue that is not empty, the head of the queue whose turn it is is dispatched. -/
theorem execAttendDispatch_runs {s : State} {p : Nat} {ds : Map Nat} {e : Nat × Op} {es : List (Nat × Op)}
    (hstone : s.boot.stone = false) (hroom : (s.q.ott.filter fun e => isMapped e.2).length < 2)
    (hsome : ((List.range 64).map fun p => (p, s.attendQueue p)).any (fun e => !e.2.isEmpty) = true)
    (hturn : dwrr (rotateTo (·.1) s.att.turn (((List.range 64).map fun p => (p, s.attendQueue p)).map fun e =>
        (e.1, e.2.head?.map (·.2.aux), s.obj (pIx e.1 0x1C) 1 16 * 4096, e.2.isEmpty)))
      ((rotateTo (·.1) s.att.turn (((List.range 64).map fun p => (p, s.attendQueue p)).map fun e =>
        (e.1, e.2.head?.map (·.2.aux), s.obj (pIx e.1 0x1C) 1 16 * 4096, e.2.isEmpty))).head?.map (·.1))
      (s.att.deficits.filter fun d => ((List.range 64).map fun p => (p, s.attendQueue p)).any fun e => e.1 == d.1 && !e.2.isEmpty)
      16385 = some (p, ds))
    (hhead : s.attendQueue p = e :: es) :
    let u := { s with att := { s.att with deficits := ds, turn := p } }.dispatchOp e.1 e.2
    execAttendDispatch s = .next (if (u.attendQueue p).isEmpty then { u with att := { u.att with deficits := merase u.att.deficits p } } else u) := by
  have hbusy : ¬ (s.boot.stone = true ∨ (s.q.ott.filter fun e => isMapped e.2).length ≥ 2 ∨
      ((List.range 64).map fun p => (p, s.attendQueue p)).all (·.2.isEmpty) = true) := by
    rintro (h | h | h)
    · exact absurd (hstone.symm.trans h) (by decide)
    · exact absurd hroom (Nat.not_lt.2 h)
    · obtain ⟨e, he, hne⟩ := List.any_eq_true.1 hsome
      simp [List.all_eq_true.1 h e he] at hne
  have hhead' (d : Map Nat) : State.attendQueue { s with att := { s.att with deficits := d, turn := p } } p = e :: es := hhead
  simp only [execAttendDispatch]
  refine congrArg (fun t : State => (.next t : Res)) ((if_neg hbusy).trans ?_)
  split
  next hnone => exact absurd (hnone.symm.trans hturn) (by simp)
  next p' ds' hsome' =>
    obtain ⟨rfl, rfl⟩ := Prod.mk.inj (Option.some.inj (hsome'.symm.trans hturn))
    simp only [hhead', List.head?_cons]

/-- Settles O35: the two halves of attention, the saves, and the dispatch. -/
theorem attentionIsDispatchedAndRuns : Obligations.attentionIsDispatchedAndRuns := by
  unfold Obligations.attentionIsDispatchedAndRuns
  refine ⟨fun s t o => ⟨fun hrun => execAttendForward_runs hrun, fun v hrun hsave hfilled => execAttendBackward_runs hrun hsave hfilled,
    fun v hrun hsave hempty => ?_, fun v hrun hsave hfree => ?_, fun hrun hnone => ?_, fun p id v hsave hold => ?_⟩, ?_⟩
  · simp only [exec_attendBackward, execAttendBackward, hrun, hsave, hempty, List.isEmpty_nil, if_true]
  · simp only [exec_saveDiscard, execSaveDiscard, hrun, hsave, hfree, List.isEmpty_nil, if_true]
  · simp only [exec_saveDiscard, execSaveDiscard, hrun, hnone]
  · simp only [exec_saveExpiry, execSaveExpiry, hsave, if_neg (Nat.not_lt.2 hold)]
  · intro s p ds e es qs live ms hstone hroom hsome hturn hhead
    exact execAttendDispatch_runs hstone hroom hsome hturn hhead

/-- Settles O36: contributions, and the three ways of a COLLECT. -/
theorem collectivesRun : Obligations.collectivesRun := by
  unfold Obligations.collectivesRun
  intro s t o
  refine ⟨fun hrun => ?_, fun hrun => ?_, fun e hrun hset hwithin => ?_, fun e hrun hset hbeyond => ?_, fun dl hop hst => ?_⟩
  · rw [exec_gather, execGather, hrun]
  · rw [exec_reduce, execReduce, hrun]
  · simp only [exec_collect, execCollect, hrun, hset]
    exact congrArg (fun t : State => (.next t : Res)) (if_neg (Nat.not_lt.2 hwithin))
  · simp only [exec_collect, execCollect, hrun, hset]
    exact congrArg (fun t : State => (.next t : Res)) (if_pos hbeyond)
  · simp only [exec_collectTimeout, execCollectTimeout, hop, hst]

end Sys2Proof.Machine
end

section
/-! The die operations and the timers of the media (O37). -/

namespace Sys2Proof.Machine

section
variable {s : State} {n : Nat} {op : DieOp}

/-- A page read that ends counts its outcome, is acted on by `readEnded`, and the die goes on. -/
theorem execPageReadDone_reads (out : ReadOutcome) (hrun : (s.die n).run = some op) (hkind : op.kind = 0) :
    execPageReadDone n out s = .next (((((((s.setDie n { s.die n with run := none }).countOutcome n op out).readUpkeep n (pnSb op.punnet)
      out).readEnded op (out == .uncorrectable || out == .mismatch)).upkeep n).kickDie n)) := by
  simp only [execPageReadDone, hrun, hkind, ne_eq, not_true, if_false]

theorem State.readEnded_page (w : State) (bad : Bool) {p : Nat} (hpage : op.page = some p) :
    w.readEnded op bad = if bad then w.pageFailed op p else w.pageLoaded p := by
  simp only [State.readEnded, hpage]

theorem State.readEnded_part (w : State) (bad : Bool) (hpage : op.page = none) (hlast : op.last = false) :
    w.readEnded op bad =
      if bad then { w with media := { w.media with spoiled := w.media.spoiled ++ [(op.tag, op.punnet * 16384 + op.off)] } } else w := by
  simp only [State.readEnded, hpage, hlast, Bool.not_false, if_true]

theorem State.readEnded_last (w : State) (bad : Bool) (hpage : op.page = none) (hlast : op.last = true) :
    w.readEnded op bad =
      if op.move then State.moveDone { w with media := { w.media with
          spoiled := w.media.spoiled.filter (· != (op.tag, op.punnet * 16384 + op.off)) } } op
          (bad || w.media.spoiled.contains (op.tag, op.punnet * 16384 + op.off))
      else State.readDone { w with media := { w.media with
          spoiled := w.media.spoiled.filter (· != (op.tag, op.punnet * 16384 + op.off)) } } op
          (bad || w.media.spoiled.contains (op.tag, op.punnet * 16384 + op.off)) := by
  simp only [State.readEnded, hpage, hlast, Bool.not_true, Bool.false_eq_true, if_false]

/-- A whole record that reads well goes to the operation that asked and to the tiers. -/
theorem State.readDone_good {w : State} {r : Rec} {t : Nat} (hrec : w.readRec op = some r) (htag : op.tag = some t) :
    w.readDone op false = (w.arrive t op.fid op.layer 0 r.data).promoteRead op.fid op.layer op.sub op.cls r.version r.data := by
  simp only [State.readDone, hrec, htag, Bool.false_eq_true, if_false]

/-- One that does not drops the T2 copy it was the current one of, and is told as MEDIA. -/
theorem State.readDone_bad {w : State} {r : Rec} {t : Nat} (hrec : w.readRec op = some r) (htag : op.tag = some t) :
    w.readDone op true = (if w.stillMapped op && r.version == (w.sliceOf op.fid op.layer).version then w.loseT2 op.fid op.layer else w).arrive
      t op.fid op.layer stMedia [] := by
  simp only [State.readDone, hrec, htag, if_true, Bool.and_eq_true, beq_iff_eq]

/-- An erase that ends well frees the superblock, counts in its die, and its punnets are gone. -/
def State.erased (s : State) (n : Nat) (op : DieOp) : State :=
  let w := (s.setDie n { s.die n with run := none }).setDie n { s.die n with
    run := none, sbs := merase (s.die n).sbs (pnSb op.punnet)
    erases := mset (s.die n).erases (pnSb op.punnet) ((s.die n).erase (pnSb op.punnet) + 1) }
  { w with media := { w.media with
    punnets := s.media.punnets.filter fun p => !(pnDie p.1 == n && pnSb p.1 == pnSb op.punnet)
    discards := s.media.discards.filter fun x => !(pnDie (x.1 / 16384) == n && pnSb (x.1 / 16384) == pnSb op.punnet) } }

theorem execSuperblockEraseDone_good (hrun : (s.die n).run = some op) (hkind : op.kind = 2) :
    execSuperblockEraseDone n true s =
      .next (((((s.erased n op).bump 0x6050 3).bump (0x6100 + n / 32) 3).retryPrograms.upkeep n).kickDie n) := by
  simp only [execSuperblockEraseDone, hrun, hkind, State.die_setDie, ne_eq, not_true, if_false, if_true]
  rfl

theorem State.die_erased : (s.erased n op).die n = { s.die n with
    run := none, sbs := merase (s.die n).sbs (pnSb op.punnet)
    erases := mset (s.die n).erases (pnSb op.punnet) ((s.die n).erase (pnSb op.punnet) + 1) } :=
  State.die_setDie ..

theorem State.mem_erased_punnets {p : Nat × Punnet} :
    p ∈ (s.erased n op).media.punnets ↔ p ∈ s.media.punnets ∧ ¬ (pnDie p.1 = n ∧ pnSb p.1 = pnSb op.punnet) := by
  simp [State.erased, Classical.or_iff_not_imp_left]

end

/-- The two limits of an open punnet's wait, of which the sooner counts (R166). -/
theorem State.flushAt_eq_min (s : State) (o : OpenP) :
    s.flushAt o = ((o.oldestDurable.map fun t => t + us (s.obj 0x1200 1 100)).toList ++
      (o.oldestMeta.map fun t => t + ms (s.obj 0x1200 2 100)).toList).min? := by
  unfold State.flushAt
  generalize o.oldestDurable.map _ = a
  generalize o.oldestMeta.map _ = b
  cases a <;> cases b <;> rfl

/-- Settles O37: each end and each timer by the branch its premises name. -/
theorem mediaOperationsAndTimersRun : Obligations.mediaOperationsAndTimersRun := by
  unfold Obligations.mediaOperationsAndTimersRun
  refine ⟨fun s n op hrun => ⟨fun out hkind => ⟨fun p hpage => ?_, fun hpage hlast => ?_, fun hpage hlast hmove => ?_,
    fun r t hpage hlast hmove hrec htag => ⟨fun hgood => ?_, fun hbad => ?_⟩⟩, fun hkind hroot => ?_, fun cp hkind hroot => ?_,
    fun hkind => ?_, fun hkind => ?_, fun hkind => ?_⟩,
    fun s n => ⟨fun o t hopen hmin => ?_, fun m r hmeta => ⟨fun hfull => ?_, fun hfull => ?_⟩, fun o hop hst hpage => ?_,
      fun o t hdie hresumed hdeferred => ?_, fun sb hot b hsb hst hold hrel => ?_, fun hmounted => ?_⟩⟩
  · rw [exec_pageReadDone, execPageReadDone_reads out hrun hkind, State.readEnded_page _ _ hpage]
  · rw [exec_pageReadDone, execPageReadDone_reads out hrun hkind, State.readEnded_part _ _ hpage hlast]
  · rw [exec_pageReadDone, execPageReadDone_reads out hrun hkind, State.readEnded_last _ _ hpage hlast, if_pos hmove]
  · rw [exec_pageReadDone, execPageReadDone_reads out hrun hkind, State.readEnded_last _ _ hpage hlast, if_neg (by simp [hmove]), hgood,
      State.readDone_good hrec htag]
  · rw [exec_pageReadDone, execPageReadDone_reads out hrun hkind, State.readEnded_last _ _ hpage hlast, if_neg (by simp [hmove]), hbad,
      State.readDone_bad hrec htag]
  · simp only [exec_punnetProgramDone, execPunnetProgramDone, hrun, hkind, hroot, ne_eq, not_true, if_false, if_true]
  · simp only [exec_punnetProgramDone, execPunnetProgramDone, hrun, hkind, hroot, ne_eq, not_true, if_false, if_true]
  · simp only [exec_punnetProgramDone, execPunnetProgramDone, hrun, hkind, ne_eq, not_true, if_false, Bool.false_eq_true]
  · simp only [exec_superblockEraseDone, execSuperblockEraseDone, hrun, hkind, ne_eq, not_true, if_false, Bool.false_eq_true]
  · refine ⟨s.erased n op, _, execSuperblockEraseDone_good hrun hkind, rfl, ?_, ?_, fun p hp => ?_, fun p hp hother => ?_⟩
    · rw [State.die_erased]
      exact mget?_merase _ _
    · rw [State.die_erased]
      exact mget_mset ..
    · exact (State.mem_erased_punnets.1 hp).2
    · exact State.mem_erased_punnets.2 ⟨hp, hother⟩
  · rw [exec_punnetFlushTimer, execPunnetFlushTimer]
    simp only [hopen, Option.bind_some, State.flushAt_eq_min, hmin]
  · have hfull' : (!(packMeta s.metaRec {} s.media.metaPend).2.isEmpty) = false := hfull
    simp only [exec_punnetFlushTimer, execPunnetFlushTimer, hmeta, hfull', Bool.false_eq_true, if_false]
  · have hfull' : (!(packMeta s.metaRec {} s.media.metaPend).2.isEmpty) = true := hfull
    simp only [exec_punnetFlushTimer, execPunnetFlushTimer, hmeta, hfull', if_true]
  · simp only [exec_mapCacheWaitResume, execMapCacheWaitResume, hop, hst, hpage, and_self, if_true]
  · simp only [exec_suspendHoldoffExpiry, execSuspendHoldoffExpiry, hdie, hresumed, hdeferred, if_true]
  · simp only [exec_retentionRefresh, execRetentionRefresh, hsb]
    exact congrArg (fun t : State => (.next t : Res)) (if_pos ⟨hst, hold, by rw [hrel]; rfl⟩)
  · simp only [exec_rootCheckpoint, execRootCheckpoint, hmounted, if_true]

end Sys2Proof.Machine
end

section
/-! Tiers, references and the CAM (O39), pips and arrays (O40). -/

namespace Sys2Proof.Machine

/-- Settles O39: each command by the branch its premises name. -/
theorem tiersReferencesAndCamFollow : Obligations.tiersReferencesAndCamFollow := by
  unfold Obligations.tiersReferencesAndCamFollow
  refine ⟨fun s fid layer => ⟨rfl, rfl, rfl, fun f hf hst hlow hsealed hflash hold => ?_, rfl⟩,
    fun s n k => ⟨rfl, rfl, fun f hf hrecount => ?_, fun hplacing => ?_, fun rows hgood => ?_, rfl⟩⟩
  · simp only [exec_writebackDelayExpiry, execWritebackDelayExpiry, hf, hst, hlow, hsealed, hflash, ge_iff_le, hold, Bool.not_false,
      and_self, if_true]
  · simp only [exec_frameRecountDone, execFrameRecountDone, hf, hrecount, Bool.not_true, Bool.false_eq_true, if_false]
  · rw [exec_camPlace, execCamPlace, if_pos (List.contains_iff_mem.2 hplacing)]
  · rw [exec_camScrub, execCamScrub, if_pos hgood]

/-- Settles O40: each command by the branch its premises name. -/
theorem indexFollows : Obligations.indexFollows := by
  unfold Obligations.indexFollows
  intro s n a
  refine ⟨fun span item y => ⟨fun j hjob => ⟨fun v htodo hread hvec => ?_, fun htodo hread hvec => ?_, fun htodo hread => ?_, fun htodo => ?_⟩,
      fun q k fs hjob hseq hneed => ?_⟩,
    fun codes hbusy => ?_, fun col i p hcol hpip hst hagain => ?_, fun g hg hgood hrun hwait => ?_, ?_, fun hst => ?_, fun hst hnew => ?_⟩
  · simp only [exec_pipComputeDone, execPipComputeDone, hjob, State.pipEnd, htodo, hread, hvec]
    rfl
  · simp only [exec_pipComputeDone, execPipComputeDone, hjob, State.pipEnd, htodo, hread, hvec]
    rfl
  · simp only [exec_pipComputeDone, execPipComputeDone, hjob, State.pipEnd, htodo, hread]
    rfl
  · have htodo' : ¬ j.todo.isEmpty = true := mt List.isEmpty_iff.1 htodo
    simp only [exec_pipComputeDone, execPipComputeDone, hjob, State.pipEnd, htodo', Bool.not_false, if_true]
  · simp only [exec_pipComputeDone, execPipComputeDone, hjob, hseq, hneed]
    generalize (s.pipLook n q item k fs) = w
    cases w.ix.jobs.find? _ <;> rfl
  · simp only [exec_pipProgramBatchDone, execPipProgramBatchDone, hbusy, Bool.not_true, Bool.false_eq_true, if_false]
  · simp only [exec_pipRefresh, execPipRefresh, if_neg (Nat.not_le.2 hcol), hpip, hst, hagain, List.isEmpty_nil, Bool.not_true, Bool.false_eq_true,
      ne_eq, not_true, or_self, if_false]
  · have hcol : 4096 + g ≥ 4096 := Nat.le_add_right ..
    have hmay : ¬ (4096 + g - 4096 ≥ 32 ∨ (s.anArray a).refRun.contains (4096 + g - 4096) = true ∨
        (s.anArray a).refWait.contains (4096 + g - 4096) = true ∨ (!s.arrayGood a) = true) := by
      rw [Nat.add_sub_cancel_left, hrun, hwait, hgood]
      simpa using hg
    rw [exec_pipRefresh, execPipRefresh, if_pos hcol]
    refine congrArg (fun t : State => (.next t : Res)) ((if_neg hmay).trans ?_)
    simp only [Nat.add_sub_cancel_left]
    rfl
  · intro v hgood hst w x
    have hmay : ¬ ((!s.arrayGood a) = true ∨ (!decide (v.st = 0 ∨ v.st = 2 ∧ v.reprogrammed = true)) = true) := by
      simp [hgood, hst]
    rw [exec_arrayCalibration, execArrayCalibration]
    exact congrArg (fun t : State => (.next t : Res)) (if_neg hmay)
  · rw [exec_arrayReprogramStart, execArrayReprogramStart, if_pos hst]
  · rw [exec_arrayReprogramDone, execArrayReprogramDone]
    exact congrArg (fun t : State => (.next t : Res)) (if_pos ⟨hst, by rw [hnew]; rfl⟩)

end Sys2Proof.Machine
end

section
/-! Plan positions, served ports and samples (O41). -/

namespace Sys2Proof.Machine

section
variable {w y z : State} {p n t : Nat} {j k : PlanJob}

/-- A position that can deliver nothing ends at once (R142). -/
theorem State.beginJob_bad {st : Nat} (hentry : w.jobEntry p n j = some (t, y)) (htag : y.jobTagged p n t j = (k, z))
    (hbad : z.jobBad p k = some st) : w.beginJob p n j = (z.endJob p n k.no).endOp t st 0 k.count 0 := by
  simp only [State.beginJob, hentry, htag, hbad]

/-- Any other goes out once its slices are read (R313). -/
theorem State.beginJob_reads (hentry : w.jobEntry p n j = some (t, y)) (htag : y.jobTagged p n t j = (k, z)) (hbad : z.jobBad p k = none) :
    let r := z.fetchSlices t k.cls 0 (z.pushReads p t k)
    w.beginJob p n j = if r.1 then (r.2.op? t).elim (r.2.endJob p n k.no) fun o => r.2.sendJob p n t k o else r.2 := by
  simp only [State.beginJob, hentry, htag, hbad]
  split
  next hread => simp only [hread, Bool.false_eq_true, if_false]
  next u hread =>
    simp only [hread, if_true]
    cases u.op? t <;> rfl

end

theorem State.beginJob_waits {w : State} {p n : Nat} {j : PlanJob} (hentry : w.jobEntry p n j = none) : w.beginJob p n j = w := by
  simp only [State.beginJob, hentry]

/-- A sample counts once, however many leaf queues it finds filled. -/
theorem execQueueSample_counts (s : State) : ∃ t, execQueueSample s = .next t ∧ t.tm.samples = s.tm.samples + 1 := by
  refine ⟨_, rfl, ?_⟩
  dsimp only
  refine List.foldlRecOn (motive := fun w : State => w.tm.samples = s.tm.samples + 1) _ _ rfl fun w hw e _ => ?_
  split <;> exact hw

/-- Settles O41: plan positions by the branch their premises name, the port by what its stages choose. -/
theorem positionsAndPortsAreServed : Obligations.positionsAndPortsAreServed := by
  unfold Obligations.positionsAndPortsAreServed
  intro s p n x dir
  refine ⟨fun j => ?_, fun j t => ?_, fun stage c sub b u w => ?_, fun hnone => ?_, fun sub c => rfl, execQueueSample_counts s⟩
  · intro w js hnext hready
    have hbegin : exec (.pushBegin p n) s = .next (w.beginJob p n j) := by
      simp only [w, js] at hnext hready
      simp only [exec_pushBegin, execPushBegin, hnext, hready, if_true]
      rfl
    refine ⟨fun t y hentry => ?_, fun hentry => ?_⟩
    · rw [hbegin]
      exact ⟨fun st hbad => congrArg (fun t : State => (.next t : Res)) (State.beginJob_bad hentry rfl hbad),
        fun hbad => congrArg (fun t : State => (.next t : Res)) (State.beginJob_reads hentry rfl hbad)⟩
    · rw [hbegin, State.beginJob_waits hentry]
  · intro w hjob htag hsent
    simp only [w] at hjob hsent
    simp only [exec_pushComplete, execPushComplete, hjob, htag, hsent, Bool.false_eq_true, if_false]
    rfl
  · intro sc hchosen
    simp only [sc] at hchosen
    refine ⟨fun hdie => ?_, fun d op hdie => ?_⟩
    · simp only [exec_portServeUnit, execPortServeUnit, hchosen, hdie]
      rfl
    · simp only [exec_portServeUnit, execPortServeUnit, hchosen, hdie]
      rfl
  · simp only [exec_portServeUnit, execPortServeUnit, hnone]

end Sys2Proof.Machine
end

section
/-! Function-level, port and partition resets (O42). -/

namespace Sys2Proof.Machine

theorem State.partOf_congr {s t : State} (hpart : t.part = s.part) (p : Nat) : t.partOf p = s.partOf p := by
  rw [State.partOf, State.partOf, hpart]

/-- The reset of a partition that is not in one marks it, with its time and cause; all after that keeps the partitions. -/
theorem State.beginReset_part {s : State} {p : Nat} (cause : Nat) (hst : (s.partOf p).st ≠ 2) :
    (s.beginReset p cause).part = (s.setPart p { s.partOf p with st := 2, resetAt := s.up, cause := cause, fresh := true }).part := by
  have hkeeps : Keeps [.out, .ctr, .media, .q, .ev, .lk, .tm, .dict]
      (s.setPart p { s.partOf p with st := 2, resetAt := s.up, cause := cause, fresh := true }) (s.beginReset p cause) := by
    unfold State.beginReset
    rw [if_neg hst]
    refine Keeps.step (State.endSessions_keeps ..) (by decide) ?_
    refine Keeps.step (State.dropSets_keeps ..) (by decide) ?_
    refine Keeps.step (State.dropHeld_keeps ..) (by decide) ?_
    refine Keeps.step (State.dropMessages_keeps ..) (by decide) ?_
    refine Keeps.foldl (fun w q hw => Keeps.step (State.stopQueue_keeps ..) (by decide) hw) Keeps.refl
  exact hkeeps.of .part (by decide)

theorem State.hasVf_setPort (s : State) (k q : Nat) : (s.setPort k {}).hasVf k q = false := by
  rw [State.hasVf, State.setPort, mget_mset]
  rfl

/-- A function-level reset of a virtual function, its registers reset, begins the reset of its partition. -/
theorem execFunctionLevelReset_vf {s : State} {k p : Nat} (hk : k < 2) (hvf : s.hasVf k p = true) :
    ∃ u : State, execFunctionLevelReset k (p + 1) s = .next (u.beginReset p (1 + k)) ∧ u.up = s.up ∧ ∀ j, u.partOf j = s.partOf j := by
  have hport : ¬ k > 1 := by omega
  have hpart : (s.resetFn k (p + 1)).part = s.part := (State.resetFn_keeps ..).of .part (by decide)
  simp only [execFunctionLevelReset, if_neg hport, Nat.add_sub_cancel, hvf, Nat.add_one_ne_zero, Bool.not_true, Bool.false_eq_true, if_false]
  refine ⟨_, rfl, (State.resetFn_keeps ..).of .up (by decide), fun j => ?_⟩
  exact State.partOf_congr hpart j

/-- A port's reset leaves it without virtual functions: what follows the new record of the port writes no port. -/
theorem State.hasVf_resetPort (s : State) (k q : Nat) : (s.resetPort k).hasVf k q = false := by
  unfold State.resetPort
  generalize (List.range 65).foldl (fun s fn => s.resetFn k fn) s = w
  dsimp only
  generalize (List.filter _ (List.map _ (List.filter _ (w.setPort k {}).q.queues))) = live
  have hports : ((live.map (· / 64)).eraseDups.foldl (fun s p => s.setPart p { s.partOf p with fresh := true })
      (w.setPort k {})).part.ports = (w.setPort k {}).part.ports :=
    List.foldlRecOn (motive := fun u : State => u.part.ports = (w.setPort k {}).part.ports) _ _ rfl fun u hu p _ => hu
  generalize (live.map (· / 64)).eraseDups.foldl (fun s p => s.setPart p { s.partOf p with fresh := true }) (w.setPort k {}) = u at hports ⊢
  have hkeeps : Keeps [.out, .ctr, .media, .q, .ev] u (live.foldl (fun s q => s.flushQueue q 2) u) :=
    Keeps.foldl (fun v q hv => Keeps.step (State.flushQueue_keeps ..) (by decide) hv) Keeps.refl
  have hpart := hkeeps.of .part (by decide)
  rw [← w.hasVf_setPort k q, State.hasVf, State.hasVf, ← hports]
  exact congrArg (fun v : Parts => decide (q < (mget v.ports k {}).vfs)) hpart

theorem State.part_of_mem_dropSaves {s : State} {p : Nat} {v : Save} (h : v ∈ (s.dropSaves p).att.saves) : v.part ≠ p := by
  have hkept := (List.mem_filter.1 (show v ∈ s.att.saves.filter fun v => v.part != p from h)).2
  exact bne_iff_ne.1 hkept

/-- The last steps of a partition's reset: its messages, its functions out of reset, and what is told of it. -/
def State.tellReset (s : State) (p : Nat) (a : EvArg) : State :=
  ((((((s.resetDone 0 p).resetDone 1 p).clearFlr p).pfVec 4).event 0x0012 a).bump (pIx p 0) 3).bump 0x1800 5

theorem State.tellReset_same (s : State) (p : Nat) (a : EvArg) :
    (s.tellReset p a).att = s.att ∧ (s.tellReset p a).part.parts = s.part.parts := by
  have hdone : Keeps [.out, .ctr, .q] s ((s.resetDone 0 p).resetDone 1 p) :=
    Keeps.step (State.resetDone_keeps ..) (by decide) (State.resetDone_keeps ..)
  have htold : Keeps [.out, .ctr, .media, .q, .ev] (((s.resetDone 0 p).resetDone 1 p).clearFlr p) (s.tellReset p a) := by
    unfold State.tellReset
    refine Keeps.step (State.bump_keeps ..) (by decide) ?_
    refine Keeps.step (State.bump_keeps ..) (by decide) ?_
    refine Keeps.step (State.event_keeps ..) (by decide) ?_
    exact Keeps.step (State.pfVec_keeps ..) (by decide) Keeps.refl
  constructor
  · exact (htold.of .att (by decide)).trans (hdone.of .att (by decide))
  · calc
      (s.tellReset p a).part.parts = (((s.resetDone 0 p).resetDone 1 p).clearFlr p).part.parts :=
        congrArg Parts.parts (htold.of .part (by decide))
      _ = ((s.resetDone 0 p).resetDone 1 p).part.parts := rfl
      _ = s.part.parts := congrArg Parts.parts (hdone.of .part (by decide))

/-- Partition `p` at the end of its reset, stopped and emptied, its saves gone. -/
def State.emptied (s : State) (p : Nat) : State :=
  let w := ((((s.q.ott.filter fun e => e.2.part == p && e.2.st != .recordWait).map (·.1)).foldl State.abortOp s).stopPlans p).dropPart p
  let w := ((w.q.ott.filter fun e => e.2.part == p).map (·.1)).foldl State.flushRecord w
  let w := { w with q := { w.q with queues := w.q.queues.filter fun e => e.1 / 64 != p } }
  (((w.tmResetEnd p).dropJobs fun j => j.part == p).dropSeqs p).dropSaves p

theorem State.saves_emptied (s : State) (p : Nat) : ∀ v ∈ (s.emptied p).att.saves, v.part ≠ p := by
  unfold State.emptied
  exact fun v hv => State.part_of_mem_dropSaves hv

theorem State.endReset_eq (s : State) (p : Nat) : ∃ a, s.endReset p =
    ((s.emptied p).setPart p { (s.emptied p).partOf p with
      st := if ((s.emptied p).part.setup.prot p).enabled then 1 else 0, held := [] }).tellReset p a :=
  ⟨_, rfl⟩

/-- The end of a reset leaves the partition out of reset (Table 11.7). -/
theorem State.partOf_endReset (s : State) (p : Nat) : ((s.endReset p).partOf p).st ≠ 2 := by
  obtain ⟨a, hend⟩ := s.endReset_eq p
  generalize hv : ({ (s.emptied p).partOf p with
    st := if ((s.emptied p).part.setup.prot p).enabled then 1 else 0, held := [] } : Part) = v at hend
  have hsame : (s.endReset p).partOf p = ((s.emptied p).setPart p v).partOf p := by
    rw [hend]
    exact congrArg (fun l => mget l p {}) (State.tellReset_same ..).2
  rw [hsame, State.partOf_setPart, ← hv]
  dsimp only
  split <;> decide

theorem State.saves_endReset (s : State) (p : Nat) : ∀ v ∈ (s.endReset p).att.saves, v.part ≠ p := by
  obtain ⟨a, hend⟩ := s.endReset_eq p
  rw [hend, (State.tellReset_same ..).1]
  exact s.saves_emptied p

/-- Settles O42: what a reset begins and ends with, followed through all that keeps the partitions. -/
theorem resetsRunTheirSteps : Obligations.resetsRunTheirSteps := by
  unfold Obligations.resetsRunTheirSteps
  intro s k p hk
  have hport : ¬ k > 1 := by omega
  refine ⟨fun hvf hst => ?_, ?_, fun cause hcause => ?_, ?_, fun q => s.hasVf_resetPort k q, fun hst => ?_, fun q f hflush => ?_⟩
  · obtain ⟨u, hexec, hup, hparts⟩ := execFunctionLevelReset_vf hk hvf
    have hbegin := State.beginReset_part (s := u) (1 + k) (by rw [hparts]; exact hst)
    have hpart (j : Nat) := State.partOf_congr hbegin j
    refine ⟨_, (exec_functionLevelReset ..).trans hexec, ?_, ?_, ?_, fun j hj => ?_⟩
    · rw [hpart, State.partOf_setPart]
    · rw [hpart, State.partOf_setPart]
      exact hup
    · rw [hpart, State.partOf_setPart]
    · rw [hpart, State.partOf_setPart_ne _ _ hj]
      exact hparts j
  · simp only [exec_functionLevelReset, execFunctionLevelReset, if_neg hport, if_true]
  · simp only [exec_portReset, execPortReset, if_neg hport, if_neg hcause]
  · simp only [exec_portReset, execPortReset, if_neg hport, if_true]
  · refine ⟨_, ?_, rfl, State.partOf_endReset _ _, State.saves_endReset _ _⟩
    simp only [exec_resetGraceExpiry, execResetGraceExpiry, hst, Bool.false_eq_true, if_false, if_true]
    rfl
  · simp only [exec_resetGraceExpiry, execResetGraceExpiry, hflush, if_true]
    rfl

end Sys2Proof.Machine
end

section
/-! Faults and background tests (O43). -/

namespace Sys2Proof.Machine

/-- Everything a fault does after its entry in the defect map leaves the map and the fences as they are. -/
theorem State.fault_boot {s : State} {kind field unit : Nat} (origin reason : Nat) (touched : List Nat) (lost : List Lost)
    (hcovered : s.covered kind field unit = false) :
    ∃ cls, (s.fault kind field unit origin reason touched lost).boot = (s.fenceNote cls kind field unit origin reason).boot := by
  unfold State.fault
  rw [if_neg (by rw [hcovered]; decide)]
  extract_lets old ts own ps big cls groups noted snap id listed held told moduleTold ended
  refine ⟨cls, ?_⟩
  have hlisted : Keeps (Fld.but [.boot]) noted listed :=
    Keeps.ite (Keeps.step (State.snapshot_keeps ..) (by decide) Keeps.refl) Keeps.refl
  have hheld : Keeps (Fld.but [.boot]) noted held :=
    Keeps.foldl (fun v g hv => Keeps.step (State.holdGroups_keeps ..) (by decide) hv) hlisted
  have htold : Keeps (Fld.but [.boot]) noted told :=
    Keeps.foldl (fun v p hv => Keeps.step (State.faultEvent_keeps ..) (by decide) hv) hheld
  have hmoduleTold : Keeps (Fld.but [.boot]) noted moduleTold :=
    Keeps.ite (Keeps.step (State.faultEvent_keeps ..) (by decide) htold) htold
  have hended : Keeps (Fld.but [.boot]) noted ended :=
    Keeps.step (State.faultOps_keeps ..) (by decide) hmoduleTold
  have hfenced : Keeps (Fld.but [.boot]) noted (old.fencePcie (old.fenceEffects ended kind field unit)) :=
    Keeps.step (State.fencePcie_keeps ..) (by decide) (Keeps.step (State.fenceEffects_keeps ..) (by decide) hended)
  have hlost : Keeps (Fld.but [.boot]) noted (lost.foldl State.loseStruct (old.fencePcie (old.fenceEffects ended kind field unit))) :=
    Keeps.foldl (fun v x hv => Keeps.step (State.loseStruct_keeps ..) (by decide) hv) hfenced
  exact hlost.of .boot (by decide)

theorem State.mem_fences_addEntry {s : State} {d e : Defect} : e ∈ (s.addEntry d).fences ↔ e ∈ s.fences ∨ e = d := by
  unfold State.addEntry
  split
  · simp [State.fences, or_comm, or_left_comm]
  · have hboot : (({ s with boot := { s.boot with heldFences := s.boot.heldFences ++ [d] } }.bump 0x7200 8).event 0x0062 {}).boot =
        { s.boot with heldFences := s.boot.heldFences ++ [d] } := (State.event_keeps ..).of .boot (by decide)
    simp [State.fences, hboot, or_assoc]

/-- A fault of a unit in service adds its entry to the fences, and drops none. -/
theorem State.mem_fences_fault {s : State} {kind field unit : Nat} (origin reason : Nat) (touched : List Nat) (lost : List Lost)
    (hcovered : s.covered kind field unit = false) :
    ∃ d : Defect, d.kind = kind ∧ d.field = field ∧ d.unit = unit ∧ d.origin = origin ∧ d.reason = reason ∧
      ∀ e, e ∈ (s.fault kind field unit origin reason touched lost).fences ↔ e ∈ s.fences ∨ e = d := by
  obtain ⟨cls, hboot⟩ := State.fault_boot origin reason touched lost hcovered
  let d : Defect := {
    kind := kind, origin := origin, field := field, reason := reason, unit := unit, powerOns := s.boot.powerOns
    uptime := (s.up - s.boot.startAt) / 1000000000 }
  refine ⟨d, rfl, rfl, rfl, rfl, rfl, fun e => ?_⟩
  have hnote : (s.fenceNote cls kind field unit origin reason).boot = (s.addEntry d).boot := (State.eventAs_keeps ..).of .boot (by decide)
  have hfences : (s.fault kind field unit origin reason touched lost).fences = (s.addEntry d).fences := by
    rw [State.fences, State.fences, hboot, hnote]
  rw [hfences]
  exact State.mem_fences_addEntry

/-- Settles O43: a covered unit changes nothing; of another the entry stays, and the rest of the fault keeps the map. -/
theorem faultsFenceTheirUnit : Obligations.faultsFenceTheirUnit := by
  unfold Obligations.faultsFenceTheirUnit
  intro s kind field unit reason touched lost
  refine ⟨fun hcovered => ?_, fun hcovered => ?_, fun rind => ?_⟩
  · rw [exec_faultFence, execFaultFence, State.fault, if_pos hcovered]
  · obtain ⟨d, hkind, hfield, hunit, horigin, hreason, hmem⟩ := State.mem_fences_fault 3 reason touched lost hcovered
    exact ⟨_, rfl, rfl, fun e he => (hmem e).2 (.inl he), d, (hmem d).2 (.inr rfl), hkind, hfield, hunit, horigin, hreason⟩
  · intro k g real
    refine ⟨fun hphase hpace hcovered hreal => ?_, fun pass hreal => ?_⟩
    · have htested : ¬ (s.boot.phase ≠ 8 ∨ s.obj 0xE000 1 24 = 0 ∨ s.covered k field unit = true ∨ (!real) = true) := by
        simp [hphase, hpace, hcovered, hreal]
      exact ⟨congrArg (fun t : State => (.next t : Res)) (if_neg htested), congrArg (fun t : State => (.next t : Res)) (if_neg htested)⟩
    · have hskipped : s.boot.phase ≠ 8 ∨ s.obj 0xE000 1 24 = 0 ∨ s.covered k field unit = true ∨ (!real) = true := by
        simp [hreal]
      exact congrArg (fun t : State => (.next t : Res)) (if_pos hskipped)

end Sys2Proof.Machine
end

section
/-! The reference inputs and the oscillator mesh (O44). -/

namespace Sys2Proof.Machine

theorem State.refSt_congr {s t : State} (hclk : t.clk = s.clk) (k : Nat) : t.refSt k = s.refSt k := by
  rw [State.refSt, State.refSt, hclk]

/-- A pull-in that begins changes nothing but the input it goes to. -/
theorem State.pullIn_same (s : State) : (∀ k, s.pullIn.refSt k = s.refSt k) ∧ s.pullIn.clk.mesh = s.clk.mesh ∧
    s.pullIn.clk.active = s.clk.active ∧ s.pullIn.up = s.up := by
  unfold State.pullIn
  split <;> exact ⟨fun _ => rfl, rfl, rfl, rfl⟩

theorem State.pullIn_of_busy {s : State} (h : s.clk.mesh = .locked ∨ s.clk.pull.isSome = true) : s.pullIn = s := by
  refine if_neg ?_
  rintro ⟨hmesh, hpull⟩
  rcases h with h | h
  · exact hmesh h
  · simp [hpull] at h

theorem State.pullIn_of_idle {s : State} (hmesh : s.clk.mesh ≠ .locked) (hpull : s.clk.pull = none) :
    s.pullIn = { s with clk := { s.clk with pull := s.choose } } :=
  if_pos ⟨hmesh, hpull⟩

theorem State.refSt_of_choose {s : State} {k : Nat} (h : s.choose = some k) : s.refSt k = .qualified := by
  have hboth := List.find?_some h
  simp only [Bool.and_eq_true, beq_iff_eq] at hboth
  exact hboth.2

theorem State.pullIn_ne_some {s : State} {k : Nat} (hpull : s.clk.pull ≠ some k) (hst : s.refSt k ≠ .qualified) :
    s.pullIn.clk.pull ≠ some k := by
  unfold State.pullIn
  split
  · exact fun h => hst (State.refSt_of_choose h)
  · exact hpull

theorem State.enterHoldover_clk (s : State) : s.enterHoldover.clk = { s.clk with
    mesh := .holdover, lostRef := s.clk.active, active := none, since := some s.up, holdAt := s.up, dayTold := false } :=
  (State.event_keeps ..).of .clk (by decide)

/-- An input has just been lost, before the mesh reacts: a pull-in to it ends. -/
def State.inputLost (s : State) (k : Nat) : State :=
  let w := (s.setRef k .lost).bump 0x1903 1
  if s.clk.pull = some k then { w with clk := { w.clk with pull := none } } else w

section
variable {s : State} {k : Nat}

theorem State.inputLost_clk : (s.inputLost k).clk =
    { s.clk with refs := mset s.clk.refs k (.lost, s.up), pull := if s.clk.pull = some k then none else s.clk.pull } := by
  by_cases hpull : s.clk.pull = some k
  · simp only [State.inputLost, if_pos hpull]
    rfl
  · simp only [State.inputLost, if_neg hpull]
    rfl

theorem State.refSt_inputLost : (s.inputLost k).refSt k = .lost := by
  rw [State.refSt, State.inputLost_clk, mget_mset]

theorem State.inputLost_pull_ne : (s.inputLost k).clk.pull ≠ some k := by
  rw [State.inputLost_clk]
  dsimp only
  split
  · exact nofun
  · assumption

theorem State.refLost_eq (hst : s.refSt k = .pending ∨ s.refSt k = .qualified) :
    s.refLost k = (if s.clk.active = some k then (s.inputLost k).enterHoldover else s.inputLost k).pullIn := by
  have hactive : (s.inputLost k).clk.active = s.clk.active := by rw [State.inputLost_clk]
  rw [← hactive]
  exact if_pos hst

end

/-- Locking to an input changes the clocks, and off HOLDOVER nothing else. -/
theorem State.lockTo_off_holdover {s : State} (k : Nat) (hmesh : s.clk.mesh ≠ .holdover) : ∃ c, s.lockTo k = { s with clk := c } := by
  unfold State.lockTo
  exact ⟨_, if_neg hmesh⟩

theorem State.lockTo_locks (s : State) (k : Nat) : (s.lockTo k).clk.mesh = .locked ∧ (s.lockTo k).clk.active = some k ∧
    (s.lockTo k).clk.pull = none ∧ (s.lockTo k).now = s.now := by
  unfold State.lockTo
  dsimp only
  split
  · have hkeeps (w : State) (a : EvArg) : (w.event 0x0051 a).clk = w.clk ∧ (w.event 0x0051 a).now = w.now :=
      ⟨(State.event_keeps ..).of .clk (by decide), (State.event_keeps ..).of .now (by decide)⟩
    simp only [hkeeps]
    split <;> exact ⟨rfl, rfl, rfl, rfl⟩
  · exact ⟨rfl, rfl, rfl, rfl⟩

/-- Settles O44: each row of the tables by the branch its premise names. -/
theorem clocksFollowTheirTables : Obligations.clocksFollowTheirTables := by
  unfold Obligations.clocksFollowTheirTables
  refine ⟨fun s k => ⟨fun hk hst hgood => ?_, fun hst => ?_, fun hst => ?_, fun hst => ?_⟩,
    fun s => ⟨fun k hpull => ?_, fun hmesh htold => ?_, fun hnot => ?_, fun hcrystal => ?_, fun field hcovered => ?_⟩⟩
  · rw [exec_refEdgesPresent, execRefEdgesPresent, if_pos ⟨hk, hst, by rw [hgood]; rfl⟩]
    exact ⟨_, rfl, State.refSt_setRef .., rfl⟩
  · rw [exec_refQualifyTimer, execRefQualifyTimer, if_pos hst]
    have hclk : (s.timeTo ((mget s.clk.refs k (.absent, 0)).2 + ms 10)).clk = s.clk := rfl
    have hlate : (s.timeTo ((mget s.clk.refs k (.absent, 0)).2 + ms 10)).up = max s.up ((mget s.clk.refs k (.absent, 0)).2 + ms 10) := rfl
    generalize s.timeTo ((mget s.clk.refs k (.absent, 0)).2 + ms 10) = w at hclk hlate ⊢
    rw [← hclk]
    obtain ⟨hrefs, -, -, hup⟩ := (w.setRef k .qualified).pullIn_same
    refine ⟨_, rfl, ?_, ?_, ?_, ?_⟩
    · rw [hrefs, State.refSt_setRef]
    · rw [hup, hclk]
      exact hlate
    · intro hbusy
      rw [State.pullIn_of_busy (s := w.setRef k .qualified) hbusy]
      rfl
    · intro hmesh hidle
      rw [State.pullIn_of_idle (s := w.setRef k .qualified) hmesh hidle]
      rfl
  · rw [exec_refAbsentTimer, execRefAbsentTimer, if_pos hst]
    exact ⟨_, rfl, State.refSt_setRef .., rfl⟩
  · rw [exec_refLoss, execRefLoss, State.refLost_eq hst]
    by_cases hactive : s.clk.active = some k
    · rw [if_pos hactive]
      obtain ⟨hrefs, hmesh, hnone, -⟩ := (s.inputLost k).enterHoldover.pullIn_same
      have hheld := (s.inputLost k).enterHoldover_clk
      have href : (s.inputLost k).enterHoldover.refSt k = .lost := by
        rw [State.refSt, hheld]
        exact State.refSt_inputLost
      refine ⟨_, rfl, (hrefs k).trans href, State.pullIn_ne_some ?_ (by rw [href]; exact nofun), fun _ => ⟨?_, ?_⟩, fun h => absurd hactive h⟩
      · rw [hheld]
        exact State.inputLost_pull_ne
      · rw [hmesh, hheld]
      · rw [hnone, hheld]
    · rw [if_neg hactive]
      obtain ⟨hrefs, hmesh, hsame, -⟩ := (s.inputLost k).pullIn_same
      refine ⟨_, rfl, (hrefs k).trans State.refSt_inputLost, State.pullIn_ne_some State.inputLost_pull_ne ?_, fun h => absurd h hactive,
        fun _ => ⟨?_, ?_⟩⟩
      · rw [State.refSt_inputLost]
        exact nofun
      · rw [hmesh, State.inputLost_clk]
      · rw [hsame, State.inputLost_clk]
  · obtain ⟨hmesh, hactive, hnone, hnow⟩ := s.lockTo_locks k
    simp only [exec_meshPullInDone, execMeshPullInDone, hpull]
    refine ⟨_, rfl, hmesh, hactive, hnone, hnow, fun hoff => ?_⟩
    obtain ⟨c, hlock⟩ := State.lockTo_off_holdover k hoff
    rw [hlock]
  · have hdue : s.clk.mesh = .holdover ∧ (!s.clk.dayTold) = true := ⟨hmesh, by rw [htold]; rfl⟩
    rw [exec_holdover24h, execHoldover24h, if_pos hdue]
    rfl
  · have hdue : ¬ (s.clk.mesh = .holdover ∧ (!s.clk.dayTold) = true) := by
      rintro ⟨hmesh, htold⟩
      rcases hnot with h | h
      · exact h hmesh
      · simp [h] at htold
    rw [exec_holdover24h, execHoldover24h, if_neg hdue]
  · rw [exec_clockFault, execClockFault, if_pos hcrystal]
  · intro u
    refine ⟨fun href => ?_, fun k href => ?_⟩
    · simp only [exec_positionsDecoupled, execPositionsDecoupled, hcovered, Bool.false_eq_true, if_false, href]
      rfl
    · simp only [exec_positionsDecoupled, execPositionsDecoupled, hcovered, Bool.false_eq_true, if_false, href]
      rfl

end Sys2Proof.Machine
end

section
/-! Power-on, the phases of a start, failures and settling (O45). -/

namespace Sys2Proof.Machine

/-- What the records and images of a start do not touch: the straps, the counts, where the start stands, and the power. -/
structure State.SameStart (s t : State) : Prop where
  straps : t.boot.straps = s.boot.straps
  partCount : t.boot.partCount = s.boot.partCount
  powerOns : t.boot.powerOns = s.boot.powerOns
  starts : t.boot.starts = s.boot.starts
  phase : t.boot.phase = s.boot.phase
  ready : t.boot.ready = s.boot.ready
  waiting : t.boot.waiting = s.boot.waiting
  pwr : t.pwr = s.pwr

namespace State.SameStart

theorem refl (s : State) : s.SameStart s := ⟨rfl, rfl, rfl, rfl, rfl, rfl, rfl, rfl⟩

theorem trans {a b c : State} (h : a.SameStart b) (g : b.SameStart c) : a.SameStart c :=
  ⟨g.straps.trans h.straps, g.partCount.trans h.partCount, g.powerOns.trans h.powerOns, g.starts.trans h.starts, g.phase.trans h.phase,
    g.ready.trans h.ready, g.waiting.trans h.waiting, g.pwr.trans h.pwr⟩

theorem of_boot {s t : State} (hboot : t.boot = s.boot) (hpwr : t.pwr = s.pwr) : s.SameStart t := by
  constructor
  case pwr => exact hpwr
  all_goals rw [hboot]

end State.SameStart

theorem State.sameStart_rejectTrial (s : State) : s.SameStart s.rejectTrial := ⟨rfl, rfl, rfl, rfl, rfl, rfl, rfl, rfl⟩

theorem State.sameStart_attempt (s : State) (f : Attempt → Attempt) : s.SameStart (s.attempt f) := by
  unfold State.attempt
  split
  · exact .refl s
  · exact ⟨rfl, rfl, rfl, rfl, rfl, rfl, rfl, rfl⟩

theorem State.sameStart_closeAttempt (s : State) : s.SameStart s.closeAttempt := by
  have hrecord (as : List Attempt) (n : Nat) : s.SameStart { s with boot := { s.boot with attempts := as, fails := n } } :=
    ⟨rfl, rfl, rfl, rfl, rfl, rfl, rfl, rfl⟩
  unfold State.closeAttempt
  split
  · exact .refl s
  · split
    · dsimp only
      split
      · exact (hrecord _ _).trans (State.sameStart_rejectTrial _)
      · exact hrecord _ _
    · split
      · split
        · exact s.sameStart_rejectTrial
        · exact ⟨rfl, rfl, rfl, rfl, rfl, rfl, rfl, rfl⟩
      · exact .refl s

theorem State.sameStart_failStart (s : State) (p reason detail : Nat) : s.SameStart (s.failStart p reason detail) := by
  have hrecord (w : State) (n : Nat) (f b : Bool) (at_ : Nat) :
      w.SameStart { w with boot := { w.boot with fails := n, failed := f, phaseAt := at_, stoneNext := b } } :=
    ⟨rfl, rfl, rfl, rfl, rfl, rfl, rfl, rfl⟩
  unfold State.failStart
  dsimp only
  split
  · exact ((s.sameStart_attempt _).trans (hrecord _ _ _ _ _)).trans (State.sameStart_rejectTrial _)
  · exact (s.sameStart_attempt _).trans (hrecord _ _ _ _ _)

theorem State.sameStart_selectImage (s : State) : s.SameStart s.selectImage.2 := by
  unfold State.selectImage
  split
  · refine List.foldlRecOn (motive := fun w : State => s.SameStart w) _ _ (.refl s) fun w hw k _ => ?_
    dsimp only
    split
    · exact hw
    · exact hw.trans ⟨rfl, rfl, rfl, rfl, rfl, rfl, rfl, rfl⟩
  · exact .refl s

/-- No start begins without a NOR device and a start controller (R446). -/
theorem State.beginStart_waits {s : State} {nor ctl : Nat} (hnor : nor < 4) (hctl : ctl < 4) (h : nor = 0 ∨ ctl = 0) :
    s.beginStart nor ctl = { s with boot := { s.boot with nor := nor, ctl := ctl, waiting := true } } := by
  unfold State.beginStart
  rw [Nat.mod_eq_of_lt hnor, Nat.mod_eq_of_lt hctl]
  exact if_pos h

/-- A start that begins stands at its first phase and is counted; the records, the image and the events of its begin keep that. -/
theorem State.beginStart_begins {s : State} {nor ctl : Nat} (hnor : nor < 4) (hctl : ctl < 4) (hsome : nor ≠ 0) (hboth : ctl ≠ 0) :
    State.SameStart { s with boot := { s.boot with phase := 1, starts := min (2 ^ 32 - 1) (s.boot.starts + 1) } } (s.beginStart nor ctl) := by
  unfold State.beginStart
  rw [Nat.mod_eq_of_lt hnor, Nat.mod_eq_of_lt hctl]
  extract_lets before given after closed why stone fmt
  rw [if_neg (by rintro (h | h) <;> contradiction)]
  have hgiven : s.SameStart given := ⟨rfl, rfl, rfl, rfl, rfl, rfl, rfl, rfl⟩
  have hselected : s.SameStart closed.selectImage.2 := (hgiven.trans given.sameStart_closeAttempt).trans closed.sameStart_selectImage
  generalize closed.selectImage = sel at hselected ⊢
  obtain ⟨img, v⟩ := sel
  dsimp -zeta only at hselected ⊢
  extract_lets k b starts a begun counted applied events numbered told
  have hbegun : State.SameStart { s with boot := { s.boot with phase := 1, starts := min (2 ^ 32 - 1) (s.boot.starts + 1) } } begun :=
    ⟨hselected.straps, hselected.partCount, hselected.powerOns, congrArg (fun n => min (2 ^ 32 - 1) (n + 1)) hselected.starts, rfl,
      hselected.ready, hselected.waiting, hselected.pwr⟩
  have hcounted : begun.SameStart counted := by
    simp only [counted]
    split <;> exact ⟨rfl, rfl, rfl, rfl, rfl, rfl, rfl, rfl⟩
  have hnumbered : counted.SameStart numbered := ⟨rfl, rfl, rfl, rfl, rfl, rfl, rfl, rfl⟩
  have htold : numbered.SameStart told := by
    simp only [told]
    split
    · exact .refl _
    · exact .of_boot ((State.event_keeps ..).of .boot (by decide)) ((State.event_keeps ..).of .pwr (by decide))
  have hbegins := ((hbegun.trans hcounted).trans hnumbered).trans htold
  split
  · exact hbegins.trans (told.sameStart_failStart ..)
  · exact hbegins

/-- What power-on latches before a start begins (R421, R422). -/
def State.latched (s : State) (straps : Nat) : State :=
  { s.wiped with
    boot := { s.wiped.boot with
      straps := straps, pins := straps, partCount := strapParts straps, fmtDone := false
      powerOns := min (2 ^ 32 - 1) (s.wiped.boot.powerOns + 1), stoneNext := false }
    pwr := { s.wiped.pwr with rails := true, fail := false, tripped := false } }

/-- A power-on begins a start on the latched state; a strap word that names no count of partitions is told. -/
theorem execPowerOnReset_starts (s : State) {straps : Nat} (nor ctl : Nat) (hstraps : straps < 2 ^ 18) :
    ∃ t, execPowerOnReset straps nor ctl s = .next t ∧ ((s.latched straps).beginStart nor ctl).SameStart t := by
  unfold execPowerOnReset
  rw [Nat.mod_eq_of_lt hstraps]
  refine ⟨if bits straps 7 3 = 7 ∧ !((s.latched straps).beginStart nor ctl).boot.waiting then
      ((s.latched straps).beginStart nor ctl).event 0x0060 { params := [straps] } else (s.latched straps).beginStart nor ctl, rfl, ?_⟩
  split
  · exact .of_boot ((State.event_keeps ..).of .boot (by decide)) ((State.event_keeps ..).of .pwr (by decide))
  · exact .refl _

/-- A phase is under way (R423). -/
structure State.InPhase (s : State) : Prop where
  low : 1 ≤ s.boot.phase
  high : s.boot.phase < 8
  goes : s.boot.failed = false
  starting : s.boot.ready = false

theorem State.InPhase.not_idle {s : State} (h : s.InPhase) :
    ¬ (s.boot.phase = 0 ∨ s.boot.phase ≥ 8 ∨ s.boot.failed = true ∨ s.boot.ready = true) := by
  obtain ⟨hlow, hhigh, hgoes, hstarting⟩ := h
  rintro (h | h | h | h)
  · omega
  · omega
  · simp [hgoes] at h
  · simp [hstarting] at h

theorem State.advance_phase (t : State) : t.advance.boot.phase =
    if t.boot.stone ∧ t.boot.phase = 7 then 7 else if t.boot.stone ∧ t.boot.phase = 4 then 7 else t.boot.phase + 1 :=
  (State.sameStart_attempt ..).phase

/-- A failure stops the start, and counts outside stone mode (R424). -/
theorem State.failStart_fails (s : State) (p reason detail : Nat) : (s.failStart p reason detail).boot.failed = true ∧
    (s.failStart p reason detail).boot.fails = if s.boot.stone then s.boot.fails else min 255 (s.boot.fails + 1) := by
  have hattempt (f : Attempt → Attempt) : (s.attempt f).boot.stone = s.boot.stone ∧ (s.attempt f).boot.fails = s.boot.fails := by
    unfold State.attempt
    split <;> exact ⟨rfl, rfl⟩
  unfold State.failStart
  dsimp only
  split
  · refine ⟨rfl, ?_⟩
    simp only [State.rejectTrial, hattempt]
  · refine ⟨rfl, ?_⟩
    simp only [hattempt]

/-- Committing the image that was tried keeps the records of the starts. -/
theorem State.commitTrial_same (s : State) :
    s.commitTrial.boot.fails = s.boot.fails ∧ s.commitTrial.boot.attempts = s.boot.attempts ∧ s.commitTrial.up = s.up := by
  unfold State.commitTrial
  dsimp only
  split <;> exact ⟨rfl, rfl, rfl⟩

theorem State.attempt_outcome {s : State} (n : Nat) (hsome : s.boot.attempts ≠ []) :
    (s.attempt fun a => { a with outcome := n }).boot.attempts.head?.map (·.outcome) = some n := by
  unfold State.attempt
  split
  · contradiction
  · rfl

theorem State.attempt_up (s : State) (f : Attempt → Attempt) : (s.attempt f).up = s.up := by
  unfold State.attempt
  split <;> rfl

/-- The start has settled (Table 13.3): its record says so, and no failure counts any more. -/
def State.settled (s : State) : State :=
  let w := (s.timeTo (s.boot.readyAt + sec 60)).attempt fun a => { a with outcome := 2 }
  { w with boot := { w.boot with fails := 0 } }

section
variable {s : State}

theorem State.settled_settles (hready : (s.boot.attempts.head?.map (·.outcome)) = some 1) :
    s.settled.boot.fails = 0 ∧ s.settled.boot.attempts.head?.map (·.outcome) = some 2 ∧ s.settled.up = max s.up (s.boot.readyAt + sec 60) := by
  have hsome : s.boot.attempts ≠ [] := by
    intro hnil
    simp [hnil] at hready
  exact ⟨rfl, State.attempt_outcome (s := s.timeTo (s.boot.readyAt + sec 60)) 2 hsome, State.attempt_up ..⟩

theorem execStartSettle_settles (hphase : s.boot.phase = 8) (hready : (s.boot.attempts.head?.map (·.outcome)) = some 1) :
    execStartSettle s = .next s.settled ∨ execStartSettle s = .next s.settled.commitTrial := by
  unfold execStartSettle
  rw [if_pos ⟨hphase, hready⟩]
  by_cases htrial : (s.boot.attempts.head?.map (·.trial)).getD false = true
  · exact .inr (congrArg (fun t : State => (.next t : Res)) (if_pos htrial))
  · exact .inl (congrArg (fun t : State => (.next t : Res)) (if_neg htrial))

end

/-- Settles O45: the begin of a start through `SameStart`, its phases by their branches, and the two ways it ends. -/
theorem startsBeginAndRun : Obligations.startsBeginAndRun := by
  unfold Obligations.startsBeginAndRun
  constructor
  · intro s straps nor ctl hstraps hnor hctl
    obtain ⟨t, hexec, hsame⟩ := execPowerOnReset_starts s nor ctl hstraps
    have hlatched : t.boot.straps = straps ∧ t.boot.partCount = strapParts straps ∧
        t.boot.powerOns = min (2 ^ 32 - 1) (s.boot.powerOns + 1) ∧ t.pwr.rails = true ∧ t.pwr.fail = false ∧ t.boot.ready = false ∧
        (nor ≠ 0 → ctl ≠ 0 → t.boot.phase = 1 ∧ t.boot.starts = min (2 ^ 32 - 1) (s.boot.starts + 1) ∧ t.boot.waiting = false) ∧
        (nor = 0 ∨ ctl = 0 → t.boot.phase = 0 ∧ t.boot.starts = s.boot.starts ∧ t.boot.waiting = true) := by
      by_cases hwaits : nor = 0 ∨ ctl = 0
      · rw [State.beginStart_waits hnor hctl hwaits] at hsame
        exact ⟨hsame.straps, hsame.partCount, hsame.powerOns, congrArg Power.rails hsame.pwr, congrArg Power.fail hsame.pwr, hsame.ready,
          fun h g => by omega, fun _ => ⟨hsame.phase, hsame.starts, hsame.waiting⟩⟩
      · have hbegun := (State.beginStart_begins (s := s.latched straps) hnor hctl (fun h => hwaits (.inl h)) fun h => hwaits (.inr h)).trans hsame
        exact ⟨hbegun.straps, hbegun.partCount, hbegun.powerOns, congrArg Power.rails hbegun.pwr, congrArg Power.fail hbegun.pwr, hbegun.ready,
          fun _ _ => ⟨hbegun.phase, hbegun.starts, hbegun.waiting⟩, fun h => absurd h hwaits⟩
    obtain ⟨hpins, hparts, hons, hrails, hfail, hready, hbegins, hwaits⟩ := hlatched
    refine ⟨t, (exec_powerOnReset ..).trans hexec, hpins, hparts, hons, hrails, hfail, hready, hbegins, hwaits, fun hwaiting => ?_⟩
    rw [exec_norRetry, execNorRetry, if_pos hwaiting]
    rfl
  · intro s found reason detail p u
    refine ⟨fun hlow hhigh hgoes hnot => ?_, (s.failStart_fails ..).1, fun hstone => ?_, fun hstone => ?_, fun hfailed => ?_,
      fun hphase hready => ?_⟩
    · have hidle := (State.InPhase.mk hlow hhigh hgoes hnot).not_idle
      refine ⟨fun hreason hown => ?_, fun t hreason hholds hdone => ⟨?_, t.advance_phase⟩, fun e hreason hholds hfails => ?_, ?_⟩
      · simp only [exec_startPhaseComplete, execStartPhaseComplete, if_neg hidle]
        exact congrArg (fun t : State => (.next t : Res)) (if_pos ⟨hreason, hown⟩)
      · have hholds' : (found.foldl State.fenceFound s).criterion s.boot.phase = true := hholds
        have hdone' : (found.foldl State.fenceFound s).phaseDone s.boot.phase = .ok t := hdone
        simp only [exec_startPhaseComplete, execStartPhaseComplete, if_neg hidle, hreason, ne_eq, not_true, false_and, if_false, hholds',
          Bool.not_true, Bool.false_eq_true, hdone']
      · have hholds' : (found.foldl State.fenceFound s).criterion s.boot.phase = true := hholds
        have hfails' : (found.foldl State.fenceFound s).phaseDone s.boot.phase = .error e := hfails
        simp only [exec_startPhaseComplete, execStartPhaseComplete, if_neg hidle, hreason, ne_eq, not_true, false_and, if_false, hholds',
          Bool.not_true, Bool.false_eq_true, hfails']
        rfl
      · simp only [exec_startPhaseBudgetExpiry, execStartPhaseBudgetExpiry, if_neg hidle]
        rfl
    · rw [(s.failStart_fails ..).2, if_neg (by rw [hstone]; decide)]
    · rw [(s.failStart_fails ..).2, if_pos hstone]
    · rw [exec_startFailRestart, execStartFailRestart, if_pos hfailed]
    · obtain ⟨hfails, houtcome, hup⟩ := State.settled_settles hready
      rw [exec_startSettle]
      rcases execStartSettle_settles hphase hready with hplain | htrial
      · exact ⟨_, hplain, hfails, houtcome, hup⟩
      · obtain ⟨hfails', hattempts, hup'⟩ := s.settled.commitTrial_same
        exact ⟨_, htrial, hfails'.trans hfails, by rw [hattempts]; exact houtcome, hup'.trans hup⟩

end Sys2Proof.Machine
end

section
/-! Power-fail, loss and return of power (O46), the sensors (O47). -/

namespace Sys2Proof.Machine

section
variable {s : State}

theorem State.powerFailed_asserts (mv : Nat) (hfail : s.pwr.fail = false) (hrails : s.pwr.rails = true) :
    (s.powerFailed mv).pwr = { s.pwr with fail := true, failAt := s.up } ∧ (s.powerFailed mv).boot = s.boot := by
  unfold State.powerFailed
  rw [if_neg (by simp [hfail, hrails])]
  exact ⟨(State.envEvent_keeps ..).of .pwr (by decide), (State.envEvent_keeps ..).of .boot (by decide)⟩

/-- What a loss of power wipes and what it keeps (log 25). -/
theorem State.wiped_leaves (s : State) :
    s.wiped.q = {} ∧ s.wiped.pg = {} ∧ s.wiped.px = {} ∧ s.wiped.tier = {} ∧ s.wiped.tm = {} ∧ s.wiped.ix = {} ∧ s.wiped.att = {} ∧
      s.wiped.lk = {} ∧ s.wiped.boot.phase = 0 ∧ s.wiped.mem.windows = [] ∧
      s.wiped.mem.host0 = s.mem.host0 ∧ s.wiped.mem.host1 = s.mem.host1 ∧ s.wiped.media.punnets = s.media.punnets ∧
      s.wiped.media.roots = s.media.roots ∧ s.wiped.boot.attempts = s.boot.attempts ∧ s.wiped.boot.powerOns = s.boot.powerOns ∧
      s.wiped.pwr.rails = s.pwr.rails ∧ s.wiped.pwr.readings = s.pwr.readings ∧ s.wiped.up = s.up :=
  ⟨rfl, rfl, rfl, rfl, rfl, rfl, rfl, rfl, rfl, rfl, rfl, rfl, rfl, rfl, rfl, rfl, rfl, rfl, rfl⟩

end

/-- Settles O46: each command by the branch its premises name; a loss of power is `wiped`. -/
theorem powerFailsAndReturns : Obligations.powerFailsAndReturns := by
  unfold Obligations.powerFailsAndReturns
  intro s mv
  refine ⟨fun hfail hrails => ?_, fun hfail => ?_, fun hfail hrails => ?_, fun hfail hrails htripped => ?_, fun hrails => ?_, s.wiped_leaves⟩
  · obtain ⟨hpwr, hboot⟩ := State.powerFailed_asserts mv hfail hrails
    exact ⟨_, rfl, by rw [hpwr], by rw [hpwr], by rw [hpwr]; exact hrails, hboot⟩
  · rw [exec_powerFail, execPowerFail, State.powerFailed, if_pos (.inl hfail)]
  · rw [exec_inputFallsBelow40V, execInputFallsBelow40V, if_pos ⟨hfail, hrails⟩]
    exact ⟨_, rfl, rfl, rfl, rfl, rfl⟩
  · rw [exec_powerReturn, execPowerReturn, if_pos ⟨hfail, hrails, by rw [htripped]; rfl⟩]
    rfl
  · rw [exec_porstAssert, execPorstAssert, if_pos hrails]

section
variable {s : State}

/-- A trip with the rails on takes them off, for good. -/
theorem State.tripOff_leaves (s : State) : s.tripOff.pwr.rails = false ∧ s.tripOff.pwr.tripped = true ∧ s.tripOff.pwr.tripAt = none ∧
    s.tripOff.boot.phase = 0 :=
  ⟨rfl, rfl, rfl, rfl⟩

theorem State.logEvent_media_state (s : State) (kind sev cls : Nat) (a : EvArg) : (s.logEvent kind sev cls a).media.state = s.media.state := by
  unfold State.logEvent
  dsimp only
  split <;> split <;> rfl

theorem State.envEvent_media_state (s : State) (sev : Nat) (ps : List Nat) : (s.envEvent sev ps).media.state = s.media.state := by
  have hvec (w : State) : (w.pfVec 0).media = w.media := (State.pfVec_keeps ..).of .media (by decide)
  unfold State.envEvent
  rw [State.bump_media, hvec]
  exact s.logEvent_media_state ..

/-- A trip is counted and begins now. -/
def State.markTrip (s : State) : State :=
  { s.bump 0x1B01 3 with pwr := { (s.bump 0x1B01 3).pwr with tripped := true, tripAt := some (s.bump 0x1B01 3).up } }

theorem State.markTrip_same (s : State) : s.markTrip.pwr = { s.pwr with tripped := true, tripAt := some s.up } ∧ s.markTrip.boot = s.boot ∧
    s.markTrip.media = s.media :=
  ⟨rfl, rfl, rfl⟩

/-- The state of a trip before it is known whether a MEDIA_SYNC is made. -/
def State.tripping (s : State) (code value : Nat) : State := (s.envEvent 4 [12, value, code]).markTrip

theorem State.tripping_same (code value : Nat) : (s.tripping code value).pwr = { s.pwr with tripped := true, tripAt := some s.up } ∧
    (s.tripping code value).boot = s.boot ∧ (s.tripping code value).media.state = s.media.state := by
  have hkeeps := State.envEvent_keeps s 4 [12, value, code]
  have hpwr : (s.envEvent 4 [12, value, code]).pwr = s.pwr := hkeeps.of .pwr (by decide)
  have hup : (s.envEvent 4 [12, value, code]).up = s.up := hkeeps.of .up (by decide)
  have hboot : (s.envEvent 4 [12, value, code]).boot = s.boot := hkeeps.of .boot (by decide)
  have hstate := s.envEvent_media_state 4 [12, value, code]
  unfold State.tripping
  generalize s.envEvent 4 [12, value, code] = w at hpwr hup hboot hstate ⊢
  obtain ⟨hmark, hmarkBoot, hmarkMedia⟩ := w.markTrip_same
  exact ⟨by rw [hmark, hpwr, hup], hmarkBoot.trans hboot, by rw [hmarkMedia, hstate]⟩

theorem State.trip_eq (code value : Nat) (htripped : s.pwr.tripped = false) (hrails : s.pwr.rails = true) :
    s.trip code value = if s.media.state = 2 ∧ s.pwr.fail = false then
        State.syncBegin { s.tripping code value with media := { (s.tripping code value).media with syncAsk := 4 } } none []
      else (s.tripping code value).tripOff := by
  obtain ⟨hpwr, -, hstate⟩ := s.tripping_same code value
  have hwhen : ((s.tripping code value).media.state = 2 ∧ (!(s.tripping code value).pwr.fail) = true) ↔
      (s.media.state = 2 ∧ s.pwr.fail = false) := by
    rw [hpwr, hstate]
    simp
  have hon : ¬ (s.pwr.tripped = true ∨ (!s.pwr.rails) = true) := by
    simp [htripped, hrails]
  calc
    s.trip code value = if (s.tripping code value).media.state = 2 ∧ !(s.tripping code value).pwr.fail then
        State.syncBegin { s.tripping code value with media := { (s.tripping code value).media with syncAsk := 4 } } none []
      else (s.tripping code value).tripOff := if_neg hon
    _ = _ := ite_congr (propext hwhen) (fun _ => rfl) fun _ => rfl

theorem State.sample_readings (c : Nat) (n v : Int) (hgood : s.pwr.broken.contains c = false) :
    mget (s.sample { code := c, value := some v, near := n }).pwr.readings c 0 = reading32 v := by
  have hto (w : State) (k : Nat) : (w.sensorTo c k).pwr.readings = w.pwr.readings := by
    have henv (x : State) (sev : Nat) (ps : List Nat) : (x.envEvent sev ps).pwr = x.pwr := (State.envEvent_keeps ..).of .pwr (by decide)
    unfold State.sensorTo
    split
    · rfl
    · simp only [henv]
  unfold State.sample
  simp only [hgood, Bool.false_eq_true, if_false, hto]
  exact mget_mset ..

theorem State.sample_fails (c : Nat) (n : Int) (hgood : s.pwr.broken.contains c = false) :
    (s.sample { code := c, value := none, near := n }).pwr = { s.pwr with
      readings := mset s.pwr.readings c 0x7FFFFFFF, broken := s.pwr.broken ++ [c], states := mset s.pwr.states c 1 } := by
  unfold State.sample
  simp only [hgood, Bool.false_eq_true, if_false]
  exact (State.envEvent_keeps ..).of .pwr (by decide)

end

/-- Settles O47: what a sample does, and the ways of a trip. -/
theorem sensorsAreSampled : Obligations.sensorsAreSampled := by
  unfold Obligations.sensorsAreSampled
  intro s rs hrails u w
  refine ⟨fun hnone => ?_, fun x htrip => ?_, fun code value htripped => ⟨fun hoff => ?_, fun hmounted hfail => ?_⟩, fun hnone => ?_,
    fun at0 hat => ⟨fun hsync hearly => ?_, fun hend => ?_⟩, fun c n hgood => ?_, fun c n v hgood => s.sample_readings c n v hgood⟩
  · simp only [w, u] at hnone ⊢
    simp only [exec_sensorSample, execSensorSample, hrails, Bool.not_true, Bool.false_eq_true, if_false, hnone]
  · simp only [w, u] at htrip ⊢
    simp only [exec_sensorSample, execSensorSample, hrails, Bool.not_true, Bool.false_eq_true, if_false, htrip]
  · have hunsynced : ¬ (s.media.state = 2 ∧ s.pwr.fail = false) := by
      rintro ⟨hmounted, hfail⟩
      rcases hoff with h | h
      · exact h hmounted
      · simp [hfail] at h
    rw [State.trip_eq code value htripped hrails, if_neg hunsynced]
    obtain ⟨hoff, htrip, -, hphase⟩ := (s.tripping code value).tripOff_leaves
    exact ⟨hoff, htrip, hphase⟩
  · obtain ⟨hpwr, hboot, -⟩ := s.tripping_same code value
    exact ⟨{ s.tripping code value with media := { (s.tripping code value).media with syncAsk := 4 } }, hpwr, hboot, rfl,
      (State.trip_eq code value htripped hrails).trans (if_pos ⟨hmounted, hfail⟩)⟩
  · rw [State.tripGo, hnone]
  · rw [State.tripGo, hat]
    exact if_pos ⟨hsync, hearly⟩
  · have hover : ¬ ((s.media.syncs.any fun y => y.kind == 4) = true ∧ s.up < at0 + ms 90) := by
      rintro ⟨hsync, hearly⟩
      rcases hend with h | h
      · simp [h] at hsync
      · omega
    have hgo : s.tripGo = s.tripOff := by
      rw [State.tripGo, hat]
      exact if_neg hover
    rw [hgo]
    exact s.tripOff_leaves
  · refine ⟨_, rfl, ?_⟩
    rw [State.sample_fails c n hgood]
    exact ⟨mget_mset .., mget_mset .., List.mem_append_right _ (List.mem_singleton_self c)⟩

end Sys2Proof.Machine
end

section
/-! The pins a host reaches: operand windows, PERST, port rates and the TAP (O48). -/

namespace Sys2Proof.Machine

section
variable {s : State} {k p : Nat}

/-- Nothing answers through a function that is not there or a port whose controller is fenced (R32, R356). -/
theorem execOperandWindowAccess_silent (fn off n : Nat) (d : Option Bytes) (h : fn = 0 ∨ s.hasVf k (fn - 1) = false ∨ s.pcieGood k = false) :
    execOperandWindowAccess k fn off n d s = .next s := by
  have hsilent : fn = 0 ∨ k > 1 ∨ (!s.hasVf k (fn - 1)) = true ∨ (!s.pcieGood k) = true := by
    rcases h with h | h | h
    · exact .inl h
    · exact .inr (.inr (.inl (by rw [h]; rfl)))
    · exact .inr (.inr (.inr (by rw [h]; rfl)))
  exact congrArg (fun t : State => (.next t : Res)) (if_pos hsilent)

/-- A read of a window answers the bytes inside it, and zeros for the rest; one that reaches beyond is counted. -/
theorem execOperandWindowAccess_read (off n : Nat) (hk : k < 2) (hvf : s.hasVf k p = true) (hgood : s.pcieGood k = true) :
    ∃ w : State, w.out = s.out ∧ w.mem = s.mem ∧ (off + n ≤ s.windowBytes p → w = s) ∧
      execOperandWindowAccess k (p + 1) off n none s = .next { w with out := s.out ++ [Out.read k (p + 1)
        (rdN (s.window p) off (min n (s.windowBytes p - off)) ++
          List.replicate (n - (rdN (s.window p) off (min n (s.windowBytes p - off))).length) 0)] } := by
  have hport : ¬ k > 1 := by omega
  refine ⟨if off + n > s.windowBytes p then s.bump (pIx p 0) 7 else s, ?_, ?_, fun hin => if_neg (Nat.not_lt.2 hin), ?_⟩
  · split <;> rfl
  · split <;> rfl
  · simp only [execOperandWindowAccess, Nat.add_one_ne_zero, Nat.add_sub_cancel, hport, hvf, hgood, Bool.not_true, Bool.false_eq_true, or_self,
      if_false]
    split <;> rfl

theorem length_rdN (m : List Host.Cell) (a n : Nat) : (rdN m a n).length = n := by
  induction n generalizing a with
  | zero => rfl
  | succ n ih => simp [rdN, ih]

/-- A host's choice of virtual functions is within TotalVFs, and none in stone mode. -/
theorem State.portOf_enableVfs (s : State) (k : Nat) :
    ∃ n : Nat, (s.enableVfs k).portOf k = { s.portOf k with vfs := n } ∧ (s.boot.stone = true → n = 0) ∧ n ≤ s.boot.partCount := by
  refine ⟨if s.boot.stone then 0 else Config.numVfs s.free % (s.boot.partCount + 1), State.portOf_setPort .., fun h => if_pos h, ?_⟩
  split
  · exact Nat.zero_le _
  · exact Nat.le_of_lt_succ (Nat.mod_lt _ (Nat.succ_pos _))

/-- A new degradation ratio leaves the lanes of the ports. -/
theorem State.reRatio_lanes (s : State) (x : Nat) : (s.reRatio x).tm.lanes = s.tm.lanes ∧ (s.reRatio x).tm.gts = s.tm.gts := by
  have hevent (w : State) (a : EvArg) : (w.event 0x0020 a).tm = w.tm := (State.event_keeps ..).of .tm (by decide)
  unfold State.reRatio
  dsimp only
  split
  · exact ⟨rfl, rfl⟩
  · rw [State.bump_tm, hevent]
    refine List.foldlRecOn (motive := fun w : State => w.tm.lanes = s.tm.lanes ∧ w.tm.gts = s.tm.gts) _ _ ⟨rfl, rfl⟩ fun w hw q _ => ?_
    rw [hevent]
    exact hw

/-- The rate of port `k`'s link is taken. -/
def State.rated (s : State) (k lanes gts : Nat) : State :=
  { s with tm := { s.tm with lanes := mset s.tm.lanes k lanes, gts := mset s.tm.gts k gts } }

/-- Where port `k` may train, the host chooses its virtual functions anew. -/
def State.trainPort (s : State) (k : Nat) : State := if s.pwr.perst.contains k ∧ s.boot.phase ≥ 3 then s.enableVfs k else s

theorem State.trainPort_tm (s : State) (k : Nat) : (s.trainPort k).tm = s.tm := by
  unfold State.trainPort
  split
  · exact (State.enableVfs_keeps ..).of .tm (by decide)
  · rfl

theorem execPcieRenegotiation_rates (lanes gts : Nat) (hk : k < 2) (hlanes : lanes ≤ 16) (hgts : gts ≤ 64) :
    execPcieRenegotiation k lanes gts s = .next (((s.rated k lanes gts).trainPort k).reRatio (176 + k)) := by
  have hgood : ¬ (k > 1 ∨ 16 < lanes ∨ 64 < gts) := by omega
  exact congrArg (fun t : State => (.next t : Res)) (if_neg hgood)

/-- A renegotiation leaves the port's rate, and of the virtual functions what training leaves. -/
theorem execPcieRenegotiation_takes (lanes gts : Nat) (hk : k < 2) (hlanes : lanes ≤ 16) (hgts : gts ≤ 64) :
    ∃ t, execPcieRenegotiation k lanes gts s = .next t ∧ mget t.tm.lanes k 0 = lanes ∧ mget t.tm.gts k 0 = gts ∧
      t.part = if s.pwr.perst.contains k ∧ s.boot.phase ≥ 3 then (s.enableVfs k).part else s.part := by
  obtain ⟨hreLanes, hreGts⟩ := ((s.rated k lanes gts).trainPort k).reRatio_lanes (176 + k)
  have hpart : (((s.rated k lanes gts).trainPort k).reRatio (176 + k)).part = ((s.rated k lanes gts).trainPort k).part :=
    (State.reRatio_keeps ..).of .part (by decide)
  refine ⟨_, execPcieRenegotiation_rates lanes gts hk hlanes hgts, ?_, ?_, hpart.trans ?_⟩
  · rw [hreLanes, State.trainPort_tm]
    exact mget_mset ..
  · rw [hreGts, State.trainPort_tm]
    exact mget_mset ..
  · exact apply_ite State.part _ _ _

/-- The bytes of a read that reaches beyond the window: as many as asked for, and 0 from the window's end on. -/
theorem padded_read (bs : Bytes) {n m i : Nat} (hlen : bs.length = min n m) (hi : i < n) (hbeyond : m ≤ i) :
    (bs ++ List.replicate (n - bs.length) (0 : Byte))[i]? = some 0 := by
  rw [List.getElem?_append_right (by omega), List.getElem?_replicate, if_pos (by omega)]

end

/-- Settles O48: the windows through what a read and a write of one do, the ports and the TAP by their branches. -/
theorem portsAndTapAnswer : Obligations.portsAndTapAnswer := by
  unfold Obligations.portsAndTapAnswer
  intro s k p hk
  have hport : ¬ k > 1 := by omega
  refine ⟨fun off n hvf hgood hin => ?_, fun off n hvf hgood hout => ?_, fun off d hvf hgood hin => ?_, fun off d hvf hgood hout => ?_,
    fun fn off n d hsilent => execOperandWindowAccess_silent fn off n d hsilent, fun hlow hphase => ?_, fun hlow hphase => ?_,
    fun lanes gts hlanes hgts => ?_, s.portOf_enableVfs k, fun hgone ev => ?_, fun hthere => ⟨?_, fun tms tdi => ?_, ?_⟩⟩
  · obtain ⟨w, -, -, hwhole, hread⟩ := execOperandWindowAccess_read (s := s) off n hk hvf hgood
    have hmin : min n (s.windowBytes p - off) = n := by omega
    rw [exec_operandWindowAccess, hread, hwhole hin, hmin, length_rdN, Nat.sub_self, List.replicate_zero, List.append_nil]
  · obtain ⟨w, hwout, hwmem, -, hread⟩ := execOperandWindowAccess_read (s := s) off n hk hvf hgood
    refine ⟨_, _, ?_, (exec_operandWindowAccess ..).trans hread, rfl, hwmem, fun i hi hbeyond => ?_⟩
    · rw [List.length_append, List.length_replicate, length_rdN]
      omega
    · exact padded_read _ (length_rdN ..) hi (by omega)
  · rw [exec_operandWindowAccess, execOperandWindowAccess_write off d hk hvf hgood, if_neg (Nat.not_lt.2 hin), List.take_of_length_le (by omega)]
  · rw [exec_operandWindowAccess, execOperandWindowAccess_write off d hk hvf hgood, if_pos hout]
  · have hfalls : ¬ (k > 1 ∨ s.pwr.perst.contains k = true) := by
      simp only [hlow, Bool.false_eq_true, or_false]
      exact hport
    rw [exec_perstRelease, execPerstRelease, if_neg hfalls]
    exact congrArg (fun t : State => (.next t : Res)) (if_neg (Nat.not_le.2 hphase))
  · have hfalls : ¬ (k > 1 ∨ s.pwr.perst.contains k = true) := by
      simp only [hlow, Bool.false_eq_true, or_false]
      exact hport
    rw [exec_perstRelease, execPerstRelease, if_neg hfalls]
    exact congrArg (fun t : State => (.next t : Res)) (if_pos hphase)
  · obtain ⟨t, hexec, hl, hg, hpart⟩ := execPcieRenegotiation_takes (s := s) lanes gts hk hlanes hgts
    refine ⟨t, (exec_pcieRenegotiation ..).trans hexec, hl, hg, fun hnot => ?_, fun hin hphase => ?_⟩
    · rw [hpart, if_neg]
      rintro ⟨hin, hphase⟩
      rcases hnot with h | h
      · exact h (List.contains_iff_mem.1 hin)
      · omega
    · rw [hpart, if_pos ⟨List.contains_iff_mem.2 hin, hphase⟩]
  · rw [exec_tapController, execTapController, if_pos hgone]
  · rw [exec_tapController, execTapController, if_neg (by rw [hthere]; decide)]
    exact ⟨_, rfl, rfl, rfl, rfl⟩
  · rw [exec_tapController, execTapController, if_neg (by rw [hthere]; decide)]
    rfl
  · rw [exec_tapController, execTapController, if_neg (by rw [hthere]; decide)]
    refine ⟨_, rfl, ?_, ?_⟩
    · dsimp only
      split <;> rfl
    · dsimp only
      split <;> rfl

end Sys2Proof.Machine
end

section
/-! SUPPORT. The dictionary's requests as commands: how each reaches the module, and the ones that write one object. -/

namespace Sys2Proof.Machine

/-! ### Requests as commands (R394, R402-R407) -/

/-- A request command hands to `zdpIn` what it asks. -/
theorem exec_zdp {i : Instr} {z : Zdp} {n : Nat} (h : zdpOf i = some (z, n)) (s : State) :
    exec i s = .next (s.zdpIn z i (zdpApply i)) := by
  cases i <;> cases h <;> rfl

/-- A request from an endpoint that is not answered, or at a mailbox that owes a response, is not taken. -/
theorem zdpIn_ignored (s : State) (z : Zdp) (i : Instr) (ask : State → State)
    (h : s.answers z.ep = false ∨ ((boxKey z.ep).isSome = true ∧ s.owes z.ep = true)) : s.zdpIn z i ask = s := by
  unfold State.zdpIn; exact if_pos (by simpa using h)

/-- A request command that is heard does what it asks. -/
theorem exec_zdp_hears {i : Instr} {z : Zdp} {n : Nat} (hz : zdpOf i = some (z, n)) {s u : State} (h : s.hears z i u) :
    exec i s = .next ((zdpApply i u).heard z i) := by
  rw [exec_zdp hz, zdpIn_hears s u z i _ h]

/-- A request command that is heard and whose service is `body`. -/
theorem exec_zdp_serves {i : Instr} {z : Zdp} {n svc ix sub : Nat} {body : Session → State → Ans} (hz : zdpOf i = some (z, n))
    (ha : ∀ u, zdpApply i u = u.request z svc ix sub body) {s u w : State} {x : Session} (h : s.hears z i u) (hs : u.serves z x w) :
    exec i s = .next (((body x w).send z svc ix sub).heard z i) := by
  rw [exec_zdp_hears hz h, ha, request_serves u w z x _ _ _ _ hs]

/-- Settles O49: every request command goes through `zdpIn`, which takes a request that is heard and no other. -/
theorem requestsReachTheModule : Obligations.requestsReachTheModule := by
  unfold Obligations.requestsReachTheModule
  intro i z n hz s u
  refine ⟨exec_zdp_hears hz, fun h => ?_, fun hbox how => ?_⟩
  · rw [exec_zdp hz, zdpIn_ignored s z i _ (.inl h)]
  · rw [exec_zdp hz, zdpIn_ignored s z i _ (.inr ⟨hbox, how⟩)]

/-! ### The commands that write one object (R382, R396, R398) -/

/-- The command asks for the write of `v` to index:sub, segmented if `whole`. -/
def AsksWrite (i : Instr) (z : Zdp) (whole : Bool) (ix sub : Nat) (v : Bytes) (o : ReadOutcome) : Prop :=
  (∃ n, zdpOf i = some (z, n)) ∧ (whole = true → o = .hard false) ∧
    ∀ u : State, zdpApply i u = if whole then u.zWhole z ix sub v else u.zWrite z ix sub v o

theorem AsksWrite.expedited {i : Instr} {z : Zdp} {n ix sub : Nat} {v : Bytes} {o : ReadOutcome} (hz : zdpOf i = some (z, n))
    (ha : ∀ u : State, zdpApply i u = u.zWrite z ix sub v o) : AsksWrite i z false ix sub v o :=
  ⟨⟨n, hz⟩, nofun, ha⟩

theorem AsksWrite.segmented {i : Instr} {z : Zdp} {n ix sub : Nat} {v : Bytes} (hz : zdpOf i = some (z, n))
    (ha : ∀ u : State, zdpApply i u = u.zWhole z ix sub v) : AsksWrite i z true ix sub v (.hard false) :=
  ⟨⟨n, hz⟩, fun _ => rfl, ha⟩

/-- An expedited write whose command computes its object's place from its operands. -/
theorem AsksWrite.at {i : Instr} {z : Zdp} {n ix sub ix' sub' : Nat} {v : Bytes} (hz : zdpOf i = some (z, n))
    (ha : ∀ u : State, zdpApply i u = u.zWrite z ix' sub' v) (hix : ix' = ix) (hsub : sub' = sub) :
    AsksWrite i z false ix sub v (.hard false) := by
  subst hix hsub; exact .expedited hz ha

/-- The same for a segmented write. -/
theorem AsksWrite.segmentedAt {i : Instr} {z : Zdp} {n ix sub ix' : Nat} {v : Bytes} (hz : zdpOf i = some (z, n))
    (ha : ∀ u : State, zdpApply i u = u.zWhole z ix' sub v) (hix : ix' = ix) : AsksWrite i z true ix sub v (.hard false) := by
  subst hix; exact .segmented hz ha

/-- The row of an object of a partition that exists. -/
theorem pRow_lt {p : Nat} (hp : p < 64) (off : Nat) : pRow p off = 0x2000 + off + 0x40 * p := by
  rw [pRow, if_pos hp, pIx]; omega

/-- A command that writes one object asks for that write. -/
theorem asksWrite_of_namedWrite {i : Instr} {z : Zdp} {whole : Bool} {ix sub : Nat} {v : Bytes} {o : ReadOutcome}
    (h : namedWrite i = some (z, whole, ix, sub, v, o)) : AsksWrite i z whole ix sub v o := by
  cases i <;> try contradiction
  case forensicRead => cases h; exact .expedited rfl fun _ => rfl
  all_goals
    simp only [namedWrite, Option.ite_none_right_eq_some, Option.some.injEq, Prod.mk.injEq] at h
    obtain ⟨hc, rfl, rfl, rfl, rfl, rfl, rfl⟩ := h
  case ottReserveWrite | ottCapWrite | jobResume | partitionReset | partitionDisable | protectionWrite | frameQuotaWrite | profileBindingWrite =>
    exact .at rfl (fun _ => rfl) (pRow_lt hc _) rfl
  case planWrite p n =>
    refine .segmentedAt rfl (fun _ => rfl) ?_
    rw [if_pos hc.2, pRow_lt hc.1]; omega
  case leafCfgWrite p c x =>
    refine .at rfl (fun _ => rfl) ?_ rfl
    rw [if_pos hc.2]
    split
    · rfl
    · rw [if_pos (by omega)]
  case shareDomainWrite | indexGeometryWrite | nodeCfgWrite | meterCfgWrite | linkEnable => exact .at rfl (fun _ => rfl) (if_pos hc) rfl
  case upprojWrite | projWrite => exact .segmentedAt rfl (fun _ => rfl) (if_pos hc)
  case kxlOwnerLinksWrite => exact .at rfl (fun _ => rfl) rfl (if_pos hc)
  case write => exact .expedited rfl fun _ => if_neg hc
  case protectionBatch | firmwareUpdate | factoryToken | collSetsWrite => exact .segmented rfl fun _ => rfl
  all_goals exact .expedited rfl fun _ => rfl

/-- Settles O50: the command asks for the write of its object, and a write is answered as `zWrite_ok` to `zWhole_err` say. -/
theorem namedWritesAreAnswered : Obligations.namedWritesAreAnswered := by
  unfold Obligations.namedWritesAreAnswered
  intro i z whole ix sub v o hi s u w x r hh hs hm
  obtain ⟨⟨n, hz⟩, ho, ha⟩ := asksWrite_of_namedWrite hi
  rw [exec_zdp_hears hz hh, ha]
  cases whole with
  | false =>
    simp only [Bool.false_eq_true, if_false] at hm ⊢
    exact ⟨fun t ht => by rw [zWrite_ok u w t z x ix sub v o r hs hm ht],
      fun c hc ht => by rw [zWrite_err u w z x ix sub v o r c hs hm hc ht]⟩
  | true =>
    cases ho rfl
    simp only [if_true] at hm ⊢
    exact ⟨fun t ht => by rw [zWhole_ok u w t z x ix sub v r hs hm ht],
      fun c hc ht => by rw [zWhole_err u w z x ix sub v r c hs hm hc ht]⟩

end Sys2Proof.Machine
end

section
/-! SUPPORT. A written value's checks, in their order, and what is kept of it (R382, R384, R392). -/

namespace Sys2Proof.Machine

/-- The object belongs to a partition that does not exist. -/
def State.outside (s : State) (ix : Nat) : Bool :=
  decide (0x2000 ≤ ix ∧ ix < 0x3000 ∧ ix % 0x40 ≠ 1 ∧ s.partCount ≤ (ix - 0x2000) / 0x40)

/-- A write passes the checks that come before its value's. -/
def State.reachable (s : State) (ix : Nat) (r : ObjRow) : Prop := s.outside ix = false ∧ (r.acc = .rws → s.stopped ix r.target = true)

section
variable {s : State} {ix sub : Nat} {r : ObjRow} {v : Bytes} {o : ReadOutcome}

theorem outside_eq : (0x2000 ≤ ix && ix < 0x3000 && ix % 0x40 != 1 && (ix - 0x2000) / 0x40 ≥ s.partCount) = s.outside ix := by
  rw [State.outside, Bool.eq_iff_iff]; simp [and_assoc]

theorem writeValue_outside (h : s.outside ix = true) : s.writeValue ix sub r v o = .error 0x0405 := by
  unfold State.writeValue; simp only [outside_eq, h, if_true]

theorem writeValue_running (h : s.outside ix = false) (ha : r.acc = .rws) (hr : s.stopped ix r.target = false) :
    s.writeValue ix sub r v o = .error 0x0401 := by
  unfold State.writeValue; simp [outside_eq, h, ha, hr]

theorem writeValue_typeBad {c : Nat} (h : s.reachable ix r) (hb : typeBad ix r v = some c) : s.writeValue ix sub r v o = .error c := by
  unfold State.writeValue
  simp only [outside_eq, h.1, Bool.false_eq_true, if_false, hb]
  rw [if_neg (by simpa using h.2)]

/-- What is written of an object that is not persistent, and is not PROTECTION_BATCH. -/
theorem writeValue_transient (h : s.reachable ix r) (hb : typeBad ix r v = none) (hp : persistent ix r = false)
    (hs : ¬ (ix = 0x1800 ∧ sub = 3)) : s.writeValue ix sub r v o = s.writeObj ix sub r v o := by
  unfold State.writeValue
  simp only [outside_eq, h.1, Bool.false_eq_true, if_false, hb, hp, false_and, if_neg hs]
  rw [if_neg (by simpa using h.2)]
  cases s.writeObj ix sub r v o <;> rfl

theorem writeValue_full (h : s.reachable ix r) (hb : typeBad ix r v = none) (hp : persistent ix r = true) (hd : r.ty = .domain)
    (hf : s.t2UserBytes < s.t2Used + v.length) : s.writeValue ix sub r v o = .error 0x0D04 := by
  unfold State.writeValue
  simp only [outside_eq, h.1, Bool.false_eq_true, if_false, hb, hp, true_and]
  rw [if_neg (by simpa using h.2), if_pos ⟨hd, hf⟩]

/-- What is written of a persistent object is kept, unless it cannot be. -/
theorem writeValue_persistent {t : State} (h : s.reachable ix r) (hb : typeBad ix r v = none) (hp : persistent ix r = true)
    (hf : r.ty = .domain → s.t2Used + v.length ≤ s.t2UserBytes) (ht : s.writeObj ix sub r v o = .ok t) :
    s.writeValue ix sub r v o = if s.cannotKeep then .error 0x0F02 else .ok (t.keepDurable ix sub r) := by
  unfold State.writeValue
  simp only [outside_eq, h.1, Bool.false_eq_true, if_false, hb, hp, if_true, true_and, ht]
  rw [if_neg (by simpa using h.2), if_neg (fun e => Nat.not_lt.2 (hf e.1) e.2)]

theorem cannotKeep_eq_true : s.cannotKeep = true ↔ s.media.state ≠ 2 ∨ s.diesIn = [] ∨ s.pwr.fail = true := by
  simp [State.cannotKeep, or_assoc]

/-- A scalar's value of another length than its type's. -/
theorem typeBad_scalar (h : r.ty.scalar = true) (hl : v.length ≠ r.ty.size) : typeBad ix r v = some 0x0201 := by
  unfold typeBad
  cases ht : r.ty <;> rw [ht] at h hl
  case bytes | string | domain => cases h
  all_goals exact if_pos hl

theorem typeBad_bytes {n : Nat} (h : r.ty = .bytes n) (hl : v.length ≠ n) : typeBad ix r v = some 0x0201 := by
  unfold typeBad; simp only [h]; exact if_pos hl

theorem typeBad_string {n : Nat} (h : r.ty = .string n) (hl : n < v.length) : typeBad ix r v = some 0x0201 := by
  unfold typeBad; simp only [h]; exact if_pos hl

end

/-- The response to a served request leaves at once, or waits where the write said so. -/
theorem answer_eq (s : State) (z : Zdp) (svc ix sub : Nat) (d : Bytes) :
    s.answer z svc ix sub d =
      if s.media.syncAsk = 0 then ((s.bump 0x60A0 1).zdpSend z.ep (zdpMsg (svc + 0x80) z.tag ix sub false d)).restartIfAsked
      else s.syncBegin (some z.ep) (zdpMsg (svc + 0x80) z.tag ix sub false d) := rfl

/-- Settles O51, check by check as `writeValue` makes them. -/
theorem valuesAreCheckedAndKept : Obligations.valuesAreCheckedAndKept := by
  unfold Obligations.valuesAreCheckedAndKept
  intro s ix sub r v o outside
  refine ⟨writeValue_outside, writeValue_running, fun hout hstop => ?_, ⟨_, rfl, rfl, mget?_mset .., rfl⟩, fun z svc d => ?_⟩
  · have h : s.reachable ix r := ⟨hout, hstop⟩
    refine ⟨fun hs hl => writeValue_typeBad h (typeBad_scalar hs hl), fun n hn hl => writeValue_typeBad h (typeBad_bytes hn hl),
      fun n hn hl => writeValue_typeBad h (typeBad_string hn hl), writeValue_transient h, writeValue_full h, fun t hb hp hf ht => ?_⟩
    rw [writeValue_persistent h hb hp hf ht]
    refine ⟨fun hm hd hpw => if_neg ?_, fun hc => if_pos (cannotKeep_eq_true.2 hc)⟩
    rw [cannotKeep_eq_true, hpw]
    simp [hm, hd]
  · rw [answer_eq]
    exact ⟨fun h => if_pos h, fun h => if_neg h⟩

end Sys2Proof.Machine
end

section
/-! SUPPORT. The services of a served request: reads, sessions, watches and segmented transfers (R385, R386, R394-R400). -/

namespace Sys2Proof.Machine

section
variable {s u w : State} {z : Zdp} {x : Session} {r : ObjRow} {ix sub : Nat}

/-! ### Reads (R385, R394, R396) -/

/-- A read that may be expedited answers the value and clears what is cleared by reading. -/
theorem readObj_ok (hr : w.checkRead x ix sub = .ok r) (hd : r.ty ≠ .domain) (hl : r.ty.size ≤ payloadLimit x.ep) :
    w.readObj ix sub x = { st := w.clearRead ix sub, payload := w.value (w.scopeOf x) ix sub r } := by
  simp only [State.readObj, hr]
  exact if_neg (not_or.2 ⟨hd, Nat.not_lt.2 hl⟩)

/-- A read command that is heard and served answers the value of its object. -/
theorem exec_read_served {i : Instr} {n : Nat} (hz : zdpOf i = some (z, n)) (ha : ∀ u : State, zdpApply i u = u.zRead z ix sub)
    (hh : s.hears z i u) (hs : u.serves z x w) (hr : w.checkRead x ix sub = .ok r) (hd : r.ty ≠ .domain)
    (hl : r.ty.size ≤ payloadLimit x.ep) : exec i s =
      .next (((w.clearRead ix sub).answer z 0x10 ix sub (w.value (w.scopeOf x) ix sub r)).heard z i) := by
  rw [exec_zdp_serves hz ha hh hs, readObj_ok hr hd hl]; rfl

/-- Every transport carries a scalar. -/
theorem le_payloadLimit (e : Endpoint) : 54 ≤ payloadLimit e := by cases e <;> simp [payloadLimit]

/-- OTT_HWM of a partition is a u32. -/
theorem findObj_ottHwm {p : Nat} (hp : p < 64) : findObj (0x2021 + 0x40 * p) 4 = .ok { roC 4 .u32 0 with ctr := true, clears := true } := by
  have hrows : rowsOf (0x2021 + 0x40 * p) = rowsPart 0x21 := by
    unfold rowsOf
    rw [if_neg (by omega), if_neg (by omega), if_pos (by omega)]
    congr 1; omega
  unfold findObj
  rw [if_neg (by omega), hrows]
  rfl

theorem findObj_of_checkRead (h : s.checkRead x ix sub = .ok r) : findObj ix sub = .ok r := by
  unfold State.checkRead at h
  cases hf : findObj ix sub with
  | error c => rw [hf] at h; cases h
  | ok r' =>
    rw [hf] at h
    simp only at h
    split at h
    · cases h
    · split at h <;> cases h; rfl

theorem clearRead_ottHwm {p : Nat} (hp : p < 64) : w.clearRead (0x2021 + 0x40 * p) 4 = w.setObj (0x2021 + 0x40 * p) 4 0 :=
  if_pos (by omega)

theorem clearRead_leafStats {p c k : Nat} (hp : p < 64) (hc : c < 8) : w.clearRead (0x3A00 + 8 * p + c) (k + 1) = w.clearHwm k p c := by
  unfold State.clearRead
  rw [if_neg (by omega), if_neg (by omega), if_pos (by omega)]
  congr 1 <;> omega

/-- Settles O54: a read is `readObj` on a served request, DESCRIBE is `describeObj`. -/
theorem readsAnswerTheirValue : Obligations.readsAnswerTheirValue := by
  unfold Obligations.readsAnswerTheirValue
  intro s u w z x r ix sub
  refine ⟨exec_read_served rfl fun _ => rfl, fun p hp hh hs hr => ?_, fun p c k hp hc hk hh hs hr hd hl => ?_, fun hh hs hf hm => ?_⟩
  · cases (findObj_of_checkRead hr).symm.trans (findObj_ottHwm hp)
    rw [← clearRead_ottHwm hp]
    exact exec_read_served rfl (fun u => congrArg (fun a => u.zRead z a 4) (pRow_lt hp 0x21)) hh hs hr nofun
      (Nat.le_trans (by decide) (le_payloadLimit x.ep))
  · rw [← clearRead_leafStats hp hc]
    refine exec_read_served rfl (fun u => congrArg (fun a => u.zRead z a (k + 1)) ?_) hh hs hr hd hl
    rw [if_pos ⟨hc, hk⟩, if_pos hp]
  · rw [exec_zdp_serves rfl (fun _ => rfl) hh hs]
    simp only [State.describeObj, hf, hm, Bool.not_true, Bool.false_eq_true, if_false]
    rfl

end

end Sys2Proof.Machine
end

section
/-! SUPPORT. CLOSE, watches and segmented transfers (R394, R395, R397, R398, R400). -/

namespace Sys2Proof.Machine

section
variable {s u w : State} {z : Zdp} {x : Session} {r : ObjRow} {ix sub : Nat}

/-! ### Watches (R400) -/

/-- A counter and a DOMAIN take no watch. -/
theorem watchObj_refused (hr : w.checkRead x ix sub = .ok r) (h : r.ctr = true ∨ r.ty = .domain) :
    w.watchObj z ix sub x = refuse w 0x0104 := by
  simp only [State.watchObj, hr]; exact if_pos h

/-- A session has room for 32 watches. -/
theorem watchObj_full (hr : w.checkRead x ix sub = .ok r) (hc : r.ctr = false) (hd : r.ty ≠ .domain)
    (hn : (x.watches.any fun y => y.index == ix && y.sub == sub) = false) (hl : 32 ≤ x.watches.length) :
    w.watchObj z ix sub x = refuse w 0x0D02 := by
  simp only [State.watchObj, hr, hc, hn, hd, Bool.false_eq_true, or_self, if_false, ge_iff_le, hl, if_true]

theorem watchObj_ok (hr : w.checkRead x ix sub = .ok r) (hc : r.ctr = false) (hd : r.ty ≠ .domain)
    (hn : (x.watches.any fun y => y.index == ix && y.sub == sub) = false) (hl : x.watches.length < 32) :
    w.watchObj z ix sub x = { st := w.modSession z.ep fun y => { y with
      watches := y.watches ++ [{ index := ix, sub := sub, seen := w.value (w.scopeOf x) ix sub r }] } } := by
  simp only [State.watchObj, hr, hc, hn, hd, Bool.false_eq_true, or_self, if_false, ge_iff_le, Nat.not_le.2 hl]

theorem unwatchObj_ok (hf : findObj ix sub = .ok r) :
    w.unwatchObj z ix sub = { st := w.modSession z.ep fun y => { y with
      watches := y.watches.filter fun y => !(y.index == ix && y.sub == sub) } } := by
  simp only [State.unwatchObj, hf]

theorem session?_dropSession (w : State) (e : Endpoint) : (w.dropSession e).session? e = none := by
  simp [State.session?, State.dropSession]

/-- Settles O56: what the services answer on a served request. -/
theorem sessionsCloseAndWatch : Obligations.sessionsCloseAndWatch := by
  unfold Obligations.sessionsCloseAndWatch
  intro s u w z x r ix sub hs
  refine ⟨fun hh => ?_, session?_dropSession .., fun hh hr => ⟨fun h => ?_, fun hc hd hn => ⟨fun hl => ?_, fun hl => ?_⟩⟩,
    fun hh hf => ?_⟩
  · exact exec_zdp_serves rfl (fun _ => rfl) hh hs
  · rw [exec_zdp_serves rfl (fun _ => rfl) hh hs, watchObj_refused hr h, Ans.send_refuse _ _ _ _ _ (by decide)]
  · rw [exec_zdp_serves rfl (fun _ => rfl) hh hs, watchObj_full hr hc hd hn hl, Ans.send_refuse _ _ _ _ _ (by decide)]
  · rw [exec_zdp_serves rfl (fun _ => rfl) hh hs, watchObj_ok hr hc hd hn hl]; rfl
  · rw [exec_zdp_serves rfl (fun _ => rfl) hh hs, unwatchObj_ok hf]; rfl

/-! ### Segmented transfers (R395, R397, R398) -/

theorem segReadInit_ok (hr : w.checkRead x ix sub = .ok r) :
    w.segReadInit z ix sub x =
      { st := (w.clearRead ix sub).modSession z.ep fun y => { y with
          xfer := some {
            index := ix, sub := sub, write := false, total := (w.value (w.scopeOf x) ix sub r).length,
            data := w.value (w.scopeOf x) ix sub r, at_ := w.up }
          aborted := none }
        payload := leBytes 4 (w.value (w.scopeOf x) ix sub r).length ++ leBytes 4 (crc32c (w.value (w.scopeOf x) ix sub r)) } := by
  simp only [State.segReadInit, hr]

theorem segWriteInit_ok {total : Nat} (h : w.mayWriteWhole x ix sub total r) :
    w.segWriteInit z ix sub total x = { st := w.modSession z.ep fun y => { y with
      xfer := some { index := ix, sub := sub, write := true, total := total, at_ := w.up }, aborted := none } } := by
  obtain ⟨hr, hb, ho⟩ := h
  simp only [State.segWriteInit, hr, hb, ho, Bool.false_eq_true, if_false]

/-- A segment, SEG_END or SEG_ABORT of the session's open transfer `v` reaches its service. -/
structure State.Carries (u : State) (z : Zdp) (ix sub : Nat) (y : Session) (v : Xfer) (w : State) : Prop where
  whole : z.short = false
  free : u.owes z.ep = false
  ready : u.boot.ready = true
  known : (u.session? z.ep).isSome = true
  seen : w = u.modSession z.ep fun y => { y with lastAt := u.up }
  session : w.session? z.ep = some y
  xfer : y.xfer = some v
  index : v.index = ix
  sub : v.sub = sub

/-- A request of the open transfer, unless the transfer is over, is what its service answers. -/
theorem request_carries {y : Session} {v : Xfer} {svc : Nat} {body : Session → State → Ans} (h : u.Carries z ix sub y v w)
    (hsvc : svc = 0x22 ∨ svc = 0x23 ∨ svc = 0x24) (hv : v.over = false) :
    u.request z svc ix sub body = (body y w).send z svc ix sub := by
  obtain ⟨y0, hy0⟩ := Option.isSome_iff_exists.1 h.known
  have hready : w.boot.ready = true := by rw [h.seen]; exact h.ready
  unfold State.request State.gate
  simp only [h.whole, hy0, h.free, Bool.false_eq_true, false_and, if_false, ← h.seen, hready, Bool.not_true, h.session, h.xfer, h.index,
    h.sub, hsvc, hv, not_false_eq_true, and_self, if_true]

/-- The next segment of a write transfer. -/
theorem segData_next {y : Session} {v : Xfer} {d : Bytes} (hx : y.xfer = some v) (hw : v.write = true) (hr : w.checkWrite y ix sub = .ok r)
    (hp : v.prev ≠ some v.done) (hl : d.length ≤ payloadLimit z.ep - 4) (ht : v.done + d.length ≤ v.total) :
    w.segData z ix sub v.done d y = {
      st := (w.modSession z.ep fun y => { y with xfer := some { v with at_ := w.up } }).modSession z.ep fun y => { y with
        xfer := some { v with data := v.data ++ d, done := v.done + d.length, prev := some v.done, at_ := w.up } } } := by
  simp only [State.segData, hx, hw, if_true, hr]
  rw [if_neg (by omega), if_neg (fun e => hp e.1), if_neg (by omega)]
  rfl

/-- The SEG_END of a whole write whose CRC agrees applies the value. -/
theorem segEnd_whole {y : Session} {v : Xfer} {c : Nat} {o : ReadOutcome} (hx : y.xfer = some v) (hw : v.write = true)
    (hr : w.checkWrite y ix sub = .ok r) (hd : v.done = v.total) (hc : crc32c v.data = c) :
    w.segEnd z ix sub c o y = (w.endXfer z.ep).applyWrite ix sub r v.data o := by
  simp only [State.segEnd, hx, hw, if_true, hr]
  rw [if_neg (by simp [hd]), if_neg (by simp [hc])]

/-- Settles O57: the services of a transfer on a served request, and of an open one's own requests. -/
theorem transfersCarryTheirObject : Obligations.transfersCarryTheirObject := by
  unfold Obligations.transfersCarryTheirObject
  intro s u w z x r ix sub
  refine ⟨fun hh hs hr => ?_, fun total hh hs hm => ?_, fun y v hshort howes hready hsome hseen hsession hx hix hsub => ?_⟩
  · rw [exec_zdp_serves rfl (fun _ => rfl) hh hs, segReadInit_ok hr]; rfl
  · rw [exec_zdp_serves rfl (fun _ => rfl) hh hs, segWriteInit_ok hm]; rfl
  have hc : u.Carries z ix sub y v w := ⟨hshort, howes, hready, hsome, hseen, hsession, hx, hix, hsub⟩
  refine ⟨fun d hh hw hr hp hl ht => ?_, fun c t hh hne hw hr hd hcrc ht => ?_, fun hh hv => ?_⟩
  · rw [exec_zdp_hears rfl hh, zdpApply, askSegData, request_carries hc (.inl rfl) (by simp [Xfer.over, hw]),
      segData_next hx hw hr hp hl ht]
    rfl
  · rw [exec_zdp_hears rfl hh, zdpApply, askSegEnd, if_neg hne, request_carries hc (.inr (.inl rfl)) (by simp [Xfer.over, hw]),
      segEnd_whole hx hw hr hd hcrc, State.applyWrite, ht]
    rfl
  · rw [exec_zdp_hears rfl hh, zdpApply, askSegAbort, request_carries hc (.inr (.inr rfl)) hv]
    simp only [State.segAbort, hx, hix, hsub]
    rfl

end

end Sys2Proof.Machine
end

section
/-! SUPPORT. NOTIFY, mailbox acknowledgement and the sessions' timers (R399, R401-R403, R405, R410, R411). -/

namespace Sys2Proof.Machine

section
variable {s : State} {e : Endpoint} {x : Session}

theorem notifyWatch_idle {ix sub : Nat} {y : Watch} (hx : s.session? e = some x)
    (hy : (x.watches.find? fun y => y.index == ix && y.sub == sub) = some y) (hd : s.watchDue x y = 0) : s.notifyWatch e ix sub = s := by
  simp only [State.notifyWatch, hx, hy]; exact if_pos hd

/-- The first NOTIFY of a watch that has something to tell. -/
theorem notifyWatch_first {ix sub : Nat} {y : Watch} {r : ObjRow} (hx : s.session? e = some x)
    (hy : (x.watches.find? fun y => y.index == ix && y.sub == sub) = some y) (hd : s.watchDue x y ≠ 0) (hl : y.lastAt = none)
    (hf : findObj ix sub = .ok r) :
    s.notifyWatch e ix sub = (s.modSession e fun z => { z with
      watches := z.watches.map fun v => if v = y then { y with
        changes := 0, seen := s.value (s.scopeOf x) ix sub r, lastAt := some s.up } else v }).notifySend e
          (zdpMsg 0x40 0 ix sub false (leBytes 4 (s.watchDue x y))) := by
  simp only [State.notifyWatch, hx, hy, hl, hf]; exact if_neg hd

theorem notifyNext_empty {k : Nat} {m : Bytes} (hs : (s.box k).slot = some m) (hq : (s.box k).queue = []) :
    s.notifyNext k = s.setBox k { s.box k with slot := none } := by
  simp only [State.notifyNext, hs, hq]

theorem notifyNext_idle {k : Nat} (hs : (s.box k).slot = none) : s.notifyNext k = s := by simp only [State.notifyNext, hs]

theorem timeoutXfer_open {v : Xfer} (hx : s.session? e = some x) (hv : x.xfer = some v) (ho : v.over = false) :
    s.timeoutXfer e = (((s.timeTo (v.at_ + s.segTime)).endXfer e).bump 0x60A0 3).abortSend e 0 0 v.index v.sub 0x0E03 := by
  simp only [State.timeoutXfer, hx, hv, ho, Bool.false_eq_true, if_false]

theorem idleClose_quiet (hx : s.session? e = some x) (hv : x.xfer = none) (hi : s.obj 0x1010 10 300 ≠ 0) :
    s.idleClose e = (s.timeTo (x.lastAt + sec (s.obj 0x1010 10 300))).dropSession e := by
  simp only [State.idleClose, hx, hv, hi, if_false]

/-- A session on the CAN FD bus loses its transfer; any other keeps it. -/
def Session.offBus (x : Session) : Session :=
  match x.ep with
  | .can _ => { x with xfer := none }
  | _ => x

theorem offBus_xfer {n : Nat} (h : x.offBus.ep = .can n) : x.offBus.xfer = none := by
  unfold Session.offBus at h ⊢
  split
  · rfl
  · next hne =>
    split at h
    · next m hm => exact absurd hm (hne m)
    · exact absurd h (hne n)

theorem ms_le_ms {a b : Nat} : ms a ≤ ms b ↔ a ≤ b := by unfold ms; omega

theorem execCanBusOff_short {m : Nat} (h : m ≤ s.obj 0x1010 8 1000) : execCanBusOff m s = .next (s.timeTo (s.up + ms m)) :=
  congrArg (fun t : State => (.next t : Res)) (if_pos (ms_le_ms.2 h))

/-- A bus-off beyond SEGMENT_TIMEOUT ends the open transfers of the bus. -/
theorem execCanBusOff_long {m : Nat} (h : s.obj 0x1010 8 1000 < m) :
    ∃ t, execCanBusOff m s = .next t ∧ t.up = (s.timeTo (s.up + ms m)).up ∧ t.dict.sessions = s.dict.sessions.map Session.offBus :=
  ⟨_, congrArg (fun t : State => (.next t : Res)) (if_neg (mt ms_le_ms.1 (Nat.not_le.2 h))), rfl, rfl⟩

theorem timeTo_up {t : Nat} (h : s.up ≤ t) : (s.timeTo t).up = t := by
  simp only [State.timeTo]; omega

end

/-- Settles O58, command by command. -/
theorem notificationsAndTimersRun : Obligations.notificationsAndTimersRun := by
  unfold Obligations.notificationsAndTimersRun
  intro s e x
  refine ⟨fun hx ix sub y hy => ⟨fun hd => ?_, fun r hd hl hf => ?_⟩, fun k fn hk hfn b hb => ⟨fun m hm hq => ?_, fun hm => ?_⟩,
    fun v hx hv ho => ?_, fun n hx hv hi => ?_, rfl, fun m hm => ?_, fun m hm => ?_⟩
  · rw [exec_notify, execNotify, notifyWatch_idle hx hy hd]
  · rw [exec_notify, execNotify, notifyWatch_first hx hy hd hl hf]
  · subst hb
    rw [exec_notifyAck, execNotifyAck, if_pos ⟨hk, hfn⟩, notifyNext_empty hm hq]; rfl
  · subst hb
    rw [exec_notifyAck, execNotifyAck, if_pos ⟨hk, hfn⟩, notifyNext_idle hm]
  · rw [exec_segmentTimeout, execSegmentTimeout, timeoutXfer_open hx hv ho]; rfl
  · rw [exec_sessionIdle, execSessionIdle, idleClose_quiet hx hv hi]
  · rw [exec_canBusOff, execCanBusOff_short hm]
  · obtain ⟨t, ht, hup, hsessions⟩ := execCanBusOff_long hm
    refine ⟨t, by rw [exec_canBusOff, ht], by rw [hup, timeTo_up (Nat.le_add_right ..)], fun y hy n hn => ?_⟩
    rw [hsessions] at hy
    obtain ⟨x, -, rfl⟩ := List.mem_map.1 hy
    exact offBus_xfer hn

end Sys2Proof.Machine
end

section
/-! SUPPORT. The responses that wait for the media or a firmware image (R188, R392, R411, R438). -/

namespace Sys2Proof.Machine

section
variable {s : State} {w : SyncWait}

theorem syncEnd_none (h : w.ep = none) : s.syncEnd w = if w.kind = 3 then s.bump 0x60A0 6 else s := by
  simp only [State.syncEnd, h]

theorem syncEnd_some {e : Endpoint} (h : w.ep = some e) :
    s.syncEnd w = if (s.session? e).isSome then ((if w.kind = 3 then s.bump 0x60A0 6 else s).bump 0x60A0 1).zdpSend e w.msg
      else if w.kind = 3 then s.bump 0x60A0 6 else s := by
  have hsession : (if w.kind = 3 then s.bump 0x60A0 6 else s).session? e = s.session? e := by split <;> rfl
  simp only [State.syncEnd, h, hsession]

/-- Every change the response waits for is durable. -/
def State.marksDurable (s : State) (w : SyncWait) : Prop := ∀ m ∈ w.marks, m.2 < s.durNo m.1

theorem syncGo_durable (h1 : w.stage = 1) (hm : s.marksDurable w) :
    s.syncGo w = if w.kind = 2 then ({ w with stage := 2 }, s.checkpoint) else ({ w with stage := 3 }, s) := by
  simp only [State.syncGo, h1]
  exact if_pos (by simpa [State.marksDurable] using hm)

/-- A response waits while a change that it waits for is not durable. -/
theorem syncGo_waits (h1 : w.stage = 1) (hm : ¬ s.marksDurable w) : (s.syncGo w).1 = w := by
  simp only [State.syncGo, h1]
  rw [if_neg (by simpa [State.marksDurable] using hm)]
  split <;> rfl

/-- A response that waits for durable changes alone leaves at one look, once they are. -/
theorem syncOne_durable (hk : w.kind = 1 ∨ w.kind = 3 ∨ w.kind = 4) (h1 : w.stage = 1) (hm : s.marksDurable w) :
    s.syncOne w = s.syncEnd { w with stage := 3 } := by
  have hgo : s.syncGo w = ({ w with stage := 3 }, s) := (syncGo_durable h1 hm).trans (if_neg (by omega))
  have hdone : s.syncGo { w with stage := 3 } = ({ w with stage := 3 }, s) := rfl
  have hk5 : w.kind ≠ 5 := by omega
  simp [State.syncOne, hgo, hdone, h1, hk5]

theorem syncGo_quiesces (h2 : w.stage = 2) (hr : (s.dieOps.any fun o => o.2.root.isSome) = false) :
    s.syncGo w = ({ w with stage := 3 }, { s with media := { s.media with state := 3, quiesced := true } }) := by
  simp only [State.syncGo, h2, hr, Bool.false_eq_true, if_false]

theorem syncGo_writesBack (h0 : w.stage = 0) :
    s.syncGo w = if s.writeBackAll.dirtySlices.isEmpty then s.writeBackAll.syncMeta w else (w, s.writeBackAll) := by
  simp only [State.syncGo, h0]

end

/-- The state in which a SHUTDOWN_PREPARE's response begins to wait: fetching has stopped. -/
def State.preparing (s : State) (ep : Option Endpoint) (msg : Bytes) : State :=
  { s with
    q := { s.q with fetchStopped := true }
    media := { s.media with syncAsk := 0, syncs := s.media.syncs ++ [{ kind := 2, ep := ep, msg := msg, stage := 0 }] } }

theorem syncBegin_prepares {s : State} (ep : Option Endpoint) (msg : Bytes) (h : s.media.syncAsk = 2) :
    s.syncBegin ep msg = (s.preparing ep msg).syncStep := by
  simp [State.syncBegin, h, State.preparing]

/-- Device 0 of the NOR takes the image first. -/
theorem programImage_first {s : State} {k : Nat} {v : Bytes} (h : s.boot.update = some (k, v)) :
    (mget (s.programImage 0).boot.slots k {}).copies = [v, []] ∧ (s.programImage 0).boot.update = some (k, v) := by
  simp [State.programImage, h]

/-- Device 1 takes it last, and the slot is VALID. -/
theorem programImage_last {s : State} {k : Nat} {v : Bytes} (h : s.boot.update = some (k, v)) :
    (mget (s.programImage 1).boot.slots k {}).copies = [(mget s.boot.slots k {}).copies.getD 0 [], v] ∧
      (mget (s.programImage 1).boot.slots k {}).st = 2 ∧ (s.programImage 1).boot.update = none := by
  simp [State.programImage, h]

/-- Settles O60: stage by stage of a waiting response, and the two devices of an image. -/
theorem waitingResponsesLeave : Obligations.waitingResponsesLeave := by
  unfold Obligations.waitingResponsesLeave
  intro s w
  refine ⟨fun e he hs => ?_, fun h => ?_, fun hk h1 => ⟨syncOne_durable hk h1, fun m hm hd => ?_⟩, fun hk h1 hm => ?_, syncGo_quiesces,
    fun h0 => ⟨fun hd => ?_, fun hd => ?_⟩, rfl, fun msg hq => ⟨s.preparing w.ep msg, rfl, rfl, rfl, syncBegin_prepares w.ep msg hq⟩,
    fun k v hu => ⟨(programImage_first hu).1, (programImage_first hu).2, _, programImage_last hu⟩⟩
  · rw [syncEnd_some he, if_pos hs]
  · rcases h with he | ⟨e, he, hs⟩
    · exact syncEnd_none he
    · rw [syncEnd_some he, hs]; rfl
  · exact syncGo_waits h1 fun h => Nat.not_lt.2 hd (h m hm)
  · rw [syncGo_durable h1 hm, if_pos hk]
  · rw [syncGo_writesBack h0, hd]; rfl
  · rw [syncGo_writesBack h0, if_neg (by simpa using hd)]

end Sys2Proof.Machine
end

section
/-! SUPPORT. What a write of a partition's, the traffic manager's or a link's object does (R146, R279, R337, R351-R353, R361-R369, R376,
R517). -/

namespace Sys2Proof.Machine

section
variable {s : State} {ix sub p off : Nat} {r : ObjRow} {v : Bytes} {o : ReadOutcome}

/-! ### Partitions -/

/-- A write at offset `off` of partition `p`. -/
theorem writeObj_part (hp : p < 64) (hoff : off < 64) (h : ix = pIx p off) :
    s.writeObj ix sub r v o = s.partWrite p off sub r v := by
  have hix : ix = 0x2000 + 0x40 * p + off := h
  have hp' : (ix - 0x2000) / 0x40 = p := by omega
  have hoff' : ix % 0x40 = off := by omega
  unfold State.writeObj
  rw [if_neg (by omega), if_pos (by omega), hp', hoff']

theorem refuseIf_not {b : Bool} {c : Nat} {k : Wrote} (h : b = false) : refuseIf b c k = k := by subst h; rfl

theorem partWrite_ports : s.partWrite p 1 5 r v = refuseIf (leNat v > 3) 0x0203 (s.setupWrite (pIx p 1) 5 (leNat v)) := rfl

theorem partWrite_protection (h : sub ≠ 5) : s.partWrite p 1 sub r v = s.setupWrite (pIx p 1) sub (leNat v) := by
  unfold State.partWrite
  dsimp only
  split
  case h_2 => exact absurd rfl h
  case h_3 => rfl
  case h_13 => exact absurd rfl ‹1 = 1 → False›
  all_goals exact absurd ‹1 = _› (by decide)

theorem setupWrite_ok {n : Nat} (hb : s.setupBad (s.part.setup.put ix sub n) = none) :
    s.setupWrite ix sub n = .ok (s.setSetup (s.part.setup.put ix sub n)) := by
  simp only [State.setupWrite, hb]

/-- A write of the protection setup that the setup takes. -/
theorem partWrite_setup (h5 : sub = 5 → leNat v ≤ 3) (hb : s.setupBad (s.part.setup.put (pIx p 1) sub (leNat v)) = none) :
    s.partWrite p 1 sub r v = .ok (s.setSetup (s.part.setup.put (pIx p 1) sub (leNat v))) := by
  have hw : s.partWrite p 1 sub r v = s.setupWrite (pIx p 1) sub (leNat v) := by
    by_cases h : sub = 5
    · subst h; rw [partWrite_ports, refuseIf_not (by simpa using h5)]
    · exact partWrite_protection h
  rw [hw]
  exact setupWrite_ok hb

/-- The queues of job group `n` of partition `p` are held no longer. -/
def State.unhold (s : State) (p n : Nat) : State :=
  (List.range 64).foldl (fun s q =>
    if s.jobGroup (64 * p + q) = n ∧ (s.queue (64 * p + q)).held then
      s.setQueue (64 * p + q) { s.queue (64 * p + q) with held := false }
    else s) s

theorem unhold_keeps (s : State) (p n : Nat) : Keeps [.q] s (s.unhold p n) :=
  Keeps.foldl (fun _ _ hw => Keeps.ite (Keeps.step (State.setQueue_keeps ..) (by decide) hw) hw) Keeps.refl

/-- JOB_RESUME of a group that is held. -/
theorem partWrite_jobResume (h2 : (s.partOf p).st ≠ 2) (hh : (s.partOf p).held.contains (leNat v) = true) :
    s.partWrite p 2 4 r v =
      .ok (((s.setPart p { s.partOf p with held := (s.partOf p).held.filter (· != leNat v) }).unhold p (leNat v)).event 0x0013
        { part := some p, params := [leNat v] }) :=
  if_neg (by rw [hh]; simpa using h2)

theorem partWrite_plan {k : Nat} (hk : k < 8) : s.partWrite p (0x10 + k) 1 r v =
    refuseIf (!v.isEmpty && v.length ≥ 64 && planReserved v) 0x0203
      (refuseIf (!s.planOk p v) 0x0202 (.ok (s.put (pIx p (0x10 + k)) 1 r v))) := by
  match k, hk with
  | 0, _ | 1, _ | 2, _ | 3, _ | 4, _ | 5, _ | 6, _ | 7, _ => rfl

theorem put_prot (u : Setup) (hp : ix = pIx p 1) (n : Nat) :
    (u.put ix 6 n).prot p = { u.prot p with quota := n } ∧ (u.put ix 1 n).prot p = { u.prot p with enabled := n == 1 } := by
  have hix : ix = 0x2000 + 0x40 * p + 1 := hp
  have hp' : (ix - 0x2000) / 0x40 = p := by omega
  unfold Setup.put Setup.prot
  rw [if_pos (by omega), if_pos (by omega), hp']
  exact ⟨mget_mset .., mget_mset ..⟩

/-! ### The traffic manager and links -/

theorem writeObj_tm (h3 : 0x3000 ≤ ix) (h4 : ix < 0x4000) : s.writeObj ix sub r v o = s.tmWrite ix sub r v := by
  unfold State.writeObj; rw [if_neg (by omega), if_neg (by omega), if_pos h4]

theorem tmWrite_leaf {c x : Nat} (hc : c < 8) (hp : p < 64) : s.tmWrite (0x3800 + 8 * p + c) (x + 1) r v = s.leafWrite x p c v := by
  unfold State.tmWrite
  rw [if_neg (by omega), if_neg (by omega), if_neg (by omega), if_neg (by omega), if_neg (by omega), if_pos (by omega)]
  congr 1 <;> omega

theorem tmWrite_moduleLeaf {c x : Nat} (hc : c < 8) : s.tmWrite (0x3080 + c) (x + 1) r v = s.leafWrite x 64 c v := by
  unfold State.tmWrite
  rw [if_neg (by omega), if_neg (by omega), if_neg (by omega), if_pos (by omega)]
  congr 1; omega

theorem tmWrite_node {c x : Nat} (hc : c < 8) (hx : x < 178) : s.tmWrite (0x3200 + 8 * x + c) 1 r v = s.nodeWrite x c v := by
  unfold State.tmWrite
  rw [if_neg (by omega), if_neg (by omega), if_neg (by omega), if_neg (by omega), if_pos (by omega)]
  congr 1 <;> omega

theorem tmWrite_meter {c : Nat} (hc : c < 8) (hp : p < 64) : s.tmWrite (0x3E00 + 8 * p + c) 1 r v = s.meterWrite p c v := by
  unfold State.tmWrite
  rw [if_neg (by omega), if_neg (by omega), if_neg (by omega), if_neg (by omega), if_neg (by omega), if_neg (by omega), if_pos (by omega)]
  congr 1 <;> omega

theorem writeObj_linkEnable {k : Nat} (hk : k < 128) : s.writeObj (0x4000 + 0x20 * k) 1 r v o = .ok (s.linkEnabled k (leNat v)) := by
  have hk' : (0x4000 + 0x20 * k - 0x4000) / 0x20 = k := by omega
  unfold State.writeObj
  rw [if_neg (by omega), if_neg (by omega), if_neg (by omega), if_pos (by omega), hk']
  rfl

end

/-- Settles O53, object by object. -/
theorem partitionWritesTakeEffect : Obligations.partitionWritesTakeEffect := by
  unfold Obligations.partitionWritesTakeEffect
  intro s r v o p hp n
  have part : ∀ (off : Nat) {ix sub : Nat}, off < 64 → ix = pIx p off → s.writeObj ix sub r v o = s.partWrite p off sub r v :=
    fun _ _ _ => writeObj_part hp
  have ix2 : ∀ off : Nat, 0x2000 + off + 0x40 * p = pIx p off := fun off => by rw [pIx]; omega
  refine ⟨fun hn => ?_, fun hn => ?_, fun sub h1 h7 h5 hb => ?_, ?_, fun h2 hh => ?_, fun sl => ?_, fun k hk hv hok => ?_,
    fun hsum hcap => ?_, fun hres => ?_, ?_, fun k => ?_, fun c x hc hx => ⟨?_, ?_, ?_, ?_⟩, fun k hk => writeObj_linkEnable hk⟩
  · rw [part 0 (by decide) (by rw [pIx]; omega)]; exact congrArg Except.ok (if_pos hn)
  · rw [part 0 (by decide) (by rw [pIx]; omega)]; exact congrArg Except.ok (if_neg hn)
  · rw [part 1 (by decide) (ix2 1)]
    exact (ix2 1) ▸ partWrite_setup h5 ((ix2 1) ▸ hb)
  · exact put_prot _ (ix2 1) n
  · rw [part 2 (by decide) (ix2 2), partWrite_jobResume h2 hh]
    have hkeeps := unhold_keeps (s.setPart p { s.partOf p with held := (s.partOf p).held.filter (· != n) }) p n
    have hevent : ∀ t : State, Keeps [.out, .ctr, .media, .q, .ev] t (t.event 0x0013 { part := some p, params := [n] }) :=
      fun t => State.event_keeps ..
    refine ⟨_, rfl, ?_, ((hevent _).of .pg (by decide)).trans (hkeeps.of .pg (by decide)),
      ((hevent _).of .mem (by decide)).trans (hkeeps.of .mem (by decide))⟩
    rw [State.partOf_congr (((hevent _).of .part (by decide)).trans (hkeeps.of .part (by decide)))]
    exact congrArg Part.held (mget_mset ..)
  · rw [part 4 (by decide) (ix2 4)]; rfl
  · rw [part (0x10 + k) (by omega) (by rw [pIx]; omega), partWrite_plan hk, refuseIf_not, refuseIf_not (by simp [hok])]
    · congr 2; rw [pIx]; omega
    · rcases hv with rfl | hv | hv
      · rfl
      · simp; omega
      · simp [hv]
  · rw [part 0x21 (by decide) (ix2 0x21), ix2 0x21]
    exact (refuseIf_not (by simpa using hsum)).trans (refuseIf_not (by simpa using hcap))
  · rw [part 0x21 (by decide) (ix2 0x21), ix2 0x21]
    exact refuseIf_not (by simpa using hres)
  · rw [writeObj_tm (by decide) (by decide)]; rfl
  · rw [writeObj_tm (by decide) (by decide)]; rfl
  · rw [writeObj_tm (by omega) (by omega), tmWrite_leaf hc hp]
  · rw [writeObj_tm (by omega) (by omega), tmWrite_moduleLeaf hc]
  · rw [writeObj_tm (by omega) (by omega), tmWrite_node hc hx]
  · rw [writeObj_tm (by omega) (by omega), tmWrite_meter hc hp]

end Sys2Proof.Machine
end

section
/-! SUPPORT. What a write of a module-level object does (R65, R82, R107, R188, R223, R363, R410, R420, R428, R433, R438, R439, R442, R456,
R458, R471, R511, R514). -/

namespace Sys2Proof.Machine

section
variable {s : State} {ix sub : Nat} {r : ObjRow} {v : Bytes} {o : ReadOutcome}

theorem writeObj_module (h : ix < 0x2000) : s.writeObj ix sub r v o = s.moduleWrite ix sub r v := if_pos h

theorem refuseIf_true {b : Bool} {c : Nat} {k : Wrote} (h : b = true) : refuseIf b c k = .error c := by subst h; rfl

/-- A profile's, a shared domain's or an index geometry's object. -/
theorem moduleWrite_ranged (h : (0x1300 ≤ ix ∧ ix < 0x1320) ∨ (0x1500 ≤ ix ∧ ix < 0x1620)) :
    s.moduleWrite ix sub r v =
      if 0x1300 ≤ ix ∧ ix < 0x1320 ∧ sub = 15 then
        refuseIf (v.length != 0 && v.length != (s.geo (ix - 0x1300)).upprojBytes) 0x0201 (.ok (s.put ix sub r v))
      else if 0x1500 ≤ ix ∧ ix < 0x1600 then s.setupWrite ix sub (leNat v)
      else if 0x1600 ≤ ix ∧ ix < 0x1620 then
        refuseIf (sub == 3 && v.length != 0 && v.length != s.projBytes (ix - 0x1600)) 0x0201
          (.ok (if (if sub = 3 then s.blobOf ix 3 else leBytes r.ty.size (s.obj ix sub r.d)) = v then s.put ix sub r v
            else ((s.put ix sub r v).freePips fun y => y.profile == ix - 0x1600).dropJobs fun j => j.key.profile == ix - 0x1600))
      else .ok (s.put ix sub r v) := by
  unfold State.moduleWrite
  dsimp only
  split
  case h_24 => rfl
  all_goals exfalso; omega

theorem writeObj_snapshot : s.writeObj 0x7110 1 r v o =
    .ok (if leNat v = 1 ∧ s.boot.stone = false then s.snapshot 3 0xFFFF (fun _ => true) (fun _ => false) else s) := by
  simp only [← Bool.not_eq_true']; rfl

/-- The number names a domain that exists. -/
theorem not_domain_eq_false {n : Nat} (h : n < 256 ∨ (0x8000 ≤ n ∧ n < 0x8040)) :
    (!(decide (n < 256) || (decide (0x8000 ≤ n) && decide (n < 0x8040)))) = false := by
  simpa only [Bool.not_eq_false', Bool.or_eq_true, Bool.and_eq_true, decide_eq_true_eq] using h

theorem moduleWrite_mediaSync : s.moduleWrite 0x1200 11 r v =
    if s.media.state ≠ 2 then .error 0x0402 else .ok { s with media := { s.media with syncAsk := leNat v } } := by
  simp only [ne_eq, ← bne_iff_ne]; rfl

theorem moduleWrite_shutdownPrepare : s.moduleWrite 0x1200 12 r v =
    if s.media.state ≠ 2 then .error 0x0402 else .ok { s with media := { s.media with syncAsk := 2 * leNat v } } := by
  simp only [ne_eq, ← bne_iff_ne]; rfl

theorem moduleWrite_failClear : s.moduleWrite 0x0810 2 r v =
    .ok { s with boot := { s.boot with fails := if leNat v = 1 then 0 else s.boot.fails } } := by
  by_cases h : leNat v = 1
  · rw [if_pos h]; exact congrArg Except.ok (if_pos h)
  · rw [if_neg h]; exact congrArg Except.ok (if_neg h)

theorem moduleWrite_upproj {k : Nat} (hk : k < 32) (hl : v.length = 0 ∨ v.length = (s.geo k).upprojBytes) :
    s.moduleWrite (0x1300 + k) 15 r v = .ok (s.put (0x1300 + k) 15 r v) := by
  rw [moduleWrite_ranged (by omega), if_pos (by omega), refuseIf_not]
  rw [Nat.add_sub_cancel_left]
  rcases hl with hl | hl <;> simp [hl]

theorem moduleWrite_shareDomain {d : Nat} (hd : d < 256) (hb : s.setupBad (s.part.setup.put (0x1500 + d) sub (leNat v)) = none) :
    s.moduleWrite (0x1500 + d) sub r v = .ok (s.setSetup (s.part.setup.put (0x1500 + d) sub (leNat v))) := by
  rw [moduleWrite_ranged (by omega), if_neg (by omega), if_pos (by omega), setupWrite_ok hb]

theorem moduleWrite_proj {k : Nat} (hk : k < 32) (hl : v.length = 0 ∨ v.length = s.projBytes k) (hv : s.blobOf (0x1600 + k) 3 ≠ v) :
    s.moduleWrite (0x1600 + k) 3 r v =
      .ok (((s.put (0x1600 + k) 3 r v).freePips fun y => y.profile == k).dropJobs fun j => j.key.profile == k) := by
  rw [moduleWrite_ranged (by omega), if_neg (by omega), if_neg (by omega), if_pos (by omega), if_pos rfl, if_neg hv,
    Nat.add_sub_cancel_left, refuseIf_not]
  rcases hl with hl | hl <;> simp [hl]

theorem moduleWrite_geometry {k : Nat} (hk : k < 32) (hs : sub = 1 ∨ sub = 2)
    (hv : leBytes r.ty.size (s.obj (0x1600 + k) sub r.d) ≠ v) :
    s.moduleWrite (0x1600 + k) sub r v =
      .ok (((s.put (0x1600 + k) sub r v).freePips fun y => y.profile == k).dropJobs fun j => j.key.profile == k) := by
  have h3 : sub ≠ 3 := by omega
  rw [moduleWrite_ranged (by omega), if_neg (by omega), if_neg (by omega), if_pos (by omega), if_neg h3, if_neg hv,
    Nat.add_sub_cancel_left, refuseIf_not]
  simp [h3]

/-! ### Firmware, the defect map and forensic reads (R433, R438, R439, R442) -/

/-- An image that may be taken: no update runs, there is room for it, and its reserved bytes are 0. -/
structure State.TakesImage (s : State) (v : Bytes) : Prop where
  idle : s.boot.update = none
  room : s.boot.stone = true → s.stacks ≠ []
  reserved : allZero (slice v 20 44) = true

theorem firmwareWrite_refused (h : s.TakesImage v) (hb : intact 25165824 v = false ∨ fld v 16 4 < s.boot.minEpoch) :
    s.firmwareWrite v = .error 0x0202 := by
  unfold State.firmwareWrite
  rw [if_neg (by rw [h.idle]; nofun), if_neg (fun e => h.room e.1 (List.isEmpty_iff.1 e.2)), if_neg (by rw [h.reserved]; nofun),
    if_pos (hb.imp_left fun e => by rw [e]; rfl)]

/-- A good image begins to go to the NOR, and its slot is INVALID until it is there. -/
theorem firmwareWrite_ok (h : s.TakesImage v) (hi : intact 25165824 v = true) (he : s.boot.minEpoch ≤ fld v 16 4) :
    ∃ t, s.firmwareWrite v = .ok t ∧ t.boot.update = some (s.updateSlot, v) ∧ (mget t.boot.slots s.updateSlot {}).st = 1 ∧
      t.media.syncAsk = 5 := by
  unfold State.firmwareWrite
  rw [if_neg (by rw [h.idle]; nofun), if_neg (fun e => h.room e.1 (List.isEmpty_iff.1 e.2)), if_neg (by rw [h.reserved]; nofun),
    if_neg (by rw [hi]; exact not_or.2 ⟨nofun, Nat.not_lt.2 he⟩)]
  exact ⟨_, rfl, rfl, congrArg Slot.st (mget_mset ..), rfl⟩

theorem activateWrite_ok {n : Nat} (hn : n ≤ 1) (hs : (mget s.boot.slots n {}).st = 2) :
    ∃ t, s.activateWrite n = .ok t ∧ (mget t.boot.slots n {}).st = 3 ∧ t.boot.trials = 0 := by
  unfold State.activateWrite
  dsimp only
  rw [if_neg (by omega)]
  exact ⟨_, rfl, congrArg Slot.st (mget_mset ..), rfl⟩

theorem defectWrite_ok (ho : fld v 1 1 < 8) (hu : unitOk (fld v 0 1) (fld v 2 1) (fld v 4 4) = true) (h1 : 1 ≤ fld v 3 1)
    (h7 : fld v 3 1 ≤ 7) : s.defectWrite v = .ok (s.fault (fld v 0 1) (fld v 2 1) (fld v 4 4) 4 (fld v 3 1) [] []) := by
  unfold State.defectWrite
  dsimp only
  rw [if_neg (by omega), if_neg (by rw [hu]; exact not_or.2 ⟨nofun, by omega⟩)]

/-- The module once a good factory token removed the entries it names; their units stay fenced until the next start. -/
def State.tokened (s : State) (v : Bytes) : State :=
  { s with boot := { s.boot with
    defects := s.boot.defects.filter fun d => !Config.tokenNames v d.bytes
    heldFences := s.boot.heldFences ++ s.boot.defects.filter fun d => Config.tokenNames v d.bytes
    generation := (s.boot.generation + 1) % 2 ^ 32
    mapSeq := s.boot.mapSeq + 1 } }

theorem tokenWrite_eq : s.tokenWrite v = if Config.tokenGood v s.boot.generation = true then .ok (s.tokened v) else .error 0x0202 := by
  unfold State.tokenWrite
  cases Config.tokenGood v s.boot.generation <;> rfl

theorem mem_fences_tokened {d : Defect} (h : d ∈ s.fences) : d ∈ (s.tokened v).fences := by
  simp only [State.fences, State.tokened, List.mem_append, List.mem_filter, Bool.not_eq_true'] at h ⊢
  rcases h with hd | hd
  · cases hnamed : Config.tokenNames v d.bytes with
    | false => exact .inl ⟨hd, rfl⟩
    | true => exact .inr (.inr ⟨hd, rfl⟩)
  · exact .inr (.inl hd)

/-- A forensic read of a page that stone mode reaches leaves the media alone. -/
theorem forensic_ok (hst : s.boot.stone = true) (hd : s.forensicDie (fld v 0 2) = true) (hb : fld v 2 2 ≤ 3640) (hp : fld v 4 1 ≤ 3)
    (hf : fld v 7 1 < 8) (h3 : fld v 7 1 % 4 ≠ 3) (hz : allZero (slice v 8 8) = true) :
    ∃ t, s.forensic v o = .ok t ∧ t.media = s.media := by
  unfold State.forensic
  dsimp only
  rw [if_neg (by rw [hz]; exact not_or.2 ⟨by omega, nofun⟩), if_neg (by omega), if_neg (by rw [hst, hd]; nofun)]
  exact ⟨_, rfl, rfl⟩

end

/-- Settles O52, object by object. -/
theorem moduleWritesTakeEffect : Obligations.moduleWritesTakeEffect := by
  unfold Obligations.moduleWritesTakeEffect
  intro s r v o n
  have hmodule : ∀ {ix sub : Nat}, ix < 0x2000 → s.writeObj ix sub r v o = s.moduleWrite ix sub r v := writeObj_module
  refine ⟨?_, ?_, fun hn => ?_, fun d sub hd h1 h3 hb => ?_, fun k hk hl => ?_, fun k hk hl hv => ?_, fun k sub hk hs hv => ?_,
    rfl, rfl, rfl, fun hu => ?_, ?_, fun hu hst hz => ⟨fun hb => ?_, fun hi he => ?_⟩, fun hu => ⟨?_, ?_, ?_, ?_⟩, fun hu hn hs => ?_,
    ?_, fun ho hunit h1 h7 => ?_, fun hu => ?_, fun hst hd hb hp hf h3 hz => ?_, rfl, ⟨_, rfl, rfl, rfl, rfl⟩, fun h32 hl hok => ?_, rfl,
    fun hn => ⟨?_, ?_⟩⟩
  · rw [hmodule (by decide), moduleWrite_mediaSync]
  · rw [hmodule (by decide), moduleWrite_shutdownPrepare]
  · rw [hmodule (by decide)]
    exact refuseIf_not (not_domain_eq_false hn)
  · rw [hmodule (by omega), moduleWrite_shareDomain hd hb]
  · rw [hmodule (by omega), moduleWrite_upproj hk hl]
  · rw [hmodule (by omega), moduleWrite_proj hk hl hv]
  · rw [hmodule (by omega), moduleWrite_geometry hk hs hv]
  · rw [hmodule (by decide)]
    exact refuseIf_not (by rw [hu]; rfl)
  · rw [hmodule (by decide), moduleWrite_failClear]
  · rw [hmodule (by decide)]
    exact firmwareWrite_refused ⟨hu, hst, hz⟩ hb
  · rw [hmodule (by decide)]
    exact firmwareWrite_ok ⟨hu, hst, hz⟩ hi he
  · rw [hmodule (by decide)]
    exact if_pos (Option.isSome_iff_ne_none.2 hu)
  · rw [hmodule (by decide)]
    exact refuseIf_true (Option.isSome_iff_ne_none.2 hu)
  · rw [hmodule (by decide)]
    exact refuseIf_true (Option.isSome_iff_ne_none.2 hu)
  · exact refuseIf_true (Option.isSome_iff_ne_none.2 hu)
  · obtain ⟨t, ht, hst, htr⟩ := activateWrite_ok hn hs
    refine ⟨t, ?_, hst, htr⟩
    rw [hmodule (by decide), ← ht]
    exact refuseIf_not (by rw [hu]; rfl)
  · exact writeObj_snapshot
  · exact defectWrite_ok ho hunit h1 h7
  · refine ⟨s.tokened v, ?_, rfl, fun d hd => mem_fences_tokened hd, rfl⟩
    rw [← tokenWrite_eq]
    exact refuseIf_not (by rw [hu]; rfl)
  · exact forensic_ok hst hd hb hp hf h3 hz
  · rw [hmodule (by decide)]
    exact (refuseIf_not (by simp [h32, hl])).trans (refuseIf_not (by rw [hok]; rfl))
  · rw [hmodule (by decide)]
    exact refuseIf_not (bne_eq_false_iff_eq.2 hn)
  · rw [hmodule (by decide)]
    exact refuseIf_not (bne_eq_false_iff_eq.2 hn)

end Sys2Proof.Machine
end
